-- ==== Sys2Proof/Word.lean ====
section
/-!
DEFINITION. The word types of the model: 32-bit register words, bytes, 64-byte lines, and the sparse maps that hold
memories and tables.
-/
namespace Sys2Proof

/-- A 32-bit register word (R5). -/
abbrev Word := BitVec 32

/-- A byte. -/
abbrev Byte := BitVec 8

/-- A 16-bit context ID: the Dome in [15:4], the address space in [3:0] (R2). -/
abbrev Ctx := BitVec 16

/-- A sparse table: (key, entry) pairs with strictly rising keys. -/
abbrev SMap (α : Type) := List (Nat × α)

/-- A 64-byte line as the home carries it: byte `k` in data bits `[8k+7:8k]`, one poison bit per 32-bit word
(R79, R89). -/
structure Line where
  data : BitVec 512
  poison : BitVec 16
  deriving DecidableEq, Repr, Inhabited

/-- A line of zeros without poison (R99). -/
def Line.zero : Line := ⟨0, 0⟩

/-- The line that answers a refused read: all data zero, all 16 words poisoned (R16). -/
def Line.poisoned : Line := ⟨0, 0xFFFF⟩

/-- A line as DRAM stores it: 16 beats of 40 bits, beat `j` in bits `[40j+39:40j]` (R79). -/
abbrev Stored := BitVec 640

end Sys2Proof
end

