-- ==== Sys2Proof/Machine/Types.lean ====
section
/-!
DEFINITION. The plain data that the state of the block is made of: transactions of the home, DRAM queue entries,
commands, packets, flits, fault records and outputs. Each type names the rule of the manual it follows.
-/
namespace Sys2Proof.Machine

/-! ## CXL.mem messages and the home (R127, R128, R133) -/

/-- The MetaValue of a CXL.mem message; `noOp` is MetaField No-Op (R127). -/
inductive Meta | i | s | a | noOp
  deriving DecidableEq, Repr

/-- The kinds an access counts as for the heat of its cell (R116). -/
inductive HeatKind | hostRd | hostWr | remote | engine | none
  deriving DecidableEq, Repr

/-- Who writes: a host or a Rythar request may add to a window (R236). -/
inductive WrKind | host | remote | engine | other
  deriving DecidableEq, Repr

/-- Why the home refuses an access. -/
inductive Refuse | unbacked | denied | corrupt | retired | maint | failed
  deriving DecidableEq, Repr

/-- What a read comes to. -/
inductive RdRes | ok (l : Line) | no (r : Refuse)
  deriving DecidableEq, Repr

/-- The kind of request the home serves (R127). -/
inductive HKind
  | rdS | rdE | rdAny | rdCur | invE | drop
  | agentWr (m : Meta)
  | plainWr
  | hint              -- MemSpecRd (R140)
  deriving DecidableEq, Repr

/-- The back-invalidate snoops the home sends (R128). -/
inductive SnpKind | data | inv | cur
  deriving DecidableEq, Repr

/-- S2M messages (R128). -/
inductive S2MOp | cmp | cmpS | cmpE | biConflictAck | memData (m : Meta) | biSnp (k : SnpKind)
  deriving DecidableEq, Repr

/-- A requester on a CXL link: port, link, source kind (LD-ID when true) and source ID (R37), with the tag of its
message. `live` ends when the link goes down: the answer is then discarded (R255). -/
structure CxlSrc where
  port : Nat
  link : Nat
  ldKind : Bool
  src : Nat
  tag : Nat
  live : Bool
  deriving DecidableEq, Repr

/-- Who made an access (R57, R145). -/
inductive Origin
  | cxl (c : CxlSrc)
  | mover (n : Nat) (cmd : Nat)
  | spire (n : Nat) (cmd : Nat)
  | queue (q : Nat)               -- a packet fetch of queue control
  | comp (q : Nat) (cmd : Nat)    -- the completion of a command of a queue (R165)
  | core (k : Nat)
  | fw (cmd : Nat)                -- firmware as it works on a control command
  | rythar (port : Nat) (src : Nat) (msg : Nat)
  | migration (slot : Nat)
  | sweep (engine : Nat)
  | teardown (dome : Nat)         -- the device as it ends a Dome's handles (R318)
  | gone (beat : Bool)            -- its command has ended; the access completes normally for nobody (R186, R317); whether it
                                  -- is a beat of a mover or a Spire
  | device
  | desc                          -- queue control writes a descriptor into the table (R147)
  | victim                        -- a dirty line the cache gave up, kept by the home until its channel takes it (R54, R110)
  deriving DecidableEq, Repr

/-- A rekey sweep's access (R312). -/
def Origin.isSweep : Origin → Bool
  | .sweep _ => true
  | _ => false

/-- How far an access has come at the home. -/
inductive TxStage
  | waiting          -- in the tracker, waits for the line lock (R12)
  | snoop            -- holds the lock, waits for BIRsp messages (R133)
  | evict            -- holds the lock, waits for a snoop-filter victim (R139)
  | dram             -- holds the lock, its read is in the channel's read queue
  | kept             -- holds the lock, kept by the home until a channel queue has room (R54)
  | engine           -- holds the lock for an update: what it has read waits for the engine's new data (R12)
  | mirrorWait       -- holds the lock; a mirrored write's second copy is not sent yet (R123)
  | mirror           -- holds the lock until a mirrored write's second copy is written (R123)
  deriving DecidableEq, Repr

/-- One access at the home. `gen` is COMB_GEN when an engine issued it (R186). -/
structure Tx where
  id : Nat
  kind : HKind
  origin : Origin
  ctx : Ctx
  line : Nat
  wdata : Line
  be : BitVec 64
  wpoison : Bool
  arrive : Nat
  cls : Nat
  demoted : Bool
  express : Bool
  gen : Nat
  agent : Option Nat
  known : Bool        -- state may be granted as far as is known at the lock (R129)
  wants : Bool        -- the message asked for cache state
  wk : WrKind
  heat : HeatKind
  fill : Option Nat   -- the Dome the access fills the cache for (R108)
  maint : Bool        -- of a maintenance engine or the device itself: no owner-tag check (R41)
  upd : Bool          -- an update: the line is read under the lock and held for the new data
  urgent : Bool       -- its urgency was 7 on entry (R137)
  win : Option (Nat × Bool)  -- format and sr of the window it adds to, as they stood when the home accepted it (R235)
  got : Option RdRes  -- what an update has read, or the data a read has yet to fill
  stage : TxStage
  deriving DecidableEq, Repr

/-- An access an engine has made, complete and not yet taken up: who made it, its line, whether it wrote and which bytes,
and what it came to. For an update the line is the one it read. -/
structure EngAns where
  origin : Origin
  line : Nat
  wr : Bool
  be : BitVec 64
  res : RdRes
  deriving DecidableEq, Repr

/-- A snoop awaiting its answer (R137, R141). `tx` is the access that issued it, `none` for a teardown recall. -/
structure Snoop where
  tx : Option Nat
  agent : Nat
  line : Nat
  kind : SnpKind
  sent : Nat
  dome : Nat
  evict : Bool
  deriving DecidableEq, Repr

/-- A snoop of an eviction, and a recall of a teardown, hold the line's lock themselves (R139, R316). -/
def Snoop.locks (n : Snoop) : Bool := n.evict || n.tx.isNone

/-- A request held by a policer, kept while a link or the device holds admission, or waiting for a tracker entry
(R301, R330, R137). -/
structure HeldReq where
  tx : Tx
  policed : Bool
  seq : Nat
  deriving DecidableEq, Repr

/-- An agent slot's sweep under AGENT_DOWN or R143. `report` holds the command that asked for it. -/
structure DownSweep where
  slot : Nat
  cmd : Option Nat
  deriving DecidableEq, Repr

/-! ## DRAM (R53 - R78) -/

/-- A share group: its anchor and its members, the anchor among them (R42). -/
structure Group where
  anchor : Nat
  members : List Nat
  deriving DecidableEq, Repr

/-- What R55, R69 and R78 time: commands, `apre` the precharge that a column command carries, `prea` one of every bank,
`srx` the exit from self-refresh. -/
inductive DKind | act | rd | wr | pre | apre | prea | refsb | rfm | zq | osc | refab | srx
  deriving DecidableEq, Repr

/-- An issued DRAM command: rank, bank group, bank, row, column and its root tick. -/
structure DCmd where
  kind : DKind
  rank : Nat
  bg : Nat
  bank : Nat
  row : Nat
  at_ : Nat
  deriving DecidableEq, Repr

/-- How urgent an access is (R56): its source class, demoted or not (R302), and when its age began, now where absent. A line
it displaces from the cache takes all of it (R110). -/
structure Pri where
  cls : Nat
  demoted : Bool
  entry : Option Nat
  deriving DecidableEq, Repr

/-- The priority of a source class from now on. -/
def Pri.of (cls : Nat) : Pri := ⟨cls, false, none⟩

/-- A read-queue entry (R54). `tx` is the access it serves; `none` for the read of a hint (R140). -/
structure RdEnt where
  tx : Option Nat
  loc : Nat
  line : Nat
  cls : Nat
  target0 : Bool      -- demoted: target and floor 0 (R302)
  ctx : Ctx
  entry : Nat
  deriving DecidableEq, Repr

/-- A write-queue entry (R54): the plaintext line with its poison, and the 16 beats it will store. -/
structure WrEnt where
  loc : Nat
  line : Nat
  data : Line
  stored : Stored
  cls : Nat
  target0 : Bool      -- demoted: target and floor 0 (R302)
  ctx : Ctx
  maint : Bool
  entry : Nat
  deriving DecidableEq, Repr

/-- A read whose column command has issued, or that a spare serves, and whose data is not yet delivered. -/
structure Flight where
  ent : RdEnt
  beats : Stored
  due : Nat
  spare : Bool        -- read from a spare line, without a DRAM command (R88)
  deriving DecidableEq, Repr

/-- A neighbour set in progress (R66): the rows still to open, and whether the current row is open. -/
structure NbrSet where
  rank : Nat
  bg : Nat
  bank : Nat
  rows : List Nat
  isOpen : Bool
  deriving DecidableEq, Repr

/-- A command of the retry buffer that is not known to have completed (R71): a write, or a refresh, RFM, calibration or
neighbour command. The reads are those in flight. -/
inductive RetryEnt
  | wr (w : WrEnt) (at_ : Nat)
  | cmd (c : DCmd)
  deriving DecidableEq, Repr

/-- One 40-bit subchannel with its queues and bank state (R54 - R71). -/
structure Subch where
  rq : List RdEnt
  wq : List WrEnt
  drain : Bool
  rows : SMap Nat            -- bank key -> open row
  lastCol : SMap Nat         -- bank key -> root tick of the row's last column command
  marks : SMap Nat           -- bank key -> row marked for a neighbour set
  nbr : Option NbrSet
  raa : SMap Nat             -- bank key -> rolling activate count (R68)
  hist : List DCmd
  flight : List Flight
  retry : List RetryEnt
  retries : Nat
  alert : Bool
  refIdx : SMap Nat          -- rank -> next bank index 0-3 (R62)
  refDue : SMap Nat          -- rank -> REFsb due and not issued (R63)
  refAt : SMap Nat           -- rank -> root tick at which its last REFsb became due, or its refresh began (R62)
  putOff : SMap Nat          -- rank -> due REFsb counted as postponed (R63)
  started : Option (Nat × Nat)   -- refresh step started: rank, bank index
  rfmOn : Option Nat             -- RFM started: bank key
  zqAt : SMap Nat                -- package rank -> root tick of the last ZQ calibration (R69)
  oscAt : SMap Nat               -- package rank -> root tick of the last oscillator read (R69)
  deriving DecidableEq, Repr

/-- A CE log entry (R84). -/
structure CelEnt where
  loc : Nat
  word : Nat
  syn : Nat
  count : Nat
  stamp : Nat
  deriving DecidableEq, Repr

/-- A remap entry with its spare line (R86, R87). -/
structure RemapEnt where
  loc : Nat
  auto : Bool
  spare : Stored
  deriving DecidableEq, Repr

/-- A copying install in progress (R87). -/
structure Install where
  entry : Nat
  loc : Nat
  auto : Bool
  deriving DecidableEq, Repr

/-- A training run: full (R75) or of maintenance, which waits for empty queues and leave (R77). -/
inductive Train | full | maint
  deriving DecidableEq, Repr

/-- One DRAM channel (R50 - R98). `array` holds the stored lines by channel-local line number; `epoch` counts the
trainings that left the arrays undefined; `metaInit` says that R103 has written this channel's metadata lines. -/
structure Channel where
  array : SMap Stored
  epoch : Nat
  metaInit : Bool
  sub0 : Subch
  sub1 : Subch
  qos : SMap (Nat × Nat)     -- class -> (target, floor) where it differs from R57
  mods : List (Option Nat)   -- the modules found, with the last temperature read in degrees (R64)
  hot : Bool                 -- above 85 degrees and not yet all at 82 or below (R64)
  rfmInit : Nat
  rfmMax : Nat
  stackLog2 : Nat            -- log2 of the stack height of the modules found
  cel : SMap CelEnt
  remap : SMap RemapEnt
  install : Option Install
  train : Option Train
  trained : Bool
  failed : Bool
  failTimes : List Nat
  selfRefresh : Bool
  members : SMap Group       -- the copy of the membership table (R43)
  frgPos : Nat
  frgLast : Nat
  frgLapTicks : Nat
  frgSince : Nat
  frgLease : Bool
  frgLeaseWait : Bool
  deriving DecidableEq, Repr

/-! ## Honey cache, heat, migration (R105 - R126) -/

/-- A cached line (R107, R108). -/
structure HLine where
  tag : Nat
  data : Line
  dirty : Bool
  pinned : Bool
  dome : Nat
  wctx : Ctx          -- the context of its latest write, which a failure of its write-back is charged to (R73)
  deriving DecidableEq, Repr

/-- A half of the honey cache (R346 and the power sequence of chapter 5). -/
inductive Half | off | rising | on | flushWait | flushing
  deriving DecidableEq, Repr

/-- A heat-buffer entry (R117). -/
structure HeatEnt where
  inc : Nat
  at_ : Nat
  deriving DecidableEq, Repr

/-- What a migration slot does (R122); `lost` once its destination's node cannot be reached (R125). -/
inductive MigStage | copyWait | copied | recopyWait | mirror | lost
  deriving DecidableEq, Repr

/-- A migration slot (R122 - R124). -/
structure MigSlot where
  cell : Nat
  dstNode : Nat
  dstCell : Nat
  dome : Nat
  cmd : Nat
  stage : MigStage
  passes : Nat
  at_ : Nat             -- lines of the pass in progress whose copy has begun
  tracker : BitVec 1024
  mirrorAt : Nat
  deriving DecidableEq, Repr

/-- The hot-list extractor's run (R119). -/
structure HotJob where
  kind : Nat
  target : Nat
  n : Nat
  minHeat : Nat
  dst : Nat
  leave : Bool
  deriving DecidableEq, Repr

/-! ## Domes, queues and commands (R40, R146 - R171) -/

/-- The state of a Dome (R40). -/
inductive DomeSt | free | active | teardown
  deriving DecidableEq, Repr

/-- The state of a queue (R146). -/
inductive QState | active | halted | frozen
  deriving DecidableEq, Repr

/-- A queue descriptor in queue control's working copy (R146); a queue without one is FREE. -/
structure QDesc where
  ringBase : Nat
  cringBase : Nat
  countAddr : Nat
  dome : Nat
  ringLog2 : Nat
  cringLog2 : Nat
  mode : Nat
  irqEn : Bool
  vector : Nat
  burst : Nat
  maxInflight : Nat
  head : Nat
  tail : Nat
  ctail : Nat
  chead : Nat
  state : QState
  phase : Bool
  deriving DecidableEq, Repr

/-- Where a command came from. -/
inductive CmdSrc | queue (q : Nat) | mailbox | cxlMailbox (port link : Nat) | mgmt
  deriving DecidableEq, Repr

/-- The engine that holds a command (R20, R368). -/
inductive Engine | none | fwBuffer | fwArea (core area : Nat) | mover (n : Nat) | spireQ (n : Nat)
  | spireSlot (n slot : Nat)
  deriving DecidableEq, Repr

/-- What a command waits for. -/
inductive CmdSt
  | fence                       -- fenced, waits for earlier commands (R166)
  | queued                      -- with its engine (or waiting for room in it), not started
  | leaveWait                   -- a heavy command that waits for power leave (R21)
  | running                     -- started
  | blocked                     -- started and waiting for a hardware operation
  | done                        -- status known, completion of R165 outstanding
  deriving DecidableEq, Repr

/-- A command in one of the 16,384 contexts or in the mailbox context (R154, R171). `pos` is the next unit of work,
`aux` a second progress number, `invals` the page ranges invalidated while it runs (R186). -/
structure Cmd where
  src : CmdSrc
  dome : Nat
  seq : Nat
  pkt : BitVec 512
  noTag : Bool
  eng : Engine
  st : CmdSt
  heavy : Bool
  leave : Bool
  pos : Nat
  aux : Nat
  poison : Bool
  status : Nat
  result : Nat
  start : Nat
  invals : List (Nat × Nat × Nat)
  ahead : Nat                           -- units of work whose operands lie in the streaming buffer (R196)
  wbuf : List (Nat × Nat × Nat)         -- results computed and not yet written: first byte in the slot, PVA, bytes (R196)
  adv : Nat × Nat                       -- units of work those results cover, and the steps beside them that `aux` counts
  beats : List (Nat × Bool × Nat)       -- accesses on their way: PVA line, write, DPA line (R186)
  eaten : List Nat                      -- lines whose poison the unit in progress has consumed (R90)
  part : List (List Nat)                -- what a unit of work has read or decided for the ones after it
  ending : Option (Nat × Nat)           -- status and result of a command that ends once its undefined ranges are written
  undef : List (Nat × Nat)              -- ranges it leaves undefined and not yet written: PVA and bytes (R187, R217)
  deriving DecidableEq, Repr

/-! ## Comb translation (R172 - R188) -/

/-- A cached leaf in an ATC or the STC (R177): CTX, first 64 KiB page, shift, DPA base and permissions. -/
structure Leaf where
  ctx : Ctx
  page : Nat
  shift : Nat
  dpa : Nat
  r : Bool
  w : Bool
  deriving DecidableEq, Repr

/-- A pending miss (R178). `outcome` is kept until its waiters have seen it. -/
structure Miss where
  ctx : Ctx
  page : Nat
  write : Bool
  prefetch : Bool
  engine : Nat
  gen : Nat
  posted : Nat
  taken : Bool
  stale : Bool
  waiters : List Nat
  order : Int
  deriving DecidableEq, Repr

/-- The running invalidation (R185, R186). -/
structure Inval where
  scope : Nat
  ctx : Ctx
  start : Nat
  pages : Nat
  gen : Nat
  cmd : Option Nat
  deriving DecidableEq, Repr

/-! ## Spires (R189 - R198) -/

/-- One Spire. `gen` is the rounding generator, `draws` the draws left of its current step; `scratch` holds the words of
its slots under the code of R80 (R194, R195). -/
structure Spire where
  opq : List Nat
  slots : SMap Nat
  scratch : SMap Stored   -- slot x 16,384 + line; a line not listed has its written bit 0 (R194, R195)
  gen : BitVec 64
  draws : Nat
  selfTest : Bool
  deriving DecidableEq, Repr

/-! ## Rythar (R256 - R292) -/

/-- A packet (R277): header fields and up to 4,096 data bytes with one poison bit per 16-byte block. -/
structure Pkt where
  dst : Nat
  src : Nat
  kind : Nat
  units : Nat
  ctx : Ctx
  msg : Nat
  offset : Nat
  length : Nat
  target : BitVec 32
  status : Nat
  be : BitVec 64
  poison : BitVec 256
  data : BitVec 32768
  deriving DecidableEq, Repr

/-- A flit (R258): its header fields and payload. `head` says whether the payload begins a packet, which the header has no
bit for: none where it is to be seen from the packet that is open on its virtual channel. -/
structure Flit where
  seq : Nat
  ackSeq : Nat
  ackValid : Bool
  nak : Bool
  vc : Nat
  units : Nat
  kind : Nat
  keyGen : Nat
  crReq : Nat
  crRsp : Nat
  crBulk : Nat
  crMgt : Nat
  op : Nat
  arg : Nat
  head : Option Bool
  payload : BitVec 2048
  deriving DecidableEq, Repr

/-- The message a packet belongs to: its requester, its number, and the context of what it serves (R277, R280). -/
structure MsgKey where
  node : Nat
  msg : Nat
  ctx : Ctx
  deriving DecidableEq, Repr

/-- An unacknowledged flit, whether it lies in the spill ring, and the message it belongs to (R264). -/
structure SentFlit where
  flit : Flit
  spilled : Bool
  msg : Option MsgKey
  deriving DecidableEq, Repr

/-- A packet that egress has handed to a port: its virtual channel, the units still to send, its class, and the port it came
in on (R266, R274). -/
structure OutPkt where
  vc : Nat
  pkt : Pkt
  left : Nat
  cls : Nat
  inPort : Option Nat
  deriving DecidableEq, Repr

/-- A packet whose units still arrive: the units it has in all, those that have come, and their bits. -/
structure Asm where
  need : Nat
  got : Nat
  data : Nat
  deriving DecidableEq, Repr

/-- The states of a Rythar port (R259). -/
inductive RySt | down | detect | train | align | param | active | spare | reset | failed
  deriving DecidableEq, Repr

/-- How far a whole packet addressed to this node has come (R301): not yet policed, held by its Dome's policer, let
through, or let through demoted. -/
inductive Gate | fresh | held | passed | demoted
  deriving DecidableEq, Repr

/-- A whole packet addressed to this node that waits to be served: the bytes of it done, and the status of the first
access of it that was refused, 0 while none was. -/
structure InPkt where
  vc : Nat
  pkt : Pkt
  gate : Gate
  base : Option Nat   -- the DPA its offset was resolved to, once it has passed R282 or R285
  done : Nat
  fail : Nat
  deriving DecidableEq, Repr

/-- One Rythar port (R259 - R271). -/
structure RyPort where
  st : RySt
  since : Nat
  attempts : Nat
  x4 : Bool                 -- ALIGN found FEC lock at x4 alone
  heardAt : Option Nat      -- when the partner's RESET_REQ or training sequences came (R271)
  beganAt : Nat
  began : Bool              -- this end began the reset or the training itself (R271)
  capX4 : Bool              -- the caps as they stood when the reset or the training began (R271)
  capSlow : Bool
  lanes : List Nat          -- active lanes of the receiving direction, ascending (R256)
  spareTx : Option Nat      -- lane of the sending direction that the spare has replaced (R268)
  txLine : Nat × Nat        -- bits laid into the codeword in progress: how many, their value (R257)
  rxLine : Nat × Nat × Bool -- bits of a flit that has not come whole, and whether they came in a bad codeword (R257)
  corrs : List (Nat × Nat × Nat)  -- symbols corrected in the last 1 ms: tick, lane, how many (R257, R268)
  nextSeq : Nat
  sent : List SentFlit      -- unacknowledged, oldest first
  replayFrom : Option Nat
  rounds : Nat
  ackAt : Nat
  exp : Nat                 -- E of R261
  nakAt : Option Nat
  nakDue : Bool             -- a NAK waits for the end of a pause
  epochStart : Nat          -- first sequence number of the oldest epoch not verified
  epochLen : Nat
  tagFails : Nat
  txEpoch : Nat             -- sequenced flits of the open transmit epoch
  txIv : BitVec 96          -- AES-GCM initialisation vectors of the open epochs (R267)
  rxIv : BitVec 96
  unacked : Nat             -- accepted since the last acknowledgement sent
  ackDue : Bool
  inbuf : List Flit         -- accepted flits of the epoch not yet verified (R267)
  heads : SMap Asm          -- virtual channel -> packet whose units still arrive
  ready : List InPkt        -- whole packets addressed to this node, oldest first
  retReq : Nat
  retRsp : Nat
  retBulk : Nat
  retMgt : Nat
  credReq : Nat
  credRsp : Nat
  credBulk : Nat
  credMgt : Nat
  ctrl : List (Nat × Nat)   -- CTRL operations to send: op, arg; 14 and 15 stand for the pause and the reset that follow
                            -- a SPARE_GO and a RESET_REQ once their epoch is closed
  outq : List OutPkt
  paused : Bool             -- the sender has paused for a lane replacement
  spareLocked : Bool
  sparing : Option Nat      -- lane of the receiving direction being replaced
  moving : Bool             -- its symbols are being moved: SPARE_GO has come
  keys : SMap (BitVec 256)  -- link keys by generation; one present is LIVE (R314)
  txGen : Nat
  switchReq : Bool
  deriving DecidableEq, Repr

/-- A packet waiting to be forwarded (R275, R276). `inPort` is `none` for an originated packet; `held` where its units still
lie in the input buffer of that port. -/
structure FwdPkt where
  pkt : Pkt
  inPort : Option Nat
  held : Bool
  cls : Nat
  since : Nat
  deriving DecidableEq, Repr

/-- What a message serves. -/
inductive MsgKind | get | put | ping | wrd (tx : Nat) | wwr (tx : Nat) | mig (slot : Nat) (line : Nat) (tx : Option Nat)
  deriving DecidableEq, Repr

/-- A message at the requester (R279). -/
structure Msg where
  kind : MsgKind
  cmd : Nat
  node : Nat
  handle : Nat
  offset : Nat
  length : Nat
  base : Nat
  count : Nat
  progress : Nat
  ctx : Ctx
  owin : Nat
  pieces : List (Nat × Nat)   -- offset within the message and length of the packets that have come or been acknowledged
  deriving DecidableEq, Repr

/-- An access to an outbound window (R284). `ans` is an engine's answer until its command takes it: the line, or none
where the access failed. -/
structure OwinReq where
  tx : Tx
  msg : Nat
  win : Nat
  sent : Nat
  ans : Option (Option Line)
  deriving DecidableEq, Repr

/-! ## Egress (R293 - R302) -/

/-- What an egress item carries. -/
inductive EgBody
  | s2m (src : CxlSrc) (op : S2MOp) (line : Nat) (data : Line)
  | cxlio (addr data : Nat)
  | fmMsix (vec : Nat)          -- an MSI-X message of the fabric-manager function (R250)
  | ry (vc : Nat) (pkt : Pkt) (inPort : Option Nat)
  deriving DecidableEq, Repr

/-- An item queued for egress (R293 - R299). -/
structure EgItem where
  port : Nat
  link : Nat
  cls : Nat
  dome : Nat
  len : Nat
  express : Bool
  seq : Nat
  body : EgBody
  deriving DecidableEq, Repr

/-- A token bucket (R296, R297). The `new` fields are held writes, applied at the next refill edge. -/
structure Bucket where
  tokens : Int
  rate : Nat
  depth : Nat
  enable : Bool
  newRate : Nat
  newDepth : Nat
  newEnable : Bool
  refused : Bool
  action : Bool
  holdMax : Nat
  deriving DecidableEq, Repr

/-! ## Security (R303 - R318) -/

/-- A key slot (R309). -/
inductive SlotSt | empty | staged | current | draining
  deriving DecidableEq, Repr

structure KeySlot where
  st : SlotSt
  key : BitVec 512
  deriving DecidableEq, Repr

/-- An SPDM secure session (R304, R305). -/
structure Session where
  mutualAuth : Bool
  digest : BitVec 384
  deriving DecidableEq, Repr

/-- A sweep engine on a cell (R312). -/
structure Sweep where
  cmd : Nat
  dome : Nat
  cell : Nat
  ptr : Nat
  deriving DecidableEq, Repr

/-- A teardown in progress at this node (R315, R316). `step` is the last step that ended. -/
structure Teardown where
  cmd : Option Nat      -- the DOME_TEARDOWN that runs here; none where another node's does
  timeout : Nat
  overwrite : Bool
  start : Nat
  step : Nat
  aborted : Nat
  discarded : Nat
  timedOut : Bool
  cells : List Nat      -- the cells released at this node
  mark : Nat            -- the first request of the home that came after the release
  deriving DecidableEq, Repr

/-! ## Belfry and Waggle (R319 - R341) -/

/-- An event a source holds for the Belfry (R321). -/
structure FaultEvt where
  src : Nat
  ctx : Ctx
  dome : Nat
  addr : Option Nat
  detail : Nat
  count : Nat
  wire : Bool
  deriving DecidableEq, Repr

/-- A fault record (R324). -/
structure FaultRec where
  src : Nat
  cls : Nat
  addr : Option Nat
  multi : Bool
  dome : Nat
  ctx : Ctx
  merges : Nat
  actions : Nat
  detail : Nat
  seq : Nat
  time : Nat
  arch : Option Nat   -- none while open; else the archive slot it was closed to
  read : Bool
  deriving DecidableEq, Repr

/-- An overflow summary (R328). -/
structure OvfSum where
  lost : Nat
  valid : Bool
  first : Nat
  last : Nat
  deriving DecidableEq, Repr

/-- The state of a fault pair (R320). -/
structure PairSt where
  invalid : Bool
  broken : Bool
  deriving DecidableEq, Repr

/-- A Waggle source's settings and state (R333 - R338). -/
structure WSrc where
  enable : Bool
  shared : Bool
  group : Nat
  level : Nat
  targets : BitVec 24
  count : Nat
  lastCore : Nat
  deriving DecidableEq, Repr

/-- A Waggle group's hold-off (R338). -/
structure WGroup where
  holdoff : Nat
  timer : Nat
  heldSince : Option Nat
  refused : Bool
  deriving DecidableEq, Repr

/-- An MSI-X vector (R339). -/
structure Vec where
  addr : Nat
  data : Nat
  mask : Bool
  pending : Bool
  port : Nat
  link : Nat
  ldKind : Bool
  dest : Nat
  deriving DecidableEq, Repr

/-- A general timer (R341). `left` is the count when `since` was taken. -/
structure Timer where
  owner : Nat
  refused : Bool
  periodic : Bool
  run : Bool
  load : Nat
  left : Nat
  since : Nat
  deriving DecidableEq, Repr

/-! ## Power (R346 - R352) -/

/-- Who asks the power grant unit for leave (R349, R351). -/
inductive PguOwner
  | cmd (id : Nat) | forager (ch : Nat) | train (ch : Nat) | mig (slot : Nat) | flush (half : Nat) | hot
  | sweep (id : Nat) | overwrite (dome : Nat)
  deriving DecidableEq, Repr

structure PguReq where
  kind : Nat
  owner : PguOwner
  deriving DecidableEq, Repr

/-! ## CXL ports (R239 - R255) -/

/-- The link a CXL message arrives on, and its source: an LD-ID where `ldKind`, else an SPID (R37, R241); `mac`: the MAC of
an IDE epoch comes with it and verifies (R246). -/
structure CxlId where
  port : Fin 16
  link : Fin 2
  ldKind : Bool
  src : BitVec 12
  tag : BitVec 16
  mac : Bool
  deriving DecidableEq, Repr

/-- An M2S request: its source, host physical address and MetaValue. -/
structure M2S where
  id : CxlId
  hpa : BitVec 64
  meta_ : Meta
  deriving DecidableEq, Repr

/-- The data of an M2S RwD: 64 bytes, byte enables, and the poison indication. -/
structure RwD where
  data : BitVec 512
  be : BitVec 64
  poison : Bool
  deriving DecidableEq, Repr

/-- A snoop answer or a conflict message: its source and the line. -/
structure CxlLine where
  id : CxlId
  line : BitVec 39
  deriving DecidableEq, Repr

/-- What an M2S message asks for, as far as an answer made at the port is concerned. -/
inductive Ask | read | state | hint | write
  deriving DecidableEq, Repr

/-- How an opcode and its MetaValue map onto the home's kinds (R127); `odd` where R127 has no row for them. -/
structure Mapped where
  kind : HKind
  wants : Bool
  odd : Bool
  deriving DecidableEq, Repr

/-- A message of a link as the port takes it: a request, one the home does not support, a BIRsp of the state it claims (0 I,
1 S, 2 E/M), a BIRsp for a block, a BIConflict. -/
inductive CxlMsg
  | req (m : M2S) (a : Ask) (k : Mapped) (w : Option RwD)
  | odd (m : M2S) (a : Ask)
  | birsp (x : CxlLine) (st : Nat)
  | block (x : CxlLine)
  | conflict (x : CxlLine)
  deriving DecidableEq, Repr

/-- An ingress context table entry (R37). -/
structure CtxtEnt where
  valid : Bool
  key : BitVec 19
  ctx : Ctx
  deriving DecidableEq, Repr

/-- A context-table command that has not taken effect (R39). -/
structure CtxtCmd where
  op : Nat
  idx : Nat
  key : BitVec 19
  ctx : Ctx
  deriving DecidableEq, Repr

/-- One CXL link: level, IDE streams, the messages of the MAC epoch that is not verified yet, DOE mailboxes, and the counters
of ZM_PORT_COUNTERS (R240, R246 - R249, R252). -/
structure CxlLink where
  up : Bool
  recovery : Option Nat
  width : Nat
  speed : Nat
  ideSecure : Bool
  keySet : Nat
  ideKeys : SMap (BitVec 256)   -- key set * 2 + direction (1 receive) -> key of the CXL.mem stream (R246)
  skid : Bool                   -- skid mode; containment mode where false (R246)
  epoch : List CxlMsg           -- messages held until their epoch's MAC is verified, oldest first (R246)
  ioKeys : SMap (BitVec 256)    -- ((stream * 3 + sub-stream) * 2 + key set) * 2 + direction -> key of a CXL.io stream
  ioSet : SMap Nat              -- CXL.io stream -> key set in use, where the stream is secure
  doeErr : List Nat             -- functions whose DOE Error bit is set: LD, or 16 for the fabric-manager function (R248)
  cdat : List Nat               -- the CDAT built when READY rose (R249)
  flitsTx : Nat
  flitsRx : Nat
  replays : Nat
  ideFails : Nat
  downs : Nat
  discarded : Nat
  deriving DecidableEq, Repr

/-- One CXL port: its two links, the settings in force since its last enable (R240), its context table. -/
structure CxlPort where
  link0 : CxlLink
  link1 : CxlLink
  mode : Nat
  bifurcate : Bool
  fmFunc : Bool
  bar2 : Option (BitVec 64)     -- the base assigned to the fabric-manager function's BAR2 (R241, R255)
  ctxt : SMap CtxtEnt
  ctxtCmd : Option CtxtCmd
  deriving DecidableEq, Repr

/-- A record of an event log of the fabric-manager function (R251). -/
structure EventRec where
  kind : Nat
  addr : Nat
  handle : Nat
  deriving DecidableEq, Repr

/-- An event log: its records, the overflow flag and the records lost (R251). -/
structure EventLog where
  recs : List EventRec
  overflow : Bool
  lost : Nat
  deriving DecidableEq, Repr

/-- A response of the security root or the management port: its code, its status, its bytes. -/
structure Resp where
  code : Nat
  status : Nat
  payload : List Nat
  deriving DecidableEq, Repr

/-! ## What leaves the block -/

-- Log entry 15: DESIGN CHOICE, safe.
/-- One thing the block sent or answered, in the order it left. -/
inductive Out
  | s2m (port link : Nat) (op : S2MOp) (line : Nat) (data : Line) (src tag : Nat)
  | cxlio (port link addr data : Nat)
  | fmMsix (port vec : Nat)
  | flit (port : Nat) (f : Flit)
  | lanes (port : Nat) (symbols : List (Nat × Nat))   -- a codeword: lanes and their symbols (R257)
  | announce (port node : Nat) (x4 slow : Bool) (first exp : Nat) (free : List Nat)
  | remoteLine (node line msg : Nat) (data : Line)
  | csr (addr : Nat) (value : Word)
  | coreLoad (core : Nat) (value : Option Nat) (cause : Nat)
  | mailbox (port link : Nat) (ret : Nat) (payload : List Nat)
  | doe (port link : Nat) (status : Nat) (payload : List Nat)
  | spdm (code : Nat) (status : Nat) (payload : List Nat)
  | mgmt (kind : Nat) (seq : Nat) (status : Nat) (payload : List Nat)
  | smbus (reply : Option Word)
  | scan (what place value : Nat)
  deriving DecidableEq, Repr

end Sys2Proof.Machine
end

