-- ==== Sys2Proof/Machine/Operands.lean ====
section
/-!
DEFINITION. The operand forms of the block's commands that are more than a number or a word: what the outside world did,
found or answered.
-/
namespace Sys2Proof.Machine

/-- What an alert turns out to be: the check that failed, the kind of the failing command, how many times in a row the
commands fail before they succeed, whether a poisoned write that follows succeeds. -/
structure Alert where
  crc : Bool
  wr : Bool
  fails : Fin 16
  poisonOk : Bool
  deriving DecidableEq, Repr

/-- What a training run finds. -/
structure TrainRes where
  pass : Bool
  slot1 : Bool
  cap16g : Fin 128
  lrankLog2 : Fin 8
  rowBits : Fin 32
  bin8000 : Bool
  mrdimm : Bool
  dimms : Fin 3
  stackLog2 : Fin 3
  rfmInit : Nat
  rfmMax : Nat
  deriving DecidableEq, Repr

/-- The bits that differ from what was stored at each of the Forager's three reads of a line. -/
structure FrgFlips where
  first : Stored
  second : Stored
  third : Stored
  deriving DecidableEq, Repr

/-- What the queen, or on the queen's own node its successor, answers to an update (R287, R288). -/
inductive QAns | ok | busy | unreachable
  deriving DecidableEq, Repr

/-- What happens to the scratch of an operation's slot before a unit of work (R195): nothing, or bits of one stored word
of a line change. -/
inductive Scr | none | flip (line : Fin 16384) (word : Fin 16) (mask : BitVec 40)
  deriving DecidableEq, Repr

/-- Bits of a stored snoop-filter entry that have flipped, in the set of the line a request meets (R143). -/
structure Upset where
  agent : Fin 32
  way : Fin 16
  mask : BitVec 32
  deriving DecidableEq, Repr

/-- What comes to a DOE mailbox: a data object of one of the protocols of R239, one of another, or a write of DOE Abort. -/
inductive DoeKind | discovery | spdm | secured | ideKm | cdat | other | abort
  deriving DecidableEq, Repr

/-- A function of a link (R241): the fabric-manager function, or the Type 3 function of a logical device, LD 0 outside MLD
mode. -/
inductive Func | fm | dev (ld : Fin 16)
  deriving DecidableEq, Repr

/-- An IDE stream of a link (R239): the CXL.mem stream, or a CXL.io stream (0 the link stream, then the selective streams)
with its sub-stream. -/
inductive IdeStream | mem | io (n : Fin 256) (sub : Fin 3)
  deriving DecidableEq, Repr

/-- The way of an access through BAR2 (R241): the port of the fabric-manager function, and the base that the fabric manager
writes into BAR2 just before, if it does. -/
structure Bar where
  port : Fin 16
  assign : Option (BitVec 64)
  deriving DecidableEq, Repr

/-- Where an access through BAR2 goes: its way, and the offset in the window. -/
structure CsrAt where
  bar : Bar
  off : BitVec 26
  deriving DecidableEq, Repr

/-- K_SET_GO (R246): the stream, the key set it goes over to, and whether a CXL.mem stream is in skid mode. -/
structure SetGo where
  stream : IdeStream
  set : Fin 2
  skid : Bool
  deriving DecidableEq, Repr

/-- The header of a sequenced flit, beside what its kind fixes (R258). -/
structure FlitHdr where
  seq : BitVec 12
  ackSeq : BitVec 12
  ackValid : Bool
  nak : Bool
  keyGen : Fin 2
  crReq : BitVec 10
  crRsp : BitVec 10
  crBulk : BitVec 10
  crMgt : BitVec 10
  deriving DecidableEq, Repr

/-- The payload of a DATA flit: its virtual channel, its units less one, whether it begins a packet, and its bytes. -/
structure FlitData where
  vc : Fin 4
  units1 : Fin 4
  head : Bool
  payload : BitVec 2048
  deriving DecidableEq, Repr

/-- What the lanes of a port bring (R257): a codeword of 544 symbols, or a flit of 272 bytes whose codewords are good. -/
inductive Wire
  | codeword (w : BitVec 5440)
  | flit (image : BitVec 2176)
  deriving DecidableEq, Repr

/-- What the lanes of one Rythar port bring. -/
structure PortWire where
  port : Fin 12
  wire : Wire
  deriving DecidableEq, Repr

/-- One direction of a Rythar link at its port: receiving, or sending. -/
structure LinkEnd where
  port : Fin 12
  rx : Bool
  deriving DecidableEq, Repr

/-- A claim of a role (R286): its term, and whether the role is the successor's. -/
structure RoleClaim where
  term : BitVec 16
  succ : Bool
  deriving DecidableEq, Repr

/-- What a heartbeat says beside its term (R287, R290): that updates are stopped, and who the successor is. -/
structure Beat where
  stopped : Bool
  succ : Option (Fin 64)
  deriving DecidableEq, Repr

/-- What a partner announces in PARAM (R270, R271): its node ID, the width and speed it proposes, the first sequence number
it will resend, its E, and the free units of its input buffer by virtual channel. -/
structure Announce where
  node : Fin 64
  x4 : Bool
  slow : Bool
  first : BitVec 12
  exp : BitVec 12
  freeReq : BitVec 14
  freeRsp : BitVec 14
  freeBulk : BitVec 14
  freeMgt : BitVec 14
  deriving DecidableEq, Repr

/-- An update of the queen's state (R287): a Dome's state (0 FREE, 1 ACTIVE, 2 TEARDOWN), a change in a Dome's cells at a
node, a key slot of the broker, an entry of the interleave directory, the start of a Dome's teardown with its drain timeout
and overwrite pass (R315). -/
inductive QUpd
  | dome (d : Fin 4096) (st : Fin 3)
  | cells (d : Fin 4096) (node : Fin 64) (n : Int)
  | key (d : Fin 4096) (gen : Fin 2) (k : BitVec 512)
  | dir (k : Nat) (v : Nat)
  | teardown (d : Fin 4096) (us : BitVec 32) (overwrite : Bool)
  deriving DecidableEq, Repr

/-- An SPDM request beside those with a row of their own (R304): the end of a session, a measurement by its index, another
request the responder supports, by its request code, one the device does not advertise. -/
inductive SpdmReq
  | endSession (k : Fin 256)
  | measurement (i : BitVec 8)
  | supported (code : BitVec 8)
  | unsupported (code : BitVec 8)
  deriving DecidableEq, Repr

/-- What the other nodes of a teardown report together: their aborted commands, their discarded packets, whether a drain
timeout expired at one, whether one could not be reached (R315). -/
structure TdRest where
  aborted : Nat
  discarded : Nat
  timedOut : Bool
  unreachable : Bool
  deriving DecidableEq, Repr

/-- What a message of the management port asks (R304, R378). -/
inductive MgmtMsg
  | version
  | certificate
  | keyExchange (mutualAuth : Bool) (digest : BitVec 384)
  | spdm (r : SpdmReq)
  | keyDeliver (m : BitVec 640) (a : QAns)
  | csrRead (a : BitVec 32)
  | csrWrite (a v : BitVec 32)
  | cmdPacket (pkt : BitVec 512)
  | flashWrite (off : BitVec 32) (data : List (BitVec 8))
  deriving DecidableEq, Repr

/-- A UDP datagram to the management port (R377): its requester, its header, the session of a secured message. -/
structure Datagram where
  who : Nat
  version : BitVec 8
  type : BitVec 8
  seq : BitVec 32
  sess : Fin 256
  msg : MgmtMsg
  deriving DecidableEq, Repr

/-- What a scan through the TAP's network reads (R361): a register, a honey-cache way, a snoop-filter way, a cached leaf of
an ATC or of the STC, an entry of the home's tracker, of a channel's read queue or of its write queue. -/
inductive ScanAt
  | csr (a : BitVec 27)
  | honey (k : Fin 8388608)
  | filter (k : Fin 16777216)
  | atc (k : Fin 28672)
  | stc (k : Fin 65536)
  | tracker (i : Nat)
  | readQueue (ch : Fin 24) (sub : Fin 2) (i : Nat)
  | writeQueue (ch : Fin 24) (sub : Fin 2) (i : Nat)
  deriving DecidableEq, Repr

/-- What the checks of an image find beyond its header's form (R375): its key is the one mask ROM names, its signature
verifies, its body has the digest it states. -/
structure ImgChk where
  key : Bool
  sig : Bool
  body : Bool
  deriving DecidableEq, Repr

/-- What a start-up finds: the checks of the three images, and whether the leaf certificate's key is the device's (R303). -/
structure BootChk where
  aon : ImgChk
  fw : ImgChk
  app : ImgChk
  leaf : Bool
  deriving DecidableEq, Repr

/-- The width of a register access: 1, 2, 4 or 8 bytes (R9). -/
inductive AccSize | b1 | b2 | b4 | b8
  deriving DecidableEq, Repr

/-- The bytes of an access. -/
def AccSize.bytes : AccSize → Nat
  | .b1 => 1
  | .b2 => 2
  | .b4 => 4
  | .b8 => 8

/-- Naturally aligned (R9). -/
def AccSize.aligned (z : AccSize) (a : Nat) : Bool :=
  match z with
  | .b1 => true
  | .b2 => a % 4 != 3
  | .b4 => a % 4 == 0
  | .b8 => a % 8 == 0

/-- The straps as the board ties them (R353). -/
structure Straps where
  node : Fin 64
  queen : Bool
  succ : Bool
  dpc : Bool
  deriving DecidableEq, Repr

end Sys2Proof.Machine
end

