-- ==== Sys2Proof/Syntax.lean ====
section
/-!
DEFINITION. The commands of the block: one constructor per row of the opcode table, with the row's operands. Numbers of
ports, channels, cores, contexts and the like are `Fin`; register values and fields of messages are bit vectors. The rows
with operands stand first, those without last: compiled Lean gives a constructor with fields a tag of at most 244.
-/
namespace Sys2Proof

open Machine

/-- A command of the block. -/
inductive Instr
  /-- REGISTER_WRITE (R5). -/
  | registerWrite (w : CsrAt) (z : AccSize) (v : BitVec 64)
  /-- MISALIGNED_CSR_ACCESS (R9). -/
  | misalignedCsrAccess (w : CsrAt) (z : AccSize) (st : Option (BitVec 64))
  /-- CSR_UNMAPPED_ACCESS (R395). -/
  | csrUnmappedAccess (w : CsrAt) (z : AccSize) (st : Option (BitVec 64))
  /-- CSR_OFF_DOMAIN_ACCESS (R395). -/
  | csrOffDomainAccess (w : CsrAt) (z : AccSize) (st : Option (BitVec 64))
  /-- MEMRD (R127). -/
  | memrd (m : M2S) (u : Option Upset)
  /-- MEMRDDATA (R127). -/
  | memrddata (m : M2S)
  /-- MEMINV (R127). -/
  | meminv (m : M2S)
  /-- MEMINVNT (R127). -/
  | meminvnt (m : M2S)
  /-- MEMCLNEVCT (R127). -/
  | memclnevct (m : M2S)
  /-- MEMSPECRD (R140). -/
  | memspecrd (m : M2S)
  /-- MEMRDFWD (R127). -/
  | memrdfwd (m : M2S)
  /-- MEMWRFWD (R127). -/
  | memwrfwd (m : M2S)
  /-- MEMWR (R133). -/
  | memwr (m : M2S) (d : RwD)
  /-- MEMWRPTL (R133). -/
  | memwrptl (m : M2S) (d : RwD)
  /-- BICONFLICT (R136). -/
  | biconflict (x : CxlLine)
  /-- BIRSPI (R134). -/
  | birspi (x : CxlLine)
  /-- BIRSPS (R134). -/
  | birsps (x : CxlLine)
  /-- BIRSPE (R134). -/
  | birspe (x : CxlLine)
  /-- BIRSP_BLOCK (R128). -/
  | birspBlock (x : CxlLine)
  /-- POLICER_RELEASE (R301). -/
  | policerRelease (p : Fin 28)
  /-- DRAM_COMMAND_ISSUE (R58). -/
  | dramCommandIssue (ch : Fin 24) (sc : Fin 2)
  /-- DRAM_READ_DATA (R83). -/
  | dramReadData (ch : Fin 24) (sc : Fin 2) (flips : Stored)
  /-- REFSB_ISSUE (R63). -/
  | refsbIssue (ch : Fin 24) (sc : Fin 2)
  /-- REFRESH_DUE (R62). -/
  | refreshDue (ch : Fin 24) (sc : Fin 2) (rank : Fin 16)
  /-- RFM_ISSUE (R68). -/
  | rfmIssue (ch : Fin 24) (sc : Fin 2)
  /-- NEIGHBOUR_SET (R66). -/
  | neighbourSet (ch : Fin 24) (sc : Fin 2)
  /-- ZQ_CALIBRATION (R69). -/
  | zqCalibration (ch : Fin 24) (sc : Fin 2) (prank : Fin 4)
  /-- DQS_OSC_READ (R69). -/
  | dqsOscRead (ch : Fin 24) (sc : Fin 2) (prank : Fin 4)
  /-- ROW_CLOSE_IDLE (R59). -/
  | rowCloseIdle (ch : Fin 24) (sc : Fin 2) (rank : Fin 16) (bg : Fin 8) (bank : Fin 4)
  /-- THERMAL_READ (R64). -/
  | thermalRead (ch : Fin 24) (t0 t1 : Fin 256)
  /-- CA_ALERT (R71). -/
  | caAlert (ch : Fin 24) (sc : Fin 2) (a : Alert)
  /-- DCH_CFG_WRITE (R55). -/
  | dchCfgWrite (ch : Fin 24) (v : Word)
  /-- MAINT_ACTIVE (R76). -/
  | maintActive (ch : Fin 24)
  /-- FULL_TRAINING (R75). -/
  | fullTraining (ch : Fin 24)
  /-- MAINT_TRAINING (R77). -/
  | maintTraining (ch : Fin 24)
  /-- TRAINING_DONE (R77). -/
  | trainingDone (ch : Fin 24) (r : TrainRes)
  /-- RAW_READ (R93). -/
  | rawRead (ch : Fin 24) (v : Word)
  /-- RAW_WRITE (R93). -/
  | rawWrite (ch : Fin 24) (v : Word)
  /-- INJECT_WRITE (R93). -/
  | injectWrite (ch : Fin 24) (v : Word)
  /-- CHECKED_READ (R93). -/
  | checkedRead (ch : Fin 24) (v : Word)
  /-- REMAP_READ (R86). -/
  | remapRead (ch : Fin 24) (v : Word)
  /-- REMAP_INSTALL (R87). -/
  | remapInstall (ch : Fin 24) (v : Word)
  /-- REMAP_INSTALL_DONE (R87). -/
  | remapInstallDone (ch : Fin 24)
  /-- INSTALL_BLANK (R87). -/
  | installBlank (ch : Fin 24) (v : Word)
  /-- REMAP_REMOVE (R88). -/
  | remapRemove (ch : Fin 24) (v : Word)
  /-- FORAGER_READ (R94). -/
  | foragerRead (ch : Fin 24) (f : FrgFlips)
  /-- FORAGER_ACCEL (R97). -/
  | foragerAccel (ch : Fin 24) (v : Word)
  /-- FORAGER_LAP_END (R98). -/
  | foragerLapEnd (ch : Fin 24)
  /-- CTXT_READ (R39). -/
  | ctxtRead (p : Fin 16) (i : Fin 1024)
  /-- CTXT_WRITE (R38). -/
  | ctxtWrite (p : Fin 16) (i : Fin 1024)
  /-- CTXT_INVALIDATE (R39). -/
  | ctxtInvalidate (p : Fin 16) (i : Fin 1024)
  /-- CTXT_CMD_DONE (R39). -/
  | ctxtCmdDone (p : Fin 16)
  /-- HALF_POWER_DOWN (R346). -/
  | halfPowerDown (b : Fin 2)
  /-- HALF_POWER_DOWN_DONE (R346). -/
  | halfPowerDownDone (b : Fin 2)
  /-- HALF_POWER_UP (R346). -/
  | halfPowerUp (b : Fin 2)
  /-- HEAT_FOLD (R117). -/
  | heatFold (cell : Fin 536870912)
  /-- HOT_LIST_START (R121). -/
  | hotListStart (v : Word)
  /-- MIRROR_ENTRY (R122). -/
  | mirrorEntry (k : Fin 16)
  /-- MIRROR_TIMEOUT (R124). -/
  | mirrorTimeout (k : Fin 16)
  /-- AGENT_REGISTER (R130). -/
  | agentRegister (v : Word)
  /-- SNOOP_CTL_WRITE (R129). -/
  | snoopCtlWrite (v : Word)
  /-- FENCE_RELEASE (R166). -/
  | fenceRelease (k : Fin 16384)
  /-- COMMAND_COMPLETE (R165). -/
  | commandComplete (k : Fin 16385)
  /-- NOP (R161). -/
  | nop (k : Fin 16385)
  /-- QUEUE_CREATE (R148). -/
  | queueCreate (k : Fin 16385)
  /-- QUEUE_DESTROY (R149). -/
  | queueDestroy (k : Fin 16385)
  /-- QUEUE_RESUME (R166). -/
  | queueResume (k : Fin 16385)
  /-- DOORBELL_SET (R150). -/
  | doorbellSet (k : Fin 16385)
  /-- DOME_CREATE (R161). -/
  | domeCreate (k : Fin 16385) (a : QAns)
  /-- DOME_TEARDOWN (R315). -/
  | domeTeardown (k : Fin 16385) (a : QAns)
  /-- SHARE_JOIN (R408). -/
  | shareJoin (k : Fin 16385)
  /-- SHARE_LEAVE (R408). -/
  | shareLeave (k : Fin 16385)
  /-- CELL_ALLOC (R163). -/
  | cellAlloc (k : Fin 16385) (a : QAns)
  /-- CELL_FREE (R46). -/
  | cellFree (k : Fin 16385)
  /-- SHARE_MOVE (R42). -/
  | shareMove (k : Fin 16385) (a : QAns)
  /-- PIN (R114). -/
  | pin (k : Fin 16385)
  /-- UNPIN (R115). -/
  | unpin (k : Fin 16385)
  /-- MIGRATE (R125). -/
  | migrate (k : Fin 16385) (a : QAns) (dstOk reach : Bool)
  /-- MIGRATE_END (R124). -/
  | migrateEnd (k : Fin 16385)
  /-- COMB_INVAL (R185). -/
  | combInval (k : Fin 16385)
  /-- COMB_ROOT_SET (R176). -/
  | combRootSet (k : Fin 16385)
  /-- AGENT_DOWN (R144). -/
  | agentDown (k : Fin 16385)
  /-- REKEY (R313). -/
  | rekey (k : Fin 16385)
  /-- HANDLE_CREATE (R281). -/
  | handleCreate (k : Fin 16385)
  /-- HANDLE_DESTROY (R281). -/
  | handleDestroy (k : Fin 16385)
  /-- MOVE (R161). -/
  | move (k : Fin 16385)
  /-- FILL (R161). -/
  | fill (k : Fin 16385)
  /-- MOVE_STRIDED (R161). -/
  | moveStrided (k : Fin 16385)
  /-- ATOMIC_ADD64 (R161). -/
  | atomicAdd64 (k : Fin 16385)
  /-- CONVERT (R221). -/
  | convert (k : Fin 16385) (e : Scr)
  /-- AXPY (R222). -/
  | axpy (k : Fin 16385) (e : Scr)
  /-- REDUCE_INTO (R223). -/
  | reduceInto (k : Fin 16385) (e : Scr)
  /-- GATHER_POOL (R226). -/
  | gatherPool (k : Fin 16385) (e : Scr)
  /-- OPT_STEP (R229). -/
  | optStep (k : Fin 16385) (e : Scr)
  /-- ATTN_PARTIAL (R231). -/
  | attnPartial (k : Fin 16385) (e : Scr)
  /-- TOPK (R232). -/
  | topk (k : Fin 16385) (e : Scr)
  /-- CHECKSUM (R233). -/
  | checksum (k : Fin 16385) (e : Scr)
  /-- PUBLISH (R169). -/
  | publish (k : Fin 16385) (e : Scr)
  /-- GET (R279). -/
  | get (k : Fin 16385)
  /-- PUT (R279). -/
  | put (k : Fin 16385)
  /-- PING (R279). -/
  | ping (k : Fin 16385)
  /-- THROTTLE_CHANGE (R352). -/
  | throttleChange (low : Bool)
  /-- COMB_ENABLE (R176). -/
  | combEnable (v : Word)
  /-- COMB_RECORD_TAKE (R181). -/
  | combRecordTake (n : Fin 8)
  /-- COMB_FILL_COMMIT (R182). -/
  | combFillCommit (n : Fin 8) (v : Word)
  /-- COMB_MISS_TIMEOUT (R184). -/
  | combMissTimeout (k : Fin 1024)
  /-- COMB_INV_GO (R185). -/
  | combInvGo (v : Word)
  /-- SPIRE_SLOT_START (R192). -/
  | spireSlotStart (n : Fin 24)
  /-- SPIRE_CTL_WRITE (R198). -/
  | spireCtlWrite (n : Fin 24) (v : Word)
  /-- SR_SEED_LOAD (R209). -/
  | srSeedLoad (n : Fin 24) (v : Word)
  /-- WINDOW_ENABLE (R235). -/
  | windowEnable (w : Fin 64) (v : Word)
  /-- HDM_COMMIT (R244). -/
  | hdmCommit (d : Fin 32) (ig : Fin 16) (iw : Fin 8)
  /-- HDM_UNCOMMIT (R244). -/
  | hdmUncommit (d : Fin 32)
  /-- CXLP_CFG_WRITE (R240). -/
  | cxlpCfgWrite (p : Fin 16) (v : Word)
  /-- CXL_LINK_UP (R240). -/
  | cxlLinkUp (p : Fin 16) (l : Fin 2) (w : Fin 3) (fast : Bool)
  /-- LINK_RECOVERY (R254). -/
  | linkRecovery (p : Fin 16) (l : Fin 2)
  /-- RECOVERY_TIMEOUT (R254). -/
  | recoveryTimeout (p : Fin 16) (l : Fin 2)
  /-- RETRAIN0 (R254). -/
  | retrain0 (p : Fin 16)
  /-- RETRAIN1 (R254). -/
  | retrain1 (p : Fin 16)
  /-- LINK_DOWN (R255). -/
  | linkDown (p : Fin 16) (l : Fin 2)
  /-- HOT_RESET (R255). -/
  | hotReset (p : Fin 16) (l : Fin 2)
  /-- LINK_DISABLE (R255). -/
  | linkDisable (p : Fin 16) (l : Fin 2)
  /-- IDE_INTEGRITY_FAILURE (R247). -/
  | ideIntegrityFailure (p : Fin 16) (l : Fin 2)
  /-- K_SET_GO (R246). -/
  | kSetGo (p : Fin 16) (l : Fin 2) (g : SetGo)
  /-- KEY_PROG (R305). -/
  | keyProg (p : Fin 16) (l : Fin 2) (sess : Fin 256) (t : IdeStream) (set dir : Fin 2) (key : BitVec 256)
  /-- DOE_OBJECT (R248). -/
  | doeObject (p : Fin 16) (l : Fin 2) (f : Func) (k : DoeKind) (n : Nat)
  /-- IDENTIFY (R250). -/
  | identify (p : Fin 16) (l : Fin 2) (f : Func)
  /-- IDENTIFY_MEMORY_DEVICE (R250). -/
  | identifyMemoryDevice (p : Fin 16) (l : Fin 2) (f : Func)
  /-- GET_HEALTH_INFO (R250). -/
  | getHealthInfo (p : Fin 16) (l : Fin 2) (f : Func)
  /-- GET_SUPPORTED_LOGS (R250). -/
  | getSupportedLogs (p : Fin 16) (l : Fin 2) (f : Func)
  /-- GET_LOG (R250). -/
  | getLog (p : Fin 16) (l : Fin 2) (f : Func) (cel : Bool)
  /-- GET_FW_INFO (R250). -/
  | getFwInfo (p : Fin 16) (l : Fin 2) (f : Func)
  /-- GET_EVENT_RECORDS (R251). -/
  | getEventRecords (p : Fin 16) (l : Fin 2) (f : Func) (g : Fin 4)
  /-- CLEAR_EVENT_RECORDS (R251). -/
  | clearEventRecords (p : Fin 16) (l : Fin 2) (f : Func) (g : Fin 4) (all : Bool) (hs : List Nat)
  /-- GET_EVENT_INTERRUPT_POLICY (R250). -/
  | getEventInterruptPolicy (p : Fin 16) (l : Fin 2) (f : Func)
  /-- SET_EVENT_INTERRUPT_POLICY (R250). -/
  | setEventInterruptPolicy (p : Fin 16) (l : Fin 2) (f : Func) (v : BitVec 32)
  /-- GET_POISON_LIST (R252). -/
  | getPoisonList (p : Fin 16) (l : Fin 2) (f : Func) (line : BitVec 39) (n : Nat)
  /-- INJECT_POISON (R252). -/
  | injectPoison (p : Fin 16) (l : Fin 2) (f : Func) (line : BitVec 39)
  /-- CLEAR_POISON (R252). -/
  | clearPoison (p : Fin 16) (l : Fin 2) (f : Func) (line : BitVec 39) (d : BitVec 512)
  /-- GET_LD_INFO (R250). -/
  | getLdInfo (p : Fin 16) (l : Fin 2) (f : Func)
  /-- GET_LD_ALLOCATIONS (R250). -/
  | getLdAllocations (p : Fin 16) (l : Fin 2) (f : Func)
  /-- SET_LD_ALLOCATIONS (R250). -/
  | setLdAllocations (p : Fin 16) (l : Fin 2) (f : Func) (as : List Nat)
  /-- ZM_CMD_PACKET (R253). -/
  | zmCmdPacket (p : Fin 16) (l : Fin 2) (f : Func) (pkt : BitVec 512)
  /-- ZM_PORT_COUNTERS (R250). -/
  | zmPortCounters (p : Fin 16) (l : Fin 2) (f : Func) (n : Fin 256)
  /-- ZM_LINK_RETRAIN (R250). -/
  | zmLinkRetrain (p : Fin 16) (l : Fin 2) (f : Func) (n : Fin 16) (k : Fin 2)
  /-- UNSUPPORTED_MAILBOX_COMMAND (R250). -/
  | unsupportedMailboxCommand (p : Fin 16) (l : Fin 2) (f : Func)
  /-- DATA_FLIT (R261). -/
  | dataFlit (p : Fin 12) (h : FlitHdr) (d : FlitData)
  /-- IDLE_FLIT (R258). -/
  | idleFlit (p : Fin 12) (ack : BitVec 12) (valid nak : Bool)
  /-- BAD_FLIT (R257). -/
  | badFlit (w : PortWire)
  /-- CTRL_CREDIT (R265). -/
  | ctrlCredit (p : Fin 12) (h : FlitHdr)
  /-- MAC (R267). -/
  | mac (p : Fin 12) (h : FlitHdr) (tag : BitVec 128)
  /-- VOID (R264). -/
  | void (p : Fin 12) (h : FlitHdr)
  /-- SPARE_REQ (R268). -/
  | spareReq (p : Fin 12) (h : FlitHdr) (lane : Fin 9)
  /-- SPARE_GO (R268). -/
  | spareGo (p : Fin 12) (h : FlitHdr)
  /-- RESET_REQ (R269). -/
  | resetReq (p : Fin 12) (h : FlitHdr) (x4 slow : Bool)
  /-- FLIT_TRANSMIT (R261). -/
  | flitTransmit (p : Fin 12)
  /-- ACK_TIMER (R262). -/
  | ackTimer (p : Fin 12)
  /-- ACK_REPEAT (R262). -/
  | ackRepeat (p : Fin 12)
  /-- REPLAY_TIMEOUT (R263). -/
  | replayTimeout (p : Fin 12)
  /-- LANE_FAILING (R268). -/
  | laneFailing (p : Fin 12) (lane : Fin 9) (lock : Bool)
  /-- SPARE_DONE (R268). -/
  | spareDone (e : LinkEnd)
  /-- RYP_CFG_WRITE (R259). -/
  | rypCfgWrite (p : Fin 12) (v : Word)
  /-- RYP_DISABLE (R259). -/
  | rypDisable (p : Fin 12) (on : Bool)
  /-- PARTNER_DETECTED (R259). -/
  | partnerDetected (p : Fin 12) (lanes : Fin 10)
  /-- EQUALISATION_DONE (R259). -/
  | equalisationDone (p : Fin 12)
  /-- FEC_LOCK (R259). -/
  | fecLock (p : Fin 12) (lanes : BitVec 8) (spare : Bool)
  /-- PARAM_DONE (R270). -/
  | paramDone (p : Fin 12) (a : Announce)
  /-- TRAIN_TIMEOUT (R259). -/
  | trainTimeout (p : Fin 12)
  /-- RESET_IDLE_END (R259). -/
  | resetIdleEnd (p : Fin 12)
  /-- FAILED_RETRY (R259). -/
  | failedRetry (p : Fin 12)
  /-- LINK_RESET (R269). -/
  | linkReset (p : Fin 12)
  /-- H_RD (R282). -/
  | hRd (p : Fin 13)
  /-- H_WR (R282). -/
  | hWr (p : Fin 13)
  /-- W_RD (R285). -/
  | wRd (p : Fin 13)
  /-- W_WR (R285). -/
  | wWr (p : Fin 13)
  /-- RD_DATA (R279). -/
  | rdData (p : Fin 13)
  /-- WR_ACK (R279). -/
  | wrAck (p : Fin 13)
  /-- ERR (R280). -/
  | err (p : Fin 13)
  /-- PONG (R279). -/
  | pong (p : Fin 13)
  /-- PING_PACKET (R278). -/
  | pingPacket (p : Fin 13)
  /-- MSG_TIMEOUT (R280). -/
  | msgTimeout (n : BitVec 16)
  /-- MSG_NUMBER_RETURN (R279). -/
  | msgNumberReturn (n : BitVec 16)
  /-- OWIN_TIMEOUT (R284). -/
  | owinTimeout (n : BitVec 16)
  /-- OWIN_ENABLE (R284). -/
  | owinEnable (w : Fin 64) (v : Word)
  /-- IWIN_ENABLE (R285). -/
  | iwinEnable (w : Fin 64) (v : Word)
  /-- QUEEN_CLAIM (R286). -/
  | queenClaim (p : Fin 13) (c : RoleClaim)
  /-- HEARTBEAT (R290). -/
  | heartbeat (p : Fin 13) (term : BitVec 16) (b : Beat)
  /-- LOSS_VOTE (R290). -/
  | lossVote (p : Fin 13)
  /-- TAKEOVER (R290). -/
  | takeover (p : Fin 13) (term : BitVec 16)
  /-- QUEEN_UPDATE (R287). -/
  | queenUpdate (p : Fin 13) (u : QUpd) (a : QAns)
  /-- QUEEN_CTL_WRITE (R287). -/
  | queenCtlWrite (v : Word)
  /-- BYPASS_RELEASE (R291). -/
  | bypassRelease (r : BitVec 6)
  /-- EGRESS_PICK (R298). -/
  | egressPick (p : Fin 28) (l : Fin 2) (cr : BitVec 4)
  /-- SHAPER_CTL_WRITE (R297). -/
  | shaperCtlWrite (v : Word)
  /-- KEY_DELIVER (R308). -/
  | keyDeliver (sess : Fin 256) (m : BitVec 640) (a : QAns)
  /-- KEY_EXCHANGE (R304). -/
  | keyExchange (mutualAuth : Bool) (digest : BitVec 384)
  /-- SPDM_REQUEST (R304). -/
  | spdmRequest (r : SpdmReq)
  /-- LINK_KEY_SWITCH (R314). -/
  | linkKeySwitch (p : Fin 12)
  /-- SWEEP_CELL (R312). -/
  | sweepCell (cell : Fin 536870912)
  /-- TEARDOWN_DRAIN_DONE (R316). -/
  | teardownDrainDone (d : Fin 4096)
  /-- DRAIN_TIMEOUT (R317). -/
  | drainTimeout (d : Fin 4096)
  /-- TEARDOWN_RECALL_DONE (R316). -/
  | teardownRecallDone (d : Fin 4096) (o : TdRest)
  /-- OVERWRITE_PASS_DONE (R318). -/
  | overwritePassDone (d : Fin 4096) (o : TdRest)
  /-- WIRE_FAULT (R320). -/
  | wireFault (n : Fin 1536) (stays : Bool)
  /-- BROKEN_CLEAR (R320). -/
  | brokenClear (invalid : Bool)
  /-- REC_CLOSE (R327). -/
  | recClose (k : Fin 512)
  /-- OVF_CNT_READ (R328). -/
  | ovfCntRead (c : Fin 5)
  /-- CLAIM (R335). -/
  | claim (k : Fin 24)
  /-- EOI (R336). -/
  | eoi (k : Fin 24) (n : BitVec 12)
  /-- SWTRIG (R337). -/
  | swtrig (n : BitVec 12)
  /-- GRP_CFG_WRITE (R338). -/
  | grpCfgWrite (v : Word)
  /-- HOLDOFF_EXPIRY (R338). -/
  | holdoffExpiry (g : Fin 128)
  /-- TIMER_EXPIRY (R341). -/
  | timerExpiry (t : Fin 64)
  /-- TMR_OWNER_WRITE (R341). -/
  | tmrOwnerWrite (v : Word)
  /-- WATCHDOG_EXPIRY (R370). -/
  | watchdogExpiry (k : Fin 24)
  /-- WATCHDOG_KICK (R370). -/
  | watchdogKick (k : Fin 24)
  /-- PWROK_RISE (R354). -/
  | pwrokRise (t : Straps) (perst : Bool) (fl : List (Nat × Byte)) (c : BootChk)
  /-- PERST_N_DEASSERT (R356). -/
  | perstNDeassert (c : BootChk)
  /-- FREEZE (R359). -/
  | freeze (miss : BitVec 24)
  /-- ZM_FREEZE (R358). -/
  | zmFreeze (miss : BitVec 24)
  /-- TAP_SCAN (R361). -/
  | tapScan (x : ScanAt)
  /-- POWER_DOMAIN_OFF (R346). -/
  | powerDomainOff (d : Fin 14)
  /-- POWER_DOMAIN_ON (R347). -/
  | powerDomainOn (d : Fin 14)
  /-- FWCMD_TAKE (R368). -/
  | fwcmdTake (n : Fin 8)
  /-- FWCMD_DONE (R369). -/
  | fwcmdDone (n : Fin 8) (v : Word)
  /-- CORE_RESET (R371). -/
  | coreReset (v : Word)
  /-- CORE_START (R371). -/
  | coreStart (k : Fin 8) (c : ImgChk)
  /-- MGMT_DATAGRAM (R377). -/
  | mgmtDatagram (d : Datagram)
  /-- ARP (R376). -/
  | arp (ip : BitVec 32)
  /-- NDP (R376). -/
  | ndp (ip : BitVec 128)
  /-- ICMP_ECHO (R376). -/
  | icmpEcho (six : Bool) (ip : BitVec 128) (l : List (BitVec 8))
  /-- CSR_READ (R378). -/
  | csrRead (sess : Fin 256) (a : BitVec 32)
  /-- CSR_WRITE (R378). -/
  | csrWrite (sess : Fin 256) (a v : BitVec 32)
  /-- CMD_PACKET (R378). -/
  | cmdPacket (sess : Fin 256) (pkt : BitVec 512)
  /-- FLASH_WRITE (R378). -/
  | flashWrite (sess : Fin 256) (off : BitVec 32) (l : List (BitVec 8))
  /-- CONTROL_CORE_ACCESS (R365). -/
  | controlCoreAccess (k : Fin 24) (a : BitVec 48) (z : AccSize) (st : Option (BitVec 64))
  /-- SPIRE_SELF_TEST_DONE (R191). -/
  | spireSelfTestDone (n : Fin 24) (pass : Bool)
  /-- HALF_POWER_UP_DONE (R346). -/
  | halfPowerUpDone (b : Fin 2)
  /-- INTERNAL_RESET_END (R397). -/
  | internalResetEnd (c : BootChk)
  /-- LOCK_GRANT (R138). -/
  | lockGrant
  /-- BI_TIMEOUT (R141). -/
  | biTimeout
  /-- VMAP_ZERO (R103). -/
  | vmapZero
  /-- VMAP_ZERO_DONE (R103). -/
  | vmapZeroDone
  /-- VMAP_ON (R103). -/
  | vmapOn
  /-- IL_LOCK (R32). -/
  | ilLock
  /-- CACHE_DISABLE (R109). -/
  | cacheDisable
  /-- CACHE_ENABLE (R109). -/
  | cacheEnable
  /-- HEAT_EPOCH_END (R118). -/
  | heatEpochEnd
  /-- HEAT_SWEEP_DONE (R118). -/
  | heatSweepDone
  /-- HOT_LIST_DONE (R119). -/
  | hotListDone
  /-- AGENT_DOWN_SWEEP_DONE (R144). -/
  | agentDownSweepDone
  /-- PACKET_FETCH (R154). -/
  | packetFetch
  /-- MAILBOX_GO (R171). -/
  | mailboxGo
  /-- QCTL_ENABLE (R147). -/
  | qctlEnable
  /-- PGU_GRANT (R350). -/
  | pguGrant
  /-- COMB_INV_DONE (R186). -/
  | combInvDone
  /-- PACKET_FORWARD (R275). -/
  | packetForward
  /-- ROUTE_HOLD_EXPIRY (R276). -/
  | routeHoldExpiry
  /-- HANDLE_TABLE_ENABLE (R281). -/
  | handleTableEnable
  /-- HEARTBEAT_MISS (R290). -/
  | heartbeatMiss
  /-- SHAPER_REFILL (R296). -/
  | shaperRefill
  /-- GET_VERSION (R304). -/
  | getVersion
  /-- GET_CERTIFICATE (R303). -/
  | getCertificate
  /-- BIND_COMMIT (R305). -/
  | bindCommit
  /-- FAULT_EVENT (R321). -/
  | faultEvent
  /-- FAULT_INJECT (R320). -/
  | faultInject
  /-- REC_NEXT (R327). -/
  | recNext
  /-- QUIET_EXPIRY (R331). -/
  | quietExpiry
  /-- CLR_COUNT (R332). -/
  | clrCount
  /-- MSIX_UNMASK (R339). -/
  | msixUnmask
  /-- PWROK_FALL (R356). -/
  | pwrokFall
  /-- ROOT_PLL_LOCK_TIMEOUT (R355). -/
  | rootPllLockTimeout
  /-- DRAM_GROUP_SELECT (R52). -/
  | dramGroupSelect
  /-- READY_RISE (R354). -/
  | readyRise
  /-- PERST_N_ASSERT (R356). -/
  | perstNAssert
  /-- SOFTWARE_RESET (R397). -/
  | softwareReset
  /-- SOFTWARE_RESET_BEGIN (R397). -/
  | softwareResetBegin
  /-- THAW (R362). -/
  | thaw
  /-- ZM_THAW (R358). -/
  | zmThaw
  /-- TAP_RESET (R358). -/
  | tapReset
  /-- POWER_SWITCH_DONE (R347). -/
  | powerSwitchDone
  /-- REFCNT_READ (R343). -/
  | refcntRead
  /-- MGMT_FRAME_DROP (R376). -/
  | mgmtFrameDrop
  /-- SMB_READ_START_STATUS (R389). -/
  | smbReadStartStatus
  /-- SMB_READ_DFS_STATUS (R389). -/
  | smbReadDfsStatus
  /-- SMB_NACK (R389). -/
  | smbNack
  /-- ROOT_PLL_LOCK (R354). -/
  | rootPllLock
  deriving DecidableEq, Repr

end Sys2Proof
end

