-- ==== Sys2Proof/Decode.lean ====
section
/-!
DEFINITION. The command a word spells by the bits of the opcode table. The table gives the rows of this block no bits:
commands come as messages, register accesses and events, not as words.
-/
namespace Sys2Proof

-- Log entry 1: DESIGN CHOICE, safe.
/-- The command that `w`, of `nbits` bits, spells. -/
def decodeTableWord (_nbits _w : Nat) : Option Instr := none

end Sys2Proof
end

