-- ==== Sys2Proof/Config.lean ====
section
/-!
DEFINITION. The free values: what the manual leaves open. Each is a constant without a body, so nothing can be proved
of its value; `State.free` numbers the draws. The assumption log names each of them.
-/
namespace Sys2Proof.Config

-- Log entries 7: DESIGN CHOICE, safe; 40: DESIGN CHOICE, unsafe.
/-- The 40-bit beats a DRAM line holds that nothing has written since the training numbered `epoch` (R75, R88):
channel, training, channel-local line. -/
opaque undefinedLine : Nat → Nat → Nat → Stored

-- Log entry 8: DESIGN CHOICE, safe.
/-- A draw of the security root's random-number source or of a channel's generator (R66, R67, R209, R306). -/
opaque random : Nat → BitVec 512

-- Log entry 9: DESIGN CHOICE, safe.
/-- The step of a Spire's 64-bit xorshift generator, whose shifts the manual does not give (R209). -/
opaque spireStep : BitVec 64 → BitVec 64

-- Log entry 9: DESIGN CHOICE, safe.
/-- The order in which conversion lanes take the four draws of a generator step (R209): which quarter is next. -/
opaque drawQuarter : Nat → Nat

-- Log entry 10: DESIGN CHOICE, unsafe.
/-- Which of the results within the error bound of R190 the special-function unit gives: operation, argument,
draw number. -/
opaque sfuPick : Nat → Nat → Nat → Nat

-- Log entry 10: DESIGN CHOICE, unsafe.
/-- The result of a special-function input for which R190 states none: operation, argument. -/
opaque sfuOpen : Nat → Nat → BitVec 32

-- Log entry 11: DESIGN CHOICE, unsafe.
/-- A line the manual calls undefined: destination units at or beyond the units done (R187), destinations that alias
(R161, R217) or overlap (R161), the destination of a failed PUBLISH (R169), output bags whose indices changed (R225). -/
opaque undefinedData : Nat → Line

-- Log entry 72: DESIGN CHOICE, safe.
/-- The order in which partial sums are combined (R207): draw, step, side. -/
opaque sumOrder : Nat → Nat → Nat → Nat

-- Log entry 73: DESIGN CHOICE, safe.
/-- An MX element whose product with its block's scale exceeds FP32, widened (R205): format code, scale, element. -/
opaque wideOpen : Nat → Nat → Nat → BitVec 32

-- Log entry 12: DESIGN CHOICE, safe.
/-- The device identity: SHA-384 digest of the public key the SRAM-PUF derivation yields (R303). -/
opaque idDigest : BitVec 384

-- Log entry 12: DESIGN CHOICE, safe.
/-- SHA-384 of a byte string (R303 - R305, R375). -/
opaque sha384 : List Nat → BitVec 384

-- Log entry 13: DESIGN CHOICE, safe.
/-- Reply bytes the manual leaves to a standard it only names: protocol, request, draw number. -/
opaque standardReply : Nat → Nat → Nat → List Nat

-- Log entry 14: DESIGN CHOICE, safe.
/-- The `target` word of a QUEEN packet, whose subkinds the manual does not number (R277, R278): by message type, 0 an
update, 1 its acknowledgement, 2 a claim, 3 a heartbeat, 4 a loss vote, 5 a takeover, 6 the state copied to a
successor. -/
opaque queenTarget : Nat → BitVec 32

end Sys2Proof.Config
end

