-- ==== Sys2Proof/Machine/Regs.lean ====
section
/-!
DEFINITION. The register tables of the manual (R5, R394): one `Reg` per register table, with the masks its access
codes give, and one `Fld` per named field. `R.NAME` is a register, `F.NAME_field` a field of it.
-/
namespace Sys2Proof.Machine

/-- One register table. The register of block copy `i` and index `k` lies at
`base + i * blockStep + off + k * stride`. `special` lists reset values that differ from `reset`, by `i * count + k`.
The masks hold the bits of each access code of R5 that a write or a read acts on. -/
structure Reg where
  id : Nat
  base : Nat
  blockStep : Nat
  blocks : Nat
  off : Nat
  stride : Nat
  count : Nat
  reset : Nat
  special : List (Nat × Nat)
  rw : Nat
  w1c : Nat
  w1s : Nat
  rc : Nat
  deriving DecidableEq, Repr

/-- A field of a register: bits `[hi:lo]`. -/
structure Fld where
  reg : Reg
  hi : Nat
  lo : Nat
  deriving DecidableEq, Repr


/-! Registers of 02_addresses_domes_cells.md -/

def R.GLOBAL_ILR_BASE : Reg := ⟨0, 0, 0, 1, 0x400, 16, 8, 0, [], 0x7ffff, 0, 0, 0⟩
def F.GLOBAL_ILR_BASE_base_64m : Fld := ⟨R.GLOBAL_ILR_BASE, 18, 0⟩
def R.GLOBAL_ILR_SIZE : Reg := ⟨1, 0, 0, 1, 0x404, 16, 8, 0, [], 0x7ffff, 0, 0, 0⟩
def F.GLOBAL_ILR_SIZE_size_64m : Fld := ⟨R.GLOBAL_ILR_SIZE, 18, 0⟩
def R.GLOBAL_ILR_CTL : Reg := ⟨2, 0, 0, 1, 0x408, 16, 8, 0, [], 3, 0, 0, 0⟩
def F.GLOBAL_ILR_CTL_affinity : Fld := ⟨R.GLOBAL_ILR_CTL, 1, 1⟩
def F.GLOBAL_ILR_CTL_enable : Fld := ⟨R.GLOBAL_ILR_CTL, 0, 0⟩
def R.GLOBAL_HIVE_BASE : Reg := ⟨3, 0, 0, 1, 0x480, 0, 1, 0, [], 0x7ffff, 0, 0, 0⟩
def F.GLOBAL_HIVE_BASE_base_64m : Fld := ⟨R.GLOBAL_HIVE_BASE, 18, 0⟩
def R.GLOBAL_IL_STATUS : Reg := ⟨4, 0, 0, 1, 0x484, 0, 1, 0, [], 0, 0, 0, 0⟩
def F.GLOBAL_IL_STATUS_layout_fallback : Fld := ⟨R.GLOBAL_IL_STATUS, 24, 24⟩
def F.GLOBAL_IL_STATUS_mem_top_64m : Fld := ⟨R.GLOBAL_IL_STATUS, 23, 5⟩
def F.GLOBAL_IL_STATUS_chan_groups : Fld := ⟨R.GLOBAL_IL_STATUS, 4, 2⟩
def F.GLOBAL_IL_STATUS_layout_error : Fld := ⟨R.GLOBAL_IL_STATUS, 1, 1⟩
def F.GLOBAL_IL_STATUS_locked : Fld := ⟨R.GLOBAL_IL_STATUS, 0, 0⟩
def R.GLOBAL_IL_LOCK : Reg := ⟨5, 0, 0, 1, 0x488, 0, 1, 0, [], 0, 0, 0, 0⟩
def F.GLOBAL_IL_LOCK_lock : Fld := ⟨R.GLOBAL_IL_LOCK, 0, 0⟩
def R.CXLP_CTXT_KEY : Reg := ⟨6, 0x4000000, 0x10000, 16, 0x800, 0, 1, 0, [], 0x7ffff, 0, 0, 0⟩
def F.CXLP_CTXT_KEY_decoder : Fld := ⟨R.CXLP_CTXT_KEY, 18, 14⟩
def F.CXLP_CTXT_KEY_link : Fld := ⟨R.CXLP_CTXT_KEY, 13, 13⟩
def F.CXLP_CTXT_KEY_src_kind : Fld := ⟨R.CXLP_CTXT_KEY, 12, 12⟩
def F.CXLP_CTXT_KEY_src_id : Fld := ⟨R.CXLP_CTXT_KEY, 11, 0⟩
def R.CXLP_CTXT_VAL : Reg := ⟨7, 0x4000000, 0x10000, 16, 0x804, 0, 1, 0, [], 0xffff, 0, 0, 0⟩
def F.CXLP_CTXT_VAL_ctx : Fld := ⟨R.CXLP_CTXT_VAL, 15, 0⟩
def R.CXLP_CTXT_CMD : Reg := ⟨8, 0x4000000, 0x10000, 16, 0x808, 0, 1, 0, [], 0, 0, 0, 0⟩
def F.CXLP_CTXT_CMD_busy : Fld := ⟨R.CXLP_CTXT_CMD, 31, 31⟩
def F.CXLP_CTXT_CMD_op : Fld := ⟨R.CXLP_CTXT_CMD, 13, 12⟩
def F.CXLP_CTXT_CMD_index : Fld := ⟨R.CXLP_CTXT_CMD, 9, 0⟩
def R.CXLP_CTXT_STATUS : Reg := ⟨9, 0x4000000, 0x10000, 16, 0x80c, 0, 1, 0, [], 0, 7, 0, 0⟩
def F.CXLP_CTXT_STATUS_entry_valid : Fld := ⟨R.CXLP_CTXT_STATUS, 3, 3⟩
def F.CXLP_CTXT_STATUS_dome_not_active : Fld := ⟨R.CXLP_CTXT_STATUS, 2, 2⟩
def F.CXLP_CTXT_STATUS_dome_zero : Fld := ⟨R.CXLP_CTXT_STATUS, 1, 1⟩
def F.CXLP_CTXT_STATUS_dup_key : Fld := ⟨R.CXLP_CTXT_STATUS, 0, 0⟩
def R.CXLP_CTXT_MISS_CNT : Reg := ⟨10, 0x4000000, 0x10000, 16, 0x810, 0, 1, 0, [], 0, 0, 0, 0xffffffff⟩
def F.CXLP_CTXT_MISS_CNT_miss_count : Fld := ⟨R.CXLP_CTXT_MISS_CNT, 31, 0⟩

/-! Registers of 03_dram_channels.md -/

def R.DCH_CFG : Reg := ⟨11, 0x1000000, 0x10000, 24, 0, 0, 1, 0, [], 0x3fc7, 0, 0, 0⟩
def F.DCH_CFG_row_bits : Fld := ⟨R.DCH_CFG, 13, 9⟩
def F.DCH_CFG_lrank_log2 : Fld := ⟨R.DCH_CFG, 8, 6⟩
def F.DCH_CFG_dpc : Fld := ⟨R.DCH_CFG, 3, 3⟩
def F.DCH_CFG_speed : Fld := ⟨R.DCH_CFG, 2, 2⟩
def F.DCH_CFG_maint : Fld := ⟨R.DCH_CFG, 1, 1⟩
def F.DCH_CFG_enable : Fld := ⟨R.DCH_CFG, 0, 0⟩
def R.DCH_STATUS : Reg := ⟨12, 0x1000000, 0x10000, 24, 4, 0, 1, 0, [], 0, 0x10, 0, 0⟩
def F.DCH_STATUS_ref_debt : Fld := ⟨R.DCH_STATUS, 10, 8⟩
def F.DCH_STATUS_cfg_error : Fld := ⟨R.DCH_STATUS, 4, 4⟩
def F.DCH_STATUS_failed : Fld := ⟨R.DCH_STATUS, 3, 3⟩
def F.DCH_STATUS_maint_active : Fld := ⟨R.DCH_STATUS, 2, 2⟩
def F.DCH_STATUS_self_refresh : Fld := ⟨R.DCH_STATUS, 1, 1⟩
def F.DCH_STATUS_in_service : Fld := ⟨R.DCH_STATUS, 0, 0⟩
def R.DCH_TIMING0 : Reg := ⟨13, 0x1000000, 0x10000, 24, 0x10, 0, 1, 0x40403e40, [], 0xffffffff, 0, 0, 0⟩
def F.DCH_TIMING0_trp : Fld := ⟨R.DCH_TIMING0, 31, 24⟩
def F.DCH_TIMING0_trcd : Fld := ⟨R.DCH_TIMING0, 23, 16⟩
def F.DCH_TIMING0_cwl : Fld := ⟨R.DCH_TIMING0, 15, 8⟩
def F.DCH_TIMING0_cl : Fld := ⟨R.DCH_TIMING0, 7, 0⟩
def R.DCH_TIMING1 : Reg := ⟨14, 0x1000000, 0x10000, 24, 0x14, 0, 1, 0xf18080, [], 0x3ffffff, 0, 0, 0⟩
def F.DCH_TIMING1_trtp : Fld := ⟨R.DCH_TIMING1, 25, 19⟩
def F.DCH_TIMING1_trc : Fld := ⟨R.DCH_TIMING1, 18, 9⟩
def F.DCH_TIMING1_tras : Fld := ⟨R.DCH_TIMING1, 8, 0⟩
def R.DCH_TIMING2 : Reg := ⟨15, 0x1000000, 0x10000, 24, 0x18, 0, 1, 0x5050878, [], 0x1fffffff, 0, 0, 0⟩
def F.DCH_TIMING2_tfaw : Fld := ⟨R.DCH_TIMING2, 28, 21⟩
def F.DCH_TIMING2_trrd_l : Fld := ⟨R.DCH_TIMING2, 20, 14⟩
def F.DCH_TIMING2_trrd_s : Fld := ⟨R.DCH_TIMING2, 13, 8⟩
def F.DCH_TIMING2_twr : Fld := ⟨R.DCH_TIMING2, 7, 0⟩
def R.DCH_TIMING3 : Reg := ⟨16, 0x1000000, 0x10000, 24, 0x1c, 0, 1, 0x14a0508, [], 0x7ffffff, 0, 0, 0⟩
def F.DCH_TIMING3_twtr_s : Fld := ⟨R.DCH_TIMING3, 26, 21⟩
def F.DCH_TIMING3_tccd_l_wr : Fld := ⟨R.DCH_TIMING3, 20, 13⟩
def F.DCH_TIMING3_tccd_l : Fld := ⟨R.DCH_TIMING3, 12, 6⟩
def F.DCH_TIMING3_tccd_s : Fld := ⟨R.DCH_TIMING3, 5, 0⟩
def R.DCH_TIMING4 : Reg := ⟨17, 0x1000000, 0x10000, 24, 0x20, 0, 1, 0xf08628, [], 0x1ffffff, 0, 0, 0⟩
def F.DCH_TIMING4_trefsbrd : Fld := ⟨R.DCH_TIMING4, 24, 17⟩
def F.DCH_TIMING4_trtrs : Fld := ⟨R.DCH_TIMING4, 16, 13⟩
def F.DCH_TIMING4_trtw : Fld := ⟨R.DCH_TIMING4, 12, 7⟩
def F.DCH_TIMING4_twtr_l : Fld := ⟨R.DCH_TIMING4, 6, 0⟩
def R.DCH_TIMING5 : Reg := ⟨18, 0x1000000, 0x10000, 24, 0x24, 0, 1, 0x334208, [], 0x7fffff, 0, 0, 0⟩
def F.DCH_TIMING5_trfc1 : Fld := ⟨R.DCH_TIMING5, 22, 11⟩
def F.DCH_TIMING5_trfcsb : Fld := ⟨R.DCH_TIMING5, 10, 0⟩
def R.DCH_REF_CTL : Reg := ⟨19, 0x1000000, 0x10000, 24, 0x30, 0, 1, 0x120f3c, [], 0x373fff, 0, 0, 0⟩
def F.DCH_REF_CTL_force_2x : Fld := ⟨R.DCH_REF_CTL, 21, 21⟩
def F.DCH_REF_CTL_temp_auto : Fld := ⟨R.DCH_REF_CTL, 20, 20⟩
def F.DCH_REF_CTL_postpone_max : Fld := ⟨R.DCH_REF_CTL, 18, 16⟩
def F.DCH_REF_CTL_trefi : Fld := ⟨R.DCH_REF_CTL, 13, 0⟩
def R.DCH_NBR_CTL : Reg := ⟨20, 0x1000000, 0x10000, 24, 0x34, 0, 1, 0x49, [], 0x7f, 0, 0, 0⟩
def F.DCH_NBR_CTL_enable : Fld := ⟨R.DCH_NBR_CTL, 6, 6⟩
def F.DCH_NBR_CTL_radius2 : Fld := ⟨R.DCH_NBR_CTL, 5, 5⟩
def F.DCH_NBR_CTL_k : Fld := ⟨R.DCH_NBR_CTL, 4, 0⟩
def R.DCH_SCHED_CTL : Reg := ⟨21, 0x1000000, 0x10000, 24, 0x40, 0, 1, 0x4051028, [], 0xfff73f3f, 0, 0, 0⟩
def F.DCH_SCHED_CTL_row_close_idle : Fld := ⟨R.DCH_SCHED_CTL, 31, 20⟩
def F.DCH_SCHED_CTL_drain_urg : Fld := ⟨R.DCH_SCHED_CTL, 18, 16⟩
def F.DCH_SCHED_CTL_wq_low : Fld := ⟨R.DCH_SCHED_CTL, 13, 8⟩
def F.DCH_SCHED_CTL_wq_high : Fld := ⟨R.DCH_SCHED_CTL, 5, 0⟩
def R.DCH_AGE_CAP : Reg := ⟨22, 0x1000000, 0x10000, 24, 0x44, 0, 1, 0x1000, [], 0xffff, 0, 0, 0⟩
def F.DCH_AGE_CAP_age_cap : Fld := ⟨R.DCH_AGE_CAP, 15, 0⟩
def R.DCH_QOS_IDX : Reg := ⟨23, 0x1000000, 0x10000, 24, 0x48, 0, 1, 0, [], 0x3f, 0, 0, 0⟩
def F.DCH_QOS_IDX_class : Fld := ⟨R.DCH_QOS_IDX, 5, 0⟩
def R.DCH_QOS_VAL : Reg := ⟨24, 0x1000000, 0x10000, 24, 0x4c, 0, 1, 0x20190, [], 0x7ffff, 0, 0, 0⟩
def F.DCH_QOS_VAL_u_floor : Fld := ⟨R.DCH_QOS_VAL, 18, 16⟩
def F.DCH_QOS_VAL_target : Fld := ⟨R.DCH_QOS_VAL, 15, 0⟩
def R.DCH_CA_CTL : Reg := ⟨25, 0x1000000, 0x10000, 24, 0x60, 0, 1, 0x82, [], 0xf7, 0, 0, 0⟩
def F.DCH_CA_CTL_fail_limit : Fld := ⟨R.DCH_CA_CTL, 7, 4⟩
def F.DCH_CA_CTL_retry_limit : Fld := ⟨R.DCH_CA_CTL, 2, 0⟩
def R.DCH_CA_LOG_LO : Reg := ⟨26, 0x1000000, 0x10000, 24, 0x64, 0, 1, 0, [], 0, 0, 0, 0⟩
def F.DCH_CA_LOG_LO_line_lo : Fld := ⟨R.DCH_CA_LOG_LO, 31, 0⟩
def R.DCH_CA_LOG_HI : Reg := ⟨27, 0x1000000, 0x10000, 24, 0x68, 0, 1, 0, [], 0, 0x40, 0, 0⟩
def F.DCH_CA_LOG_HI_ctx : Fld := ⟨R.DCH_CA_LOG_HI, 31, 16⟩
def F.DCH_CA_LOG_HI_valid : Fld := ⟨R.DCH_CA_LOG_HI, 6, 6⟩
def F.DCH_CA_LOG_HI_kind : Fld := ⟨R.DCH_CA_LOG_HI, 5, 3⟩
def F.DCH_CA_LOG_HI_subchannel : Fld := ⟨R.DCH_CA_LOG_HI, 2, 2⟩
def F.DCH_CA_LOG_HI_line_hi : Fld := ⟨R.DCH_CA_LOG_HI, 1, 0⟩
def R.DCH_CA_FAIL_CNT : Reg := ⟨28, 0x1000000, 0x10000, 24, 0x6c, 0, 1, 0, [], 0, 0, 0, 0xffffffff⟩
def F.DCH_CA_FAIL_CNT_retry_ok : Fld := ⟨R.DCH_CA_FAIL_CNT, 31, 16⟩
def F.DCH_CA_FAIL_CNT_final : Fld := ⟨R.DCH_CA_FAIL_CNT, 15, 0⟩
def R.DCH_TRAIN_CTL : Reg := ⟨29, 0x1000000, 0x10000, 24, 0x80, 0, 1, 0, [], 0, 0, 0, 0⟩
def F.DCH_TRAIN_CTL_full : Fld := ⟨R.DCH_TRAIN_CTL, 1, 1⟩
def F.DCH_TRAIN_CTL_start : Fld := ⟨R.DCH_TRAIN_CTL, 0, 0⟩
def R.DCH_TRAIN_STATUS : Reg := ⟨30, 0x1000000, 0x10000, 24, 0x84, 0, 1, 0, [], 0, 8, 0, 0⟩
def F.DCH_TRAIN_STATUS_slot1_ignored : Fld := ⟨R.DCH_TRAIN_STATUS, 23, 23⟩
def F.DCH_TRAIN_STATUS_cap_16g : Fld := ⟨R.DCH_TRAIN_STATUS, 22, 16⟩
def F.DCH_TRAIN_STATUS_lrank_log2 : Fld := ⟨R.DCH_TRAIN_STATUS, 15, 13⟩
def F.DCH_TRAIN_STATUS_row_bits : Fld := ⟨R.DCH_TRAIN_STATUS, 12, 8⟩
def F.DCH_TRAIN_STATUS_bin_8000 : Fld := ⟨R.DCH_TRAIN_STATUS, 7, 7⟩
def F.DCH_TRAIN_STATUS_mrdimm : Fld := ⟨R.DCH_TRAIN_STATUS, 6, 6⟩
def F.DCH_TRAIN_STATUS_dimms : Fld := ⟨R.DCH_TRAIN_STATUS, 5, 4⟩
def F.DCH_TRAIN_STATUS_refused : Fld := ⟨R.DCH_TRAIN_STATUS, 3, 3⟩
def F.DCH_TRAIN_STATUS_fail : Fld := ⟨R.DCH_TRAIN_STATUS, 2, 2⟩
def F.DCH_TRAIN_STATUS_pass : Fld := ⟨R.DCH_TRAIN_STATUS, 1, 1⟩
def F.DCH_TRAIN_STATUS_busy : Fld := ⟨R.DCH_TRAIN_STATUS, 0, 0⟩
def R.DCH_EVT_CNT0 : Reg := ⟨31, 0x1000000, 0x10000, 24, 0x90, 0, 1, 0, [], 0, 0, 0, 0xffffffff⟩
def F.DCH_EVT_CNT0_nbr_sets : Fld := ⟨R.DCH_EVT_CNT0, 31, 16⟩
def F.DCH_EVT_CNT0_inorder : Fld := ⟨R.DCH_EVT_CNT0, 15, 0⟩
def R.DCH_EVT_CNT1 : Reg := ⟨32, 0x1000000, 0x10000, 24, 0x94, 0, 1, 0, [], 0, 0, 0, 0xffffffff⟩
def F.DCH_EVT_CNT1_ref_postponed : Fld := ⟨R.DCH_EVT_CNT1, 31, 16⟩
def F.DCH_EVT_CNT1_maint_rej : Fld := ⟨R.DCH_EVT_CNT1, 15, 0⟩

/-! Registers of 04_stored_data_protection.md -/

def R.DCH_ECC_CTL : Reg := ⟨33, 0x1000000, 0x10000, 24, 0x100, 0, 1, 0x1100400, [], 0x1ffff00, 0, 0, 0⟩
def F.DCH_ECC_CTL_auto_remap : Fld := ⟨R.DCH_ECC_CTL, 24, 24⟩
def F.DCH_ECC_CTL_remap_threshold : Fld := ⟨R.DCH_ECC_CTL, 23, 16⟩
def F.DCH_ECC_CTL_ce_sticky : Fld := ⟨R.DCH_ECC_CTL, 15, 8⟩
def R.DCH_ERR_CNT0 : Reg := ⟨34, 0x1000000, 0x10000, 24, 0x104, 0, 1, 0, [], 0, 0, 0, 0xffffffff⟩
def F.DCH_ERR_CNT0_ce : Fld := ⟨R.DCH_ERR_CNT0, 31, 0⟩
def R.DCH_ERR_CNT1 : Reg := ⟨35, 0x1000000, 0x10000, 24, 0x108, 0, 1, 0, [], 0, 0, 0, 0xffffffff⟩
def F.DCH_ERR_CNT1_ue : Fld := ⟨R.DCH_ERR_CNT1, 31, 16⟩
def F.DCH_ERR_CNT1_ce_unlogged : Fld := ⟨R.DCH_ERR_CNT1, 15, 0⟩
def R.DCH_CEL_IDX : Reg := ⟨36, 0x1000000, 0x10000, 24, 0x110, 0, 1, 0, [], 7, 0, 0, 0⟩
def F.DCH_CEL_IDX_entry : Fld := ⟨R.DCH_CEL_IDX, 2, 0⟩
def R.DCH_CEL_LO : Reg := ⟨37, 0x1000000, 0x10000, 24, 0x114, 0, 1, 0, [], 0, 0, 0, 0⟩
def F.DCH_CEL_LO_line_lo : Fld := ⟨R.DCH_CEL_LO, 31, 0⟩
def R.DCH_CEL_HI : Reg := ⟨38, 0x1000000, 0x10000, 24, 0x118, 0, 1, 0, [], 0, 0x80000000, 0, 0⟩
def F.DCH_CEL_HI_valid : Fld := ⟨R.DCH_CEL_HI, 31, 31⟩
def F.DCH_CEL_HI_remapped : Fld := ⟨R.DCH_CEL_HI, 30, 30⟩
def F.DCH_CEL_HI_count : Fld := ⟨R.DCH_CEL_HI, 29, 22⟩
def F.DCH_CEL_HI_syndrome : Fld := ⟨R.DCH_CEL_HI, 21, 15⟩
def F.DCH_CEL_HI_word : Fld := ⟨R.DCH_CEL_HI, 14, 11⟩
def F.DCH_CEL_HI_line_hi : Fld := ⟨R.DCH_CEL_HI, 1, 0⟩
def R.DCH_REMAP_IDX : Reg := ⟨39, 0x1000000, 0x10000, 24, 0x120, 0, 1, 0, [], 0xf, 0, 0, 0⟩
def F.DCH_REMAP_IDX_entry : Fld := ⟨R.DCH_REMAP_IDX, 3, 0⟩
def R.DCH_REMAP_LO : Reg := ⟨40, 0x1000000, 0x10000, 24, 0x124, 0, 1, 0, [], 0xffffffff, 0, 0, 0⟩
def F.DCH_REMAP_LO_line_lo : Fld := ⟨R.DCH_REMAP_LO, 31, 0⟩
def R.DCH_REMAP_HI : Reg := ⟨41, 0x1000000, 0x10000, 24, 0x128, 0, 1, 0x100, [], 3, 0x8000000, 0, 0⟩
def F.DCH_REMAP_HI_busy : Fld := ⟨R.DCH_REMAP_HI, 31, 31⟩
def F.DCH_REMAP_HI_op : Fld := ⟨R.DCH_REMAP_HI, 30, 28⟩
def F.DCH_REMAP_HI_refused : Fld := ⟨R.DCH_REMAP_HI, 27, 27⟩
def F.DCH_REMAP_HI_auto : Fld := ⟨R.DCH_REMAP_HI, 26, 26⟩
def F.DCH_REMAP_HI_valid : Fld := ⟨R.DCH_REMAP_HI, 25, 25⟩
def F.DCH_REMAP_HI_free : Fld := ⟨R.DCH_REMAP_HI, 8, 4⟩
def F.DCH_REMAP_HI_line_hi : Fld := ⟨R.DCH_REMAP_HI, 1, 0⟩
def R.DCH_FRG_CTL : Reg := ⟨42, 0x1000000, 0x10000, 24, 0x140, 0, 1, 0x100001, [], 0xffff003, 0, 0, 0⟩
def F.DCH_FRG_CTL_interval : Fld := ⟨R.DCH_FRG_CTL, 27, 12⟩
def F.DCH_FRG_CTL_grant_wait : Fld := ⟨R.DCH_FRG_CTL, 2, 2⟩
def F.DCH_FRG_CTL_accel : Fld := ⟨R.DCH_FRG_CTL, 1, 1⟩
def F.DCH_FRG_CTL_enable : Fld := ⟨R.DCH_FRG_CTL, 0, 0⟩
def R.DCH_FRG_POS_LO : Reg := ⟨43, 0x1000000, 0x10000, 24, 0x144, 0, 1, 0, [], 0, 0, 0, 0⟩
def F.DCH_FRG_POS_LO_pos_lo : Fld := ⟨R.DCH_FRG_POS_LO, 31, 0⟩
def R.DCH_FRG_POS_HI : Reg := ⟨44, 0x1000000, 0x10000, 24, 0x148, 0, 1, 0, [], 0, 0, 0, 0⟩
def F.DCH_FRG_POS_HI_laps : Fld := ⟨R.DCH_FRG_POS_HI, 31, 16⟩
def F.DCH_FRG_POS_HI_pos_hi : Fld := ⟨R.DCH_FRG_POS_HI, 1, 0⟩
def R.DCH_FRG_LAP : Reg := ⟨45, 0x1000000, 0x10000, 24, 0x14c, 0, 1, 0, [], 0, 0, 0, 0⟩
def F.DCH_FRG_LAP_last_lap_ms : Fld := ⟨R.DCH_FRG_LAP, 31, 0⟩
def R.DCH_FRG_ELAPSED : Reg := ⟨46, 0x1000000, 0x10000, 24, 0x150, 0, 1, 0, [], 0, 0, 0, 0⟩
def F.DCH_FRG_ELAPSED_cur_ms : Fld := ⟨R.DCH_FRG_ELAPSED, 31, 0⟩
def R.DCH_RAW_CTL : Reg := ⟨47, 0x1000000, 0x10000, 24, 0x180, 0, 1, 0, [], 3, 0x800000, 0, 0⟩
def F.DCH_RAW_CTL_busy : Fld := ⟨R.DCH_RAW_CTL, 31, 31⟩
def F.DCH_RAW_CTL_op : Fld := ⟨R.DCH_RAW_CTL, 26, 24⟩
def F.DCH_RAW_CTL_refused : Fld := ⟨R.DCH_RAW_CTL, 23, 23⟩
def F.DCH_RAW_CTL_addr_hi : Fld := ⟨R.DCH_RAW_CTL, 1, 0⟩
def R.DCH_RAW_ADDR : Reg := ⟨48, 0x1000000, 0x10000, 24, 0x184, 0, 1, 0, [], 0xffffffff, 0, 0, 0⟩
def F.DCH_RAW_ADDR_addr_lo : Fld := ⟨R.DCH_RAW_ADDR, 31, 0⟩
def R.DCH_RAW_D : Reg := ⟨49, 0x1000000, 0x10000, 24, 0x200, 4, 16, 0, [], 0xffffffff, 0, 0, 0⟩
def F.DCH_RAW_D_data : Fld := ⟨R.DCH_RAW_D, 31, 0⟩
def R.DCH_RAW_M : Reg := ⟨50, 0x1000000, 0x10000, 24, 0x240, 4, 16, 0, [], 0xff, 0, 0, 0⟩
def F.DCH_RAW_M_action : Fld := ⟨R.DCH_RAW_M, 17, 16⟩
def F.DCH_RAW_M_syndrome : Fld := ⟨R.DCH_RAW_M, 14, 8⟩
def F.DCH_RAW_M_poison : Fld := ⟨R.DCH_RAW_M, 7, 7⟩
def F.DCH_RAW_M_check : Fld := ⟨R.DCH_RAW_M, 6, 0⟩
def R.GLOBAL_VMAP_CTL : Reg := ⟨51, 0, 0, 1, 0x490, 0, 1, 0, [], 0, 0, 2, 0⟩
def F.GLOBAL_VMAP_CTL_zero : Fld := ⟨R.GLOBAL_VMAP_CTL, 2, 2⟩
def F.GLOBAL_VMAP_CTL_on : Fld := ⟨R.GLOBAL_VMAP_CTL, 1, 1⟩
def R.GLOBAL_VMAP_STATUS : Reg := ⟨52, 0, 0, 1, 0x494, 0, 1, 0, [], 0, 0x10, 0, 0xffff0000⟩
def F.GLOBAL_VMAP_STATUS_corrupt_cnt : Fld := ⟨R.GLOBAL_VMAP_STATUS, 31, 16⟩
def F.GLOBAL_VMAP_STATUS_refused : Fld := ⟨R.GLOBAL_VMAP_STATUS, 4, 4⟩
def F.GLOBAL_VMAP_STATUS_zero_done : Fld := ⟨R.GLOBAL_VMAP_STATUS, 3, 3⟩
def F.GLOBAL_VMAP_STATUS_zero_busy : Fld := ⟨R.GLOBAL_VMAP_STATUS, 2, 2⟩
def F.GLOBAL_VMAP_STATUS_recovery : Fld := ⟨R.GLOBAL_VMAP_STATUS, 1, 1⟩
def F.GLOBAL_VMAP_STATUS_on : Fld := ⟨R.GLOBAL_VMAP_STATUS, 0, 0⟩
def R.GLOBAL_VMAP_BAD : Reg := ⟨53, 0, 0, 1, 0x498, 0, 1, 0, [], 0, 0, 0, 0⟩
def F.GLOBAL_VMAP_BAD_map_line : Fld := ⟨R.GLOBAL_VMAP_BAD, 29, 0⟩

/-! Registers of 05_honey_cache_and_page_heat.md -/

def R.HONEY_CTL : Reg := ⟨54, 0x2000000, 0, 1, 0, 0, 1, 7, [], 7, 8, 0, 0⟩
def F.HONEY_CTL_refused : Fld := ⟨R.HONEY_CTL, 3, 3⟩
def F.HONEY_CTL_half_b : Fld := ⟨R.HONEY_CTL, 2, 2⟩
def F.HONEY_CTL_half_a : Fld := ⟨R.HONEY_CTL, 1, 1⟩
def F.HONEY_CTL_enable : Fld := ⟨R.HONEY_CTL, 0, 0⟩
def R.HONEY_STATUS : Reg := ⟨55, 0x2000000, 0, 1, 4, 0, 1, 0, [], 0, 0, 0, 0⟩
def F.HONEY_STATUS_change_busy : Fld := ⟨R.HONEY_STATUS, 3, 3⟩
def F.HONEY_STATUS_b_on : Fld := ⟨R.HONEY_STATUS, 2, 2⟩
def F.HONEY_STATUS_a_on : Fld := ⟨R.HONEY_STATUS, 1, 1⟩
def F.HONEY_STATUS_clear_done : Fld := ⟨R.HONEY_STATUS, 0, 0⟩
def R.HONEY_WAY_IDX : Reg := ⟨56, 0x2000000, 0, 1, 0x10, 0, 1, 0, [], 0xfff, 0, 0, 0⟩
def F.HONEY_WAY_IDX_dome : Fld := ⟨R.HONEY_WAY_IDX, 11, 0⟩
def R.HONEY_WAY_VAL : Reg := ⟨57, 0x2000000, 0, 1, 0x14, 0, 1, 3, [], 0x8fffffff, 0, 0, 0⟩
def F.HONEY_WAY_VAL_engine_fill : Fld := ⟨R.HONEY_WAY_VAL, 31, 31⟩
def F.HONEY_WAY_VAL_pin_quota : Fld := ⟨R.HONEY_WAY_VAL, 27, 16⟩
def F.HONEY_WAY_VAL_alloc_mask : Fld := ⟨R.HONEY_WAY_VAL, 15, 0⟩
def R.HONEY_PIN_CTL : Reg := ⟨58, 0x2000000, 0, 1, 0x20, 0, 1, 8, [], 0xf, 0, 0, 0⟩
def F.HONEY_PIN_CTL_pinned_cells : Fld := ⟨R.HONEY_PIN_CTL, 31, 16⟩
def F.HONEY_PIN_CTL_max_pin_ways : Fld := ⟨R.HONEY_PIN_CTL, 3, 0⟩
def R.HONEY_HEAT_CTL : Reg := ⟨59, 0x2000000, 0, 1, 0x40, 0, 1, 0x11109, [], 0xffff1f, 0, 0, 0⟩
def F.HONEY_HEAT_CTL_w_engine : Fld := ⟨R.HONEY_HEAT_CTL, 23, 20⟩
def F.HONEY_HEAT_CTL_w_remote : Fld := ⟨R.HONEY_HEAT_CTL, 19, 16⟩
def F.HONEY_HEAT_CTL_w_host_wr : Fld := ⟨R.HONEY_HEAT_CTL, 15, 12⟩
def F.HONEY_HEAT_CTL_w_host_rd : Fld := ⟨R.HONEY_HEAT_CTL, 11, 8⟩
def F.HONEY_HEAT_CTL_sample_shift : Fld := ⟨R.HONEY_HEAT_CTL, 4, 1⟩
def F.HONEY_HEAT_CTL_enable : Fld := ⟨R.HONEY_HEAT_CTL, 0, 0⟩
def R.HONEY_HEAT_EPOCH : Reg := ⟨60, 0x2000000, 0, 1, 0x44, 0, 1, 0x100000, [], 0xffffffff, 0, 0, 0⟩
def F.HONEY_HEAT_EPOCH_length : Fld := ⟨R.HONEY_HEAT_EPOCH, 31, 0⟩
def R.HONEY_HEAT_STATUS : Reg := ⟨61, 0x2000000, 0, 1, 0x48, 0, 1, 0, [], 0, 2, 0, 0xffff0000⟩
def F.HONEY_HEAT_STATUS_dropped : Fld := ⟨R.HONEY_HEAT_STATUS, 31, 16⟩
def F.HONEY_HEAT_STATUS_late : Fld := ⟨R.HONEY_HEAT_STATUS, 1, 1⟩
def F.HONEY_HEAT_STATUS_sweep_busy : Fld := ⟨R.HONEY_HEAT_STATUS, 0, 0⟩
def R.HONEY_HOT_CTL : Reg := ⟨62, 0x2000000, 0, 1, 0x60, 0, 1, 0, [], 0x1fff1fff, 0x20000000, 0, 0⟩
def F.HONEY_HOT_CTL_busy : Fld := ⟨R.HONEY_HOT_CTL, 31, 31⟩
def F.HONEY_HOT_CTL_start : Fld := ⟨R.HONEY_HOT_CTL, 30, 30⟩
def F.HONEY_HOT_CTL_refused : Fld := ⟨R.HONEY_HOT_CTL, 29, 29⟩
def F.HONEY_HOT_CTL_target_kind : Fld := ⟨R.HONEY_HOT_CTL, 28, 28⟩
def F.HONEY_HOT_CTL_target : Fld := ⟨R.HONEY_HOT_CTL, 27, 16⟩
def F.HONEY_HOT_CTL_n : Fld := ⟨R.HONEY_HOT_CTL, 12, 0⟩
def R.HONEY_HOT_MIN : Reg := ⟨63, 0x2000000, 0, 1, 0x64, 0, 1, 0, [], 0xffff, 0, 0, 0⟩
def F.HONEY_HOT_MIN_min_heat : Fld := ⟨R.HONEY_HOT_MIN, 15, 0⟩
def R.HONEY_HOT_DST_LO : Reg := ⟨64, 0x2000000, 0, 1, 0x68, 0, 1, 0, [], 0xffffffc0, 0, 0, 0⟩
def F.HONEY_HOT_DST_LO_addr_lo : Fld := ⟨R.HONEY_HOT_DST_LO, 31, 6⟩
def R.HONEY_HOT_DST_HI : Reg := ⟨65, 0x2000000, 0, 1, 0x6c, 0, 1, 0, [], 0x1fff, 0, 0, 0⟩
def F.HONEY_HOT_DST_HI_addr_hi : Fld := ⟨R.HONEY_HOT_DST_HI, 12, 0⟩
def R.HONEY_HOT_STATUS : Reg := ⟨66, 0x2000000, 0, 1, 0x70, 0, 1, 0, [], 0, 0, 0, 0⟩
def F.HONEY_HOT_STATUS_done : Fld := ⟨R.HONEY_HOT_STATUS, 13, 13⟩
def F.HONEY_HOT_STATUS_count : Fld := ⟨R.HONEY_HOT_STATUS, 12, 0⟩
def R.HONEY_MIG_CTL : Reg := ⟨67, 0x2000000, 0, 1, 0x80, 0, 1, 0x3e80404, [], 0xffff7fff, 0, 0, 0⟩
def F.HONEY_MIG_CTL_mirror_timeout : Fld := ⟨R.HONEY_MIG_CTL, 31, 16⟩
def F.HONEY_MIG_CTL_final_lines : Fld := ⟨R.HONEY_MIG_CTL, 14, 4⟩
def F.HONEY_MIG_CTL_max_passes : Fld := ⟨R.HONEY_MIG_CTL, 3, 0⟩
def R.HONEY_MIG_STATUS : Reg := ⟨68, 0x2000000, 0, 1, 0x84, 0, 1, 0, [], 0, 0, 0, 0xffff0000⟩
def F.HONEY_MIG_STATUS_timed_out : Fld := ⟨R.HONEY_MIG_STATUS, 31, 16⟩
def F.HONEY_MIG_STATUS_slot_busy : Fld := ⟨R.HONEY_MIG_STATUS, 15, 0⟩
def R.HONEY_HIT_CNT : Reg := ⟨69, 0x2000000, 0, 1, 0xa0, 0, 1, 0, [], 0, 0, 0, 0xffffffff⟩
def F.HONEY_HIT_CNT_hits : Fld := ⟨R.HONEY_HIT_CNT, 31, 0⟩
def R.HONEY_MISS_CNT : Reg := ⟨70, 0x2000000, 0, 1, 0xa4, 0, 1, 0, [], 0, 0, 0, 0xffffffff⟩
def F.HONEY_MISS_CNT_misses : Fld := ⟨R.HONEY_MISS_CNT, 31, 0⟩

/-! Registers of 06_coherence_home.md -/

def R.SNOOP_CTL : Reg := ⟨71, 0x2100000, 0, 1, 0, 0, 1, 0x1401, [], 0xff01, 0, 0, 0⟩
def F.SNOOP_CTL_bi_timeout : Fld := ⟨R.SNOOP_CTL, 15, 8⟩
def F.SNOOP_CTL_enable : Fld := ⟨R.SNOOP_CTL, 0, 0⟩
def R.SNOOP_STATUS : Reg := ⟨72, 0x2100000, 0, 1, 4, 0, 1, 0, [], 0, 3, 0, 0⟩
def F.SNOOP_STATUS_entry_ue : Fld := ⟨R.SNOOP_STATUS, 1, 1⟩
def F.SNOOP_STATUS_refused : Fld := ⟨R.SNOOP_STATUS, 0, 0⟩
def R.SNOOP_AGENT_IDX : Reg := ⟨73, 0x2100000, 0, 1, 0x10, 0, 1, 0, [], 0x1f, 0, 0, 0⟩
def F.SNOOP_AGENT_IDX_agent : Fld := ⟨R.SNOOP_AGENT_IDX, 4, 0⟩
def R.SNOOP_AGENT_CFG : Reg := ⟨74, 0x2100000, 0, 1, 0x14, 0, 1, 0, [], 0x803e1fff, 0, 0, 0⟩
def F.SNOOP_AGENT_CFG_enable : Fld := ⟨R.SNOOP_AGENT_CFG, 31, 31⟩
def F.SNOOP_AGENT_CFG_down : Fld := ⟨R.SNOOP_AGENT_CFG, 30, 30⟩
def F.SNOOP_AGENT_CFG_sweep_busy : Fld := ⟨R.SNOOP_AGENT_CFG, 29, 29⟩
def F.SNOOP_AGENT_CFG_port : Fld := ⟨R.SNOOP_AGENT_CFG, 21, 18⟩
def F.SNOOP_AGENT_CFG_link : Fld := ⟨R.SNOOP_AGENT_CFG, 17, 17⟩
def F.SNOOP_AGENT_CFG_src_kind : Fld := ⟨R.SNOOP_AGENT_CFG, 12, 12⟩
def F.SNOOP_AGENT_CFG_src_id : Fld := ⟨R.SNOOP_AGENT_CFG, 11, 0⟩
def R.SNOOP_AGENT_OCC : Reg := ⟨75, 0x2100000, 0, 1, 0x18, 0, 1, 0, [], 0, 0, 0, 0⟩
def F.SNOOP_AGENT_OCC_valid : Fld := ⟨R.SNOOP_AGENT_OCC, 19, 0⟩
def R.SNOOP_AGENT_EM : Reg := ⟨76, 0x2100000, 0, 1, 0x1c, 0, 1, 0, [], 0, 0, 0, 0⟩
def F.SNOOP_AGENT_EM_em : Fld := ⟨R.SNOOP_AGENT_EM, 19, 0⟩
def R.SNOOP_EVT_CNT0 : Reg := ⟨77, 0x2100000, 0, 1, 0x30, 0, 1, 0, [], 0, 0, 0, 0xffffffff⟩
def F.SNOOP_EVT_CNT0_bi_timeouts : Fld := ⟨R.SNOOP_EVT_CNT0, 31, 16⟩
def F.SNOOP_EVT_CNT0_evictions : Fld := ⟨R.SNOOP_EVT_CNT0, 15, 0⟩
def R.SNOOP_EVT_CNT1 : Reg := ⟨78, 0x2100000, 0, 1, 0x34, 0, 1, 0, [], 0, 0, 0, 0xffffffff⟩
def F.SNOOP_EVT_CNT1_bisnp_sent : Fld := ⟨R.SNOOP_EVT_CNT1, 31, 0⟩
def R.SNOOP_EVT_CNT2 : Reg := ⟨79, 0x2100000, 0, 1, 0x38, 0, 1, 0, [], 0, 0, 0, 0xffffffff⟩
def F.SNOOP_EVT_CNT2_late_birsp : Fld := ⟨R.SNOOP_EVT_CNT2, 31, 24⟩
def F.SNOOP_EVT_CNT2_odd_meta : Fld := ⟨R.SNOOP_EVT_CNT2, 23, 16⟩
def F.SNOOP_EVT_CNT2_grantless : Fld := ⟨R.SNOOP_EVT_CNT2, 15, 0⟩
def R.SNOOP_POL_IDX : Reg := ⟨80, 0x2100000, 0, 1, 0x40, 0, 1, 0, [], 0xfff, 0, 0, 0⟩
def F.SNOOP_POL_IDX_dome : Fld := ⟨R.SNOOP_POL_IDX, 11, 0⟩
def R.SNOOP_POL_VAL : Reg := ⟨81, 0x2100000, 0, 1, 0x44, 0, 1, 0, [], 1, 0, 0, 0⟩
def F.SNOOP_POL_VAL_keep_on_down : Fld := ⟨R.SNOOP_POL_VAL, 0, 0⟩
def R.SNOOP_TO_LOG_LO : Reg := ⟨82, 0x2100000, 0, 1, 0x50, 0, 1, 0, [], 0, 0, 0, 0⟩
def F.SNOOP_TO_LOG_LO_line_lo : Fld := ⟨R.SNOOP_TO_LOG_LO, 31, 0⟩
def R.SNOOP_TO_LOG_HI : Reg := ⟨83, 0x2100000, 0, 1, 0x54, 0, 1, 0, [], 0, 0x80000000, 0, 0⟩
def F.SNOOP_TO_LOG_HI_valid : Fld := ⟨R.SNOOP_TO_LOG_HI, 31, 31⟩
def F.SNOOP_TO_LOG_HI_agent : Fld := ⟨R.SNOOP_TO_LOG_HI, 30, 26⟩
def F.SNOOP_TO_LOG_HI_line_hi : Fld := ⟨R.SNOOP_TO_LOG_HI, 6, 0⟩

/-! Registers of 07_command_queues.md -/

def R.QCTL_CTL : Reg := ⟨84, 0x6000000, 0, 1, 0, 0, 1, 0, [], 0, 0, 1, 0⟩
def F.QCTL_CTL_enable : Fld := ⟨R.QCTL_CTL, 0, 0⟩
def R.QCTL_STATUS : Reg := ⟨85, 0x6000000, 0, 1, 4, 0, 1, 0, [], 0, 0x80000000, 0, 0⟩
def F.QCTL_STATUS_refused : Fld := ⟨R.QCTL_STATUS, 31, 31⟩
def F.QCTL_STATUS_inflight : Fld := ⟨R.QCTL_STATUS, 14, 0⟩
def R.QCTL_DESC_BASE_LO : Reg := ⟨86, 0x6000000, 0, 1, 8, 0, 1, 0, [], 0xffff0000, 0, 0, 0⟩
def F.QCTL_DESC_BASE_LO_base_lo : Fld := ⟨R.QCTL_DESC_BASE_LO, 31, 16⟩
def R.QCTL_DESC_BASE_HI : Reg := ⟨87, 0x6000000, 0, 1, 0xc, 0, 1, 0, [], 0x1fff, 0, 0, 0⟩
def F.QCTL_DESC_BASE_HI_base_hi : Fld := ⟨R.QCTL_DESC_BASE_HI, 12, 0⟩
def R.QCTL_QIDX : Reg := ⟨88, 0x6000000, 0, 1, 0x10, 0, 1, 0, [], 0x3ffff, 0, 0, 0⟩
def F.QCTL_QIDX_queue : Fld := ⟨R.QCTL_QIDX, 17, 0⟩
def R.QCTL_QINFO : Reg := ⟨89, 0x6000000, 0, 1, 0x14, 0, 1, 0, [], 0, 0, 0, 0⟩
def F.QCTL_QINFO_state : Fld := ⟨R.QCTL_QINFO, 31, 30⟩
def F.QCTL_QINFO_phase : Fld := ⟨R.QCTL_QINFO, 29, 29⟩
def F.QCTL_QINFO_dome : Fld := ⟨R.QCTL_QINFO, 28, 17⟩
def F.QCTL_QINFO_inflight : Fld := ⟨R.QCTL_QINFO, 11, 0⟩
def R.QCTL_QPTR : Reg := ⟨90, 0x6000000, 0, 1, 0x18, 0, 1, 0, [], 0, 0, 0, 0⟩
def F.QCTL_QPTR_tail : Fld := ⟨R.QCTL_QPTR, 31, 16⟩
def F.QCTL_QPTR_head : Fld := ⟨R.QCTL_QPTR, 15, 0⟩
def R.QCTL_QCPTR : Reg := ⟨91, 0x6000000, 0, 1, 0x1c, 0, 1, 0, [], 0, 0, 0, 0⟩
def F.QCTL_QCPTR_chead : Fld := ⟨R.QCTL_QCPTR, 31, 16⟩
def F.QCTL_QCPTR_ctail : Fld := ⟨R.QCTL_QCPTR, 15, 0⟩
def R.QCTL_DB_REJ_CNT : Reg := ⟨92, 0x6000000, 0, 1, 0x20, 0, 1, 0, [], 0, 0, 0, 0xffffffff⟩
def F.QCTL_DB_REJ_CNT_rejected : Fld := ⟨R.QCTL_DB_REJ_CNT, 31, 0⟩
def R.QCTL_TABLE_REJ_CNT : Reg := ⟨93, 0x6000000, 0, 1, 0x24, 0, 1, 0, [], 0, 0, 0, 0xffffffff⟩
def F.QCTL_TABLE_REJ_CNT_rejected : Fld := ⟨R.QCTL_TABLE_REJ_CNT, 31, 0⟩
def R.QCTL_MBX_PKT : Reg := ⟨94, 0x6000000, 0, 1, 0x100, 4, 16, 0, [], 0xffffffff, 0, 0, 0⟩
def F.QCTL_MBX_PKT_bytes : Fld := ⟨R.QCTL_MBX_PKT, 31, 0⟩
def R.QCTL_MBX_CMD : Reg := ⟨95, 0x6000000, 0, 1, 0x140, 0, 1, 0, [], 0, 0, 0, 0⟩
def F.QCTL_MBX_CMD_busy : Fld := ⟨R.QCTL_MBX_CMD, 31, 31⟩
def F.QCTL_MBX_CMD_go : Fld := ⟨R.QCTL_MBX_CMD, 0, 0⟩
def R.QCTL_MBX_RPL : Reg := ⟨96, 0x6000000, 0, 1, 0x150, 4, 4, 0, [], 0, 0, 0, 0⟩
def F.QCTL_MBX_RPL_bytes : Fld := ⟨R.QCTL_MBX_RPL, 31, 0⟩

/-! Registers of 08_comb_translation.md -/

def R.COMB_CTL : Reg := ⟨97, 0x7000000, 0, 1, 0, 0, 1, 0x640002, [], 0xffff0002, 0, 1, 0⟩
def F.COMB_CTL_miss_timeout : Fld := ⟨R.COMB_CTL, 31, 16⟩
def F.COMB_CTL_prefetch : Fld := ⟨R.COMB_CTL, 1, 1⟩
def F.COMB_CTL_enable : Fld := ⟨R.COMB_CTL, 0, 0⟩
def R.COMB_STATUS : Reg := ⟨98, 0x7000000, 0, 1, 4, 0, 1, 0, [], 0, 0x80000000, 0, 0⟩
def F.COMB_STATUS_refused : Fld := ⟨R.COMB_STATUS, 31, 31⟩
def F.COMB_STATUS_inv_busy : Fld := ⟨R.COMB_STATUS, 30, 30⟩
def F.COMB_STATUS_pending : Fld := ⟨R.COMB_STATUS, 10, 0⟩
def R.COMB_ROOTDIR_LO : Reg := ⟨99, 0x7000000, 0, 1, 8, 0, 1, 0, [], 0xfff80000, 0, 0, 0⟩
def F.COMB_ROOTDIR_LO_base_lo : Fld := ⟨R.COMB_ROOTDIR_LO, 31, 19⟩
def R.COMB_ROOTDIR_HI : Reg := ⟨100, 0x7000000, 0, 1, 0xc, 0, 1, 0, [], 0x1fff, 0, 0, 0⟩
def F.COMB_ROOTDIR_HI_base_hi : Fld := ⟨R.COMB_ROOTDIR_HI, 12, 0⟩
def R.COMB_GEN : Reg := ⟨101, 0x7000000, 0, 1, 0x10, 0, 1, 0, [], 0, 0, 0, 0⟩
def F.COMB_GEN_gen : Fld := ⟨R.COMB_GEN, 15, 0⟩
def R.COMB_MISS_CNT : Reg := ⟨102, 0x7000000, 0, 1, 0x20, 0, 1, 0, [], 0, 0, 0, 0xffffffff⟩
def F.COMB_MISS_CNT_records : Fld := ⟨R.COMB_MISS_CNT, 31, 0⟩
def R.COMB_STALL_CNT : Reg := ⟨103, 0x7000000, 0, 1, 0x24, 0, 1, 0, [], 0, 0, 0, 0xffffffff⟩
def F.COMB_STALL_CNT_stalls : Fld := ⟨R.COMB_STALL_CNT, 31, 0⟩
def R.COMB_EVT_CNT : Reg := ⟨104, 0x7000000, 0, 1, 0x28, 0, 1, 0, [], 0, 0, 0, 0xffffffff⟩
def F.COMB_EVT_CNT_stale_fills : Fld := ⟨R.COMB_EVT_CNT, 31, 16⟩
def F.COMB_EVT_CNT_timeouts : Fld := ⟨R.COMB_EVT_CNT, 15, 0⟩
def R.COMB_INV_CTX : Reg := ⟨105, 0x7000000, 0, 1, 0x40, 0, 1, 0, [], 0x3ffff, 0, 0, 0⟩
def F.COMB_INV_CTX_scope : Fld := ⟨R.COMB_INV_CTX, 17, 16⟩
def F.COMB_INV_CTX_ctx : Fld := ⟨R.COMB_INV_CTX, 15, 0⟩
def R.COMB_INV_START_LO : Reg := ⟨106, 0x7000000, 0, 1, 0x44, 0, 1, 0, [], 0xffffffff, 0, 0, 0⟩
def F.COMB_INV_START_LO_vpn_lo : Fld := ⟨R.COMB_INV_START_LO, 31, 0⟩
def R.COMB_INV_START_HI : Reg := ⟨107, 0x7000000, 0, 1, 0x48, 0, 1, 0, [], 0xf, 0, 0, 0⟩
def F.COMB_INV_START_HI_vpn_hi : Fld := ⟨R.COMB_INV_START_HI, 3, 0⟩
def R.COMB_INV_PAGES_LO : Reg := ⟨108, 0x7000000, 0, 1, 0x4c, 0, 1, 0, [], 0xffffffff, 0, 0, 0⟩
def F.COMB_INV_PAGES_LO_pages_lo : Fld := ⟨R.COMB_INV_PAGES_LO, 31, 0⟩
def R.COMB_INV_PAGES_HI : Reg := ⟨109, 0x7000000, 0, 1, 0x50, 0, 1, 0, [], 0x1f, 0, 0, 0⟩
def F.COMB_INV_PAGES_HI_pages_hi : Fld := ⟨R.COMB_INV_PAGES_HI, 4, 0⟩
def R.COMB_INV_CMD : Reg := ⟨110, 0x7000000, 0, 1, 0x54, 0, 1, 0, [], 0, 0x40000000, 0, 0⟩
def F.COMB_INV_CMD_busy : Fld := ⟨R.COMB_INV_CMD, 31, 31⟩
def F.COMB_INV_CMD_refused : Fld := ⟨R.COMB_INV_CMD, 30, 30⟩
def F.COMB_INV_CMD_go : Fld := ⟨R.COMB_INV_CMD, 0, 0⟩
def R.COMB_FW_REC0 : Reg := ⟨111, 0x7000000, 0, 1, 0x100, 32, 8, 0, [], 0, 0, 0, 0xffffffff⟩
def F.COMB_FW_REC0_word0 : Fld := ⟨R.COMB_FW_REC0, 31, 0⟩
def R.COMB_FW_REC1 : Reg := ⟨112, 0x7000000, 0, 1, 0x104, 32, 8, 0, [], 0, 0, 0, 0⟩
def F.COMB_FW_REC1_wordk : Fld := ⟨R.COMB_FW_REC1, 31, 0⟩
def R.COMB_FW_REC2 : Reg := ⟨113, 0x7000000, 0, 1, 0x108, 32, 8, 0, [], 0, 0, 0, 0⟩
def F.COMB_FW_REC2_wordk : Fld := ⟨R.COMB_FW_REC2, 31, 0⟩
def R.COMB_FW_REC3 : Reg := ⟨114, 0x7000000, 0, 1, 0x10c, 32, 8, 0, [], 0, 0, 0, 0⟩
def F.COMB_FW_REC3_wordk : Fld := ⟨R.COMB_FW_REC3, 31, 0⟩
def R.COMB_FW_FILL0 : Reg := ⟨115, 0x7000000, 0, 1, 0x110, 32, 8, 0, [], 0x1fff, 0, 0, 0⟩
def F.COMB_FW_FILL0_outcome : Fld := ⟨R.COMB_FW_FILL0, 12, 10⟩
def F.COMB_FW_FILL0_miss_id : Fld := ⟨R.COMB_FW_FILL0, 9, 0⟩
def R.COMB_FW_FILL1 : Reg := ⟨116, 0x7000000, 0, 1, 0x114, 32, 8, 0, [], 0x7fffffff, 0, 0, 0⟩
def F.COMB_FW_FILL1_size : Fld := ⟨R.COMB_FW_FILL1, 30, 29⟩
def F.COMB_FW_FILL1_dpa : Fld := ⟨R.COMB_FW_FILL1, 28, 0⟩
def R.COMB_FW_FILL2 : Reg := ⟨117, 0x7000000, 0, 1, 0x118, 32, 8, 0, [], 3, 0, 0, 0⟩
def F.COMB_FW_FILL2_commit : Fld := ⟨R.COMB_FW_FILL2, 31, 31⟩
def F.COMB_FW_FILL2_w : Fld := ⟨R.COMB_FW_FILL2, 1, 1⟩
def F.COMB_FW_FILL2_r : Fld := ⟨R.COMB_FW_FILL2, 0, 0⟩

/-! Registers of 09_spire_engines_and_formats.md -/

def R.SPIRE_CTL : Reg := ⟨118, 0x3000000, 0x10000, 24, 0, 0, 1, 1, [], 3, 0, 0, 0⟩
def F.SPIRE_CTL_hold : Fld := ⟨R.SPIRE_CTL, 1, 1⟩
def F.SPIRE_CTL_enable : Fld := ⟨R.SPIRE_CTL, 0, 0⟩
def R.SPIRE_STATUS : Reg := ⟨119, 0x3000000, 0x10000, 24, 4, 0, 1, 0, [], 0, 0x80000000, 0, 0⟩
def F.SPIRE_STATUS_refused : Fld := ⟨R.SPIRE_STATUS, 31, 31⟩
def F.SPIRE_STATUS_st_done : Fld := ⟨R.SPIRE_STATUS, 14, 14⟩
def F.SPIRE_STATUS_st_pass : Fld := ⟨R.SPIRE_STATUS, 13, 13⟩
def F.SPIRE_STATUS_in_service : Fld := ⟨R.SPIRE_STATUS, 12, 12⟩
def F.SPIRE_STATUS_active : Fld := ⟨R.SPIRE_STATUS, 11, 9⟩
def F.SPIRE_STATUS_opq : Fld := ⟨R.SPIRE_STATUS, 8, 0⟩
def R.SPIRE_SR_SEED_LO : Reg := ⟨120, 0x3000000, 0x10000, 24, 0x10, 0, 1, 0, [], 0, 0, 0, 0⟩
def F.SPIRE_SR_SEED_LO_seed_lo : Fld := ⟨R.SPIRE_SR_SEED_LO, 31, 0⟩
def R.SPIRE_SR_SEED_HI : Reg := ⟨121, 0x3000000, 0x10000, 24, 0x14, 0, 1, 0, [], 0, 0, 0, 0⟩
def F.SPIRE_SR_SEED_HI_seed_hi : Fld := ⟨R.SPIRE_SR_SEED_HI, 31, 0⟩
def R.SPIRE_EXC_CNT0 : Reg := ⟨122, 0x3000000, 0x10000, 24, 0x20, 0, 1, 0, [], 0, 0, 0, 0xffffffff⟩
def F.SPIRE_EXC_CNT0_overflow : Fld := ⟨R.SPIRE_EXC_CNT0, 31, 16⟩
def F.SPIRE_EXC_CNT0_nan_made : Fld := ⟨R.SPIRE_EXC_CNT0, 15, 0⟩
def R.SPIRE_EXC_CNT1 : Reg := ⟨123, 0x3000000, 0x10000, 24, 0x24, 0, 1, 0, [], 0, 0, 0, 0xffffffff⟩
def F.SPIRE_EXC_CNT1_int_sat : Fld := ⟨R.SPIRE_EXC_CNT1, 31, 16⟩
def F.SPIRE_EXC_CNT1_mx_nan_blocks : Fld := ⟨R.SPIRE_EXC_CNT1, 15, 0⟩
def R.SPIRE_OPS_CNT : Reg := ⟨124, 0x3000000, 0x10000, 24, 0x30, 0, 1, 0, [], 0, 0, 0, 0xffffffff⟩
def F.SPIRE_OPS_CNT_completed : Fld := ⟨R.SPIRE_OPS_CNT, 31, 0⟩
def R.SPIRE_SPILL_CNT : Reg := ⟨125, 0x3000000, 0x10000, 24, 0x34, 0, 1, 0, [], 0, 0, 0, 0xffffffff⟩
def F.SPIRE_SPILL_CNT_lines : Fld := ⟨R.SPIRE_SPILL_CNT, 31, 0⟩
def R.SPIRE_SCR_ERR : Reg := ⟨126, 0x3000000, 0x10000, 24, 0x38, 0, 1, 0, [], 0, 0, 0, 0xffffffff⟩
def F.SPIRE_SCR_ERR_ue : Fld := ⟨R.SPIRE_SCR_ERR, 31, 16⟩
def F.SPIRE_SCR_ERR_ce : Fld := ⟨R.SPIRE_SCR_ERR, 15, 0⟩
def R.SPIRE_OFFCH_CNT : Reg := ⟨127, 0x3000000, 0x10000, 24, 0x3c, 0, 1, 0, [], 0, 0, 0, 0xffffffff⟩
def F.SPIRE_OFFCH_CNT_lines : Fld := ⟨R.SPIRE_OFFCH_CNT, 31, 0⟩

/-! Registers of 10_spire_operations.md -/

def R.SPIRE_WIN_BASE : Reg := ⟨128, 0x3180000, 0, 1, 0, 16, 64, 0, [], 0x1fffffff, 0, 0, 0⟩
def F.SPIRE_WIN_BASE_base_cell : Fld := ⟨R.SPIRE_WIN_BASE, 28, 0⟩
def R.SPIRE_WIN_SIZE : Reg := ⟨129, 0x3180000, 0, 1, 4, 16, 64, 0, [], 0xffffff, 0, 0, 0⟩
def F.SPIRE_WIN_SIZE_cells : Fld := ⟨R.SPIRE_WIN_SIZE, 23, 0⟩
def R.SPIRE_WIN_CTL : Reg := ⟨130, 0x3180000, 0, 1, 8, 16, 64, 0, [], 0x1f, 0x80000000, 0, 0⟩
def F.SPIRE_WIN_CTL_refused : Fld := ⟨R.SPIRE_WIN_CTL, 31, 31⟩
def F.SPIRE_WIN_CTL_sr : Fld := ⟨R.SPIRE_WIN_CTL, 4, 4⟩
def F.SPIRE_WIN_CTL_fmt : Fld := ⟨R.SPIRE_WIN_CTL, 3, 1⟩
def F.SPIRE_WIN_CTL_enable : Fld := ⟨R.SPIRE_WIN_CTL, 0, 0⟩
def R.SPIRE_WIN_ADD_CNT : Reg := ⟨131, 0x3180000, 0, 1, 0x400, 0, 1, 0, [], 0, 0, 0, 0xffffffff⟩
def F.SPIRE_WIN_ADD_CNT_adds : Fld := ⟨R.SPIRE_WIN_ADD_CNT, 31, 0⟩
def R.SPIRE_WIN_EVT_CNT : Reg := ⟨132, 0x3180000, 0, 1, 0x404, 0, 1, 0, [], 0, 0, 0, 0xffffffff⟩
def F.SPIRE_WIN_EVT_CNT_part_elem : Fld := ⟨R.SPIRE_WIN_EVT_CNT, 31, 16⟩
def F.SPIRE_WIN_EVT_CNT_no_spire : Fld := ⟨R.SPIRE_WIN_EVT_CNT, 15, 0⟩

/-! Registers of 11_cxl_ports.md -/

def R.CXLP_CFG : Reg := ⟨133, 0x4000000, 0x10000, 16, 0, 0, 1, 1, [(0, 0x101)], 0x19d, 0, 0, 0⟩
def F.CXLP_CFG_fm_func : Fld := ⟨R.CXLP_CFG, 8, 8⟩
def F.CXLP_CFG_ide_required : Fld := ⟨R.CXLP_CFG, 7, 7⟩
def F.CXLP_CFG_bifurcate : Fld := ⟨R.CXLP_CFG, 4, 4⟩
def F.CXLP_CFG_mode : Fld := ⟨R.CXLP_CFG, 3, 2⟩
def F.CXLP_CFG_enable : Fld := ⟨R.CXLP_CFG, 0, 0⟩
def R.CXLP_LINK_STATUS : Reg := ⟨134, 0x4000000, 0x10000, 16, 4, 0, 1, 0, [], 0, 0, 0, 0⟩
def F.CXLP_LINK_STATUS_l1_ide_secure : Fld := ⟨R.CXLP_LINK_STATUS, 22, 22⟩
def F.CXLP_LINK_STATUS_l1_degraded : Fld := ⟨R.CXLP_LINK_STATUS, 21, 21⟩
def F.CXLP_LINK_STATUS_l1_width : Fld := ⟨R.CXLP_LINK_STATUS, 20, 19⟩
def F.CXLP_LINK_STATUS_l1_speed : Fld := ⟨R.CXLP_LINK_STATUS, 18, 17⟩
def F.CXLP_LINK_STATUS_l1_up : Fld := ⟨R.CXLP_LINK_STATUS, 16, 16⟩
def F.CXLP_LINK_STATUS_l0_ide_secure : Fld := ⟨R.CXLP_LINK_STATUS, 6, 6⟩
def F.CXLP_LINK_STATUS_l0_degraded : Fld := ⟨R.CXLP_LINK_STATUS, 5, 5⟩
def F.CXLP_LINK_STATUS_l0_width : Fld := ⟨R.CXLP_LINK_STATUS, 4, 3⟩
def F.CXLP_LINK_STATUS_l0_speed : Fld := ⟨R.CXLP_LINK_STATUS, 2, 1⟩
def F.CXLP_LINK_STATUS_l0_up : Fld := ⟨R.CXLP_LINK_STATUS, 0, 0⟩
def R.CXLP_LINK_CTL : Reg := ⟨135, 0x4000000, 0x10000, 16, 8, 0, 1, 0x3e80000, [], 0xffff0000, 0, 0, 0⟩
def F.CXLP_LINK_CTL_hold_timeout : Fld := ⟨R.CXLP_LINK_CTL, 31, 16⟩
def F.CXLP_LINK_CTL_retrain1 : Fld := ⟨R.CXLP_LINK_CTL, 1, 1⟩
def F.CXLP_LINK_CTL_retrain0 : Fld := ⟨R.CXLP_LINK_CTL, 0, 0⟩
def R.CXLP_ERR_CNT : Reg := ⟨136, 0x4000000, 0x10000, 16, 0xc, 0, 1, 0, [], 0, 0, 0, 0xffffffff⟩
def F.CXLP_ERR_CNT_ide_fail : Fld := ⟨R.CXLP_ERR_CNT, 31, 16⟩
def F.CXLP_ERR_CNT_link_down : Fld := ⟨R.CXLP_ERR_CNT, 15, 0⟩
def R.CXLP_HDM_BASE_LO : Reg := ⟨137, 0x4000000, 0x10000, 16, 0x1000, 32, 32, 0, [], 0xffffffff, 0, 0, 0⟩
def F.CXLP_HDM_BASE_LO_base_lo : Fld := ⟨R.CXLP_HDM_BASE_LO, 31, 0⟩
def R.CXLP_HDM_BASE_HI : Reg := ⟨138, 0x4000000, 0x10000, 16, 0x1004, 32, 32, 0, [], 0xf, 0, 0, 0⟩
def F.CXLP_HDM_BASE_HI_base_hi : Fld := ⟨R.CXLP_HDM_BASE_HI, 3, 0⟩
def R.CXLP_HDM_SIZE : Reg := ⟨139, 0x4000000, 0x10000, 16, 0x1008, 32, 32, 0, [], 0xffffffff, 0, 0, 0⟩
def F.CXLP_HDM_SIZE_size_256m : Fld := ⟨R.CXLP_HDM_SIZE, 31, 0⟩
def R.CXLP_HDM_DPA : Reg := ⟨140, 0x4000000, 0x10000, 16, 0x100c, 32, 32, 0, [], 0x1ffff, 0, 0, 0⟩
def F.CXLP_HDM_DPA_dpa_base : Fld := ⟨R.CXLP_HDM_DPA, 16, 0⟩
def R.CXLP_HDM_SRC : Reg := ⟨141, 0x4000000, 0x10000, 16, 0x1010, 32, 32, 0, [], 0xc003ffff, 0, 0, 0⟩
def F.CXLP_HDM_SRC_any_port : Fld := ⟨R.CXLP_HDM_SRC, 31, 31⟩
def F.CXLP_HDM_SRC_any_src : Fld := ⟨R.CXLP_HDM_SRC, 30, 30⟩
def F.CXLP_HDM_SRC_port : Fld := ⟨R.CXLP_HDM_SRC, 17, 14⟩
def F.CXLP_HDM_SRC_link : Fld := ⟨R.CXLP_HDM_SRC, 13, 13⟩
def F.CXLP_HDM_SRC_src_kind : Fld := ⟨R.CXLP_HDM_SRC, 12, 12⟩
def F.CXLP_HDM_SRC_src_id : Fld := ⟨R.CXLP_HDM_SRC, 11, 0⟩
def R.CXLP_HDM_CTL : Reg := ⟨142, 0x4000000, 0x10000, 16, 0x1014, 32, 32, 0, [], 0xf71, 4, 0, 0⟩
def F.CXLP_HDM_CTL_ig : Fld := ⟨R.CXLP_HDM_CTL, 11, 8⟩
def F.CXLP_HDM_CTL_iw : Fld := ⟨R.CXLP_HDM_CTL, 6, 4⟩
def F.CXLP_HDM_CTL_error : Fld := ⟨R.CXLP_HDM_CTL, 2, 2⟩
def F.CXLP_HDM_CTL_committed : Fld := ⟨R.CXLP_HDM_CTL, 1, 1⟩
def F.CXLP_HDM_CTL_commit : Fld := ⟨R.CXLP_HDM_CTL, 0, 0⟩

/-! Registers of 12_rythar_link_layer.md -/

def R.RYP_CFG : Reg := ⟨143, 0x5000000, 0x10000, 12, 0, 0, 1, 1, [], 0xf, 0, 0, 0⟩
def F.RYP_CFG_enc_required : Fld := ⟨R.RYP_CFG, 3, 3⟩
def F.RYP_CFG_width_cap : Fld := ⟨R.RYP_CFG, 2, 2⟩
def F.RYP_CFG_speed_cap : Fld := ⟨R.RYP_CFG, 1, 1⟩
def F.RYP_CFG_enable : Fld := ⟨R.RYP_CFG, 0, 0⟩
def R.RYP_LINK_STATUS : Reg := ⟨144, 0x5000000, 0x10000, 12, 4, 0, 1, 0, [], 0, 0x700000, 0, 0⟩
def F.RYP_LINK_STATUS_id_clash : Fld := ⟨R.RYP_LINK_STATUS, 22, 22⟩
def F.RYP_LINK_STATUS_cfg_error : Fld := ⟨R.RYP_LINK_STATUS, 21, 21⟩
def F.RYP_LINK_STATUS_req_dropped : Fld := ⟨R.RYP_LINK_STATUS, 20, 20⟩
def F.RYP_LINK_STATUS_leader : Fld := ⟨R.RYP_LINK_STATUS, 19, 19⟩
def F.RYP_LINK_STATUS_peer_valid : Fld := ⟨R.RYP_LINK_STATUS, 18, 18⟩
def F.RYP_LINK_STATUS_peer_node : Fld := ⟨R.RYP_LINK_STATUS, 17, 12⟩
def F.RYP_LINK_STATUS_spared_lane : Fld := ⟨R.RYP_LINK_STATUS, 11, 8⟩
def F.RYP_LINK_STATUS_spare_used : Fld := ⟨R.RYP_LINK_STATUS, 7, 7⟩
def F.RYP_LINK_STATUS_speed : Fld := ⟨R.RYP_LINK_STATUS, 6, 6⟩
def F.RYP_LINK_STATUS_width : Fld := ⟨R.RYP_LINK_STATUS, 5, 5⟩
def F.RYP_LINK_STATUS_state : Fld := ⟨R.RYP_LINK_STATUS, 3, 0⟩
def R.RYP_LINK_CTL : Reg := ⟨145, 0x5000000, 0x10000, 12, 8, 0, 1, 0x640300, [], 0xffff0f02, 0, 0, 0⟩
def F.RYP_LINK_CTL_train_timeout : Fld := ⟨R.RYP_LINK_CTL, 31, 16⟩
def F.RYP_LINK_CTL_train_retries : Fld := ⟨R.RYP_LINK_CTL, 11, 8⟩
def F.RYP_LINK_CTL_disable : Fld := ⟨R.RYP_LINK_CTL, 1, 1⟩
def F.RYP_LINK_CTL_reset : Fld := ⟨R.RYP_LINK_CTL, 0, 0⟩
def R.RYP_ACK_CTL : Reg := ⟨146, 0x5000000, 0x10000, 12, 0xc, 0, 1, 0xa148, [], 0xfffff, 0, 0, 0⟩
def F.RYP_ACK_CTL_ack_repeat : Fld := ⟨R.RYP_ACK_CTL, 19, 12⟩
def F.RYP_ACK_CTL_ack_timer : Fld := ⟨R.RYP_ACK_CTL, 11, 4⟩
def F.RYP_ACK_CTL_ack_count : Fld := ⟨R.RYP_ACK_CTL, 3, 0⟩
def R.RYP_REPLAY_CTL : Reg := ⟨147, 0x5000000, 0x10000, 12, 0x10, 0, 1, 0x1414, [], 0x1fff, 0, 0, 0⟩
def F.RYP_REPLAY_CTL_spill : Fld := ⟨R.RYP_REPLAY_CTL, 12, 12⟩
def F.RYP_REPLAY_CTL_replay_limit : Fld := ⟨R.RYP_REPLAY_CTL, 11, 8⟩
def F.RYP_REPLAY_CTL_replay_timeout : Fld := ⟨R.RYP_REPLAY_CTL, 7, 0⟩
def R.RYP_VC_CRED : Reg := ⟨148, 0x5000000, 0x10000, 12, 0x20, 4, 4, 0x800, [(2, 0x1000), (6, 0x1000), (10, 0x1000), (14, 0x1000), (18, 0x1000), (22, 0x1000), (26, 0x1000), (30, 0x1000), (34, 0x1000), (38, 0x1000), (42, 0x1000), (46, 0x1000), (3, 0x100), (7, 0x100), (11, 0x100), (15, 0x100), (19, 0x100), (23, 0x100), (27, 0x100), (31, 0x100), (35, 0x100), (39, 0x100), (43, 0x100), (47, 0x100)], 0x3fff, 0, 0, 0⟩
def F.RYP_VC_CRED_tx_avail : Fld := ⟨R.RYP_VC_CRED, 29, 16⟩
def F.RYP_VC_CRED_rx_units : Fld := ⟨R.RYP_VC_CRED, 13, 0⟩
def R.RYP_SPARE_CTL : Reg := ⟨149, 0x5000000, 0x10000, 12, 0x30, 0, 1, 0x1000, [], 0xffff, 0, 0, 0⟩
def F.RYP_SPARE_CTL_threshold : Fld := ⟨R.RYP_SPARE_CTL, 15, 0⟩
def R.RYP_ERR_CNT0 : Reg := ⟨150, 0x5000000, 0x10000, 12, 0x40, 0, 1, 0, [], 0, 0, 0, 0xffffffff⟩
def F.RYP_ERR_CNT0_naks_sent : Fld := ⟨R.RYP_ERR_CNT0, 31, 16⟩
def F.RYP_ERR_CNT0_bad_flits : Fld := ⟨R.RYP_ERR_CNT0, 15, 0⟩
def R.RYP_ERR_CNT1 : Reg := ⟨151, 0x5000000, 0x10000, 12, 0x44, 0, 1, 0, [], 0, 0, 0, 0xffffffff⟩
def F.RYP_ERR_CNT1_dup_discard : Fld := ⟨R.RYP_ERR_CNT1, 31, 16⟩
def F.RYP_ERR_CNT1_replays : Fld := ⟨R.RYP_ERR_CNT1, 15, 0⟩
def R.RYP_ERR_CNT2 : Reg := ⟨152, 0x5000000, 0x10000, 12, 0x48, 0, 1, 0, [], 0, 0, 0, 0xffffffff⟩
def F.RYP_ERR_CNT2_resets : Fld := ⟨R.RYP_ERR_CNT2, 31, 24⟩
def F.RYP_ERR_CNT2_spares : Fld := ⟨R.RYP_ERR_CNT2, 23, 16⟩
def F.RYP_ERR_CNT2_void_sent : Fld := ⟨R.RYP_ERR_CNT2, 15, 0⟩
def R.RYP_REPLAY_STATUS : Reg := ⟨153, 0x5000000, 0x10000, 12, 0x50, 0, 1, 0, [], 0, 0, 0, 0⟩
def F.RYP_REPLAY_STATUS_spilled : Fld := ⟨R.RYP_REPLAY_STATUS, 26, 16⟩
def F.RYP_REPLAY_STATUS_unacked : Fld := ⟨R.RYP_REPLAY_STATUS, 11, 0⟩

/-! Registers of 13_rythar_routing_and_cascade.md -/

def R.RYP_ROUTE : Reg := ⟨154, 0x5000000, 0x10000, 12, 0x100, 4, 64, 0, [], 0xfff, 0, 0, 0⟩
def F.RYP_ROUTE_mask : Fld := ⟨R.RYP_ROUTE, 11, 0⟩
def R.RYP_ROUTE_STATUS : Reg := ⟨155, 0x5000000, 0x10000, 12, 0x300, 0, 1, 0, [], 0, 0, 0, 0⟩
def F.RYP_ROUTE_STATUS_wiring_error : Fld := ⟨R.RYP_ROUTE_STATUS, 0, 0⟩
def R.RYP_ORIGIN_ROUTE : Reg := ⟨156, 0x5000000, 0x10000, 12, 0x400, 4, 64, 0, [], 0xfff, 0, 0, 0⟩
def F.RYP_ORIGIN_ROUTE_mask : Fld := ⟨R.RYP_ORIGIN_ROUTE, 11, 0⟩
def R.RYP_FAB_CTL : Reg := ⟨157, 0x5000000, 0x10000, 12, 0x1000, 0, 1, 0xa0064, [], 0xffffff, 0, 0, 0⟩
def F.RYP_FAB_CTL_route_hold : Fld := ⟨R.RYP_FAB_CTL, 23, 16⟩
def F.RYP_FAB_CTL_msg_timeout : Fld := ⟨R.RYP_FAB_CTL, 15, 0⟩
def R.RYP_FAB_STATUS : Reg := ⟨158, 0x5000000, 0x10000, 12, 0x1004, 0, 1, 0, [], 0, 0, 0, 0⟩
def F.RYP_FAB_STATUS_term : Fld := ⟨R.RYP_FAB_STATUS, 31, 16⟩
def F.RYP_FAB_STATUS_queen_valid : Fld := ⟨R.RYP_FAB_STATUS, 15, 15⟩
def F.RYP_FAB_STATUS_is_queen : Fld := ⟨R.RYP_FAB_STATUS, 14, 14⟩
def F.RYP_FAB_STATUS_is_succ : Fld := ⟨R.RYP_FAB_STATUS, 13, 13⟩
def F.RYP_FAB_STATUS_alloc_stopped : Fld := ⟨R.RYP_FAB_STATUS, 12, 12⟩
def F.RYP_FAB_STATUS_succ_node : Fld := ⟨R.RYP_FAB_STATUS, 11, 6⟩
def F.RYP_FAB_STATUS_queen_node : Fld := ⟨R.RYP_FAB_STATUS, 5, 0⟩
def R.RYP_QUEEN_CTL : Reg := ⟨159, 0x5000000, 0x10000, 12, 0x1008, 0, 1, 0xa0a, [], 0xff0fff, 0, 0, 0⟩
def F.RYP_QUEEN_CTL_solo : Fld := ⟨R.RYP_QUEEN_CTL, 23, 23⟩
def F.RYP_QUEEN_CTL_succ_override : Fld := ⟨R.RYP_QUEEN_CTL, 22, 22⟩
def F.RYP_QUEEN_CTL_succ_node : Fld := ⟨R.RYP_QUEEN_CTL, 21, 16⟩
def F.RYP_QUEEN_CTL_hb_miss : Fld := ⟨R.RYP_QUEEN_CTL, 11, 8⟩
def F.RYP_QUEEN_CTL_hb_period : Fld := ⟨R.RYP_QUEEN_CTL, 7, 0⟩
def R.RYP_BYP_CTL : Reg := ⟨160, 0x5000000, 0x10000, 12, 0x100c, 0, 1, 0, [], 0x3f, 0, 0, 0⟩
def F.RYP_BYP_CTL_hold_state : Fld := ⟨R.RYP_BYP_CTL, 13, 8⟩
def F.RYP_BYP_CTL_release : Fld := ⟨R.RYP_BYP_CTL, 5, 0⟩
def R.RYP_HANDLE_CTL : Reg := ⟨161, 0x5000000, 0x10000, 12, 0x1010, 0, 1, 0, [], 0, 0x80000000, 1, 0⟩
def F.RYP_HANDLE_CTL_refused : Fld := ⟨R.RYP_HANDLE_CTL, 31, 31⟩
def F.RYP_HANDLE_CTL_enable : Fld := ⟨R.RYP_HANDLE_CTL, 0, 0⟩
def R.RYP_HANDLE_BASE_LO : Reg := ⟨162, 0x5000000, 0x10000, 12, 0x1014, 0, 1, 0, [], 0xfff00000, 0, 0, 0⟩
def F.RYP_HANDLE_BASE_LO_base_lo : Fld := ⟨R.RYP_HANDLE_BASE_LO, 31, 20⟩
def R.RYP_HANDLE_BASE_HI : Reg := ⟨163, 0x5000000, 0x10000, 12, 0x1018, 0, 1, 0, [], 0x1fff, 0, 0, 0⟩
def F.RYP_HANDLE_BASE_HI_base_hi : Fld := ⟨R.RYP_HANDLE_BASE_HI, 12, 0⟩
def R.RYP_DOME_MODE_IDX : Reg := ⟨164, 0x5000000, 0x10000, 12, 0x1020, 0, 1, 0, [], 0xfff, 0, 0, 0⟩
def F.RYP_DOME_MODE_IDX_dome : Fld := ⟨R.RYP_DOME_MODE_IDX, 11, 0⟩
def R.RYP_DOME_MODE_VAL : Reg := ⟨165, 0x5000000, 0x10000, 12, 0x1024, 0, 1, 3, [], 3, 0, 0, 0⟩
def F.RYP_DOME_MODE_VAL_window_en : Fld := ⟨R.RYP_DOME_MODE_VAL, 1, 1⟩
def F.RYP_DOME_MODE_VAL_handle_en : Fld := ⟨R.RYP_DOME_MODE_VAL, 0, 0⟩
def R.RYP_FAB_CNT : Reg := ⟨166, 0x5000000, 0x10000, 12, 0x1028, 0, 1, 0, [], 0, 0, 0, 0xffffffff⟩
def F.RYP_FAB_CNT_late_discard : Fld := ⟨R.RYP_FAB_CNT, 31, 16⟩
def F.RYP_FAB_CNT_unroutable : Fld := ⟨R.RYP_FAB_CNT, 15, 0⟩
def R.RYP_OWIN_BASE : Reg := ⟨167, 0x5000000, 0x10000, 12, 0x1100, 16, 64, 0, [], 0x1fffffff, 0, 0, 0⟩
def F.RYP_OWIN_BASE_base_cell : Fld := ⟨R.RYP_OWIN_BASE, 28, 0⟩
def R.RYP_OWIN_SIZE : Reg := ⟨168, 0x5000000, 0x10000, 12, 0x1104, 16, 64, 0, [], 0xffffff, 0, 0, 0⟩
def F.RYP_OWIN_SIZE_cells : Fld := ⟨R.RYP_OWIN_SIZE, 23, 0⟩
def R.RYP_OWIN_CTL : Reg := ⟨169, 0x5000000, 0x10000, 12, 0x1108, 16, 64, 0xa000000, [], 0xff3f3f01, 2, 0, 0⟩
def F.RYP_OWIN_CTL_timeout : Fld := ⟨R.RYP_OWIN_CTL, 31, 24⟩
def F.RYP_OWIN_CTL_iwin : Fld := ⟨R.RYP_OWIN_CTL, 21, 16⟩
def F.RYP_OWIN_CTL_node : Fld := ⟨R.RYP_OWIN_CTL, 13, 8⟩
def F.RYP_OWIN_CTL_refused : Fld := ⟨R.RYP_OWIN_CTL, 1, 1⟩
def F.RYP_OWIN_CTL_enable : Fld := ⟨R.RYP_OWIN_CTL, 0, 0⟩
def R.RYP_IWIN_BASE : Reg := ⟨170, 0x5000000, 0x10000, 12, 0x1500, 16, 64, 0, [], 0x1fffffff, 0, 0, 0⟩
def F.RYP_IWIN_BASE_base_cell : Fld := ⟨R.RYP_IWIN_BASE, 28, 0⟩
def R.RYP_IWIN_SIZE : Reg := ⟨171, 0x5000000, 0x10000, 12, 0x1504, 16, 64, 0, [], 0xffffff, 0, 0, 0⟩
def F.RYP_IWIN_SIZE_cells : Fld := ⟨R.RYP_IWIN_SIZE, 23, 0⟩
def R.RYP_IWIN_CTL : Reg := ⟨172, 0x5000000, 0x10000, 12, 0x1508, 16, 64, 0, [], 0xfff03ff, 0x80000000, 0, 0⟩
def F.RYP_IWIN_CTL_refused : Fld := ⟨R.RYP_IWIN_CTL, 31, 31⟩
def F.RYP_IWIN_CTL_dome : Fld := ⟨R.RYP_IWIN_CTL, 27, 16⟩
def F.RYP_IWIN_CTL_src_node : Fld := ⟨R.RYP_IWIN_CTL, 9, 4⟩
def F.RYP_IWIN_CTL_any_src : Fld := ⟨R.RYP_IWIN_CTL, 3, 3⟩
def F.RYP_IWIN_CTL_w : Fld := ⟨R.RYP_IWIN_CTL, 2, 2⟩
def F.RYP_IWIN_CTL_r : Fld := ⟨R.RYP_IWIN_CTL, 1, 1⟩
def F.RYP_IWIN_CTL_enable : Fld := ⟨R.RYP_IWIN_CTL, 0, 0⟩

/-! Registers of 14_traffic_scheduling.md -/

def R.SHAPER_IDX : Reg := ⟨173, 0x7800000, 0, 1, 0, 0, 1, 0, [], 0x301f0fff, 0, 0, 0⟩
def F.SHAPER_IDX_level : Fld := ⟨R.SHAPER_IDX, 29, 28⟩
def F.SHAPER_IDX_port : Fld := ⟨R.SHAPER_IDX, 20, 16⟩
def F.SHAPER_IDX_index : Fld := ⟨R.SHAPER_IDX, 11, 0⟩
def R.SHAPER_RATE : Reg := ⟨174, 0x7800000, 0, 1, 4, 0, 1, 0, [], 0xfffff, 0, 0, 0⟩
def F.SHAPER_RATE_rate : Fld := ⟨R.SHAPER_RATE, 19, 0⟩
def R.SHAPER_DEPTH : Reg := ⟨175, 0x7800000, 0, 1, 8, 0, 1, 0, [], 0x3ffff, 0, 0, 0⟩
def F.SHAPER_DEPTH_depth_64 : Fld := ⟨R.SHAPER_DEPTH, 17, 0⟩
def R.SHAPER_CTL : Reg := ⟨176, 0x7800000, 0, 1, 0xc, 0, 1, 0x100, [], 0x3f3, 0x80000000, 0, 0⟩
def F.SHAPER_CTL_refused : Fld := ⟨R.SHAPER_CTL, 31, 31⟩
def F.SHAPER_CTL_hold_max : Fld := ⟨R.SHAPER_CTL, 9, 4⟩
def F.SHAPER_CTL_action : Fld := ⟨R.SHAPER_CTL, 1, 1⟩
def F.SHAPER_CTL_enable : Fld := ⟨R.SHAPER_CTL, 0, 0⟩
def R.SHAPER_TOKENS : Reg := ⟨177, 0x7800000, 0, 1, 0x10, 0, 1, 0, [], 0, 0, 0, 0⟩
def F.SHAPER_TOKENS_tokens : Fld := ⟨R.SHAPER_TOKENS, 25, 0⟩
def R.SHAPER_PORT_CFG : Reg := ⟨178, 0x7800000, 0, 1, 0x20, 0, 1, 0x100, [], 0x1ff, 0, 0, 0⟩
def F.SHAPER_PORT_CFG_express_en : Fld := ⟨R.SHAPER_PORT_CFG, 8, 8⟩
def F.SHAPER_PORT_CFG_overhead : Fld := ⟨R.SHAPER_PORT_CFG, 7, 0⟩
def R.SHAPER_CLASS_CFG : Reg := ⟨179, 0x7800000, 0, 1, 0x40, 4, 8, 1, [(0, 8), (1, 8), (2, 4), (3, 4), (4, 2), (6, 0x101)], 0x1ff, 0, 0, 0⟩
def F.SHAPER_CLASS_CFG_strict : Fld := ⟨R.SHAPER_CLASS_CFG, 8, 8⟩
def F.SHAPER_CLASS_CFG_weight : Fld := ⟨R.SHAPER_CLASS_CFG, 7, 0⟩
def R.SHAPER_DOME_WT : Reg := ⟨180, 0x7800000, 0, 1, 0x60, 0, 1, 0x10, [], 0xff, 0, 0, 0⟩
def F.SHAPER_DOME_WT_weight : Fld := ⟨R.SHAPER_DOME_WT, 7, 0⟩
def R.SHAPER_PERIOD : Reg := ⟨181, 0x7800000, 0, 1, 0x70, 0, 1, 0x600, [], 0, 0, 0, 0⟩
def F.SHAPER_PERIOD_cycles : Fld := ⟨R.SHAPER_PERIOD, 10, 0⟩
def R.SHAPER_POL_CNT : Reg := ⟨182, 0x7800000, 0, 1, 0x80, 0, 1, 0, [], 0, 0, 0, 0xffffffff⟩
def F.SHAPER_POL_CNT_held : Fld := ⟨R.SHAPER_POL_CNT, 31, 16⟩
def F.SHAPER_POL_CNT_demoted : Fld := ⟨R.SHAPER_POL_CNT, 15, 0⟩

/-! Registers of 15_security_and_keys.md -/

def R.SEC_STATUS : Reg := ⟨183, 0x7c00000, 0, 1, 0, 0, 1, 0, [], 0, 0, 0, 0⟩
def F.SEC_STATUS_sessions : Fld := ⟨R.SEC_STATUS, 24, 16⟩
def F.SEC_STATUS_chain_mismatch : Fld := ⟨R.SEC_STATUS, 2, 2⟩
def F.SEC_STATUS_chain_ok : Fld := ⟨R.SEC_STATUS, 1, 1⟩
def F.SEC_STATUS_id_ready : Fld := ⟨R.SEC_STATUS, 0, 0⟩
def R.SEC_ID_HASH : Reg := ⟨184, 0x7c00000, 0, 1, 0x10, 4, 12, 0, [], 0, 0, 0, 0⟩
def F.SEC_ID_HASH_digest : Fld := ⟨R.SEC_ID_HASH, 31, 0⟩
def R.SEC_DOME_IDX : Reg := ⟨185, 0x7c00000, 0, 1, 0x100, 0, 1, 0, [], 0xfff, 0, 0, 0⟩
def F.SEC_DOME_IDX_dome : Fld := ⟨R.SEC_DOME_IDX, 11, 0⟩
def R.SEC_DOME_KEYS : Reg := ⟨186, 0x7c00000, 0, 1, 0x104, 0, 1, 0, [], 0, 0, 0, 0⟩
def F.SEC_DOME_KEYS_sweep_busy : Fld := ⟨R.SEC_DOME_KEYS, 31, 31⟩
def F.SEC_DOME_KEYS_bound : Fld := ⟨R.SEC_DOME_KEYS, 5, 5⟩
def F.SEC_DOME_KEYS_cur_gen : Fld := ⟨R.SEC_DOME_KEYS, 4, 4⟩
def F.SEC_DOME_KEYS_slot1 : Fld := ⟨R.SEC_DOME_KEYS, 3, 2⟩
def F.SEC_DOME_KEYS_slot0 : Fld := ⟨R.SEC_DOME_KEYS, 1, 0⟩
def R.SEC_DOME_OLDCELLS : Reg := ⟨187, 0x7c00000, 0, 1, 0x108, 0, 1, 0, [], 0, 0, 0, 0⟩
def F.SEC_DOME_OLDCELLS_cells : Fld := ⟨R.SEC_DOME_OLDCELLS, 31, 0⟩
def R.SEC_BIND_HASH : Reg := ⟨188, 0x7c00000, 0, 1, 0x140, 4, 12, 0, [], 0xffffffff, 0, 0, 0⟩
def F.SEC_BIND_HASH_digest : Fld := ⟨R.SEC_BIND_HASH, 31, 0⟩
def R.SEC_BIND_CTL : Reg := ⟨189, 0x7c00000, 0, 1, 0x170, 0, 1, 0, [], 0, 0x80000000, 0, 0⟩
def F.SEC_BIND_CTL_refused : Fld := ⟨R.SEC_BIND_CTL, 31, 31⟩
def F.SEC_BIND_CTL_commit : Fld := ⟨R.SEC_BIND_CTL, 0, 0⟩
def R.SEC_LINK : Reg := ⟨190, 0x7c00000, 0, 1, 0x200, 4, 12, 0, [], 0, 0, 0, 0⟩
def F.SEC_LINK_tx_gen : Fld := ⟨R.SEC_LINK, 5, 5⟩
def F.SEC_LINK_switch : Fld := ⟨R.SEC_LINK, 4, 4⟩
def F.SEC_LINK_gen1 : Fld := ⟨R.SEC_LINK, 3, 2⟩
def F.SEC_LINK_gen0 : Fld := ⟨R.SEC_LINK, 1, 0⟩
def R.SEC_TD_CNT : Reg := ⟨191, 0x7c00000, 0, 1, 0x300, 0, 1, 0, [], 0, 0, 0, 0xffffffff⟩
def F.SEC_TD_CNT_aborted : Fld := ⟨R.SEC_TD_CNT, 31, 16⟩
def F.SEC_TD_CNT_discarded : Fld := ⟨R.SEC_TD_CNT, 15, 0⟩

/-! Registers of 16_faults_and_interrupts.md -/

def R.BELFRY_SRC_IDX : Reg := ⟨192, 0x100000, 0, 1, 0, 0, 1, 0, [], 0x7ff, 0, 0, 0⟩
def F.BELFRY_SRC_IDX_source : Fld := ⟨R.BELFRY_SRC_IDX, 10, 0⟩
def R.BELFRY_SRC_CFG : Reg := ⟨193, 0x100000, 0, 1, 4, 0, 1, 0, [], 0xf81, 0x80000000, 0, 0⟩
def F.BELFRY_SRC_CFG_broken : Fld := ⟨R.BELFRY_SRC_CFG, 31, 31⟩
def F.BELFRY_SRC_CFG_inject : Fld := ⟨R.BELFRY_SRC_CFG, 30, 30⟩
def F.BELFRY_SRC_CFG_distinct : Fld := ⟨R.BELFRY_SRC_CFG, 29, 29⟩
def F.BELFRY_SRC_CFG_actions : Fld := ⟨R.BELFRY_SRC_CFG, 11, 7⟩
def F.BELFRY_SRC_CFG_class : Fld := ⟨R.BELFRY_SRC_CFG, 3, 1⟩
def F.BELFRY_SRC_CFG_enable : Fld := ⟨R.BELFRY_SRC_CFG, 0, 0⟩
def R.BELFRY_CLASS_ACT : Reg := ⟨194, 0x100000, 0, 1, 0x10, 4, 5, 7, [(1, 0xf), (2, 0x101f), (3, 0x13), (4, 0x13)], 0x1f, 0, 0, 0⟩
def F.BELFRY_CLASS_ACT_forced : Fld := ⟨R.BELFRY_CLASS_ACT, 12, 8⟩
def F.BELFRY_CLASS_ACT_mask : Fld := ⟨R.BELFRY_CLASS_ACT, 4, 0⟩
def R.BELFRY_REC_STATUS : Reg := ⟨195, 0x100000, 0, 1, 0x40, 0, 1, 0, [], 0, 0, 0, 0⟩
def F.BELFRY_REC_STATUS_unread : Fld := ⟨R.BELFRY_REC_STATUS, 25, 16⟩
def F.BELFRY_REC_STATUS_occupied : Fld := ⟨R.BELFRY_REC_STATUS, 9, 0⟩
def R.BELFRY_REC_NEXT : Reg := ⟨196, 0x100000, 0, 1, 0x44, 0, 1, 0, [], 0, 0, 0, 0x800001ff⟩
def F.BELFRY_REC_NEXT_valid : Fld := ⟨R.BELFRY_REC_NEXT, 31, 31⟩
def F.BELFRY_REC_NEXT_slot : Fld := ⟨R.BELFRY_REC_NEXT, 8, 0⟩
def R.BELFRY_REC_IDX : Reg := ⟨197, 0x100000, 0, 1, 0x48, 0, 1, 0, [], 0x1ff, 0, 0, 0⟩
def F.BELFRY_REC_IDX_slot : Fld := ⟨R.BELFRY_REC_IDX, 8, 0⟩
def R.BELFRY_REC_CLOSE : Reg := ⟨198, 0x100000, 0, 1, 0x4c, 0, 1, 0, [], 0, 0, 0, 0⟩
def F.BELFRY_REC_CLOSE_slot : Fld := ⟨R.BELFRY_REC_CLOSE, 8, 0⟩
def R.BELFRY_REC_W : Reg := ⟨199, 0x100000, 0, 1, 0x60, 4, 8, 0, [], 0, 0, 0, 0⟩
def F.BELFRY_REC_W_word : Fld := ⟨R.BELFRY_REC_W, 31, 0⟩
def R.BELFRY_OVF_CNT : Reg := ⟨200, 0x100000, 0, 1, 0x100, 4, 5, 0, [], 0, 0, 0, 0xffffffff⟩
def F.BELFRY_OVF_CNT_lost : Fld := ⟨R.BELFRY_OVF_CNT, 31, 0⟩
def R.BELFRY_OVF_SRC : Reg := ⟨201, 0x100000, 0, 1, 0x120, 4, 5, 0, [], 0, 0, 0, 0⟩
def F.BELFRY_OVF_SRC_valid : Fld := ⟨R.BELFRY_OVF_SRC, 31, 31⟩
def F.BELFRY_OVF_SRC_last : Fld := ⟨R.BELFRY_OVF_SRC, 26, 16⟩
def F.BELFRY_OVF_SRC_first : Fld := ⟨R.BELFRY_OVF_SRC, 10, 0⟩
def R.BELFRY_DFS_CTL : Reg := ⟨202, 0x100000, 0, 1, 0x200, 0, 1, 0x100032, [], 0x1ffffff, 0, 0, 0⟩
def F.BELFRY_DFS_CTL_clr_count : Fld := ⟨R.BELFRY_DFS_CTL, 25, 25⟩
def F.BELFRY_DFS_CTL_hold : Fld := ⟨R.BELFRY_DFS_CTL, 24, 24⟩
def F.BELFRY_DFS_CTL_limit : Fld := ⟨R.BELFRY_DFS_CTL, 23, 16⟩
def F.BELFRY_DFS_CTL_quiet_ms : Fld := ⟨R.BELFRY_DFS_CTL, 15, 0⟩
def R.BELFRY_DFS_STATUS : Reg := ⟨203, 0x100000, 0, 1, 0x204, 0, 1, 0, [], 0, 0, 0, 0⟩
def F.BELFRY_DFS_STATUS_recoveries : Fld := ⟨R.BELFRY_DFS_STATUS, 31, 16⟩
def F.BELFRY_DFS_STATUS_latched : Fld := ⟨R.BELFRY_DFS_STATUS, 3, 3⟩
def F.BELFRY_DFS_STATUS_quiet_wait : Fld := ⟨R.BELFRY_DFS_STATUS, 2, 2⟩
def F.BELFRY_DFS_STATUS_quiet_running : Fld := ⟨R.BELFRY_DFS_STATUS, 1, 1⟩
def F.BELFRY_DFS_STATUS_active : Fld := ⟨R.BELFRY_DFS_STATUS, 0, 0⟩
def R.BELFRY_ARCH_STATUS : Reg := ⟨204, 0x100000, 0, 1, 0x210, 0, 1, 0, [], 0, 0, 0, 0⟩
def F.BELFRY_ARCH_STATUS_wrapped : Fld := ⟨R.BELFRY_ARCH_STATUS, 31, 31⟩
def F.BELFRY_ARCH_STATUS_next : Fld := ⟨R.BELFRY_ARCH_STATUS, 20, 0⟩
def R.WAGGLE_SRC_IDX : Reg := ⟨205, 0x200000, 0, 1, 0, 0, 1, 0, [], 0xfff, 0, 0, 0⟩
def F.WAGGLE_SRC_IDX_source : Fld := ⟨R.WAGGLE_SRC_IDX, 11, 0⟩
def R.WAGGLE_SRC_CFG : Reg := ⟨206, 0x200000, 0, 1, 4, 0, 1, 0, [], 0xc07f001f, 0, 0, 0⟩
def F.WAGGLE_SRC_CFG_enable : Fld := ⟨R.WAGGLE_SRC_CFG, 31, 31⟩
def F.WAGGLE_SRC_CFG_shared : Fld := ⟨R.WAGGLE_SRC_CFG, 30, 30⟩
def F.WAGGLE_SRC_CFG_kind : Fld := ⟨R.WAGGLE_SRC_CFG, 29, 29⟩
def F.WAGGLE_SRC_CFG_group : Fld := ⟨R.WAGGLE_SRC_CFG, 22, 16⟩
def F.WAGGLE_SRC_CFG_level : Fld := ⟨R.WAGGLE_SRC_CFG, 4, 0⟩
def R.WAGGLE_SRC_TGT : Reg := ⟨207, 0x200000, 0, 1, 8, 0, 1, 0, [], 0xffffff, 0, 0, 0⟩
def F.WAGGLE_SRC_TGT_cores : Fld := ⟨R.WAGGLE_SRC_TGT, 23, 0⟩
def R.WAGGLE_SRC_STATUS : Reg := ⟨208, 0x200000, 0, 1, 0xc, 0, 1, 0, [], 0, 0, 0, 0⟩
def F.WAGGLE_SRC_STATUS_pending : Fld := ⟨R.WAGGLE_SRC_STATUS, 31, 31⟩
def F.WAGGLE_SRC_STATUS_in_service : Fld := ⟨R.WAGGLE_SRC_STATUS, 30, 30⟩
def F.WAGGLE_SRC_STATUS_core : Fld := ⟨R.WAGGLE_SRC_STATUS, 29, 25⟩
def F.WAGGLE_SRC_STATUS_count : Fld := ⟨R.WAGGLE_SRC_STATUS, 7, 0⟩
def R.WAGGLE_GRP_IDX : Reg := ⟨209, 0x200000, 0, 1, 0x10, 0, 1, 0, [], 0x7f, 0, 0, 0⟩
def F.WAGGLE_GRP_IDX_group : Fld := ⟨R.WAGGLE_GRP_IDX, 6, 0⟩
def R.WAGGLE_GRP_CFG : Reg := ⟨210, 0x200000, 0, 1, 0x14, 0, 1, 0, [], 0x3fffff, 0x80000000, 0, 0⟩
def F.WAGGLE_GRP_CFG_refused : Fld := ⟨R.WAGGLE_GRP_CFG, 31, 31⟩
def F.WAGGLE_GRP_CFG_held : Fld := ⟨R.WAGGLE_GRP_CFG, 30, 30⟩
def F.WAGGLE_GRP_CFG_timer : Fld := ⟨R.WAGGLE_GRP_CFG, 21, 16⟩
def F.WAGGLE_GRP_CFG_holdoff : Fld := ⟨R.WAGGLE_GRP_CFG, 15, 0⟩
def R.WAGGLE_CORE_THRESH : Reg := ⟨211, 0x200000, 0, 1, 0x100, 16, 24, 0, [], 0x1f, 0x80000000, 0, 0⟩
def F.WAGGLE_CORE_THRESH_eoi_error : Fld := ⟨R.WAGGLE_CORE_THRESH, 31, 31⟩
def F.WAGGLE_CORE_THRESH_running : Fld := ⟨R.WAGGLE_CORE_THRESH, 12, 8⟩
def F.WAGGLE_CORE_THRESH_threshold : Fld := ⟨R.WAGGLE_CORE_THRESH, 4, 0⟩
def R.WAGGLE_CORE_CLAIM : Reg := ⟨212, 0x200000, 0, 1, 0x104, 16, 24, 0, [], 0, 0, 0, 0xfffc0fff⟩
def F.WAGGLE_CORE_CLAIM_valid : Fld := ⟨R.WAGGLE_CORE_CLAIM, 31, 31⟩
def F.WAGGLE_CORE_CLAIM_level : Fld := ⟨R.WAGGLE_CORE_CLAIM, 30, 26⟩
def F.WAGGLE_CORE_CLAIM_count : Fld := ⟨R.WAGGLE_CORE_CLAIM, 25, 18⟩
def F.WAGGLE_CORE_CLAIM_source : Fld := ⟨R.WAGGLE_CORE_CLAIM, 11, 0⟩
def R.WAGGLE_CORE_EOI : Reg := ⟨213, 0x200000, 0, 1, 0x108, 16, 24, 0, [], 0, 0, 0, 0⟩
def F.WAGGLE_CORE_EOI_source : Fld := ⟨R.WAGGLE_CORE_EOI, 11, 0⟩
def R.WAGGLE_SWTRIG : Reg := ⟨214, 0x200000, 0, 1, 0x300, 0, 1, 0, [], 0, 0, 0, 0⟩
def F.WAGGLE_SWTRIG_source : Fld := ⟨R.WAGGLE_SWTRIG, 11, 0⟩
def R.WAGGLE_MSIX_IDX : Reg := ⟨215, 0x200000, 0, 1, 0x400, 0, 1, 0, [], 0xffff, 0, 0, 0⟩
def F.WAGGLE_MSIX_IDX_dome : Fld := ⟨R.WAGGLE_MSIX_IDX, 15, 4⟩
def F.WAGGLE_MSIX_IDX_vector : Fld := ⟨R.WAGGLE_MSIX_IDX, 3, 0⟩
def R.WAGGLE_MSIX_ADDR_LO : Reg := ⟨216, 0x200000, 0, 1, 0x404, 0, 1, 0, [], 0xfffffffc, 0, 0, 0⟩
def F.WAGGLE_MSIX_ADDR_LO_addr_lo : Fld := ⟨R.WAGGLE_MSIX_ADDR_LO, 31, 2⟩
def R.WAGGLE_MSIX_ADDR_HI : Reg := ⟨217, 0x200000, 0, 1, 0x408, 0, 1, 0, [], 0xffffffff, 0, 0, 0⟩
def F.WAGGLE_MSIX_ADDR_HI_addr_hi : Fld := ⟨R.WAGGLE_MSIX_ADDR_HI, 31, 0⟩
def R.WAGGLE_MSIX_DATA : Reg := ⟨218, 0x200000, 0, 1, 0x40c, 0, 1, 0, [], 0xffffffff, 0, 0, 0⟩
def F.WAGGLE_MSIX_DATA_data : Fld := ⟨R.WAGGLE_MSIX_DATA, 31, 0⟩
def R.WAGGLE_MSIX_CTL : Reg := ⟨219, 0x200000, 0, 1, 0x410, 0, 1, 0x40000000, [], 0x4003ffff, 0, 0, 0⟩
def F.WAGGLE_MSIX_CTL_pending : Fld := ⟨R.WAGGLE_MSIX_CTL, 31, 31⟩
def F.WAGGLE_MSIX_CTL_mask : Fld := ⟨R.WAGGLE_MSIX_CTL, 30, 30⟩
def F.WAGGLE_MSIX_CTL_port : Fld := ⟨R.WAGGLE_MSIX_CTL, 17, 14⟩
def F.WAGGLE_MSIX_CTL_link : Fld := ⟨R.WAGGLE_MSIX_CTL, 13, 13⟩
def F.WAGGLE_MSIX_CTL_src_kind : Fld := ⟨R.WAGGLE_MSIX_CTL, 12, 12⟩
def F.WAGGLE_MSIX_CTL_dest_id : Fld := ⟨R.WAGGLE_MSIX_CTL, 11, 0⟩
def R.WAGGLE_TMR_IDX : Reg := ⟨220, 0x200000, 0, 1, 0x500, 0, 1, 0, [], 0x3f, 0, 0, 0⟩
def F.WAGGLE_TMR_IDX_timer : Fld := ⟨R.WAGGLE_TMR_IDX, 5, 0⟩
def R.WAGGLE_TMR_OWNER : Reg := ⟨221, 0x200000, 0, 1, 0x504, 0, 1, 0, [], 0xffff, 0x80000000, 0, 0⟩
def F.WAGGLE_TMR_OWNER_refused : Fld := ⟨R.WAGGLE_TMR_OWNER, 31, 31⟩
def F.WAGGLE_TMR_OWNER_owner : Fld := ⟨R.WAGGLE_TMR_OWNER, 15, 0⟩
def R.WAGGLE_TMR_CTL : Reg := ⟨222, 0x200000, 0, 1, 0x508, 0, 1, 0, [], 3, 0, 0, 0⟩
def F.WAGGLE_TMR_CTL_periodic : Fld := ⟨R.WAGGLE_TMR_CTL, 1, 1⟩
def F.WAGGLE_TMR_CTL_run : Fld := ⟨R.WAGGLE_TMR_CTL, 0, 0⟩
def R.WAGGLE_TMR_LOAD : Reg := ⟨223, 0x200000, 0, 1, 0x50c, 0, 1, 0, [], 0xffffffff, 0, 0, 0⟩
def F.WAGGLE_TMR_LOAD_ticks : Fld := ⟨R.WAGGLE_TMR_LOAD, 31, 0⟩

/-! Registers of 17_clocks_power_startup_freeze.md -/

def R.CLK_STATUS : Reg := ⟨224, 0x300000, 0, 1, 0, 0, 1, 0, [], 0, 0, 0, 0⟩
def F.CLK_STATUS_serdes_lock : Fld := ⟨R.CLK_STATUS, 3, 3⟩
def F.CLK_STATUS_ddr_lock : Fld := ⟨R.CLK_STATUS, 2, 2⟩
def F.CLK_STATUS_root_lock : Fld := ⟨R.CLK_STATUS, 1, 1⟩
def F.CLK_STATUS_ref_ok : Fld := ⟨R.CLK_STATUS, 0, 0⟩
def R.CLK_CTL : Reg := ⟨225, 0x300000, 0, 1, 4, 0, 1, 0, [], 1, 0, 0, 0⟩
def F.CLK_CTL_fast_dram : Fld := ⟨R.CLK_CTL, 0, 0⟩
def R.CLK_REFCNT_LO : Reg := ⟨226, 0x300000, 0, 1, 8, 0, 1, 0, [], 0, 0, 0, 0⟩
def F.CLK_REFCNT_LO_count_lo : Fld := ⟨R.CLK_REFCNT_LO, 31, 0⟩
def R.CLK_REFCNT_HI : Reg := ⟨227, 0x300000, 0, 1, 0xc, 0, 1, 0, [], 0, 0, 0, 0⟩
def F.CLK_REFCNT_HI_count_hi : Fld := ⟨R.CLK_REFCNT_HI, 15, 0⟩
def R.PWR_DOM_CTL : Reg := ⟨228, 0x300000, 0, 1, 0x10, 0, 1, 0xfffff, [], 0xfffc0, 0, 0, 0⟩
def F.PWR_DOM_CTL_on_7_20 : Fld := ⟨R.PWR_DOM_CTL, 19, 6⟩
def F.PWR_DOM_CTL_on_5_6 : Fld := ⟨R.PWR_DOM_CTL, 5, 4⟩
def F.PWR_DOM_CTL_on_1_4 : Fld := ⟨R.PWR_DOM_CTL, 3, 0⟩
def R.PWR_DOM_STATUS : Reg := ⟨229, 0x300000, 0, 1, 0x14, 0, 1, 1, [], 0, 0x80000000, 0, 0⟩
def F.PWR_DOM_STATUS_refused : Fld := ⟨R.PWR_DOM_STATUS, 31, 31⟩
def F.PWR_DOM_STATUS_busy : Fld := ⟨R.PWR_DOM_STATUS, 30, 30⟩
def F.PWR_DOM_STATUS_on : Fld := ⟨R.PWR_DOM_STATUS, 19, 0⟩
def R.PGU_LIMIT : Reg := ⟨230, 0x300000, 0, 1, 0x100, 0, 1, 0x64008c0, [], 0xfff0fff, 0, 0, 0⟩
def F.PGU_LIMIT_throttle_limit : Fld := ⟨R.PGU_LIMIT, 27, 16⟩
def F.PGU_LIMIT_limit : Fld := ⟨R.PGU_LIMIT, 11, 0⟩
def R.PGU_BASE : Reg := ⟨231, 0x300000, 0, 1, 0x104, 0, 1, 0x5a0, [], 0xfff, 0, 0, 0⟩
def F.PGU_BASE_base : Fld := ⟨R.PGU_BASE, 11, 0⟩
def R.PGU_COST_IDX : Reg := ⟨232, 0x300000, 0, 1, 0x108, 0, 1, 0, [], 0xf, 0, 0, 0⟩
def F.PGU_COST_IDX_kind : Fld := ⟨R.PGU_COST_IDX, 3, 0⟩
def R.PGU_COST_VAL : Reg := ⟨233, 0x300000, 0, 1, 0x10c, 0, 1, 0, [], 0x3ff, 0, 0, 0⟩
def F.PGU_COST_VAL_cost : Fld := ⟨R.PGU_COST_VAL, 9, 0⟩
def R.PGU_STATUS : Reg := ⟨234, 0x300000, 0, 1, 0x110, 0, 1, 0, [], 0, 0, 0, 0⟩
def F.PGU_STATUS_throttled : Fld := ⟨R.PGU_STATUS, 31, 31⟩
def F.PGU_STATUS_granted : Fld := ⟨R.PGU_STATUS, 27, 16⟩
def F.PGU_STATUS_waiting : Fld := ⟨R.PGU_STATUS, 8, 0⟩
def R.PGU_CNT : Reg := ⟨235, 0x300000, 0, 1, 0x114, 0, 1, 0, [], 0, 0, 0, 0xffffffff⟩
def F.PGU_CNT_solo_grants : Fld := ⟨R.PGU_CNT, 31, 16⟩
def F.PGU_CNT_waits : Fld := ⟨R.PGU_CNT, 15, 0⟩
def R.START_STATUS : Reg := ⟨236, 0x300000, 0, 1, 0x200, 0, 1, 0, [], 0, 0, 0, 0⟩
def F.START_STATUS_ready : Fld := ⟨R.START_STATUS, 31, 31⟩
def F.START_STATUS_error : Fld := ⟨R.START_STATUS, 23, 20⟩
def F.START_STATUS_step : Fld := ⟨R.START_STATUS, 19, 16⟩
def F.START_STATUS_ready_ms : Fld := ⟨R.START_STATUS, 15, 0⟩
def R.FRZ_STATUS : Reg := ⟨237, 0x300000, 0, 1, 0x300, 0, 1, 0, [], 0, 0, 0, 0⟩
def F.FRZ_STATUS_frozen : Fld := ⟨R.FRZ_STATUS, 31, 31⟩
def F.FRZ_STATUS_tap_freeze : Fld := ⟨R.FRZ_STATUS, 30, 30⟩
def F.FRZ_STATUS_pin_freeze : Fld := ⟨R.FRZ_STATUS, 29, 29⟩
def F.FRZ_STATUS_thaw_busy : Fld := ⟨R.FRZ_STATUS, 28, 28⟩
def F.FRZ_STATUS_sr_fail : Fld := ⟨R.FRZ_STATUS, 23, 0⟩

/-! Registers of 18_control_cores_and_management.md -/

def R.GLOBAL_CORE_WDT : Reg := ⟨238, 0, 0, 1, 0x600, 4, 24, 0, [], 0xffff, 0x80000000, 0, 0⟩
def F.GLOBAL_CORE_WDT_expired : Fld := ⟨R.GLOBAL_CORE_WDT, 31, 31⟩
def F.GLOBAL_CORE_WDT_kick : Fld := ⟨R.GLOBAL_CORE_WDT, 30, 30⟩
def F.GLOBAL_CORE_WDT_timeout_ms : Fld := ⟨R.GLOBAL_CORE_WDT, 15, 0⟩
def R.GLOBAL_CORE_RST : Reg := ⟨239, 0, 0, 1, 0x660, 0, 1, 0, [], 0xffffff, 0x80000000, 0, 0⟩
def F.GLOBAL_CORE_RST_refused : Fld := ⟨R.GLOBAL_CORE_RST, 31, 31⟩
def F.GLOBAL_CORE_RST_hold : Fld := ⟨R.GLOBAL_CORE_RST, 23, 0⟩
def R.GLOBAL_FWCMD_TAKE : Reg := ⟨240, 0, 0, 1, 0x680, 8, 8, 0, [], 0, 0, 0, 0x8000000f⟩
def F.GLOBAL_FWCMD_TAKE_valid : Fld := ⟨R.GLOBAL_FWCMD_TAKE, 31, 31⟩
def F.GLOBAL_FWCMD_TAKE_area : Fld := ⟨R.GLOBAL_FWCMD_TAKE, 3, 0⟩
def R.GLOBAL_FWCMD_DONE : Reg := ⟨241, 0, 0, 1, 0x684, 8, 8, 0, [], 0, 0, 0, 0⟩
def F.GLOBAL_FWCMD_DONE_area : Fld := ⟨R.GLOBAL_FWCMD_DONE, 3, 0⟩
def R.GLOBAL_MGMT_CTL : Reg := ⟨242, 0, 0, 1, 0x6c0, 0, 1, 1, [], 3, 0, 0, 0⟩
def F.GLOBAL_MGMT_CTL_rs_fec : Fld := ⟨R.GLOBAL_MGMT_CTL, 1, 1⟩
def F.GLOBAL_MGMT_CTL_enable : Fld := ⟨R.GLOBAL_MGMT_CTL, 0, 0⟩
def R.GLOBAL_MGMT_STATUS : Reg := ⟨243, 0, 0, 1, 0x6c4, 0, 1, 0, [], 0, 0, 0, 0xffff0000⟩
def F.GLOBAL_MGMT_STATUS_dropped : Fld := ⟨R.GLOBAL_MGMT_STATUS, 31, 16⟩
def F.GLOBAL_MGMT_STATUS_module_present : Fld := ⟨R.GLOBAL_MGMT_STATUS, 1, 1⟩
def F.GLOBAL_MGMT_STATUS_link_up : Fld := ⟨R.GLOBAL_MGMT_STATUS, 0, 0⟩

/-! Registers of 20_register_space.md -/

def R.GLOBAL_ID : Reg := ⟨244, 0, 0, 1, 0, 0, 1, 0x9600001, [], 0, 0, 0, 0⟩
def F.GLOBAL_ID_part : Fld := ⟨R.GLOBAL_ID, 31, 16⟩
def F.GLOBAL_ID_step_letter : Fld := ⟨R.GLOBAL_ID, 15, 12⟩
def F.GLOBAL_ID_step_num : Fld := ⟨R.GLOBAL_ID, 11, 8⟩
def F.GLOBAL_ID_package : Fld := ⟨R.GLOBAL_ID, 7, 0⟩
def R.GLOBAL_NODE : Reg := ⟨245, 0, 0, 1, 8, 0, 1, 0, [], 0, 0, 0, 0⟩
def F.GLOBAL_NODE_dpc_sel : Fld := ⟨R.GLOBAL_NODE, 10, 10⟩
def F.GLOBAL_NODE_succ_sel : Fld := ⟨R.GLOBAL_NODE, 9, 9⟩
def F.GLOBAL_NODE_queen_sel : Fld := ⟨R.GLOBAL_NODE, 8, 8⟩
def F.GLOBAL_NODE_node_id : Fld := ⟨R.GLOBAL_NODE, 5, 0⟩
def R.GLOBAL_CAP0 : Reg := ⟨246, 0, 0, 1, 0x10, 0, 1, 0x100c1818, [], 0, 0, 0, 0⟩
def F.GLOBAL_CAP0_cx_ports : Fld := ⟨R.GLOBAL_CAP0, 31, 24⟩
def F.GLOBAL_CAP0_ry_ports : Fld := ⟨R.GLOBAL_CAP0, 23, 16⟩
def F.GLOBAL_CAP0_channels : Fld := ⟨R.GLOBAL_CAP0, 15, 8⟩
def F.GLOBAL_CAP0_spires : Fld := ⟨R.GLOBAL_CAP0, 7, 0⟩
def R.GLOBAL_CAP1 : Reg := ⟨247, 0, 0, 1, 0x14, 0, 1, 0x20402020, [], 0, 0, 0, 0⟩
def F.GLOBAL_CAP1_movers : Fld := ⟨R.GLOBAL_CAP1, 31, 24⟩
def F.GLOBAL_CAP1_acc_windows : Fld := ⟨R.GLOBAL_CAP1, 23, 16⟩
def F.GLOBAL_CAP1_hdm_decoders : Fld := ⟨R.GLOBAL_CAP1, 15, 8⟩
def F.GLOBAL_CAP1_agent_slots : Fld := ⟨R.GLOBAL_CAP1, 7, 0⟩
def R.GLOBAL_POP : Reg := ⟨248, 0, 0, 1, 0x18, 0, 1, 0, [], 0, 0, 0, 0⟩
def F.GLOBAL_POP_spires_in_service : Fld := ⟨R.GLOBAL_POP, 29, 6⟩
def F.GLOBAL_POP_dram_groups : Fld := ⟨R.GLOBAL_POP, 5, 0⟩
def R.GLOBAL_RST_CAUSE : Reg := ⟨249, 0, 0, 1, 0x20, 0, 1, 0, [], 0, 0, 0, 0⟩
def F.GLOBAL_RST_CAUSE_software : Fld := ⟨R.GLOBAL_RST_CAUSE, 2, 2⟩
def F.GLOBAL_RST_CAUSE_perst : Fld := ⟨R.GLOBAL_RST_CAUSE, 1, 1⟩
def F.GLOBAL_RST_CAUSE_power_on : Fld := ⟨R.GLOBAL_RST_CAUSE, 0, 0⟩
def R.GLOBAL_SW_RST : Reg := ⟨250, 0, 0, 1, 0x24, 0, 1, 0, [], 0, 0, 0, 0⟩
def F.GLOBAL_SW_RST_pending : Fld := ⟨R.GLOBAL_SW_RST, 16, 16⟩
def F.GLOBAL_SW_RST_key : Fld := ⟨R.GLOBAL_SW_RST, 15, 0⟩
def R.GLOBAL_CSR_ERR : Reg := ⟨251, 0, 0, 1, 0x28, 0, 1, 0, [], 0, 0, 0, 0xffffffff⟩
def F.GLOBAL_CSR_ERR_off_domain : Fld := ⟨R.GLOBAL_CSR_ERR, 31, 16⟩
def F.GLOBAL_CSR_ERR_unmapped : Fld := ⟨R.GLOBAL_CSR_ERR, 15, 0⟩
def R.GLOBAL_CSR_ERR_ADDR : Reg := ⟨252, 0, 0, 1, 0x2c, 0, 1, 0, [], 0, 0, 0, 0⟩
def F.GLOBAL_CSR_ERR_ADDR_addr : Fld := ⟨R.GLOBAL_CSR_ERR_ADDR, 26, 0⟩

end Sys2Proof.Machine
end

