-- ==== Sys2Proof/Machine/State.lean ====
section
/-!
DEFINITION. The state of the block: every register, memory, queue, table, counter, mode and pin the manual gives it,
as plain data, and the queue of waiting commands. `State.reset` is the block without power, before PWROK (R354).
-/
namespace Sys2Proof.Machine

-- Log entry 4: DESIGN CHOICE, safe.
/-- Why a step could fault. No meaning of this model raises one: every condition of the manual has an effect
there. Safe. -/
inductive Fault
  | illFormed   -- kept for a command whose operands no sender can form; raised by nothing. Safe
  deriving DecidableEq, Repr

-- Log entry 4: DESIGN CHOICE, safe.
/-- Why a step could refuse. -/
inductive Refusal
  | notModelled (mnemonic : String)  -- raised by a dispatch arm without a meaning; no arm is left. Safe
  deriving DecidableEq, Repr

/-- The coherence home and the snoop filter (chapter 6). -/
structure Home where
  txs : List Tx                 -- accesses in the tracker, in order of arrival
  nextId : Nat
  ready : List (Nat × Bool)     -- lines with waiters that the home has to arbitrate; released by an access or not (R13, R138)
  answers : List EngAns         -- accesses of engines that are complete and not yet taken up
  snoops : List Snoop           -- back-invalidate tracker
  held : List HeldReq           -- ingress entries without admission
  rr : Nat                      -- rotating arbitration pointer (R13)
  filter : SMap (BitVec 32)     -- (agent * 32768 + set) * 16 + way -> entry (R131)
  plru : SMap (BitVec 15)       -- agent * 32768 + set -> tree
  keep : SMap Bool              -- Dome -> keep_on_down (R144)
  sweeps : List DownSweep
  down : List Nat               -- agent slots marked down
  agents : SMap Word            -- agent slot -> its key and enable bit, as SNOOP_AGENT_CFG holds them (R130)
  deriving DecidableEq, Repr

/-- The honey cache, page heat and migration (chapter 5). -/
structure Honey where
  lines : SMap HLine            -- set * 16 + way -> line
  plru : SMap (BitVec 15)       -- set -> tree
  ways : SMap Word              -- Dome -> HONEY_WAY_VAL
  halfA : Half
  halfB : Half
  pins : List (Nat × Nat)       -- pinned cell, Dome charged
  heat : SMap HeatEnt           -- cell -> buffered increment
  epochAt : Nat                 -- root tick at which the current epoch began
  sweep : Option Nat            -- next cell of the heat sweep
  lateEpoch : Bool
  hot : Option HotJob
  mig : SMap MigSlot
  migAborted : List (Nat × Nat) -- cells whose slot ended by itself, with the status of their migration-end command (R124)
  deriving DecidableEq, Repr

/-- Domes, share groups and doorbell pages (chapters 2 and 7). -/
structure Domes where
  st : SMap DomeSt              -- Dome -> state, FREE where absent
  groups : SMap Group
  pages : SMap Nat              -- Dome -> doorbell page DPA
  deriving DecidableEq, Repr

/-- Queue control (chapter 7) and the data movers. -/
structure QCtl where
  desc : SMap QDesc
  cmds : SMap Cmd               -- context number -> command; 16,384 is the mailbox context
  nextSeq : Nat
  lastDome : Nat                -- Dome served last (R155)
  lastQ : SMap Nat              -- Dome -> queue served last
  turn : Option (Nat × Nat)     -- queue whose turn it is, packets left
  fwBuf : List Nat              -- control buffer (R368)
  areas : SMap Nat              -- core * 16 + area -> context (R368)
  tcmReply : SMap (BitVec 128)  -- context -> reply bytes written by firmware
  deriving DecidableEq, Repr

/-- Comb translation (chapter 8). -/
structure Comb where
  atc : SMap Leaf               -- engine * 512 + index
  atcPlru : SMap (BitVec 511)
  stc : SMap Leaf               -- set * 16 + way
  stcPlru : SMap (BitVec 15)
  miss : SMap Miss              -- miss_id -> pending miss
  order : Int
  inval : Option Inval
  outcomes : SMap (List (Nat × Nat × Nat))  -- command -> (outcome, page, record ctx) delivered to it
  stalled : SMap Nat            -- command -> page of its access that the full miss table stalls (R178)
  lower : SMap (List Nat)       -- command -> first pages of leaves whose lower half a stream of it has touched (R179)
  deriving DecidableEq, Repr

/-- The Rythar fabric at this node: forwarding, messages, windows, the queen (chapter 13). -/
structure Fabric where
  fwd : List FwdPkt
  msgs : SMap Msg
  retired : SMap Nat            -- message number -> root tick of its end
  owin : List OwinReq
  modes : SMap Word             -- Dome -> RYP_DOME_MODE_VAL
  registry : SMap DomeSt        -- queen's Dome registry
  alloc : SMap Nat              -- queen's cell-allocation map: Dome * 64 + node -> cells
  broker : SMap (BitVec 512)    -- queen's key broker: Dome * 2 + generation
  directory : SMap Nat          -- queen's interleave directory
  reports : List QUpd           -- updates of the queen's state held for her, or for her successor (R287, R288)
  succ : Option Nat             -- the successor this node has heard of (R286)
  told : List Nat               -- nodes that have been sent this node's claim of a role (R286)
  votes : List Nat
  missed : Nat                  -- heartbeats missed in a row
  pool : Nat                    -- nodes of the pool by configuration record 6, 0 without one (R374)
  here : List InPkt             -- packets this node sent to itself
  deriving DecidableEq, Repr

/-- Egress and policing (chapter 14). -/
structure Egress where
  items : List EgItem
  nextSeq : Nat
  subs : SMap Bucket            -- port * 4096 + Dome
  svcs : SMap Bucket            -- port * 8 + class
  ports : SMap Bucket           -- port
  pols : SMap Bucket            -- port * 4096 + Dome
  cfg : SMap Word               -- port -> SHAPER_PORT_CFG
  classCfg : SMap Word          -- port * 8 + class -> SHAPER_CLASS_CFG
  weights : SMap Word           -- Dome -> SHAPER_DOME_WT
  cdef : SMap Int               -- port * 8 + class
  sdef : SMap Int               -- (port * 8 + class) * 4096 + Dome
  lastCls : SMap Nat            -- port * 2 + link -> class served last
  lastSub : SMap Nat            -- (port * 2 + link) * 8 + class -> Dome served last
  resetDomes : List Nat         -- Domes whose settings return to reset at the next edge (R300)
  deriving DecidableEq, Repr

/-- The security root (chapter 15). -/
structure Sec where
  slots : SMap KeySlot          -- Dome * 2 + generation
  dome0Key : Nat                -- draw number of Dome 0's key
  old : SMap Nat                -- Dome -> cells still under the DRAINING generation
  bind : SMap (BitVec 384)      -- Dome -> binding
  sessions : SMap Session
  sweeps : List Sweep
  rekeyRun : List (Nat × Nat)   -- Dome, command of its running REKEY
  teardowns : SMap Teardown     -- Dome -> teardown
  armed : List Nat              -- Domes whose packets are discarded (step 3 of R316)
  overwrite : List (Nat × List Nat)  -- Domes whose overwrite pass runs, with their cells
  chain : List Nat              -- certificate chain bytes of slot 0
  deriving DecidableEq, Repr

/-- The Belfry (chapter 16). -/
structure Belfry where
  evts : List FaultEvt          -- events held at the sources, oldest first
  cfg : SMap Word               -- source -> enable and actions where they differ from R319
  pairs : SMap PairSt
  recs : SMap FaultRec          -- slot -> record
  seq : Nat
  ovf : SMap OvfSum
  archNext : Nat
  archWrapped : Bool
  stops : SMap Nat              -- Dome -> stop count (R329)
  active : Bool
  latched : Bool
  recoveries : Nat
  deriving DecidableEq, Repr

/-- The Waggle (chapter 16). -/
structure Waggle where
  srcs : SMap WSrc
  service : List (Nat × Nat)    -- core, source in service
  groups : SMap WGroup
  vecs : SMap Vec               -- Dome * 16 + vector
  timers : SMap Timer
  deriving DecidableEq, Repr

/-- Clocks, power, start-up, freeze (chapter 17). -/
structure Power where
  refTime : Nat                 -- ticks of 1/3 ns since PWROK
  rootTime : Nat                -- ticks during which the root-derived clocks ran
  pwrok : Bool
  perstN : Bool
  throttleIn : Bool             -- THROTTLE_N asserted at the pin
  throttlePin : Bool            -- THROTTLE_N asserted, as it has taken effect
  freezePin : Bool
  tapFreeze : Bool
  frozen : Bool
  ready : Bool
  step : Nat                    -- last step of R354 completed
  inReset : Bool                -- PERST_N or a software reset holds the device
  node : Nat
  queenSel : Bool
  succSel : Bool
  dpcSel : Bool
  domains : BitVec 20           -- powered domains
  switching : Option (Nat × Bool)
  refHi : BitVec 16
  queue : List PguReq
  granted : List (PguReq × Nat)   -- leave given, with the cost held
  costs : SMap Nat              -- kind -> PGU_COST_VAL where it differs from R349
  swResetAt : Option Nat
  trainStarted : Bool           -- a training start has made CLK_CTL read-only (R345)
  deriving DecidableEq, Repr

/-- Control cores and the management port (chapter 18). -/
structure Cores where
  kicked : SMap Nat             -- core -> tick at which its watchdog last restarted
  running : BitVec 24
  lastResp : SMap (Nat × Resp)  -- requester -> sequence and contents of its last response
  mgmtCmd : Option (Nat × Nat)  -- requester and sequence of the datagram whose command packet runs
  tcm : SMap Byte               -- firmware core * 2^20 + offset -> byte of its TCM, where it is not 0
  flash : SMap Byte             -- SPI flash contents by offset, where they are not 0xFF
  meas : SMap (BitVec 384)      -- measurement digests
  version : BitVec 64           -- version of the firmware image that runs (R373)
  deriving DecidableEq, Repr

/-- The whole block. -/
structure State where
  csr : SMap Word               -- registers by address where they differ from their reset value
  chans : Vector Channel 24
  home : Home
  honey : Honey
  domes : Domes
  q : QCtl
  comb : Comb
  spires : Vector Spire 24
  cxl : Vector CxlPort 16
  events : Vector EventLog 4    -- Informational, Warning, Failure, Fatal
  eventPolicy : BitVec 32
  ceTotal : Nat                 -- corrected errors since reset (R250)
  poisonList : List Nat
  poisonOvf : Bool
  ry : Vector RyPort 12
  fab : Fabric
  eg : Egress
  sec : Sec
  bel : Belfry
  wag : Waggle
  pwr : Power
  cores : Cores
  free : Nat                    -- the model's own: numbers the free values drawn
  out : List Out                -- the model's own: what left the block, newest first
  pending : List Instr          -- commands waiting, first in first out
  deriving DecidableEq, Repr

def Subch.reset : Subch :=
  { rq := [], wq := [], drain := false, rows := [], lastCol := [], marks := [], nbr := none, raa := [], hist := [],
    flight := [], retry := [], retries := 0, alert := false, refIdx := [], refDue := [], refAt := [], putOff := [], started := none, rfmOn := none,
    zqAt := [], oscAt := [] }

-- Log entry 6: DESIGN CHOICE, unsafe.
def Channel.reset : Channel :=
  { array := [], epoch := 0, metaInit := false, sub0 := Subch.reset, sub1 := Subch.reset, qos := [], mods := [], hot := false,
    rfmInit := 0, rfmMax := 0, stackLog2 := 0, cel := [], remap := [], install := none, train := none,
    trained := false, failed := false, failTimes := [], selfRefresh := false, members := [],
    frgPos := 0, frgLast := 0, frgLapTicks := 0, frgSince := 0, frgLease := false, frgLeaseWait := false }

def Home.reset : Home :=
  { txs := [], nextId := 0, ready := [], answers := [], snoops := [], held := [], rr := 0, filter := [], plru := [], keep := [],
    sweeps := [], down := [], agents := [] }

def Honey.reset : Honey :=
  { lines := [], plru := [], ways := [], halfA := .off, halfB := .off, pins := [], heat := [], epochAt := 0,
    sweep := none, lateEpoch := false, hot := none, mig := [], migAborted := [] }

def QCtl.reset : QCtl :=
  { desc := [], cmds := [], nextSeq := 0, lastDome := 0, lastQ := [], turn := none, fwBuf := [], areas := [],
    tcmReply := [] }

def Comb.reset : Comb :=
  { atc := [], atcPlru := [], stc := [], stcPlru := [], miss := [], order := 0, inval := none, outcomes := [], stalled := [], lower := [] }

def Spire.reset : Spire :=
  { opq := [], slots := [], scratch := [], gen := 0, draws := 0, selfTest := false }

def CxlLink.reset : CxlLink :=
  { up := false, recovery := none, width := 0, speed := 0, ideSecure := false, keySet := 0, ideKeys := [], skid := false,
    epoch := [], ioKeys := [], ioSet := [], doeErr := [], cdat := [],
    flitsTx := 0, flitsRx := 0, replays := 0, ideFails := 0, downs := 0, discarded := 0 }

def CxlPort.reset (fm : Bool) : CxlPort :=
  { link0 := CxlLink.reset, link1 := CxlLink.reset, mode := 0, bifurcate := false, fmFunc := fm, bar2 := none, ctxt := [],
    ctxtCmd := none }

-- Log entry 6: DESIGN CHOICE, unsafe.
def RyPort.reset : RyPort :=
  { st := .down, since := 0, attempts := 0, x4 := false, heardAt := none, beganAt := 0, began := true, capX4 := false,
    capSlow := false, lanes := [], spareTx := none, txLine := (0, 0), rxLine := (0, 0, false), corrs := [], nextSeq := 0, sent := [],
    replayFrom := none, rounds := 0, ackAt := 0, exp := 0, nakAt := none, nakDue := false, epochStart := 0, epochLen := 0, tagFails := 0,
    txEpoch := 0, txIv := 0, rxIv := 0, unacked := 0, ackDue := false, inbuf := [], heads := [], ready := [], retReq := 0, retRsp := 0,
    retBulk := 0, retMgt := 0, credReq := 0, credRsp := 0, credBulk := 0, credMgt := 0, ctrl := [], outq := [],
    paused := false, spareLocked := true, sparing := none, moving := false, keys := [], txGen := 0, switchReq := false }

def Fabric.reset : Fabric :=
  { fwd := [], msgs := [], retired := [], owin := [], modes := [], registry := [], alloc := [], broker := [],
    directory := [], reports := [], succ := none, told := [], votes := [], missed := 0, pool := 0, here := [] }

def Egress.reset : Egress :=
  { items := [], nextSeq := 0, subs := [], svcs := [], ports := [], pols := [], cfg := [], classCfg := [],
    weights := [], cdef := [], sdef := [], lastCls := [], lastSub := [], resetDomes := [] }

def Sec.reset : Sec :=
  { slots := [], dome0Key := 0, old := [], bind := [], sessions := [], sweeps := [], rekeyRun := [],
    teardowns := [], armed := [], overwrite := [], chain := [] }

def Belfry.reset : Belfry :=
  { evts := [], cfg := [], pairs := [], recs := [], seq := 0, ovf := [], archNext := 0, archWrapped := false,
    stops := [], active := false, latched := false, recoveries := 0 }

def Waggle.reset : Waggle := { srcs := [], service := [], groups := [], vecs := [], timers := [] }

-- Log entry 6: DESIGN CHOICE, unsafe.
def Power.reset : Power :=
  { refTime := 0, rootTime := 0, pwrok := false, perstN := true, throttleIn := false, throttlePin := false, freezePin := false,
    tapFreeze := false, frozen := false, ready := false, step := 0, inReset := true, node := 0, queenSel := false,
    succSel := false, dpcSel := false, domains := 1, switching := none, refHi := 0, queue := [], granted := [], costs := [],
    swResetAt := none, trainStarted := false }

def Cores.reset : Cores := { kicked := [], running := 0, lastResp := [], mgmtCmd := none, tcm := [], flash := [], meas := [], version := 0 }

def CxlPorts.reset : Vector CxlPort 16 := (Vector.replicate 16 (CxlPort.reset false)).set 0 (CxlPort.reset true)

def EventLogs.reset : Vector EventLog 4 := Vector.replicate 4 { recs := [], overflow := false, lost := 0 }

-- Log entries 1: DESIGN CHOICE, safe; 6: DESIGN CHOICE, unsafe.
/-- The block without power: every register at its reset value (`csr` lists none), every memory and table empty. -/
def State.reset : State :=
  { csr := [], chans := Vector.replicate 24 Channel.reset, home := Home.reset, honey := Honey.reset,
    domes := { st := [], groups := [], pages := [] }, q := QCtl.reset, comb := Comb.reset,
    spires := Vector.replicate 24 Spire.reset, cxl := CxlPorts.reset, events := EventLogs.reset, eventPolicy := 0, ceTotal := 0,
    poisonList := [], poisonOvf := false, ry := Vector.replicate 12 RyPort.reset, fab := Fabric.reset,
    eg := Egress.reset, sec := Sec.reset, bel := Belfry.reset, wag := Waggle.reset, pwr := Power.reset,
    cores := Cores.reset, free := 0, out := [], pending := [] }

end Sys2Proof.Machine
end

