-- ==== Sys2Proof/Machine/Ops.lean ====
section
/-!
DEFINITION. Named operations over the state: sparse tables, registers and their fields, time, fault events,
interrupts, egress items, power leave, free values.
-/
namespace Sys2Proof

/-! ## Sparse tables -/

/-- The entry of a key. -/
def SMap.find {α : Type} : SMap α → Nat → Option α
  | [], _ => none
  | (a, v) :: r, k => if k = a then some v else SMap.find r k

/-- The entry of a key, or a default. -/
def SMap.findD {α : Type} (m : SMap α) (k : Nat) (d : α) : α := (SMap.find m k).getD d

/-- Sets the entry of a key; keys stay strictly rising. -/
def SMap.put {α : Type} : SMap α → Nat → α → SMap α
  | [], k, v => [(k, v)]
  | (a, b) :: r, k, v =>
    if k < a then (k, v) :: (a, b) :: r
    else if k = a then (k, v) :: r
    else (a, b) :: SMap.put r k v

/-- Removes a key. -/
def SMap.del {α : Type} (m : SMap α) (k : Nat) : SMap α := m.filter fun e => decide (e.1 ≠ k)

/-- Sets the entry of a key, listing none that equals the default of unlisted keys. -/
def SMap.store {α : Type} [DecidableEq α] (m : SMap α) (d : α) (k : Nat) (v : α) : SMap α :=
  if v = d then SMap.del m k else SMap.put m k v

/-- The canonical form: keys strictly rise. -/
def SMap.wf {α : Type} : SMap α → Bool
  | [] => true
  | [_] => true
  | (a, _) :: (b, w) :: r => decide (a < b) && SMap.wf ((b, w) :: r)

/-- The lowest number from `k` on that has no entry, keys rising. -/
def SMap.gapFrom {α : Type} : SMap α → Nat → Nat
  | [], k => k
  | (a, _) :: r, k => if a < k then SMap.gapFrom r k else if a = k then SMap.gapFrom r (k + 1) else k

/-- The lowest number below `n` that has no entry. -/
def SMap.firstFree {α : Type} (m : SMap α) (n : Nat) : Option Nat :=
  let k := SMap.gapFrom m 0
  if k < n then some k else none

namespace Machine

abbrev Result := Host.Outcome State Fault Refusal

-- Log entries 1: DESIGN CHOICE, safe; 97: DEDUCED, unsafe.
/-- The device runs: PWROK is high, no reset holds it, its clocks are not frozen (R354, R356, R359). -/
def State.up (s : State) : Bool := s.pwr.pwrok && !s.pwr.frozen && !s.pwr.inReset

/-- `s` with what no command of a powered device changes as it stands in `old`: the levels the board drives, the straps
as PWROK latched them (R353), the commands that wait. -/
def State.keep (s old : State) : State :=
  { s with
    pwr := { s.pwr with pwrok := old.pwr.pwrok, perstN := old.pwr.perstN, throttleIn := old.pwr.throttleIn,
                        freezePin := old.pwr.freezePin, node := old.pwr.node, queenSel := old.pwr.queenSel,
                        succSel := old.pwr.succSel, dpcSel := old.pwr.dpcSel },
    pending := old.pending }

/-- Domain 1 works: its power is good and no reset holds it, frozen or not (R360). -/
def State.up1 (s : State) : Bool := s.pwr.pwrok && !s.pwr.inReset

-- Log entry 1: DESIGN CHOICE, safe.
/-- The meaning of a command that a running device carries out. Without power, in reset or frozen the device has no
clock with which to take it, and nothing changes. -/
def run (s : State) (f : State → State) : Result := .next (if s.up then (f s).keep s else s)

-- Log entry 1: DESIGN CHOICE, safe.
/-- The meaning of what domain 1 does by itself. -/
def run1 (s : State) (f : State → State) : Result := .next (if s.up1 then (f s).keep s else s)

/-- Bits `[lo + w - 1 : lo]` of a number. -/
def bits (x lo w : Nat) : Nat := x / 2 ^ lo % 2 ^ w

/-- One bit of a number. -/
def bit (x i : Nat) : Bool := x / 2 ^ i % 2 == 1

/-- `x` with bits `[lo + w - 1 : lo]` replaced by `v`. -/
def setBits (x lo w v : Nat) : Nat := x - bits x lo w * 2 ^ lo + (v % 2 ^ w) * 2 ^ lo

/-! ## Time: ticks of one third of a nanosecond -/

def ns (n : Nat) : Nat := 3 * n
def us (n : Nat) : Nat := 3000 * n
def ms (n : Nat) : Nat := 3000000 * n

/-- Reference cycles since PWROK (R343). -/
def State.refCount (s : State) : Nat := s.pwr.refTime / 30

/-! ## Registers (R5 - R9, R394) -/

/-- The register address of block copy `i`, index `k`. -/
def Reg.addr (r : Reg) (i k : Nat) : Nat := r.base + i * r.blockStep + r.off + k * r.stride

/-- The reset value of block copy `i`, index `k`. -/
def Reg.resetAt (r : Reg) (i k : Nat) : Word :=
  BitVec.ofNat 32 ((r.special.lookup (i * r.count + k)).getD r.reset)

-- Log entry 5: DESIGN CHOICE, safe.
/-- The stored value of a register. -/
def State.rd (s : State) (r : Reg) (i : Nat := 0) (k : Nat := 0) : Word :=
  SMap.findD s.csr (r.addr i k) (r.resetAt i k)

-- Log entry 5: DESIGN CHOICE, safe.
/-- Stores a register's value. -/
def State.wr (s : State) (r : Reg) (v : Word) (i : Nat := 0) (k : Nat := 0) : State :=
  { s with csr := SMap.store s.csr (r.resetAt i k) (r.addr i k) v }

/-- A field of a register as a number. -/
def State.fN (s : State) (f : Fld) (i : Nat := 0) (k : Nat := 0) : Nat :=
  bits (s.rd f.reg i k).toNat f.lo (f.hi + 1 - f.lo)

/-- A one-bit field. -/
def State.fB (s : State) (f : Fld) (i : Nat := 0) (k : Nat := 0) : Bool := s.fN f i k != 0

/-- Sets a field. -/
def State.fSet (s : State) (f : Fld) (v : Nat) (i : Nat := 0) (k : Nat := 0) : State :=
  s.wr f.reg (BitVec.ofNat 32 (setBits (s.rd f.reg i k).toNat f.lo (f.hi + 1 - f.lo) v)) i k

/-- Sets a one-bit field. -/
def State.fFlag (s : State) (f : Fld) (b : Bool) (i : Nat := 0) (k : Nat := 0) : State :=
  s.fSet f (if b then 1 else 0) i k

/-- Adds to a counter field, which saturates at its largest value. -/
def State.bump (s : State) (f : Fld) (n : Nat := 1) (i : Nat := 0) (k : Nat := 0) : State :=
  s.fSet f (min (s.fN f i k + n) (2 ^ (f.hi + 1 - f.lo) - 1)) i k

/-- The value of a field in a register value that is being written. -/
def Fld.of (f : Fld) (v : Word) : Nat := bits v.toNat f.lo (f.hi + 1 - f.lo)

/-- Whether a one-bit field is 1 in a register value that is being written. -/
def Fld.on (f : Fld) (v : Word) : Bool := f.of v != 0

-- Log entry 18: DEDUCED, safe.
/-- A write under the access codes of R5: RW bits are stored, 1s clear W1C bits and set W1S bits, every other bit
keeps its value. -/
def codeWrite (r : Reg) (old v : Word) : Word :=
  let rw := BitVec.ofNat 32 r.rw
  let kept := (old &&& ~~~rw) ||| (v &&& rw)
  (kept &&& ~~~(v &&& BitVec.ofNat 32 r.w1c)) ||| (v &&& BitVec.ofNat 32 r.w1s)

/-- The generic write of a register (R5). -/
def State.wrCodes (s : State) (r : Reg) (v : Word) (i : Nat := 0) (k : Nat := 0) : State :=
  s.wr r (codeWrite r (s.rd r i k) v) i k

/-- The value a register holds after a read: its RC bits clear (R8). -/
def codeReadClear (r : Reg) (old : Word) : Word := old &&& ~~~(BitVec.ofNat 32 r.rc)

/-! ## Free values -/

-- Log entry 8: DESIGN CHOICE, safe.
/-- A fresh draw number. -/
def State.draw (s : State) : Nat × State := (s.free, { s with free := s.free + 1 })

-- Log entry 8: DESIGN CHOICE, safe.
/-- A fresh 64-bit random value. -/
def State.random64 (s : State) : BitVec 64 × State :=
  ((Config.random s.free).setWidth 64, { s with free := s.free + 1 })

/-! ## Outputs -/

-- Log entry 15: DESIGN CHOICE, safe.
/-- Records one thing that leaves the block. -/
def State.emit (s : State) (o : Out) : State := { s with out := o :: s.out }

/-! ## Domes -/

/-- The Dome of a context ID (R2). -/
def domeOf (c : Ctx) : Nat := c.toNat / 16

/-- The state of a Dome; Dome 0 is always ACTIVE (R40, R407). -/
def State.domeSt (s : State) (d : Nat) : DomeSt := if d = 0 then .active else SMap.findD s.domes.st d .free

/-- Whether a Dome is a member of a share group (R43). -/
def State.member (s : State) (g d : Nat) : Bool :=
  match SMap.find s.domes.groups g with
  | some gr => gr.members.contains d
  | none => false

/-! ## Fault sources (R319) -/

/-- Class, default actions ([0] L, [1] I, [2] P, [3] S, [4] F) and address mark of a source; none where reserved. -/
def srcInfo (n : Nat) : Option (Nat × Nat × Bool) :=
  if n < 64 then
    if n = 0 ∨ n = 1 then some (2, 19, true)
    else if n = 2 then some (2, 19, false)
    else if n ≤ 7 then some (1, 11, false)
    else if n = 8 ∨ n = 12 ∨ n = 13 then some (1, 3, false)
    else if n = 9 ∨ n = 11 then some (1, 1, false)
    else if n = 10 then some (4, 19, false)
    else if n = 14 then some (0, 3, false)
    else if n = 15 then some (0, 1, false)
    else if n < 40 then some (4, 19, false)
    else none
  else if n < 448 then
    match (n - 64) % 16 with
    | 0 => some (0, 1, true)
    | 1 => some (0, 3, false)
    | 2 => some (1, 3, true)
    | 3 => some (0, 3, false)
    | 4 => some (0, 1, false)
    | 5 => some (1, 11, true)
    | 6 => some (2, 19, true)
    | 7 => some (2, 19, false)
    | 8 => some (1, 1, true)
    | 9 => some (0, 1, false)
    | _ => none
  else if n < 640 then (if (n - 448) % 8 = 0 then some (0, 3, false) else none)
  else if n < 896 then (if (n - 640) % 16 < 3 then some (0, 3, false) else none)
  else if n < 1088 then
    match (n - 896) % 16 with
    | 0 => some (0, 3, false)
    | 1 => some (0, 3, false)
    | 2 => some (0, 1, false)
    | 3 => some (0, 3, false)
    | _ => none
  else none

/-- The reset value of BELFRY_SRC_CFG for a source: enable, class, actions, the address mark. -/
def srcCfgReset (n : Nat) : Word :=
  match srcInfo n with
  | some (c, a, d) => BitVec.ofNat 32 (1 + c * 2 + a * 128 + (if d then 2 ^ 29 else 0))
  | none => 0

/-- The settings of a source. -/
def State.srcCfg (s : State) (n : Nat) : Word := SMap.findD s.bel.cfg n (srcCfgReset n)

/-- Whether a source's pair is broken (R320). -/
def State.srcBroken (s : State) (n : Nat) : Bool := (SMap.findD s.bel.pairs n ⟨false, false⟩).broken

/-- Two events a source may count as one delivery (R321): every detail agrees. -/
def FaultEvt.same (a b : FaultEvt) : Bool :=
  a.src == b.src && a.ctx == b.ctx && a.dome == b.dome && a.addr == b.addr && a.detail == b.detail && a.wire == b.wire

/-- Adds an event to the events the sources hold: counted into an equal one not yet delivered, else held after the
others. -/
def addEvt : List FaultEvt → FaultEvt → List FaultEvt
  | [], e => [e]
  | x :: r, e => if x.same e then { x with count := min 255 (x.count + e.count) } :: r else x :: addEvt r e

/-- A source raises an event (R320, R321). A source that is disabled, broken or reserved raises nothing. -/
def State.raise (s : State) (src : Nat) (ctx : Ctx := 0) (dome : Nat := 0) (addr : Option Nat := none)
    (detail : Nat := 0) : State :=
  if (srcInfo src).isSome && bit (s.srcCfg src).toNat 0 && !s.srcBroken src then
    { s with bel := { s.bel with evts := addEvt s.bel.evts ⟨src, ctx, dome, addr, detail, 1, false⟩ } }
  else s

/-! ## Waggle sources (R333 - R337) -/

/-- A source's settings at reset (R333). -/
def wsrcReset (n : Nat) : WSrc :=
  let lv : Nat := if n = 0 then 4 else if n = 1 then 12 else if n = 2 then 28 else if n = 3 then 30
    else if n = 4 then 29 else if n = 5 then 31 else if n = 6 then 27 else if n = 7 then 8 else if n = 8 then 16
    else if n = 9 then 6 else if 16 ≤ n ∧ n < 32 then 10 else 0
  let tg : Nat := if n ≤ 5 then 1 else if n ≤ 7 then 0x101 else if n = 8 then 0xFF
    else if n = 9 ∨ (16 ≤ n ∧ n < 32) then 0x100 else 0
  { enable := true, shared := n == 8, group := 0, level := lv, targets := BitVec.ofNat 24 tg, count := 0,
    lastCore := 0 }

def State.wsrc (s : State) (n : Nat) : WSrc := SMap.findD s.wag.srcs n (wsrcReset n)

def State.setWsrc (s : State) (n : Nat) (w : WSrc) : State :=
  { s with wag := { s.wag with srcs := SMap.store s.wag.srcs (wsrcReset n) n w } }

/-- One event on an edge source: its counter rises and saturates at 255 (R337). -/
def State.wagEvent (s : State) (n : Nat) : State :=
  let w := s.wsrc n
  s.setWsrc n { w with count := min 255 (w.count + 1) }

/-! ## Egress items (R293 - R299) -/

/-- Queues an item for egress, after the items queued earlier. -/
def State.egPut (s : State) (port link cls dome len : Nat) (express : Bool) (b : EgBody) : State :=
  { s with eg := { s.eg with items := s.eg.items ++ [⟨port, link, cls, dome, len, express, s.eg.nextSeq, b⟩],
                             nextSeq := s.eg.nextSeq + 1 } }

/-- A link of a CXL port. -/
def CxlPort.link (p : CxlPort) (l : Nat) : CxlLink := if l = 0 then p.link0 else p.link1

def CxlPort.setLink (p : CxlPort) (l : Nat) (x : CxlLink) : CxlPort :=
  if l = 0 then { p with link0 := x } else { p with link1 := x }

/-- A CXL port by number. -/
def State.cxlPort (s : State) (p : Nat) : CxlPort := s.cxl.get (Fin.ofNat 16 p)

def State.setCxlPort (s : State) (p : Nat) (x : CxlPort) : State :=
  { s with cxl := s.cxl.set (Fin.ofNat 16 p) x }

def State.cxlLink (s : State) (p l : Nat) : CxlLink := (s.cxlPort p).link l

def State.setCxlLink (s : State) (p l : Nat) (x : CxlLink) : State :=
  s.setCxlPort p ((s.cxlPort p).setLink l x)

def State.chan (s : State) (n : Nat) : Channel := s.chans.get (Fin.ofNat 24 n)

def State.setChan (s : State) (n : Nat) (x : Channel) : State :=
  { s with chans := s.chans.set (Fin.ofNat 24 n) x }

def State.spire (s : State) (n : Nat) : Spire := s.spires.get (Fin.ofNat 24 n)

def State.setSpire (s : State) (n : Nat) (x : Spire) : State :=
  { s with spires := s.spires.set (Fin.ofNat 24 n) x }

def State.ryPort (s : State) (n : Nat) : RyPort := s.ry.get (Fin.ofNat 12 n)

def State.setRy (s : State) (n : Nat) (x : RyPort) : State :=
  { s with ry := s.ry.set (Fin.ofNat 12 n) x }

/-! ## MSI-X vectors (R339, R340) -/

def Vec.reset : Vec := ⟨0, 0, true, false, 0, 0, false, 0⟩

def State.vec (s : State) (d v : Nat) : Vec := SMap.findD s.wag.vecs (d * 16 + v) Vec.reset

def State.setVec (s : State) (d v : Nat) (x : Vec) : State :=
  { s with wag := { s.wag with vecs := SMap.store s.wag.vecs Vec.reset (d * 16 + v) x } }

-- Log entry 80: PRESUMED, unsafe.
/-- Sends a vector's message on CXL.io of its destination link, or leaves it pending while that link is down. -/
def State.vecSend (s : State) (d v : Nat) : State :=
  let x := s.vec d v
  if (s.cxlLink x.port x.link).up then
    (s.setVec d v { x with pending := false }).egPut x.port x.link 6 d 20 false (.cxlio x.addr x.data)
  else s.setVec d v { x with pending := true }

/-- A raise of a vector (R339). Dome 0's vectors raise Waggle sources 16 to 31 (R340). -/
def State.vecRaise (s : State) (d v : Nat) : State :=
  if d = 0 then s.wagEvent (16 + v)
  else if s.domeSt d ≠ .active then s
  else
    let x := s.vec d v
    if x.pending then s
    else if x.mask then s.setVec d v { x with pending := true }
    else s.vecSend d v

/-! ## Power leave (R349 - R352) -/

/-- Whether a power domain is on. -/
def State.domainOn (s : State) (d : Nat) : Bool := s.pwr.domains.getLsbD (d - 1)

/-- The reset cost of a kind of heavy operation (R349). -/
def costReset (kind : Nat) : Nat :=
  ([24, 12, 6, 10, 12, 40, 8, 8, 8] : List Nat).getD kind 0

/-- The granted sum G. -/
def State.granted (s : State) : Nat := (s.pwr.granted.map fun g => g.2).sum

/-- The effective limit L (R350, R352). -/
def State.pguLimit (s : State) : Nat :=
  if s.pwr.throttlePin then s.fN F.PGU_LIMIT_throttle_limit else s.fN F.PGU_LIMIT_limit

/-- Whether leave has been given to an owner. -/
def State.hasLeave (s : State) (o : PguOwner) : Bool := s.pwr.granted.any fun g => g.1.owner == o

/-- Whether a request of cost `c` may be granted now. -/
def State.pguFits (s : State) (c : Nat) : Bool :=
  decide (s.fN F.PGU_BASE_base + s.granted + c ≤ s.pguLimit) || s.granted == 0

/-- The cost of a kind of heavy operation (R349). -/
def State.pguCost (s : State) (kind : Nat) : Nat := SMap.findD s.pwr.costs kind (costReset kind)

/-- An engine presents a request for leave (R350 - R352). Before READY it is granted at once and not counted. -/
def State.pguAsk (s : State) (kind : Nat) (o : PguOwner) : State :=
  if s.hasLeave o || s.pwr.queue.any (fun q => q.owner == o) then s
  else if !s.pwr.ready then { s with pwr := { s.pwr with granted := s.pwr.granted ++ [(⟨kind, o⟩, 0)] } }
  else
    let s1 := { s with pwr := { s.pwr with queue := s.pwr.queue ++ [⟨kind, o⟩] } }
    if s.pwr.queue.isEmpty && s.pguFits (s.pguCost kind) then s1 else s1.bump F.PGU_CNT_waits

/-- Returns an owner's leave, or withdraws its request. -/
def State.pguReturn (s : State) (o : PguOwner) : State :=
  { s with pwr := { s.pwr with granted := s.pwr.granted.filter (fun g => g.1.owner != o),
                               queue := s.pwr.queue.filter (fun q => q.owner != o) } }

/-! ## The SPI flash (R372 - R374) -/

-- Log entry 95: PRESUMED, unsafe.
/-- A byte of the flash; erased flash reads 0xFF. -/
def State.flashByte (s : State) (off : Nat) : Nat := (SMap.findD s.cores.flash off 0xFF).toNat

/-- `n` bytes, little-endian. -/
def State.flashLe (s : State) (off n : Nat) : Nat := (List.range n).foldl (fun a i => a + s.flashByte (off + i) * 2 ^ (8 * i)) 0

def State.flashBytes (s : State) (off n : Nat) : List Nat := (List.range n).map fun i => s.flashByte (off + i)

-- Log entry 96: DESIGN CHOICE, unsafe.
/-- The records of the configuration block from an offset on: type, offset of the value, length. None where the run does
not end within the block. -/
def State.cfgFrom (s : State) : Nat → Nat → Option (List (Nat × Nat × Nat))
  | 0, _ => none
  | fuel + 1, o =>
    if 0x10000 < o + 4 then none
    else
      let t := s.flashLe o 2
      let n := s.flashLe (o + 2) 2
      if t = 0 then some []
      else if 0x10000 < o + 4 + n then none
      else (s.cfgFrom fuel (o + 4 + n)).map fun l => (t, o + 4, n) :: l

def State.cfgRecs (s : State) : Option (List (Nat × Nat × Nat)) := s.cfgFrom 15360 0x1000

-- Log entry 95: PRESUMED, unsafe.
/-- The first record of a type: offset of its value and length. -/
def State.cfgRec (s : State) (t : Nat) : Option (Nat × Nat) :=
  match s.cfgRecs with
  | some l => (l.find? fun r => r.1 == t).map fun r => r.2
  | none => none

end Machine
end Sys2Proof
end

