-- ==== Sys2Proof/Machine/Fmt.lean ====
section
/-!
DEFINITION. The number formats of the Spires (R199 - R202), binary32 arithmetic (R205), conversion to the output formats
(R208 - R211) and the special-function unit (R190).
-/
namespace Sys2Proof.Machine

/-! ## Values -/

/-- An exact value: `fin n m e` is (-1)^n * m * 2^e. -/
inductive FV | nan | inf (neg : Bool) | fin (neg : Bool) (m : Nat) (e : Int)
  deriving DecidableEq, Repr

/-- A floating format: exponent bits, mantissa bits, bias, and whether it has infinities and NaNs as IEEE places
them (R199). FP8-E4M3 has only the NaN S.1111.111. -/
structure FFmt where
  eb : Nat
  mb : Nat
  bias : Nat
  ieee : Bool
  e4m3 : Bool
  deriving DecidableEq, Repr

/-- The floating formats by code (R199). -/
def ffmt (code : Nat) : FFmt :=
  match code with
  | 0 => ⟨8, 23, 127, true, false⟩
  | 1 => ⟨8, 7, 127, true, false⟩
  | 2 => ⟨5, 10, 15, true, false⟩
  | 3 => ⟨4, 3, 7, false, true⟩
  | 4 => ⟨5, 2, 15, true, false⟩
  | 5 => ⟨3, 2, 3, false, false⟩
  | _ => ⟨2, 1, 1, false, false⟩

/-- The bits of an element (R199). -/
def fmtBits (code : Nat) : Nat := ([32, 16, 16, 8, 8, 6, 4, 8] : List Nat).getD code 32

/-- Whether a format is an MX format (R201). -/
def isMx (code : Nat) : Bool := code == 5 || code == 6

/-- The bytes of `n` elements of a format: an MX operand is a run of blocks of a scale byte and 32 elements (R201). -/
def fmtBytes (code n : Nat) : Nat :=
  if code = 5 then n / 32 * 25 else if code = 6 then n / 32 * 17 else n * (fmtBits code / 8)

/-- The alignment of an operand's base (R204). -/
def fmtAlign (code : Nat) : Nat := if code = 0 then 4 else if code = 1 ∨ code = 2 then 2 else 1

/-- The value an encoding of a floating format stands for (R199, R200). -/
def decodeF (f : FFmt) (x : Nat) : FV :=
  let s := bit x (f.eb + f.mb)
  let e := bits x f.mb f.eb
  let m := bits x 0 f.mb
  if f.ieee && e == 2 ^ f.eb - 1 then (if m = 0 then .inf s else .nan)
  else if f.e4m3 && e == 15 && m == 7 then .nan
  else if e = 0 then .fin s m (1 - (f.bias : Int) - f.mb)
  else .fin s (2 ^ f.mb + m) ((e : Int) - f.bias - f.mb)

/-- The canonical NaN of a format (R200). -/
def canonNan (code : Nat) : Nat := ([0x7FC00000, 0x7FC0, 0x7E00, 0x7F, 0x7F] : List Nat).getD code 0

/-- |x| = m * 2^e on a grid of quantum 2^q: the quotient toward zero and the remainder as (r, k), f = r / 2^k. -/
def onGrid (m : Nat) (e q : Int) : Nat × Nat × Nat :=
  if q ≤ e then (m * 2 ^ (e - q).toNat, 0, 0)
  else let k := (q - e).toNat; (m / 2 ^ k, m % 2 ^ k, k)

/-- How a value is rounded: to nearest even, or stochastically with a 16-bit draw (R208). -/
inductive Rnd | rne | sr (draw : Nat)
  deriving DecidableEq, Repr

/-- Whether the magnitude `t + r / 2^k` rounds away from zero. -/
def roundsUp (r : Rnd) (t rem k : Nat) : Bool :=
  match r with
  | .rne => decide (2 ^ k < 2 * rem ∨ (2 * rem = 2 ^ k ∧ 0 < k ∧ t % 2 = 1))
  | .sr d => decide (d < rem * 65536 / 2 ^ k)

/-- Rounds m * 2^e to a format's grid: the rounded magnitude as (t, q), value t * 2^q (R208). -/
def roundMag (f : FFmt) (r : Rnd) (m : Nat) (e : Int) : Nat × Int :=
  let q : Int := max ((Nat.log2 m : Int) + e - f.mb) (1 - (f.bias : Int) - f.mb)
  let (t, rem, k) := onGrid m e q
  let t := if roundsUp r t rem k then t + 1 else t
  if t = 2 ^ (f.mb + 1) then (2 ^ f.mb, q + 1) else (t, q)

/-- The exponent field and mantissa field of a rounded magnitude. -/
def magFields (f : FFmt) (t : Nat) (q : Int) : Nat × Nat :=
  if t < 2 ^ f.mb then (0, t) else ((q + f.mb + f.bias).toNat, t - 2 ^ f.mb)

/-- Whether the fields lie above the largest finite value (R200). -/
def magOver (f : FFmt) (e m : Nat) : Bool :=
  if f.ieee then decide (2 ^ f.eb - 1 ≤ e)
  else if f.e4m3 then decide (15 < e) || (e == 15 && m == 7)
  else decide (2 ^ f.eb ≤ e)

def packF (f : FFmt) (neg : Bool) (e m : Nat) : Nat := (if neg then 2 ^ (f.eb + f.mb) else 0) + e * 2 ^ f.mb + m

/-- The largest finite value of a format (R200). -/
def maxFin (f : FFmt) : Nat :=
  if f.ieee then (2 ^ f.eb - 2) * 2 ^ f.mb + 2 ^ f.mb - 1
  else if f.e4m3 then 0x7E
  else 2 ^ (f.eb + f.mb) - 1

/-! ## binary32 arithmetic (R205) -/

def f32 : FFmt := ffmt 0
def unF (w : Word) : FV := decodeF f32 w.toNat
def qNaN : Word := 0x7FC00000
def fInf (neg : Bool) : Word := if neg then 0xFF800000 else 0x7F800000

/-- Rounds an exact value to binary32, to nearest even. -/
def toF32 : FV → Word
  | .nan => qNaN
  | .inf n => fInf n
  | .fin n m e =>
    if m = 0 then (if n then 0x80000000 else 0)
    else
      let (t, q) := roundMag f32 .rne m e
      let (ef, mf) := magFields f32 t q
      if magOver f32 ef mf then fInf n else BitVec.ofNat 32 (packF f32 n ef mf)

/-- Exact sum. Opposite infinities and NaNs give NaN; an exact zero is +0 unless both are -0. -/
def addV : FV → FV → FV
  | .nan, _ => .nan
  | _, .nan => .nan
  | .inf a, .inf b => if a = b then .inf a else .nan
  | .inf a, _ => .inf a
  | _, .inf b => .inf b
  | .fin a m e, .fin b n g =>
    let q := min e g
    let x : Int := (if a then -1 else 1) * (m * 2 ^ (e - q).toNat : Nat)
    let y : Int := (if b then -1 else 1) * (n * 2 ^ (g - q).toNat : Nat)
    let z := x + y
    if z = 0 then .fin (a && b) 0 0 else .fin (decide (z < 0)) z.natAbs q

/-- Exact product. -/
def mulV : FV → FV → FV
  | .nan, _ => .nan
  | _, .nan => .nan
  | .inf a, .inf b => .inf (a != b)
  | .inf a, .fin b m _ => if m = 0 then .nan else .inf (a != b)
  | .fin a m _, .inf b => if m = 0 then .nan else .inf (a != b)
  | .fin a m e, .fin b n g => .fin (a != b) (m * n) (e + g)

def fadd (a b : Word) : Word := toF32 (addV (unF a) (unF b))
def fneg (a : Word) : Word := if unF a = .nan then qNaN else a ^^^ 0x80000000
def fsub (a b : Word) : Word := fadd a (fneg b)
def fmul (a b : Word) : Word := toF32 (mulV (unF a) (unF b))
/-- a * b + c with one rounding. -/
def ffma (a b c : Word) : Word := toF32 (addV (mulV (unF a) (unF b)) (unF c))
def fIsNan (a : Word) : Bool := unF a == .nan
def fIsFin (a : Word) : Bool := match unF a with | .fin .. => true | _ => false

/-- a < b; false with a NaN. -/
def flt (a b : Word) : Bool :=
  match unF a, unF b with
  | .nan, _ => false
  | _, .nan => false
  | .inf x, .inf y => x && !y
  | .inf x, _ => x
  | _, .inf y => !y
  | .fin x m e, .fin y n g =>
    match addV (.fin y n g) (.fin (!x) m e) with
    | .fin s k _ => k != 0 && !s
    | _ => false

/-- 2^k times a value, exact. -/
def scale2 (x : FV) (k : Int) : FV := match x with | .fin n m e => .fin n m (e + k) | v => v

/-- A positive, finite, normal scale (R202). -/
def scaleOk (w : Word) : Bool := !w.getLsbD 31 && decide (1 ≤ bits w.toNat 23 8 ∧ bits w.toNat 23 8 < 255)

/-! ## Special-function unit (R190)

The model computes each result to the nearest binary32 value; `Config.sfuPick` moves it within the stated bound, and
`Config.sfuOpen` gives the results the manual does not state. -/

-- Log entry 10: DESIGN CHOICE, unsafe.
/-- A result of magnitude below the smallest normal: a subnormal or zero. -/
def sfuSmall (op : Nat) (x : Word) (neg : Bool) : Word :=
  ((Config.sfuOpen op x.toNat) &&& 0x7FFFFF) ||| (if neg then 0x80000000 else 0)

/-- The binary32 value at or next below a normal magnitude m x 2^e. -/
def f32Floor (m : Nat) (e : Int) : Nat :=
  let b := (Nat.log2 m : Int) + e
  (b + 127).toNat * 2 ^ 23 + ((onGrid m e (b - 23)).1 - 2 ^ 23)

-- Log entry 10: DESIGN CHOICE, unsafe.
/-- A magnitude within `ulp` units of an exact value at or above `lo` and below the next one; at the top of a binade, where
the units double, and at the largest finite value no higher than the next. `whole` says that the exact value is `lo`. -/
def sfuNear (op : Nat) (x : Word) (lo ulp : Nat) (whole : Bool) : Nat :=
  let down := if whole then ulp else ulp - 1
  let up := min ulp (2 ^ 23 - lo % 2 ^ 23)
  min 0x7F7FFFFF (lo - down + Config.sfuPick op x.toNat ulp % (down + up + 1))

-- Log entry 10: DESIGN CHOICE, unsafe.
/-- Gives a result within the bound of `r` where that is normal, a small value where it lies below, infinity where above.
`whole` says that `r` is the exact value. -/
def sfuOut (op : Nat) (x : Word) (r : FV) (ulp : Nat) (whole : Bool) : Word :=
  match r with
  | .fin n m e =>
    let b := (Nat.log2 m : Int) + e
    if m = 0 ∨ b < -126 then sfuSmall op x n
    else if 128 ≤ b then fInf n
    else BitVec.ofNat 32 (sfuNear op x (f32Floor m e) ulp (whole && (onGrid m e (b - 23)).2.1 == 0) +
      if n then 2 ^ 31 else 0)
  | _ => toF32 r

/-- 2^f for f / 2^64 in [0, 1), as a 64-bit fraction plus one: the exponential series in 96-bit fixed point. -/
def exp2Frac (f : Nat) : Nat :=
  let one := 2 ^ 96
  let ln2 := 54916777467707473351141471128
  let y := f * ln2 / 2 ^ 64
  let go := (List.range 34).foldl (fun (acc : Nat × Nat) k => let t := acc.2 * y / one / (k + 1); (acc.1 + t, t)) (one, one)
  go.1

/-- exp2 (operation 0). -/
def sfuExp2 (x : Word) : Word :=
  match unF x with
  | .nan => qNaN
  | .inf n => if n then 0 else fInf false
  | .fin n m e =>
    let big := m ≠ 0 ∧ 7 ≤ (Nat.log2 m : Int) + e
    if big ∧ !n then fInf false
    else if big ∧ 9 ≤ (Nat.log2 m : Int) + e then sfuSmall 0 x false
    else
      let a : Nat := (onGrid m e (-64)).1
      let i : Int := if n then -(a : Int) else a
      let whole := i / 2 ^ 64
      let frac := (i % 2 ^ 64).toNat
      sfuOut 0 x (.fin false (exp2Frac frac) (whole - 96)) 2 (frac == 0)

/-- The 64 fraction bits of log2 of y / 2^80 in [1, 2), by repeated squaring. -/
def log2Frac (y : Nat) : Nat :=
  ((List.range 64).foldl (fun (acc : Nat × Nat) _ =>
    let z := acc.2 * acc.2 / 2 ^ 80
    if 2 ^ 81 ≤ z then (2 * acc.1 + 1, z / 2) else (2 * acc.1, z)) (0, y)).1

-- Log entry 10: DESIGN CHOICE, unsafe.
/-- log2 (operation 1). -/
def sfuLog2 (x : Word) : Word :=
  match unF x with
  | .nan => qNaN
  | .inf n => if n then qNaN else Config.sfuOpen 1 x.toNat
  | .fin n m e =>
    if m = 0 then fInf true
    else if n then qNaN
    else
      let l : Int := (Nat.log2 m : Int) + e
      let r : Int := l * 2 ^ 64 + log2Frac (m * 2 ^ 80 / 2 ^ Nat.log2 m)
      sfuOut 1 x (.fin (decide (r < 0)) r.natAbs (-64)) 2 (m == 2 ^ Nat.log2 m)

/-- Reciprocal (operation 2). -/
def sfuRecip (x : Word) : Word :=
  match unF x with
  | .nan => qNaN
  | .inf n => sfuSmall 2 x n
  | .fin n m e => if m = 0 then fInf n else sfuOut 2 x (.fin n (2 ^ 128 / m) (-128 - e)) 1 (2 ^ 128 % m == 0)

/-- Square root (operation 3). -/
def sfuSqrt (x : Word) : Word :=
  match unF x with
  | .nan => qNaN
  | .inf n => if n then qNaN else Config.sfuOpen 3 x.toNat
  | .fin n m e =>
    if m = 0 then sfuSmall 3 x n
    else if n then qNaN
    else
      let e2 : Int := if e % 2 = 0 then e else e - 1
      let m2 := if e % 2 = 0 then m else 2 * m
      sfuOut 3 x (.fin false (Nat.sqrt (m2 * 2 ^ 96)) (e2 / 2 - 48)) 1 (Nat.sqrt m2 ^ 2 == m2)

-- Log entry 10: DESIGN CHOICE, unsafe.
/-- Reciprocal square root (operation 4). -/
def sfuRsqrt (x : Word) : Word :=
  match unF x with
  | .nan => qNaN
  | .inf n => if n then qNaN else sfuSmall 4 x false
  | .fin n m e =>
    if m = 0 then Config.sfuOpen 4 x.toNat
    else if n then qNaN
    else
      let e2 : Int := if e % 2 = 0 then e else e - 1
      let m2 := if e % 2 = 0 then m else 2 * m
      sfuOut 4 x (.fin false (Nat.sqrt (2 ^ 192 / m2)) (-(e2 / 2) - 96)) 1
        (2 ^ 192 % m2 == 0 && Nat.sqrt (2 ^ 192 / m2) ^ 2 == 2 ^ 192 / m2)

/-! ## Conversion to the output format (R208 - R211) -/

/-- Numeric events (R213): overflows, NaNs made, integer saturations, MX NaN blocks. -/
structure Exc where
  ovf : Nat
  nan : Nat
  isat : Nat
  mxn : Nat
  deriving DecidableEq, Repr

def Exc.none : Exc := ⟨0, 0, 0, 0⟩
def Exc.add (a b : Exc) : Exc := ⟨a.ovf + b.ovf, a.nan + b.nan, a.isat + b.isat, a.mxn + b.mxn⟩

/-- An FP32 value as an element of a floating output format that is not MX (R208, R210). `inNan` says that an input of
the element was a NaN. -/
def roundOut (code : Nat) (sat : Bool) (r : Rnd) (inNan : Bool) (x : Word) : Nat × Exc :=
  let f := ffmt code
  let nanOut := (canonNan code, if inNan then Exc.none else ⟨0, 1, 0, 0⟩)
  match unF x with
  | .nan => nanOut
  | .inf n =>
    if code = 3 then
      if sat then (packF f n 0 0 + maxFin f, Exc.none) else (canonNan 3, ⟨0, if inNan then 0 else 1, 0, 0⟩)
    else (packF f n (2 ^ f.eb - 1) 0, Exc.none)
  | .fin n m e =>
    if code = 0 then (x.toNat, Exc.none)
    else if m = 0 then (packF f n 0 0, Exc.none)
    else
      let (t, q) := roundMag f r m e
      let (ef, mf) := magFields f t q
      if magOver f ef mf then
        if (code = 3 ∨ code = 4) ∧ sat then (packF f n 0 0 + maxFin f, ⟨1, 0, 0, 0⟩)
        else if code = 3 then (canonNan 3, ⟨1, if inNan then 0 else 1, 0, 0⟩)
        else (packF f n (2 ^ f.eb - 1) 0, ⟨1, 0, 0, 0⟩)
      else (packF f n ef mf, Exc.none)

/-- An FP32 value over an INT8 output scale, on the integer grid and clamped (R210). -/
def toInt8 (s : Word) (r : Rnd) (x : Word) : Nat × Exc :=
  match unF x with
  | .nan => (0, ⟨0, 0, 1, 0⟩)
  | .inf n => (if n then 0x80 else 0x7F, ⟨0, 0, 1, 0⟩)
  | .fin n m e =>
    match unF s with
    | .fin _ ms es =>
      let d := e - es
      let num := if 0 ≤ d then m * 2 ^ d.toNat else m
      let den := (if 0 ≤ d then 1 else 2 ^ (-d).toNat) * ms
      let t := num / den
      let rem := num % den
      let up := match r with
        | .rne => decide (den < 2 * rem ∨ (2 * rem = den ∧ t % 2 = 1))
        | .sr dr => decide (dr < rem * 65536 / den)
      let t := if up then t + 1 else t
      if n then (if 128 < t then (0x80, ⟨0, 0, 1, 0⟩) else ((256 - t) % 256, Exc.none))
      else if 127 < t then (0x7F, ⟨0, 0, 1, 0⟩) else (t, Exc.none)
    | _ => (0, ⟨0, 0, 1, 0⟩)

/-- The integer an INT8 element holds. -/
def int8Val (x : Nat) : Int := if x % 256 < 128 then (x % 256 : Int) else (x % 256 : Int) - 256

/-- The exact value of an integer. -/
def intV (i : Int) : FV := .fin (decide (i < 0)) i.natAbs 0

/-- INT32 accumulation, which saturates (R206). -/
def isat32 (x : Int) : Int × Exc :=
  if x < -(2 ^ 31) then (-(2 ^ 31), ⟨0, 0, 1, 0⟩)
  else if 2 ^ 31 - 1 < x then (2 ^ 31 - 1, ⟨0, 0, 1, 0⟩) else (x, Exc.none)

/-- An MX output block: the scale byte and 32 element encodings (R211). One rounding per element. Each value comes with
whether an input of it was a NaN: a value that is not finite makes a NaN where none was (R210). -/
def mxQuant (code : Nat) (rs : List Rnd) (v : List (Word × Bool)) : Nat × List Nat × Exc :=
  let f := ffmt code
  let made := (v.filter fun x => !fIsFin x.1 && !x.2).length
  let v := v.map fun x => x.1
  if v.any fun x => !fIsFin x then (0xFF, v.map fun _ => 0, ⟨0, made, 0, 1⟩)
  else
    let emax : Int := if code = 5 then 4 else 2
    let tops := v.filterMap fun w => match unF w with | .fin _ m e => if m = 0 then none else some ((Nat.log2 m : Int) + e) | _ => none
    let x : Int := match tops with
      | [] => -127
      | t :: r => max (-127) ((r.foldl max t) - emax)
    let es := (v.zip rs).map fun (w, r) =>
      match scale2 (unF w) (-x) with
      | .fin n m e =>
        if m = 0 then packF f n 0 0
        else
          let (t, q) := roundMag f r m e
          let (ef, mf) := magFields f t q
          if magOver f ef mf then packF f n 0 0 + maxFin f else packF f n ef mf
      | _ => 0
    ((x + 127).toNat, es, Exc.none)

-- Log entry 73: DESIGN CHOICE, safe.
/-- An element of a floating format widened to FP32 (R205); `scale` is the block's E8M0 scale for an MX format. A value
that FP32 cannot hold is free. -/
def widen (code scale x : Nat) : Word :=
  if isMx code then
    if scale = 255 then qNaN
    else
      let w := toF32 (scale2 (decodeF (ffmt code) x) ((scale : Int) - 127))
      if fIsFin w then w else Config.wideOpen code scale x
  else toF32 (decodeF (ffmt code) x)

/-! ## Sums of many terms (R205, R207) -/

/-- A term of a sum: a product not yet formed, or a value. -/
inductive Term | prod (a b : Word) | sum (w : Word)
  deriving DecidableEq, Repr

/-- A lane's accumulator after its first term. -/
def Term.val : Term → Word
  | .prod a b => ffma a b 0
  | .sum w => w

/-- A product is added to an accumulator with one rounding; two accumulators are added. -/
def Term.join : Term → Term → Term
  | .prod a b, y => .sum (ffma a b y.val)
  | x, .prod a b => .sum (ffma a b x.val)
  | .sum a, .sum b => .sum (fadd a b)

-- Log entry 72: DESIGN CHOICE, safe.
/-- Combines terms in a free order until one is left. -/
def combine (n : Nat) : Nat → List Term → Word
  | _, [] => 0
  | _, [x] => x.val
  | 0, x :: _ => x.val
  | _, [.sum a, .sum b] => fadd a b
  | m + 1, l =>
    let i := Config.sumOrder n m 0 % l.length
    let r := l.eraseIdx i
    let j := Config.sumOrder n m 1 % r.length
    combine n m ((l.getD i (.sum 0)).join (r.getD j (.sum 0)) :: r.eraseIdx j)

-- Log entry 72: DESIGN CHOICE, safe.
/-- A sum: no order of its partial sums is promised. It starts at +0. -/
def sumTerms (n : Nat) (l : List Term) : Word := fadd 0 (combine n l.length l)

/-! ## The Spire's generator (R209) -/

-- Log entry 9: DESIGN CHOICE, safe.
/-- Takes one 16-bit draw. -/
def Spire.draw (p : Spire) : Nat × Spire :=
  let p := if p.draws = 0 then { p with gen := Config.spireStep p.gen, draws := 4 } else p
  let k := Config.drawQuarter (p.gen.toNat * 4 + p.draws) % 4
  (bits p.gen.toNat (16 * k) 16, { p with draws := p.draws - 1 })

/-- The rounding of one element: SR takes a draw. -/
def Spire.rnd (p : Spire) (sr : Bool) : Rnd × Spire :=
  if sr then let (d, p) := p.draw; (.sr d, p) else (.rne, p)

/-- Adds numeric events to a Spire's counters. -/
def State.addExc (s : State) (n : Nat) (x : Exc) : State :=
  (((s.bump F.SPIRE_EXC_CNT0_overflow x.ovf n).bump F.SPIRE_EXC_CNT0_nan_made x.nan n).bump
    F.SPIRE_EXC_CNT1_int_sat x.isat n).bump F.SPIRE_EXC_CNT1_mx_nan_blocks x.mxn n

end Sys2Proof.Machine
end

