-- ==== Sys2Proof/Machine/Ecc.lean ====
section
/-!
DEFINITION. The SEC-DED code of DRAM words (R79 - R83) and of snoop-filter entries (R131), and the bytes and words of
a line.
-/
namespace Sys2Proof

/-! ## Words, blocks and bytes of a line -/

/-- Word `j` of a line. -/
def Line.word (l : Line) (j : Nat) : Word := l.data.extractLsb' (32 * j) 32

/-- The line with word `j` replaced. -/
def Line.setWord (l : Line) (j : Nat) (w : Word) : Line :=
  { l with data := (l.data &&& ~~~(0xFFFFFFFF#512 <<< (32 * j))) ||| (w.setWidth 512 <<< (32 * j)) }

/-- Byte `k` of a line. -/
def Line.byte (l : Line) (k : Nat) : Byte := l.data.extractLsb' (8 * k) 8

/-- Whether 16-byte block `b` holds a poisoned word. -/
def Line.blockPoison (l : Line) (b : Nat) : Bool := (l.poison.extractLsb' (4 * b) 4) != 0

/-- Whether any word is poisoned. -/
def Line.anyPoison (l : Line) : Bool := l.poison != 0

/-- The 8 bytes at byte `o` hold poison. -/
def Line.badWord (l : Line) (o : Nat) : Bool := (l.poison.extractLsb' (o / 4) 2) != 0

/-- The 8 bytes at slot `k` (0 to 7) of a line. -/
def Line.slot8 (l : Line) (k : Nat) : BitVec 64 := l.data.extractLsb' (64 * k) 64

/-- The line with the 8 bytes of slot `k` replaced. -/
def Line.setSlot8 (l : Line) (k : Nat) (v : BitVec 64) : Line :=
  { l with data := (l.data &&& ~~~(0xFFFFFFFFFFFFFFFF#512 <<< (64 * k))) ||| (v.setWidth 512 <<< (64 * k)) }

/-- Data with a bit mask in place of 64 byte enables. -/
def byteMask (be : BitVec 64) : BitVec 512 :=
  (List.range 64).foldl (fun m k => if be.getLsbD k then m ||| (0xFF#512 <<< (8 * k)) else m) 0

/-- The poison of a merge (R54, R89): a block covered whole takes the written poison; a block covered in part is
poisoned when it held poison or a written byte in it is poisoned; every other block keeps its poison. A block is
poisoned in all of its four words. -/
def mergePoison (old new : BitVec 16) (be : BitVec 64) : BitVec 16 :=
  (List.range 4).foldl (fun acc b =>
    let e := be.extractLsb' (16 * b) 16
    let ob := old.extractLsb' (4 * b) 4
    let nb := new.extractLsb' (4 * b) 4
    let touched : BitVec 4 := (List.range 4).foldl (fun t w =>
      if e.extractLsb' (4 * w) 4 != 0 && nb.getLsbD w then t ||| (1#4 <<< w) else t) 0
    let r : BitVec 4 := if e = 0xFFFF then nb
      else if e = 0 then ob
      else if ob != 0 || touched != 0 then 0xF else 0
    acc ||| (r.setWidth 16 <<< (4 * b))) 0

/-- A write under byte enables merged into a line (R54, R89, R99). Poisoned words hold zero data. -/
def Line.merge (old new : Line) (be : BitVec 64) : Line :=
  let m := byteMask be
  { data := (old.data &&& ~~~m) ||| (new.data &&& m), poison := mergePoison old.poison new.poison be }

/-- Every byte enabled. -/
def fullBe : BitVec 64 := 0xFFFFFFFFFFFFFFFF

/-- The byte enables of `n` bytes from byte `lo` of a line. -/
def rangeBe (lo n : Nat) : BitVec 64 := BitVec.ofNat 64 ((2 ^ n - 1) * 2 ^ lo)

namespace Machine

/-! ## The DRAM code (R80 - R82) -/

/-- The columns of data bits d0 to d31. -/
def dataCols : List Nat :=
  [0x07, 0x0B, 0x0D, 0x0E, 0x13, 0x15, 0x16, 0x19, 0x1A, 0x1C, 0x23, 0x25, 0x26, 0x29, 0x2A, 0x2C,
   0x31, 0x32, 0x34, 0x38, 0x43, 0x45, 0x46, 0x49, 0x4A, 0x4C, 0x51, 0x52, 0x54, 0x58, 0x61, 0x62]

/-- The check vector over data bits and poison (R81). -/
def checkBits (d : Word) (p : Bool) : BitVec 7 :=
  BitVec.ofNat 7 (((dataCols.zipIdx).foldl (fun acc ci => if d.getLsbD ci.2 then acc ^^^ ci.1 else acc) 0) ^^^
    (if p then 0x70 else 0))

/-- The 40 bits of a beat: data, check bits, poison (R79). -/
def encodeBeat (d : Word) (p : Bool) : BitVec 40 :=
  d.setWidth 40 ||| ((checkBits d p).setWidth 40 <<< 32) ||| (if p then 1#40 <<< 39 else 0)

/-- The syndrome of a received beat (R81). -/
def syndrome (b : BitVec 40) : BitVec 7 :=
  checkBits (b.setWidth 32) (b.getLsbD 39) ^^^ b.extractLsb' 32 7

/-- A decoded word: data, poison, syndrome and the action of R82 (0 none, 1 corrected, 2 uncorrectable). -/
structure Dec where
  data : Word
  p : Bool
  syn : BitVec 7
  action : Nat
  deriving DecidableEq, Repr

/-- Decodes a beat (R82). -/
def decodeBeat (b : BitVec 40) : Dec :=
  let d : Word := b.setWidth 32
  let p := b.getLsbD 39
  let s := syndrome b
  if s = 0 then ⟨d, p, s, 0⟩
  else if [0x01, 0x02, 0x04, 0x08, 0x10, 0x20, 0x40].contains s.toNat then ⟨d, p, s, 1⟩
  else if s = 0x70 then ⟨d, !p, s, 1⟩
  else
    match dataCols.idxOf? s.toNat with
    | some i => ⟨d ^^^ (1#32 <<< i), p, s, 1⟩
    | none => ⟨d, p, s, 2⟩

/-- Beat `j` of a stored line. -/
def beat (b : Stored) (j : Nat) : BitVec 40 := b.extractLsb' (40 * j) 40

/-- A stored line with beat `j` replaced. -/
def setBeat (b : Stored) (j : Nat) (v : BitVec 40) : Stored :=
  (b &&& ~~~(0xFFFFFFFFFF#640 <<< (40 * j))) ||| (v.setWidth 640 <<< (40 * j))

/-- Stores 16 words with their poison under the code (R81). -/
def encodeLine (l : Line) : Stored :=
  (List.range 16).foldl (fun acc j =>
    acc ||| ((encodeBeat (l.word j) (l.poison.getLsbD j)).setWidth 640 <<< (40 * j))) 0

/-- The 16 decoded words of a stored line. -/
def decodeWords (b : Stored) : List Dec := (List.range 16).map fun j => decodeBeat (beat b j)

/-- Bit `j` set where word `j` has an uncorrectable error. -/
def ueMask (ds : List Dec) : BitVec 16 :=
  ds.zipIdx.foldl (fun m x => if x.1.action = 2 then m ||| (1#16 <<< x.2) else m) 0

/-- Bit `j` set where word `j` is poisoned after correction or has an uncorrectable error (R83). -/
def badMask (ds : List Dec) : BitVec 16 :=
  ds.zipIdx.foldl (fun m x => if x.1.action = 2 || x.1.p then m ||| (1#16 <<< x.2) else m) 0

/-- The corrected data of the 16 words. -/
def decData (ds : List Dec) : BitVec 512 :=
  (ds.zipIdx.map fun x => BitVec.shiftLeft (x.1.data.setWidth 512) (32 * x.2)).foldl (fun a b => a ||| b) 0

/-- Extends bad words to their 16-byte blocks. -/
def blockMask (m : BitVec 16) : BitVec 16 :=
  (List.range 4).foldl (fun acc b =>
    if m.extractLsb' (4 * b) 4 != 0 then acc ||| (0xF#16 <<< (4 * b)) else acc) 0

/-- Zeroes the data of the words of a mask. -/
def clearWords (d : BitVec 512) (m : BitVec 16) : BitVec 512 :=
  (List.range 16).foldl (fun acc j =>
    if m.getLsbD j then acc &&& ~~~(0xFFFFFFFF#512 <<< (32 * j)) else acc) d

/-- The corrected codewords of a line, every word of a block with an uncorrectable error poisoned: what a copying
install and the Forager write (R87 step 4, R96). -/
def correctedStored (b : Stored) (blockUnit : Bool) : Stored :=
  let ds := decodeWords b
  let ue := if blockUnit then blockMask (ueMask ds) else ueMask ds
  (List.range 16).foldl (fun acc j =>
    match ds[j]? with
    | some d => acc ||| ((encodeBeat d.data (d.p || ue.getLsbD j)).setWidth 640 <<< (40 * j))
    | none => acc) 0

/-! ## The snoop-filter entry code (R131) -/

/-- The five-bit columns of entry bits 0 to 25. -/
def filterCols : List Nat :=
  [3, 5, 6, 7, 9, 10, 11, 12, 13, 14, 15, 17, 18, 19, 20, 21, 22, 23, 24, 25, 26, 27, 28, 29, 30, 31]

def parity32 (w : Nat) : Nat := (List.range 32).foldl (fun a i => (a + w / 2 ^ i) % 2) 0

/-- Bits [30:26] over bits [25:0]. -/
def filterXor (w : Nat) : Nat :=
  (filterCols.zipIdx).foldl (fun acc ci => if bit w ci.2 then acc ^^^ ci.1 else acc) 0

/-- An entry with its check: tag [23:0], state [25:24]. -/
def filterEncode (tag st : Nat) : BitVec 32 :=
  let w := tag % 2 ^ 24 + (st % 4) * 2 ^ 24
  let w := w + filterXor w * 2 ^ 26
  BitVec.ofNat 32 (w + parity32 w * 2 ^ 31)

/-- Reads an entry: tag and state after correction, or none for a detected error. -/
def filterDecode (e : BitVec 32) : Option (Nat × Nat) :=
  let w := e.toNat
  let s := filterXor (w % 2 ^ 26) ^^^ bits w 26 5
  let q := parity32 w
  let take (x : Nat) := (x % 2 ^ 24, bits x 24 2)
  if q = 0 then (if s = 0 then some (take w) else none)
  else if s = 0 || [1, 2, 4, 8, 16].contains s then some (take w)
  else match filterCols.idxOf? s with
    | some i => some (take (w ^^^ 2 ^ i))
    | none => some (take w)

end Machine
end Sys2Proof
end

