-- ==== Sys2Proof/Machine/Aes.lean ====
section
/-!
DEFINITION. XTS-AES-256 of IEEE 1619-2018 over one 64-byte line (R306): AES-256 of FIPS 197 on 16-byte blocks, byte
`k` of a block in bits `[8k+7:8k]`. AES-GCM-256 over the flits of an epoch (R267).
-/
namespace Sys2Proof.Machine

/-- The AES S-box, entry `i` in bits `[8i+7:8i]`. -/
def sboxLit : Nat :=
  0x16bb54b00f2d99416842e6bf0d89a18cdf2855cee9871e9b948ed9691198f8e19e1dc186b95735610ef6034866b53e708a8bbd4b1f74dde8c6b4a61c2e2578ba08ae7a65eaf4566ca94ed58d6d37c8e779e4959162acd3c25c2406490a3a32e0db0b5ede14b8ee4688902a22dc4f816073195d643d7ea7c41744975fec130ccdd2f3ff1021dab6bcf5389d928f40a351a89f3c507f02f94585334d43fbaaefd0cf584c4a39becb6a5bb1fc20ed00d153842fe329b3d63b52a05a6e1b1a2c830975b227ebe28012079a059618c323c7041531d871f1e5a534ccf73f362693fdb7c072a49cafa2d4adf04759fa7dc982ca76abd7fe2b670130c56f6bf27b777c63

/-- The inverse S-box. -/
def invSboxLit : Nat :=
  0x7d0c2155631469e126d677ba7e042b17619953833cbbebc8b0f52aae4d3be0a0ef9cc9939f7ae52d0d4ab519a97f51605fec8027591012b131c7078833a8dd1ff45acd78fec0db9a2079d2c64b3e56fc1bbe18aa0e62b76f89c5291d711af1476edf751ce837f9e28535ade72274ac9673e6b4f0cecff297eadc674f4111913a6b8a130103bdafc1020f3fca8f1e2cd00645b3b80558e4f70ad3bc8c00abd890849d8da75746155edab9edfd5048706c92b6655dcc5ca4d41698688664f6f87225d18b6d49a25b76b224d92866a12e084ec3fa420b954cee3d23c2a632947b54cbe9dec444438e3487ff2f9b8239e37cfbd7f3819ea340bf38a53630d56a0952

def sbox (x : Nat) : Nat := sboxLit >>> (8 * x) % 256
def invSbox (x : Nat) : Nat := invSboxLit >>> (8 * x) % 256

/-- Multiplication by x in the AES field. -/
def xtime (b : Nat) : Nat := if b < 128 then 2 * b else (2 * b - 256) ^^^ 0x1B

/-- Multiplication by a constant below 16 in the AES field. -/
def gmul (c b : Nat) : Nat :=
  let b2 := xtime b
  let b4 := xtime b2
  let b8 := xtime b4
  (if bit c 0 then b else 0) ^^^ (if bit c 1 then b2 else 0) ^^^ (if bit c 2 then b4 else 0) ^^^
    (if bit c 3 then b8 else 0)

/-- The next round-key words of AES-256: `w` holds the last eight words as byte lists, oldest first. -/
def nextKeyWord (i : Nat) (w : List (List Nat)) : List Nat :=
  let prev := w.getD 7 []
  let t := if i % 8 = 0 then
      match (prev.rotateLeft 1).map sbox with
      | a :: r => (a ^^^ ([1, 2, 4, 8, 16, 32, 64] : List Nat).getD (i / 8 - 1) 0) :: r
      | [] => []
    else if i % 8 = 4 then prev.map sbox else prev
  List.zipWith (fun a b => a ^^^ b) (w.getD 0 []) t

/-- The words after the first eight, `n` of them. -/
def keyWords : Nat → Nat → List (List Nat) → List (List Nat)
  | 0, _, _ => []
  | n + 1, i, w =>
    let x := nextKeyWord i w
    x :: keyWords n (i + 1) (w.drop 1 ++ [x])

/-- The 15 round keys of a 256-bit key given as bytes. -/
def roundKeys (key : List Nat) : List (List Nat) :=
  let w0 := (List.range 8).map fun i => (key.drop (4 * i)).take 4
  let ws := w0 ++ keyWords 52 8 w0
  (List.range 15).map fun r => ((ws.drop (4 * r)).take 4).flatten

def xorBytes (a b : List Nat) : List Nat := List.zipWith (fun x y => x ^^^ y) a b

def shiftRows (s : List Nat) : List Nat :=
  ([0, 5, 10, 15, 4, 9, 14, 3, 8, 13, 2, 7, 12, 1, 6, 11] : List Nat).map fun i => s.getD i 0

def invShiftRows (s : List Nat) : List Nat :=
  ([0, 13, 10, 7, 4, 1, 14, 11, 8, 5, 2, 15, 12, 9, 6, 3] : List Nat).map fun i => s.getD i 0

/-- A column times the circulant matrix of `c0 c1 c2 c3`. -/
def mixColumn (c : List Nat) (x : List Nat) : List Nat :=
  (List.range 4).map fun r =>
    (List.range 4).foldl (fun acc k => acc ^^^ gmul (c.getD ((k + 4 - r) % 4) 0) (x.getD k 0)) 0

def mixColumns (c : List Nat) (s : List Nat) : List Nat :=
  ((List.range 4).map fun i => mixColumn c ((s.drop (4 * i)).take 4)).flatten

/-- AES-256 encryption of a block under its round keys. -/
def aesEncBytes (rk : List (List Nat)) (b : List Nat) : List Nat :=
  let s := xorBytes b (rk.getD 0 [])
  let s := (List.range 13).foldl (fun s r =>
    xorBytes (mixColumns [2, 3, 1, 1] (shiftRows (s.map sbox))) (rk.getD (r + 1) [])) s
  xorBytes (shiftRows (s.map sbox)) (rk.getD 14 [])

/-- AES-256 decryption of a block under its round keys. -/
def aesDecBytes (rk : List (List Nat)) (b : List Nat) : List Nat :=
  let s := xorBytes b (rk.getD 14 [])
  let s := (List.range 13).foldl (fun s r =>
    mixColumns [14, 11, 13, 9] (xorBytes ((invShiftRows s).map invSbox) (rk.getD (13 - r) []))) s
  xorBytes ((invShiftRows s).map invSbox) (rk.getD 0 [])

/-- The bytes of a number, least significant first. -/
def bytesOf (n x : Nat) : List Nat := (List.range n).map fun k => x / 2 ^ (8 * k) % 256

/-- The number of a byte list, least significant first. -/
def ofBytes (b : List Nat) : Nat := b.foldr (fun x acc => x + 256 * acc) 0

/-- Multiplication by the primitive element of GF(2^128) (IEEE 1619). -/
def mulAlpha (t : Nat) : Nat :=
  if t < 2 ^ 127 then 2 * t else (2 * t - 2 ^ 128) ^^^ 0x87

/-- The four tweak values of a line: AES under Key2 of the data-unit number, times the powers of the primitive
element. -/
def xtsTweaks (key2 : List Nat) (unit : Nat) : List Nat :=
  let t := ofBytes (aesEncBytes (roundKeys key2) (bytesOf 16 unit))
  [t, mulAlpha t, mulAlpha (mulAlpha t), mulAlpha (mulAlpha (mulAlpha t))]

/-- Encrypts or decrypts the four blocks of a line (R306). Key1 is the low half of `key`. -/
def xtsLine (enc : Bool) (key : BitVec 512) (unit : Nat) (d : BitVec 512) : BitVec 512 :=
  let rk := roundKeys (bytesOf 32 (key.toNat % 2 ^ 256))
  let ts := xtsTweaks (bytesOf 32 (key.toNat / 2 ^ 256)) unit
  (List.range 4).foldl (fun acc b =>
    let t := ts.getD b 0
    let x := bytesOf 16 ((d.extractLsb' (128 * b) 128).toNat ^^^ t)
    let y := ofBytes (if enc then aesEncBytes rk x else aesDecBytes rk x) ^^^ t
    acc ||| (BitVec.ofNat 512 y <<< (128 * b))) 0

/-! ## AES-GCM-256 (R267) -/

/-- A block of a key stream: the encryption of the initialisation vector with a counter. -/
def gcmBlock (rk : List (List Nat)) (iv : BitVec 96) (i : Nat) : Nat :=
  ofBytes (aesEncBytes rk (bytesOf 12 iv.toNat ++ (bytesOf 4 i).reverse))

/-- Encrypts or decrypts the payload of an epoch's `n`-th DATA flit: 16 blocks of the key stream from counter 2 on. -/
def gcmPayload (key : BitVec 256) (iv : BitVec 96) (n : Nat) (d : BitVec 2048) : BitVec 2048 :=
  let rk := roundKeys (bytesOf 32 key.toNat)
  (List.range 16).foldl (fun acc b => acc ^^^ (BitVec.ofNat 2048 (gcmBlock rk iv (2 + 16 * n + b)) <<< (128 * b))) d

/-- Multiplication in the field of GHASH, on blocks as big-endian numbers. -/
def ghashMul (x y : Nat) : Nat :=
  ((List.range 128).foldl (fun (a : Nat × Nat) i =>
    (if bit x (127 - i) then a.1 ^^^ a.2 else a.1,
      if bit a.2 0 then (a.2 / 2) ^^^ (0xE1 * 2 ^ 120) else a.2 / 2)) (0, y)).1

def beNat (b : List Nat) : Nat := b.foldl (fun a x => a * 256 + x) 0

/-- GHASH of some bytes, padded with zeros to whole blocks, from a value on. -/
def ghash (h : Nat) (acc : Nat) (bs : List Nat) : Nat :=
  (List.range ((bs.length + 15) / 16)).foldl (fun a k =>
    let b := (bs.drop (16 * k)).take 16
    ghashMul (a ^^^ beNat b * 2 ^ (8 * (16 - b.length))) h) acc

/-- The tag over additional data and ciphertext. -/
def gcmTag (key : BitVec 256) (iv : BitVec 96) (aad ct : List Nat) : BitVec 128 :=
  let rk := roundKeys (bytesOf 32 key.toNat)
  let h := beNat (aesEncBytes rk (bytesOf 16 0))
  let s := ghashMul (ghash h (ghash h 0 aad) ct ^^^ (aad.length * 8 * 2 ^ 64 + ct.length * 8)) h
  BitVec.ofNat 128 (ofBytes (bytesOf 16 s).reverse ^^^ gcmBlock rk iv 1)

end Sys2Proof.Machine
end

