-- ==== Sys2Proof/Machine/Map.lean ====
section
/-!
DEFINITION. The address maps: channel interleave (R31) and its inverse, the areas of the Hive reserve (R47), the DRAM
coordinates of a channel-local address (R53), and the layout check of R32.
-/
namespace Sys2Proof.Machine

def mib64 : Nat := 2 ^ 26

/-- The channel list (R30). -/
def State.chanList (s : State) : List Nat :=
  let g := s.fN F.GLOBAL_POP_dram_groups
  (List.range 24).filter fun n => bit g (n / 4)

/-- The installed capacity M (R28). -/
def State.memTop (s : State) : Nat := s.fN F.GLOBAL_IL_STATUS_mem_top_64m * mib64

/-- The enabled regions: base, size, unit size (R31). -/
def State.regions (s : State) : List (Nat × Nat × Nat) :=
  ((List.range 8).filter fun n => s.fB F.GLOBAL_ILR_CTL_enable 0 n).map fun n =>
    (s.fN F.GLOBAL_ILR_BASE_base_64m 0 n * mib64, s.fN F.GLOBAL_ILR_SIZE_size_64m 0 n * mib64,
      if s.fB F.GLOBAL_ILR_CTL_affinity 0 n then 65536 else 4096)

/-- Channel and channel-local address of a backed DPA (R31). -/
def State.locate (s : State) (dpa : Nat) : Option (Nat × Nat) :=
  let cl := s.chanList
  let c := cl.length
  match s.regions.find? fun r => decide (r.1 ≤ dpa ∧ dpa < r.1 + r.2.1) with
  | some (b, _, u) =>
    if c = 0 then none
    else
      let k := (dpa - b) / u
      (cl[k % c]?).map fun ch => (ch, b / c + (k / c) * u + dpa % u)
  | none => none

/-- The DPA of a channel-local address: the inverse of R31. -/
def State.dpaOf (s : State) (ch loc : Nat) : Option Nat :=
  let cl := s.chanList
  let c := cl.length
  if c = 0 then none
  else
    match cl.idxOf? ch, s.regions.find? fun r => decide (r.1 / c ≤ loc ∧ loc < (r.1 + r.2.1) / c) with
    | some pos, some (b, _, u) =>
      let off := loc - b / c
      some (b + (off / u * c + pos) * u + loc % u)
    | _, _ => none

/-- The capacity of a channel: 2^(19 + row bits + log2 ranks) bytes (R53). -/
def State.chanCap (s : State) (ch : Nat) : Nat :=
  2 ^ (19 + s.fN F.DCH_CFG_row_bits ch + s.fN F.DCH_CFG_lrank_log2 ch)

/-- The DRAM coordinates of a channel-local address (R53). -/
structure Coord where
  sc : Nat
  bg : Nat
  bank : Nat
  col : Nat
  row : Nat
  rank : Nat
  deriving DecidableEq, Repr

def coordOf (rowBits lrank a : Nat) : Coord :=
  let row := bits a 19 rowBits
  { sc := bits a 6 1, bg := bits a 7 3 ^^^ (row % 8), bank := bits a 10 2 ^^^ bits row 3 2, col := bits a 12 7,
    row := row, rank := bits a (19 + rowBits) lrank }

def State.coord (s : State) (ch a : Nat) : Coord :=
  coordOf (s.fN F.DCH_CFG_row_bits ch) (s.fN F.DCH_CFG_lrank_log2 ch) a

/-! ## The Hive reserve (R47, R48) -/

def State.hiveBase (s : State) : Nat := s.fN F.GLOBAL_HIVE_BASE_base_64m * mib64

/-- Kinds of DPA (R28, R47). -/
inductive Area | tenant | cellTable | validMap | heat | ryRing | spireSpill | faultLog | pad | unbacked | aperture
  deriving DecidableEq, Repr

def apertureBase : Nat := 0x180000000000
def dpaTop : Nat := 0x200000000000

/-- The area a DPA lies in. -/
def State.area (s : State) (dpa : Nat) : Area :=
  let m := s.memTop
  let h := s.hiveBase
  if apertureBase ≤ dpa then .aperture
  else if m ≤ dpa then .unbacked
  else if dpa < h then .tenant
  else
    let o := dpa - h
    let fx := m * 67 / 32768
    if o < m / 16384 then .cellTable
    else if o < m * 33 / 16384 then .validMap
    else if o < fx then .heat
    else if o < fx + 192 * 2 ^ 20 then .ryRing
    else if o < fx + 960 * 2 ^ 20 then .spireSpill
    else if o < fx + 1024 * 2 ^ 20 then .faultLog
    else .pad

def State.ryRingAddr (s : State) (port seq : Nat) : Nat :=
  s.hiveBase + s.memTop * 67 / 32768 + port * 2 ^ 24 + seq * 4096

def State.spillAddr (s : State) (spire slot : Nat) : Nat :=
  s.hiveBase + s.memTop * 67 / 32768 + 192 * 2 ^ 20 + spire * 2 ^ 25 + slot * 2 ^ 23

def State.archiveAddr (s : State) (slot : Nat) : Nat :=
  s.hiveBase + s.memTop * 67 / 32768 + 960 * 2 ^ 20 + 32 * slot

/-- The DPA of a cell's entry in the cell table. -/
def State.cellEntryAddr (s : State) (c : Nat) : Nat := s.hiveBase + 4 * c

/-- The DPA of the byte holding a line's valid bit. -/
def State.validByteAddr (s : State) (line : Nat) : Nat := s.hiveBase + s.memTop / 16384 + line / 8

/-- The DPA of a cell's heat counter. -/
def State.heatAddr (s : State) (c : Nat) : Nat := s.hiveBase + s.memTop * 33 / 16384 + 2 * c

/-- The first cell above the tenant cells. -/
def State.tenantCells (s : State) : Nat := s.hiveBase / 65536

/-- The size of the Hive reserve for M and C (R48). -/
def hiveSize (m c : Nat) : Nat :=
  let sum := m / 16384 + m / 512 + m / 32768 + 1024 * 2 ^ 20
  let q := c * mib64
  if q = 0 then 0 else (sum + q - 1) / q * q

/-- The conditions of R32 on a layout given as (base, size, affinity) of each enabled region in order, in bytes. -/
def layoutOk (m c hive : Nat) (rs : List (Nat × Nat × Bool)) : Bool :=
  let q := c * mib64
  let aligned := rs.all fun r => r.1 % q == 0 && r.2.1 % q == 0 && r.2.1 != 0
  let ends := rs.foldl (fun (acc : Option Nat) r => match acc with
    | some e => if e = r.1 then some (e + r.2.1) else none
    | none => none) (some 0)
  match rs.getLast? with
  | some l => c != 0 && aligned && ends == some m && !l.2.2 && hive + hiveSize m c == m && decide (l.1 ≤ hive)
  | none => false

/-- The layout the region registers hold; none when an enabled region follows a gap (R32). -/
def State.layoutRegs (s : State) : Option (List (Nat × Nat × Bool)) :=
  let n := ((List.range 8).filter fun k => s.fB F.GLOBAL_ILR_CTL_enable 0 k).length
  if (List.range n).all fun k => s.fB F.GLOBAL_ILR_CTL_enable 0 k then
    some ((List.range n).map fun k =>
      (s.fN F.GLOBAL_ILR_BASE_base_64m 0 k * mib64, s.fN F.GLOBAL_ILR_SIZE_size_64m 0 k * mib64,
        s.fB F.GLOBAL_ILR_CTL_affinity 0 k))
  else none

/-- Whether tenant accesses are served: the layout is locked and the metadata initialised (R32). -/
def State.tenantReady (s : State) : Bool :=
  s.fB F.GLOBAL_IL_STATUS_locked && s.fB F.GLOBAL_VMAP_STATUS_zero_done

end Sys2Proof.Machine
end

