-- ==== Sys2Proof/Machine/Store.lean ====
section
/-!
DEFINITION. What DRAM lines hold and how they are read and written: the arrays, the spare lines, the CE log (R84), the
remap table (R86, R87), the key a line is stored under (R306, R311), and the cell table and valid map as they stand.
-/
namespace Sys2Proof.Machine

/-! ## Event logs of the fabric-manager function (R251) -/

-- Log entries 79: PRESUMED, unsafe; 81: DESIGN CHOICE, safe.
/-- Adds a record to a log of 64; a full log overflows and counts the record lost. Logs: 0 Informational, 1 Warning,
2 Failure, 3 Fatal. Where the interrupt policy of the log says so, the fabric-manager function's MSI-X goes out. -/
def State.addEvent (s : State) (log : Fin 4) (kind addr : Nat) : State :=
  let l := s.events.get log
  let h := (l.recs.map fun r => r.handle).foldl max 0 + 1
  let l' : EventLog := if l.recs.length < 64 then { l with recs := l.recs ++ [⟨kind, addr, h⟩] }
    else { l with overflow := true, lost := l.lost + 1 }
  let s := { s with events := s.events.set log l' }
  let pol := bits s.eventPolicy.toNat (8 * log.val) 8
  if pol % 4 = 1 then
    (List.range 16).foldl (fun s p =>
      if (s.cxlPort p).fmFunc && (s.cxlLink p 0).up then s.egPut p 0 6 0 20 false (.fmMsix (pol / 16)) else s) s
  else s

/-- Adds a line the device wrote poisoned to the poison list (R252). -/
def State.addPoisonList (s : State) (line : Nat) : State :=
  if s.poisonList.contains line then s
  else if s.poisonList.length < 1024 then { s with poisonList := s.poisonList ++ [line] }
  else { s with poisonOvf := true }

/-! ## Stored lines -/

-- Log entries 7: DESIGN CHOICE, safe; 41: DEDUCED, safe.
/-- What a metadata line of the Hive reserve holds after R103 when nothing has written it since. -/
def State.metaDefault (s : State) (dpa : Nat) : Option Stored :=
  match s.area dpa with
  | .cellTable =>
    let c0 := (dpa - s.hiveBase) / 4
    some (encodeLine ((List.range 16).foldl (fun l j =>
      if s.tenantCells ≤ c0 + j then l.setWord j 0x4000 else l) Line.zero))
  | .validMap => some 0
  | .heat => some (encodeLine Line.zero)
  | _ => none

/-- The remap entry of a channel-local line (R88). -/
def Channel.remapOf (c : Channel) (loc : Nat) : Option (Nat × RemapEnt) := c.remap.find? fun e => e.2.loc == loc

-- Log entry 7: DESIGN CHOICE, safe.
/-- What an unlisted line of the arrays is known to read as: the initial contents of a metadata line after R103. -/
def State.unlisted (s : State) (ch loc : Nat) : Option Stored :=
  if (s.chan ch).metaInit then (s.dpaOf ch (loc / 64 * 64)).bind s.metaDefault else none

-- Log entry 7: DESIGN CHOICE, safe.
/-- The 16 beats a channel-local line holds in the DRAM arrays. -/
def State.arrayGet (s : State) (ch loc : Nat) : Stored :=
  let c := s.chan ch
  match SMap.find c.array (loc / 64) with
  | some v => v
  | none =>
    match s.unlisted ch loc with
    | some v => v
    | none => Config.undefinedLine ch c.epoch (loc / 64)

/-- Stores a line in the arrays, listing none that holds what an unlisted line is known to read as. -/
def State.arrayPut (s : State) (ch loc : Nat) (v : Stored) : State :=
  let c := s.chan ch
  s.setChan ch { c with array := if s.unlisted ch loc = some v then SMap.del c.array (loc / 64)
                                 else SMap.put c.array (loc / 64) v }

/-- The canonical form of a channel's arrays: lines strictly rising, none listed that holds what an unlisted line is
known to read as. -/
def State.arrayWf (s : State) (ch : Nat) : Bool :=
  SMap.wf (s.chan ch).array && (s.chan ch).array.all fun e => decide (s.unlisted ch (e.1 * 64) ≠ some e.2)

/-- The stored line of a channel-local address: its spare where it is remapped. -/
def State.storedGet (s : State) (ch loc : Nat) : Stored :=
  match (s.chan ch).remapOf (loc / 64 * 64) with
  | some e => e.2.spare
  | none => s.arrayGet ch loc

/-- Writes a stored line to its spare or to the arrays. -/
def State.storedPut (s : State) (ch loc : Nat) (v : Stored) : State :=
  let c := s.chan ch
  match c.remapOf (loc / 64 * 64) with
  | some (k, e) => s.setChan ch { c with remap := SMap.put c.remap k { e with spare := v } }
  | none => s.arrayPut ch loc v

/-! ## Subchannels and their pending writes -/

def Channel.sub (c : Channel) (sc : Nat) : Subch := if sc = 0 then c.sub0 else c.sub1
def Channel.setSub (c : Channel) (sc : Nat) (x : Subch) : Channel :=
  if sc = 0 then { c with sub0 := x } else { c with sub1 := x }

def State.sub (s : State) (ch sc : Nat) : Subch := (s.chan ch).sub sc
def State.setSub (s : State) (ch sc : Nat) (x : Subch) : State := s.setChan ch ((s.chan ch).setSub sc x)

/-- Enters and leaves write-drain mode (R60). -/
def State.drainMode (s : State) (ch : Nat) (x : Subch) : Subch :=
  if s.fN F.DCH_SCHED_CTL_wq_high ch ≤ x.wq.length then { x with drain := true }
  else if x.wq.length ≤ s.fN F.DCH_SCHED_CTL_wq_low ch then { x with drain := false }
  else x

/-- The pending write of a channel-local line, if any (R61). -/
def Channel.pendingWr (c : Channel) (loc : Nat) : Option WrEnt :=
  (c.sub0.wq ++ c.sub1.wq).find? fun w => w.loc == loc

/-- Issues the pending write of a line at once: step 2 of an install (R87), or the first of an in-order pair whose second
part is a read made at once (R61). -/
def State.flushWr (s : State) (ch loc : Nat) : State :=
  match (s.chan ch).pendingWr loc with
  | some w =>
    let sc := bits loc 6 1
    let x := s.sub ch sc
    let s := s.setSub ch sc (s.drainMode ch { x with wq := x.wq.filter (fun o => o.loc != loc) })
    s.storedPut ch loc w.stored
  | none => s

/-! ## Remap installs (R86, R87) -/

/-- Refreshes the count of free entries that DCH_REMAP_HI shows. -/
def State.remapFree (s : State) (ch : Nat) : State :=
  s.fSet F.DCH_REMAP_HI_free (16 - (s.chan ch).remap.length) ch

/-- Puts a spare into force in an entry. -/
def State.remapPut (s : State) (ch k : Nat) (e : RemapEnt) : State :=
  let c := s.chan ch
  (s.setChan ch { c with remap := SMap.put c.remap k e }).remapFree ch

/-- Whether a line is stored under XTS, so that its poison unit is the block (R83, R92). -/
def State.blockUnit (s : State) (ch loc : Nat) : Bool :=
  match s.dpaOf ch (loc / 64 * 64) with
  | some d => match s.area d with
    | .tenant => true
    | .spireSpill => true
    | _ => false
  | none => true

/-! ## The CE log (R84, R85) -/

/-- The entry a new CE replaces when none is free: among entries below ce_sticky (all, when it is 0) the smallest
count, then the least recently updated. -/
def celVictim (sticky : Nat) (m : SMap CelEnt) : Option Nat :=
  ((m.filter fun e => sticky == 0 || decide (e.2.count < sticky)).foldl (fun (acc : Option (Nat × CelEnt)) e =>
    match acc with
    | none => some e
    | some b => if e.2.count < b.2.count ∨ (e.2.count = b.2.count ∧ e.2.stamp < b.2.stamp) then some e else some b)
    none).map fun e => e.1

/-- The CE source and the event record of a line (R85, R251). -/
def State.raiseCe (s : State) (ch loc : Nat) : State :=
  (s.raise (64 + 16 * ch) 0 0 (some loc)).addEvent 0 0 ((s.dpaOf ch loc).getD 0)

-- Log entries 38: DEDUCED, unsafe; 39: DEDUCED, unsafe.
/-- Enters one correctable error of word `w` in the log (R84, R85); whether its count has reached remap_threshold. -/
def State.logCeAt (s : State) (ch loc w syn : Nat) : State × Bool :=
  let s := { s.bump F.DCH_ERR_CNT0_ce 1 ch with ceTotal := s.ceTotal + 1 }
  let c := s.chan ch
  let stamp := c.cel.foldl (fun a e => max a e.2.stamp) 0 + 1
  let thr := s.fN F.DCH_ECC_CTL_remap_threshold ch
  match c.cel.find? fun e => e.2.loc == loc && e.2.word == w with
  | some (k, e) =>
    let n := min 255 (e.count + 1)
    let s := s.setChan ch { c with cel := SMap.put c.cel k { e with syn := syn, count := n, stamp := stamp } }
    if thr ≠ 0 ∧ e.count < thr ∧ n = thr then (s.raiseCe ch loc, true) else (s, false)
  | none =>
    let k? := match SMap.firstFree c.cel 8 with
      | some k => some k
      | none => celVictim (s.fN F.DCH_ECC_CTL_ce_sticky ch) c.cel
    match k? with
    | some k =>
      let s := (s.setChan ch { c with cel := SMap.put c.cel k ⟨loc, w, syn, 1, stamp⟩ }).raiseCe ch loc
      if thr = 1 then (s.raiseCe ch loc, true) else (s, false)
    | none => (s.bump F.DCH_ERR_CNT1_ce_unlogged 1 ch, false)

/-- Counts a line's uncorrectable words (R91). -/
def State.countUe (s : State) (ch : Nat) (m : BitVec 16) : State :=
  s.bump F.DCH_ERR_CNT1_ue ((List.range 16).filter fun j => m.getLsbD j).length ch

/-- A UE in valid-map words turns the map off (R104). -/
def State.vmapCorrupt (s : State) (idx : Nat) (m : BitVec 16) : State :=
  let n := ((List.range 16).filter fun j => m.getLsbD j).length
  let s := (s.fFlag F.GLOBAL_VMAP_CTL_on false).fFlag F.GLOBAL_VMAP_STATUS_on false
  let s := (s.fFlag F.GLOBAL_VMAP_STATUS_recovery true).bump F.GLOBAL_VMAP_STATUS_corrupt_cnt n
  (s.fSet F.GLOBAL_VMAP_BAD_map_line idx).raise 0 0 0 (some idx) m.toNat

/-- A UE that a read found in a line turns the valid map off where the line is one of the map's (R104). -/
def State.mapUe (s : State) (dpa : Nat) (u : BitVec 16) : State :=
  if u ≠ 0 ∧ s.area dpa = .validMap then s.vmapCorrupt ((dpa - s.hiveBase - s.memTop / 16384) / 64) u else s

/-! ### Automatic installs (R86, R87) -/

-- Log entry 33: DEDUCED, safe.
/-- The queued reads of a remapped line are served from its spare, without a DRAM command (R87, R88). -/
def State.spareReads (s : State) (ch loc : Nat) : State :=
  let sc := bits loc 6 1
  let x := s.sub ch sc
  let (mine, rest) := x.rq.partition fun r => r.loc / 64 * 64 == loc
  let f := mine.map fun r => (⟨r, s.storedGet ch r.loc, s.pwr.rootTime, true⟩ : Flight)
  s.setSub ch sc { x with rq := rest, flight := x.flight ++ f }

-- Log entries 37: DESIGN CHOICE, safe; 38: DEDUCED, unsafe.
/-- Steps 2 to 5 of an install (R87): the pending write issues, the line is read and corrected into the spare, the entry
becomes valid and the requests held for the line are served from the spare. The read's errors are logged and counted as of
any read (R84, R91, R104). -/
def State.installCopy (s : State) (ch k loc : Nat) (auto : Bool) : State :=
  let s := s.flushWr ch loc
  let v := s.arrayGet ch loc
  let ds := decodeWords v
  let s := s.remapPut ch k ⟨loc, auto, correctedStored v (s.blockUnit ch loc)⟩
  let s := ds.zipIdx.foldl (fun (s : State) x =>
    if x.1.action = 1 then (s.logCeAt ch loc x.2 x.1.syn.toNat).1 else s) s
  let u := ueMask ds
  let s := (s.countUe ch u).mapUe ((s.dpaOf ch loc).getD 0) u
  (s.spareReads ch loc).addEvent 1 1 loc

-- Log entry 37: DESIGN CHOICE, safe.
/-- The lowest free entry that no install in progress has taken. -/
def Channel.freeSpare (c : Channel) : Option Nat :=
  SMap.firstFree (match c.install with | some i => SMap.put c.remap i.entry ⟨i.loc, i.auto, 0⟩ | none => c.remap) 16

-- Log entry 37: DESIGN CHOICE, safe.
/-- An automatic install (R86): the lowest free entry, or the remap-full source and event when none is free. -/
def State.autoRemap (s : State) (ch loc : Nat) : State :=
  if ((s.chan ch).remapOf loc).isSome || (s.chan ch).install.any (fun i => i.loc == loc) then s
  else match (s.chan ch).freeSpare with
    | some k => s.installCopy ch k loc true
    | none => (s.raise (64 + 16 * ch + 1) 0 0 (some loc)).addEvent 1 2 loc

/-- Logs one correctable error of word `w`, and remaps the line where its count has reached the threshold (R84 - R86). -/
def State.logCe (s : State) (ch loc w syn : Nat) : State :=
  match s.logCeAt ch loc w syn with
  | (s, true) => if s.fB F.DCH_ECC_CTL_auto_remap ch then s.autoRemap ch loc else s
  | (s, false) => s

/-- Logs every correctable error of a decoded line. -/
def State.logCes (s : State) (ch loc : Nat) (ds : List Dec) : State :=
  ds.zipIdx.foldl (fun s x => if x.1.action = 1 then s.logCe ch loc x.2 x.1.syn.toNat else s) s

/-! ## Metadata as it stands (R44, R99) -/

/-- The set, tag, block and half of a line in the honey cache (R105). -/
def honeySet (line : Nat) : Nat := (line % 2 ^ 19) ^^^ bits line 19 19
def honeyTag (line : Nat) : Nat := bits line 19 20

/-- The line number of a cached line from its set and tag. -/
def lineOf (set tag : Nat) : Nat := tag * 2 ^ 19 + (set ^^^ (tag % 2 ^ 19))

/-- The cached copy of a line: its key in the table and the line (R105, R108). -/
def Honey.lookup (h : Honey) (line : Nat) : Option (Nat × HLine) :=
  let set := honeySet line
  (List.range 16).findSome? fun w =>
    match SMap.find h.lines (set * 16 + w) with
    | some x => if x.tag = honeyTag line then some (set * 16 + w, x) else none
    | none => none

/-- The data of a line that its channel has not stored yet: a pending write, or a write-back the home keeps (R54). -/
def State.pendingLine (s : State) (ch loc line : Nat) : Option Line :=
  match (s.chan ch).pendingWr loc with
  | some w => some w.data
  | none => (s.home.txs.find? fun t => t.origin == .victim && t.line == line).map fun t => t.wdata

-- Log entry 42: DESIGN CHOICE, safe.
/-- An unencrypted metadata line as the home would read it now, with the mask of its bad words: the cached copy,
else the pending write, else DRAM. -/
def State.peekMeta (s : State) (dpa : Nat) : Line × BitVec 16 :=
  match s.honey.lookup (dpa / 64) with
  | some (_, h) => (h.data, h.data.poison)
  | none =>
    match s.locate (dpa / 64 * 64) with
    | some (ch, loc) =>
      match s.pendingLine ch loc (dpa / 64) with
      | some l => (l, l.poison)
      | none =>
        let ds := decodeWords (s.storedGet ch loc)
        (⟨clearWords (decData ds) (badMask ds), badMask ds⟩, badMask ds)
    | none => (Line.poisoned, 0xFFFF)

-- Log entry 42: DESIGN CHOICE, safe.
/-- A cell's entry in the cell table, or none where its word is uncorrectable or poisoned (R91). -/
def State.cellEntry (s : State) (c : Nat) : Option Word :=
  let a := s.cellEntryAddr c
  let (l, bad) := s.peekMeta a
  if bad.getLsbD (a % 64 / 4) then none else some (l.word (a % 64 / 4))

/-! ### Fields of a cell-table entry (R44) -/

def ceAllocated (e : Word) : Bool := e.getLsbD 14
def ceKeyGen (e : Word) : Nat := if e.getLsbD 13 then 1 else 0
def ceGroup (e : Word) : Bool := e.getLsbD 12
def ceOwner (e : Word) : Nat := bits e.toNat 0 12
def cePinned (e : Word) : Bool := e.getLsbD 16
def ceMigrating (e : Word) : Bool := e.getLsbD 17
def ceNoHeat (e : Word) : Bool := e.getLsbD 18
/-- A reserved bit is set, or a group number does not fit (R45). -/
def ceCorrupt (e : Word) : Bool := bits e.toNat 19 13 != 0 || e.getLsbD 15 || (ceGroup e && bits e.toNat 8 4 != 0)

/-- The lines of the cell table that a cache line, a pending write, a spare or the arrays hold, in ascending order. -/
def State.tableLines (s : State) : List Nat :=
  let table := fun dpa => decide (s.area dpa = .cellTable)
  let add := fun (m : SMap Unit) (dpa : Nat) => if table dpa then SMap.put m (dpa / 64) () else m
  let m := s.honey.lines.foldl (fun m e => add m (64 * lineOf (e.1 / 16) e.2.tag)) []
  let m := s.chanList.foldl (fun m ch =>
    let c := s.chan ch
    let locs := (c.sub0.wq ++ c.sub1.wq).map (fun w => w.loc) ++ c.remap.map (fun e => e.2.loc) ++ c.array.map (fun e => 64 * e.1)
    locs.foldl (fun m loc => match s.dpaOf ch loc with | some d => add m d | none => m) m) m
  m.map fun e => e.1

-- Log entry 42: DESIGN CHOICE, safe.
/-- The tenant cells whose entry is allocated, in ascending order. Where every channel's metadata was initialised (R103) an
entry that nothing holds is 0, so only the lines something holds are looked at. -/
def State.ownedCells (s : State) : List Nat :=
  let all := if s.chanList.all fun ch => (s.chan ch).metaInit then
      s.tableLines.flatMap fun l => (List.range 16).map fun j => (64 * l - s.hiveBase) / 4 + j
    else List.range s.tenantCells
  all.filter fun c => decide (c < s.tenantCells) && (match s.cellEntry c with | some e => ceAllocated e | none => false)

/-- The Dome whose key slots a cell's lines use: its owner, or the anchor of its group (R306). -/
def State.keyDome (s : State) (e : Word) : Nat :=
  if ceGroup e then ((SMap.find s.domes.groups (ceOwner e % 256)).map fun g => g.anchor).getD 0 else ceOwner e

/-- The effective generation of a line (R311). -/
def State.effGen (s : State) (line : Nat) (e : Word) : Nat :=
  if s.sec.sweeps.any fun w => w.cell == line / 1024 && decide (w.ptr ≤ line % 1024) then 1 - ceKeyGen e
  else ceKeyGen e

/-- A key slot; Dome 0's slot 0 holds its drawn key (R306, R309). -/
def State.keySlot (s : State) (d g : Nat) : KeySlot :=
  if d = 0 then (if g = 0 then ⟨.current, Config.random s.sec.dome0Key⟩ else ⟨.empty, 0⟩)
  else SMap.findD s.sec.slots (d * 2 + g) ⟨.empty, 0⟩

/-- The Dome of the operation that spills into a line: that of the command in the line's Spire and slot (R92, R197). -/
def State.spillDome (s : State) (line : Nat) : Option Nat :=
  let o := line * 64 - s.spillAddr 0 0
  (SMap.find (s.spire (o / 2 ^ 25)).slots (o / 2 ^ 23 % 4)).bind fun k => (SMap.find s.q.cmds k).map fun c => c.dome

/-- How a line is stored. -/
inductive LineKey
  | plain                       -- without XTS: the Hive reserve but for the spill areas (R83, R92)
  | key (k : BitVec 512)
  | retired                     -- its effective generation names a retired slot (R311)
  deriving DecidableEq, Repr

/-- The key a line is read and written under (R306, R311). -/
def State.lineKey (s : State) (line : Nat) : LineKey :=
  match s.area (line * 64) with
  | .tenant =>
    match s.cellEntry (line / 1024) with
    | some e =>
      let k := s.keySlot (s.keyDome e) (s.effGen line e)
      if k.st = .current ∨ k.st = .draining then .key k.key else .retired
    | none => .retired
  | .spireSpill =>
    match s.spillDome line with
    | some d =>
      (match ([0, 1] : List Nat).find? fun g => (s.keySlot d g).st == .current with
        | some g => .key (s.keySlot d g).key
        | none => .retired)
    | none => .retired
  | _ => .plain

-- Log entry 106: PRESUMED, unsafe.
/-- The data-unit number of a line (R306). -/
def State.xtsUnit (s : State) (line : Nat) : Nat := s.pwr.node * 2 ^ 39 + line

-- Log entry 106: PRESUMED, unsafe.
/-- The beats that store a line: encrypted where the line is under XTS, then coded (R81). -/
def State.encodeFor (s : State) (line : Nat) (l : Line) : Option Stored :=
  match s.lineKey line with
  | .plain => some (encodeLine l)
  | .key k => some (encodeLine ⟨xtsLine true k (s.xtsUnit line) l.data, l.poison⟩)
  | .retired => none

-- Log entry 106: PRESUMED, unsafe.
/-- A stored line as it is delivered: decoded, decrypted, poison applied by the line's unit (R83). -/
def State.decodeFor (s : State) (line : Nat) (v : Stored) : Line :=
  let ds := decodeWords v
  match s.lineKey line with
  | .plain => let m := badMask ds; ⟨clearWords (decData ds) m, m⟩
  | .key k =>
    let m := blockMask (badMask ds)
    ⟨clearWords (xtsLine false k (s.xtsUnit line) (decData ds)) m, m⟩
  | .retired => Line.poisoned

/-- The valid bit of a line as it stands; none where its word is bad (R91, R99). -/
def State.validBit (s : State) (line : Nat) : Option Bool :=
  let a := s.validByteAddr line
  let (l, bad) := s.peekMeta a
  if bad.getLsbD (a % 64 / 4) then none else some ((l.byte (a % 64)).getLsbD (line % 8))

end Sys2Proof.Machine
end

