-- ==== Sys2Proof/Machine/Dram.lean ====
section
/-!
DEFINITION. The channel's queues and its scheduler: urgency (R56), timing (R55), the choice of the next command (R58),
in-order mode (R61), refresh and row-disturbance steps (R62 - R69).
-/
namespace Sys2Proof.Machine

/-- Ticks of a DRAM-controller cycle (R342). -/
def State.ctlTicks (s : State) : Nat := if s.fB F.CLK_CTL_fast_dram then 3 else 4

/-- Whether `t` ticks are at least `n` DRAM clock cycles (R55). -/
def State.nckDone (s : State) (t n : Nat) : Bool :=
  if s.fB F.CLK_CTL_fast_dram then decide (n * 3 ≤ t * 4) else decide (n ≤ t)

/-- Ticks of `n` DRAM clock cycles, rounded up. -/
def State.nckTicks (s : State) (n : Nat) : Nat :=
  if s.fB F.CLK_CTL_fast_dram then (n * 3 + 3) / 4 else n

/-! ## Source classes and urgency (R56, R57) -/

/-- Target and floor of a class at reset (R57). -/
def qosReset (c : Nat) : Nat × Nat :=
  if c < 16 then (400, 2) else if c < 28 then (800, 2)
  else ([(2000, 1), (1000, 1), (2000, 1), (500, 2), (500, 3), (300, 3), (8000, 0), (16000, 0)] : List (Nat × Nat)).getD
    (c - 28) (0, 0)

def State.qos (s : State) (ch c : Nat) : Nat × Nat := SMap.findD (s.chan ch).qos c (qosReset c)

/-- The urgency of a request of class `c` that entered at `entry` (R56); a demoted one has target and floor 0
(R302). -/
def State.urgency (s : State) (ch c : Nat) (demoted : Bool) (entry : Nat) : Nat :=
  let a := min ((s.pwr.rootTime - entry) / s.ctlTicks) 65535
  let q := if demoted then (0, 0) else s.qos ch c
  let u := if q.1 = 0 then q.2 else max q.2 (min 7 (8 * a / q.1))
  let cap := s.fN F.DCH_AGE_CAP_age_cap ch
  if cap ≠ 0 ∧ cap ≤ a then max u 6 else u

/-! ## Subchannels and banks -/

def bankKey (rank bg bank : Nat) : Nat := rank * 32 + bg * 4 + bank
def Coord.key (c : Coord) : Nat := bankKey c.rank c.bg c.bank

-- Log entry 28: DEDUCED, unsafe.
/-- The least gap in DRAM clock cycles from an older command to a newer one (R55). -/
def State.gap (s : State) (ch : Nat) (o : DCmd) (k : DKind) (rank bg bank : Nat) : Nat :=
  let p := fun f => s.fN f ch
  let same := o.rank == rank
  let sbg := same && o.bg == bg
  let sb := sbg && o.bank == bank
  let wrEnd := p F.DCH_TIMING0_cwl + 8
  let turn := p F.DCH_TIMING3_tccd_s + p F.DCH_TIMING4_trtrs
  match o.kind, k with
  | .act, .rd => if sb then p F.DCH_TIMING0_trcd else 0
  | .act, .wr => if sb then p F.DCH_TIMING0_trcd else 0
  | .act, .pre => if sb then p F.DCH_TIMING1_tras else 0
  | .act, .act => if sb then p F.DCH_TIMING1_trc else if sbg then p F.DCH_TIMING2_trrd_l
      else if same then p F.DCH_TIMING2_trrd_s else 0
  | .pre, .act => if sb then p F.DCH_TIMING0_trp else 0
  | .pre, .refsb => if same && o.bank == bank then p F.DCH_TIMING0_trp else 0
  | .pre, .rfm => if same && o.bank == bank then p F.DCH_TIMING0_trp else 0
  | .apre, .act => if sb then p F.DCH_TIMING0_trp else 0
  | .apre, .refsb => if same && o.bank == bank then p F.DCH_TIMING0_trp else 0
  | .apre, .rfm => if same && o.bank == bank then p F.DCH_TIMING0_trp else 0
  | .prea, _ => p F.DCH_TIMING0_trp
  | .rd, .pre => if sb then p F.DCH_TIMING1_trtp else 0
  | .wr, .pre => if sb then wrEnd + p F.DCH_TIMING2_twr else 0
  | .rd, .rd => if sbg then p F.DCH_TIMING3_tccd_l else if same then p F.DCH_TIMING3_tccd_s else turn
  | .wr, .wr => if sbg then p F.DCH_TIMING3_tccd_l_wr else if same then p F.DCH_TIMING3_tccd_s else turn
  | .wr, .rd => if sbg then wrEnd + p F.DCH_TIMING4_twtr_l else if same then wrEnd + p F.DCH_TIMING3_twtr_s else turn
  | .rd, .wr => if same then p F.DCH_TIMING4_trtw else turn
  | .refsb, .act => if same && o.bank == bank then p F.DCH_TIMING5_trfcsb
      else if same then p F.DCH_TIMING4_trefsbrd else 0
  | .refsb, .refsb => if same then p F.DCH_TIMING5_trfcsb else 0
  | .refsb, .rfm => if same && o.bank == bank then p F.DCH_TIMING5_trfcsb else 0
  | .rfm, .act => if same && o.bank == bank then p F.DCH_TIMING5_trfcsb else 0
  | .rfm, .refsb => if same && o.bank == bank then p F.DCH_TIMING5_trfcsb else 0
  | .rfm, .rfm => if same && o.bank == bank then p F.DCH_TIMING5_trfcsb else 0
  | .refab, _ => if same then p F.DCH_TIMING5_trfc1 else 0
  | .srx, _ => p F.DCH_TIMING5_trfc1 + (if s.fB F.CLK_CTL_fast_dram then 40 else 30)
  | _, _ => 0

/-- The package rank of a logical rank. -/
def Channel.prank (c : Channel) (rank : Nat) : Nat := rank / 2 ^ c.stackLog2

-- Log entry 28: DEDUCED, unsafe.
/-- A calibration step holds every bank of its package rank for 30 ns (R69). -/
def State.calHold (s : State) (ch : Nat) (o : DCmd) (rank : Nat) : Bool :=
  (o.kind == .zq || o.kind == .osc) && (s.chan ch).prank rank == o.rank && decide (s.pwr.rootTime < o.at_ + ns 30)

/-- Whether a command may issue now: every gap of R55 has passed, at most four ACTIVATEs of the rank lie within tFAW,
and one command issues per controller cycle (R58). -/
def State.cmdOk (s : State) (ch sc : Nat) (k : DKind) (rank bg bank : Nat) : Bool :=
  let h := (s.sub ch sc).hist
  let now := s.pwr.rootTime
  h.all (fun o => s.nckDone (now - o.at_) (s.gap ch o k rank bg bank) && !s.calHold ch o rank &&
    (o.kind == .apre || decide (o.at_ + s.ctlTicks ≤ now))) &&
  (k != .act || decide ((h.filter fun o => o.kind == .act && o.rank == rank &&
      !s.nckDone (now - o.at_) (s.fN F.DCH_TIMING2_tfaw ch)).length < 4))

/-- Records a command issued at a time, forgetting those older than the longest gap. -/
def Subch.noteAt (x : Subch) (now : Nat) (c : DCmd) : Subch :=
  { x with hist := c :: x.hist.filter fun o => decide (now ≤ o.at_ + 8192) }

/-- Records a command issued now. -/
def State.note (s : State) (ch sc : Nat) (k : DKind) (rank bg bank row : Nat) : State :=
  s.setSub ch sc ((s.sub ch sc).noteAt s.pwr.rootTime ⟨k, rank, bg, bank, row, s.pwr.rootTime⟩)

/-- Ticks after which a command of the retry buffer is known to have completed (R71). -/
def State.busyTicks (s : State) (ch : Nat) : RetryEnt → Nat
  | .wr _ _ => s.nckTicks (s.fN F.DCH_TIMING0_cwl ch + 8)
  | .cmd c =>
    match c.kind with
    | .act => s.nckTicks (s.fN F.DCH_TIMING1_tras ch)
    | .pre => s.nckTicks (s.fN F.DCH_TIMING0_trp ch)
    | .refsb => s.nckTicks (s.fN F.DCH_TIMING5_trfcsb ch)
    | .rfm => s.nckTicks (s.fN F.DCH_TIMING5_trfcsb ch)
    | _ => ns 30

def RetryEnt.time : RetryEnt → Nat
  | .wr _ t => t
  | .cmd c => c.at_

/-- Adds a command to the retry buffer, which drops those known to have completed (R71). -/
def State.retryPut (s : State) (ch sc : Nat) (e : RetryEnt) : State :=
  let x := s.sub ch sc
  let live := x.retry.filter fun t => decide (s.pwr.rootTime < t.time + s.busyTicks ch t)
  s.setSub ch sc { x with retry := live ++ [e] }

/-- Records a refresh, RFM, calibration or neighbour command issued now; an alert reissues it (R71). -/
def State.noteStep (s : State) (ch sc : Nat) (k : DKind) (rank bg bank row : Nat) : State :=
  (s.note ch sc k rank bg bank row).retryPut ch sc (.cmd ⟨k, rank, bg, bank, row, s.pwr.rootTime⟩)

/-- Closes a bank's row. -/
def Subch.close (x : Subch) (key : Nat) : Subch := { x with rows := SMap.del x.rows key, lastCol := SMap.del x.lastCol key }

/-! ## Queue entries (R54) -/

/-- Whether the read queue of a subchannel takes a request of urgency `u`. -/
def Subch.rdRoom (x : Subch) (u : Nat) : Bool := decide (x.rq.length < (if u = 7 then 64 else 60))

/-- Whether the write queue takes a write of urgency `u` to `loc`: it merges, or an entry is free. -/
def Subch.wrRoom (x : Subch) (loc u : Nat) : Bool :=
  x.wq.any (fun w => w.loc == loc) || decide (x.wq.length < (if u = 7 then 48 else 44))

-- Log entry 33: DEDUCED, safe.
/-- A full-line write enters the write queue and is acknowledged; it replaces the data of a pending write to the line,
keeping the older age and the class of higher urgency (R54). A remapped line's write lands in the spare (R88). -/
def State.wqPut (s : State) (ch : Nat) (w : WrEnt) : State :=
  if ((s.chan ch).remapOf w.loc).isSome then s.storedPut ch w.loc w.stored
  else
    let sc := bits w.loc 6 1
    let x := s.sub ch sc
    if x.wq.any fun o => o.loc == w.loc then
      let up := fun (o : WrEnt) =>
        if s.urgency ch o.cls o.target0 o.entry < s.urgency ch w.cls w.target0 w.entry then (w.cls, w.target0)
        else (o.cls, o.target0)
      let wq := x.wq.map fun o => if o.loc == w.loc then
          { w with entry := min o.entry w.entry, cls := (up o).1, target0 := (up o).2 } else o
      s.setSub ch sc { x with wq := wq }
    else s.setSub ch sc (s.drainMode ch { x with wq := x.wq ++ [w] })

/-! ## In-order mode (R61) -/

/-- The pending write a read must follow: one to its line that entered no later. -/
def Subch.matchWr (x : Subch) (r : RdEnt) : Option WrEnt := x.wq.find? fun w => w.loc == r.loc && decide (w.entry ≤ r.entry)

/-- Whether a write is the matched write of a bank in in-order mode. -/
def Subch.matched (x : Subch) (w : WrEnt) : Bool := x.rq.any fun r => r.loc == w.loc && decide (w.entry ≤ r.entry)

/-- The banks in in-order mode. -/
def State.inOrderBanks (s : State) (ch sc : Nat) : List Nat :=
  let x := s.sub ch sc
  (x.wq.filter x.matched).map fun w => (s.coord ch w.loc).key

/-! ## Candidates -/

/-- A candidate of the scheduler: a read or a write by its place in its queue, with its next command. -/
structure Cand where
  isWr : Bool
  idx : Nat
  co : Coord
  kind : DKind
  eff : Nat
  entry : Nat
  matched : Bool
  deriving DecidableEq, Repr

/-- The next command a request needs: column, ACTIVATE or PRECHARGE by its bank's state (R58). -/
def nextKind (x : Subch) (co : Coord) (wr : Bool) : DKind :=
  match SMap.find x.rows co.key with
  | some r => if r = co.row then (if wr then .wr else .rd) else .pre
  | none => .act

/-- Whether a bank's RFM is forced (R68). -/
def State.rfmForcedBank (s : State) (ch sc key : Nat) : Bool :=
  let c := s.chan ch
  c.rfmMax != 0 && decide (c.rfmMax ≤ SMap.findD (c.sub sc).raa key 0)

/-- Whether a request's next command may issue: timing, in-order mode, a pending neighbour set of its bank, a forced
RFM, an install that holds its line (R58, R61, R66, R68, R87). -/
def State.candOk (s : State) (ch sc : Nat) (loc : Nat) (co : Coord) (k : DKind) (matched : Bool) : Bool :=
  let x := s.sub ch sc
  let inOrder := (s.inOrderBanks ch sc).contains co.key
  s.cmdOk ch sc k co.rank co.bg co.bank && (matched || !inOrder) &&
  (k != .act || (!(SMap.find x.marks co.key).isSome && !s.rfmForcedBank ch sc co.key)) &&
  (match (s.chan ch).install with | some i => i.loc != loc / 64 * 64 | none => true)

/-- The requests of a subchannel whose next command may issue now. -/
def State.cands (s : State) (ch sc : Nat) : List Cand :=
  let x := s.sub ch sc
  let rds := x.rq.zipIdx.filterMap fun (r, i) =>
    let co := s.coord ch r.loc
    let k := nextKind x co false
    if (x.matchWr r).isNone && s.candOk ch sc r.loc co k false then
      some ⟨false, i, co, k, s.urgency ch r.cls r.target0 r.entry, r.entry, false⟩
    else none
  let wrs := x.wq.zipIdx.filterMap fun (w, i) =>
    let co := s.coord ch w.loc
    let k := nextKind x co true
    let m := x.matched w
    let u := s.urgency ch w.cls w.target0 w.entry
    if s.candOk ch sc w.loc co k m then
      some ⟨true, i, co, k, if x.drain then max u (s.fN F.DCH_SCHED_CTL_drain_urg ch) else u, w.entry, m⟩
    else none
  rds ++ wrs

/-- The oldest of some candidates. -/
def oldest (cs : List Cand) : Option Cand :=
  cs.foldl (fun (acc : Option Cand) c => match acc with
    | none => some c
    | some b => if c.entry < b.entry then some c else some b) none

/-! ## Refresh, RFM and neighbour steps -/

def State.rankCount (s : State) (ch : Nat) : Nat := 2 ^ s.fN F.DCH_CFG_lrank_log2 ch

/-- The postponement limit in REFsb commands (R63). -/
def State.postponeLimit (s : State) (ch : Nat) : Nat := min 4 (s.fN F.DCH_REF_CTL_postpone_max ch) * 4

/-- The bank groups of a rank in which a bank is open. -/
def State.openIn (s : State) (ch sc rank b : Nat) : List Nat :=
  (List.range 8).filter fun bg => (SMap.find (s.sub ch sc).rows (bankKey rank bg b)).isSome

/-- The open banks among those a REFsb of a rank names, as bank groups. -/
def State.refOpen (s : State) (ch sc rank : Nat) : List Nat :=
  s.openIn ch sc rank (SMap.findD (s.sub ch sc).refIdx rank 0)

/-- Whether the next command of a due REFsb may issue: a PRECHARGE of its banks while one is open, else the REFsb. -/
def State.refStepOk (s : State) (ch sc rank : Nat) : Bool :=
  let b := SMap.findD (s.sub ch sc).refIdx rank 0
  match s.refOpen ch sc rank with
  | bg :: _ => s.cmdOk ch sc .pre rank bg b
  | [] => s.cmdOk ch sc .refsb rank 0 b

-- Log entry 29: DESIGN CHOICE, unsafe.
/-- The rank whose REFsb step issues next: the one already started, else among the ranks whose step may issue now the one of
largest debt, the lowest-numbered of equals. -/
def State.refRank (s : State) (ch sc : Nat) : Option Nat :=
  match (s.sub ch sc).started with
  | some x => if s.refStepOk ch sc x.1 then some x.1 else none
  | none => ((s.sub ch sc).refDue.foldl (fun (acc : Option (Nat × Nat)) e =>
    if e.2 = 0 || !s.refStepOk ch sc e.1 then acc
    else match acc with
      | none => some e
      | some b => if b.2 < e.2 then some e else some b) none).map fun e => e.1

def State.refReady (s : State) (ch sc : Nat) : Bool := (s.refRank ch sc).isSome

/-- The largest debt over the ranks of a subchannel. -/
def Subch.debt (x : Subch) : Nat := x.refDue.foldl (fun a e => max a e.2) 0

/-- Whether the next command of a bank's RFM may issue: a PRECHARGE while a bank it names is open, else the RFM, which is
of one bank in every bank group. -/
def State.rfmReady (s : State) (ch sc key : Nat) : Bool :=
  match s.openIn ch sc (key / 32) (key % 4) with
  | bg :: _ => s.cmdOk ch sc .pre (key / 32) bg (key % 4)
  | [] => s.cmdOk ch sc .rfm (key / 32) 0 (key % 4)

-- Log entry 29: DESIGN CHOICE, unsafe.
/-- The bank whose RFM is due, or forced, and may issue now (R68). -/
def State.rfmBank (s : State) (ch sc : Nat) (forced : Bool) : Option Nat :=
  let c := s.chan ch
  let thr := if forced then c.rfmMax else c.rfmInit
  if thr = 0 then none else ((c.sub sc).raa.find? fun e => decide (thr ≤ e.2) && s.rfmReady ch sc e.1).map fun e => e.1

/-- The rows a neighbour set opens (R66). -/
def State.nbrRows (s : State) (ch row : Nat) : List Nat :=
  let top := 2 ^ s.fN F.DCH_CFG_row_bits ch
  let near := (if row = 0 then [] else [row - 1]) ++ (if row + 1 < top then [row + 1] else [])
  let far := (if row < 2 then [] else [row - 2]) ++ (if row + 2 < top then [row + 2] else [])
  if s.fB F.DCH_NBR_CTL_radius2 ch then near ++ far else near

-- Log entry 30: PRESUMED, unsafe.
/-- Whether a bank's RFM is due and a neighbour set of a row would take its count past the maximum (R68). -/
def State.rfmBars (s : State) (ch sc key row : Nat) : Bool :=
  let c := s.chan ch
  let n := SMap.findD (c.sub sc).raa key 0
  c.rfmMax != 0 && decide (c.rfmInit ≤ n ∧ c.rfmMax < n + (s.nbrRows ch row).length)

/-- A marked bank whose marked row has closed and whose set may start. -/
def State.nbrStart (s : State) (ch sc : Nat) : Option (Nat × Nat) :=
  let x := s.sub ch sc
  x.marks.find? fun e => (SMap.find x.rows e.1).isNone && !s.rfmBars ch sc e.1 e.2 &&
    s.cmdOk ch sc .act (e.1 / 32) (e.1 / 4 % 8) (e.1 % 4)

/-- Whether the next command of the running neighbour set may issue. -/
def State.nbrStepOk (s : State) (ch sc : Nat) (n : NbrSet) : Bool :=
  s.cmdOk ch sc (if n.isOpen then .pre else .act) n.rank n.bg n.bank

/-! ## The choice of R58 -/

inductive Choice | refresh | rfm (key : Nat) | neighbour | req (c : Cand) | idle
  deriving DecidableEq, Repr

/-- The channel schedules: in service, powered, not failed, not stopped by an alert or by self-refresh. -/
def State.schedOn (s : State) (ch sc : Nat) : Bool :=
  let c := s.chan ch
  s.fB F.DCH_CFG_enable ch && c.trained && s.domainOn (7 + ch / 4) && !c.failed && !c.selfRefresh && !(c.sub sc).alert && !s.pwr.frozen

-- Log entry 29: DESIGN CHOICE, unsafe.
def State.schedule (s : State) (ch sc : Nat) : Choice :=
  let x := s.sub ch sc
  let refresh := s.refReady ch sc
  let rfmF := s.rfmBank ch sc true
  let rfmD := s.rfmBank ch sc false
  if !s.schedOn ch sc then .idle
  else if x.started.isSome then (if refresh then .refresh else .idle)
  else match x.rfmOn with
  | some k => if s.rfmReady ch sc k then .rfm k else .idle
  | none =>
  match x.nbr with
  | some n => if s.nbrStepOk ch sc n then .neighbour else .idle
  | none =>
    if s.postponeLimit ch ≤ x.debt && refresh then .refresh
    else match rfmF with
    | some k => .rfm k
    | none =>
      let c := s.cands ch sc
      let nb := (s.nbrStart ch sc).isSome
      if c.isEmpty && !nb then
        if refresh then .refresh else match rfmD with | some k => .rfm k | none => .idle
      else match oldest (c.filter fun y => y.matched) with
      | some y => .req y
      | none =>
        let top := max (c.foldl (fun a y => max a y.eff) 0) (if nb then 6 else 0)
        if top < 7 && refresh then .refresh
        else match (if top < 7 then rfmD else none) with
        | some k => .rfm k
        | none =>
          let t := c.filter fun y => y.eff == top
          match oldest (t.filter fun y => y.kind == .rd || y.kind == .wr) with
          | some y => .req y
          | none => match oldest t with
            | some y => .req y
            | none => if nb then .neighbour else .idle

/-! ## Calibration steps (R69) and idle cycles (R70) -/

-- Log entry 28: DEDUCED, unsafe.
/-- A REFsb in progress on a logical rank of a package rank with at least 30 ns left (R69). -/
def State.refsbCovers (s : State) (ch sc prank : Nat) : Bool :=
  (s.sub ch sc).hist.any fun o => o.kind == .refsb && (s.chan ch).prank o.rank == prank &&
    decide (s.pwr.rootTime + ns 30 ≤ o.at_ + s.nckTicks (s.fN F.DCH_TIMING5_trfcsb ch))

/-- A calibration step of a package rank: due, covered by a refresh, none running. -/
def State.calOk (s : State) (ch sc prank : Nat) (last : SMap Nat) (period : Nat) : Bool :=
  (match SMap.find last prank with | some t => decide (t + period ≤ s.pwr.rootTime) | none => true) &&
  s.schedOn ch sc && s.refsbCovers ch sc prank &&
  (s.sub ch sc).hist.all fun o => !((o.kind == .zq || o.kind == .osc) && decide (s.pwr.rootTime < o.at_ + ns 30)) &&
    (o.kind == .apre || decide (o.at_ + s.ctlTicks ≤ s.pwr.rootTime))

/-- A calibration step of some package rank is ready. -/
def State.calReady (s : State) (ch sc : Nat) : Bool :=
  (List.range 4).any fun p => s.calOk ch sc p (s.sub ch sc).zqAt (ms 128) || s.calOk ch sc p (s.sub ch sc).oscAt (ms 32)

/-- An idle cycle of a subchannel: both queues empty and no refresh, RFM, neighbour or calibration step ready (R70). -/
def State.idleCycle (s : State) (ch sc : Nat) : Bool :=
  let x := s.sub ch sc
  s.schedOn ch sc && x.rq.isEmpty && x.wq.isEmpty && x.nbr.isNone && x.started.isNone && x.rfmOn.isNone && !s.refReady ch sc &&
    (s.nbrStart ch sc).isNone && (s.rfmBank ch sc false).isNone && !s.calReady ch sc

/-! ## Issuing -/

-- Log entry 30: PRESUMED, unsafe.
/-- An ACTIVATE counts for a bank where refresh management is kept (R68). -/
def State.countAct (s : State) (ch : Nat) (x : Subch) (key : Nat) : Subch :=
  if (s.chan ch).rfmMax = 0 then x else { x with raa := SMap.put x.raa key (SMap.findD x.raa key 0 + 1) }

-- Log entry 30: PRESUMED, unsafe.
/-- A refresh or RFM takes `n` off the counts of the banks it names. -/
def Subch.lowerRaa (x : Subch) (rank bank n : Nat) : Subch :=
  (List.range 8).foldl (fun x g =>
    let k := bankKey rank g bank
    let m := SMap.findD x.raa k 0 - n
    { x with raa := if m = 0 then SMap.del x.raa k else SMap.put x.raa k m }) x

/-- An ACTIVATE for a request: opens the row, counts it for RFM, and draws for a neighbour set (R66 - R68). -/
def State.issueAct (s : State) (ch sc : Nat) (co : Coord) : State :=
  let c := s.chan ch
  let x := c.sub sc
  let k := max 4 (min 16 (s.fN F.DCH_NBR_CTL_k ch))
  let (r, s1) := s.random64
  let mark := s.fB F.DCH_NBR_CTL_enable ch && r.toNat % 2 ^ k == 0
  let x := { x with rows := SMap.put x.rows co.key co.row, lastCol := SMap.put x.lastCol co.key s.pwr.rootTime,
                    marks := if mark then SMap.put x.marks co.key co.row else x.marks }
  (s1.setSub ch sc (s.countAct ch x co.key)).note ch sc .act co.rank co.bg co.bank co.row

def State.issuePre (s : State) (ch sc rank bg bank : Nat) : State :=
  (s.setSub ch sc ((s.sub ch sc).close (bankKey rank bg bank))).note ch sc .pre rank bg bank 0

/-- After a column command that needs `wait` cycles before a PRECHARGE: the row is closed with it when no timer keeps it and
no other request wants it (R59). The precharge it carries takes effect once that time and tRAS have passed (R55). -/
def State.autoPre (s : State) (ch sc : Nat) (co : Coord) (wait : Nat) : State :=
  let x := s.sub ch sc
  let now := s.pwr.rootTime
  let wanted := x.rq.any (fun r => let y := s.coord ch r.loc; y.key == co.key && y.row == co.row) ||
    x.wq.any (fun r => let y := s.coord ch r.loc; y.key == co.key && y.row == co.row)
  let opened := (x.hist.find? fun o => o.kind == .act && o.rank == co.rank && o.bg == co.bg && o.bank == co.bank).map
    fun o => o.at_ + s.nckTicks (s.fN F.DCH_TIMING1_tras ch)
  let t := max (now + s.nckTicks wait) (opened.getD now)
  if s.fN F.DCH_SCHED_CTL_row_close_idle ch = 0 && !wanted then
    s.setSub ch sc ((x.close co.key).noteAt now ⟨.apre, co.rank, co.bg, co.bank, co.row, t⟩)
  else s

/-- A column READ: the entry leaves the queue and its beats are in flight (R54, R58). -/
def State.issueRd (s : State) (ch sc : Nat) (c : Cand) : State :=
  let x := s.sub ch sc
  match x.rq[c.idx]? with
  | some e =>
    let f : Flight := ⟨e, s.storedGet ch e.loc, s.pwr.rootTime + s.nckTicks (s.fN F.DCH_TIMING0_cl ch + 8), false⟩
    let x := { x with rq := x.rq.eraseIdx c.idx, flight := x.flight ++ [f],
                      lastCol := SMap.put x.lastCol c.co.key s.pwr.rootTime }
    ((s.setSub ch sc x).note ch sc .rd c.co.rank c.co.bg c.co.bank c.co.row).autoPre ch sc c.co
      (s.fN F.DCH_TIMING1_trtp ch)
  | none => s

/-- A column WRITE: the line is stored; it stays in the retry buffer until its burst has ended (R71). -/
def State.issueWr (s : State) (ch sc : Nat) (c : Cand) : State :=
  let x := s.sub ch sc
  match x.wq[c.idx]? with
  | some e =>
    let x := s.drainMode ch { x with wq := x.wq.eraseIdx c.idx, lastCol := SMap.put x.lastCol c.co.key s.pwr.rootTime }
    let s := ((s.setSub ch sc x).storedPut ch e.loc e.stored).retryPut ch sc (.wr e s.pwr.rootTime)
    (s.note ch sc .wr c.co.rank c.co.bg c.co.bank c.co.row).autoPre ch sc c.co
      (s.fN F.DCH_TIMING0_cwl ch + 8 + s.fN F.DCH_TIMING2_twr ch)
  | none => s

/-- Issues a candidate's next command. -/
def State.issue (s : State) (ch sc : Nat) (c : Cand) : State :=
  match c.kind with
  | .act => s.issueAct ch sc c.co
  | .pre => s.issuePre ch sc c.co.rank c.co.bg c.co.bank
  | .wr => s.issueWr ch sc c
  | _ => s.issueRd ch sc c

/-- The next command of a due REFsb (R62, R63): a PRECHARGE of an open bank it names, or the REFsb, which repays one
debt and moves the bank index on. -/
def State.issueRef (s : State) (ch sc : Nat) : State :=
  let x := s.sub ch sc
  match s.refRank ch sc with
  | some r =>
    let b := SMap.findD x.refIdx r 0
    match s.refOpen ch sc r with
    | bg :: _ =>
      let s := s.issuePre ch sc r bg b
      s.setSub ch sc { s.sub ch sc with started := some (r, b) }
    | [] =>
      let left := SMap.findD x.refDue r 0 - 1
      let x := { x with refDue := SMap.put x.refDue r left, putOff := SMap.put x.putOff r (min left (SMap.findD x.putOff r 0)),
                        refIdx := SMap.put x.refIdx r ((b + 1) % 4), started := none }
      (s.setSub ch sc (x.lowerRaa r b (s.chan ch).rfmInit)).noteStep ch sc .refsb r 0 b 0
  | none => s

-- Log entry 30: PRESUMED, unsafe.
/-- The next command of a bank's RFM: a PRECHARGE while a bank it names is open, else the RFM, which takes the initial
threshold off the counts of its banks (R68). -/
def State.issueRfm (s : State) (ch sc key : Nat) : State :=
  let x := s.sub ch sc
  let (r, b) := (key / 32, key % 4)
  match s.openIn ch sc r b with
  | bg :: _ =>
    let s := s.issuePre ch sc r bg b
    s.setSub ch sc { s.sub ch sc with rfmOn := some key }
  | [] => (s.setSub ch sc ({ x with rfmOn := none }.lowerRaa r b (s.chan ch).rfmInit)).noteStep ch sc .rfm r 0 b 0

/-- The next command of a neighbour set (R66). The first one starts the set, counts it and takes the mark. -/
def State.issueNbr (s : State) (ch sc : Nat) : State :=
  let x := s.sub ch sc
  match x.nbr with
  | some n =>
    if n.isOpen then
      let rest := n.rows.drop 1
      let s := s.setSub ch sc { x with nbr := if rest.isEmpty then none else some { n with rows := rest, isOpen := false } }
      s.noteStep ch sc .pre n.rank n.bg n.bank 0
    else
      let x := s.countAct ch { x with nbr := some { n with isOpen := true } } (bankKey n.rank n.bg n.bank)
      (s.setSub ch sc x).noteStep ch sc .act n.rank n.bg n.bank (n.rows.headD 0)
  | none =>
    match s.nbrStart ch sc with
    | some (key, row) =>
      let rows := s.nbrRows ch row
      let n : NbrSet := ⟨key / 32, key / 4 % 8, key % 4, rows, true⟩
      let x := s.countAct ch { x with marks := SMap.del x.marks key, nbr := some n } key
      ((s.setSub ch sc x).bump F.DCH_EVT_CNT0_nbr_sets 1 ch).noteStep ch sc .act n.rank n.bg n.bank (rows.headD 0)
    | none => s

-- Log entry 33: DEDUCED, safe.
/-- Enters a read into the read queue, counting an entry into in-order mode (R54, R61). A remapped line is read from its
spare, without a DRAM command (R88). -/
def State.rqPut (s : State) (ch : Nat) (r : RdEnt) : State :=
  let sc := bits r.loc 6 1
  let x := s.sub ch sc
  if ((s.chan ch).remapOf (r.loc / 64 * 64)).isSome then
    s.setSub ch sc { x with flight := x.flight ++ [⟨r, s.storedGet ch r.loc, s.pwr.rootTime, true⟩] }
  else
    let key := (s.coord ch r.loc).key
    let enters := (x.matchWr r).isSome && !(s.inOrderBanks ch sc).contains key
    let s := s.setSub ch sc { x with rq := x.rq ++ [r] }
    if enters then s.bump F.DCH_EVT_CNT0_inorder 1 ch else s

/-- A due REFsb of a rank gives way to an urgency-7 request: it is counted once (R63). -/
def State.postpone (s : State) (ch sc rank : Nat) : State :=
  let x := s.sub ch sc
  let n := SMap.findD x.putOff rank 0
  if n < SMap.findD x.refDue rank 0 then
    (s.setSub ch sc { x with putOff := SMap.put x.putOff rank (n + 1) }).bump F.DCH_EVT_CNT1_ref_postponed 1 ch
  else s

end Sys2Proof.Machine
end

