-- ==== Sys2Proof/Machine/Honey.lean ====
section
/-!
DEFINITION. The honey cache (R105 - R115): placement, pseudo-LRU, fills, evictions; channel reads and writes made at once;
metadata lines read and written through the cache; heat samples (R116, R117); valid-map corruption (R104).
-/
namespace Sys2Proof.Machine

/-! ## Tree pseudo-LRU -/

-- Log entry 44: DESIGN CHOICE, unsafe.
/-- The victim of a tree of `2^lv` leaves among those that `ok` allows: each node's bit 0 points at the lower half.
`node` counts from 1, its bit is `node - 1`. -/
def plruPick (tree : Nat) (ok : Nat → Bool) : Nat → Nat → Nat → Option Nat
  | 0, _, lo => if ok lo then some lo else none
  | lv + 1, node, lo =>
    let a := fun (_ : Unit) => plruPick tree ok lv (2 * node) lo
    let b := fun (_ : Unit) => plruPick tree ok lv (2 * node + 1) (lo + 2 ^ lv)
    if bit tree (node - 1) then (b ()).orElse a else (a ()).orElse b

-- Log entry 44: DESIGN CHOICE, unsafe.
/-- A use of leaf `w`: every node on its path points away from it. -/
def plruTouch : Nat → Nat → Nat → Nat → Nat
  | 0, _, _, tree => tree
  | lv + 1, node, w, tree =>
    let up := bit w lv
    plruTouch lv (2 * node + (if up then 1 else 0)) w (setBits tree (node - 1) 1 (if up then 0 else 1))

/-- How a channel answers a request that reaches it (R74, R76). -/
inductive ChSt | ok | failed | maint
  deriving DecidableEq, Repr

def State.chSt (s : State) (ch : Nat) : ChSt :=
  if (s.chan ch).failed then .failed else if s.fB F.DCH_CFG_maint ch then .maint else .ok

/-- A request refused in maintenance is counted and raised (R76). -/
def State.maintReject (s : State) (ch : Nat) : State :=
  (s.bump F.DCH_EVT_CNT1_maint_rej 1 ch).raise (64 + 16 * ch + 4)

/-! ## Line locks (R12, R139) -/

/-- An access in a stage that holds its line's lock. -/
def Tx.holds (t : Tx) : Bool := t.stage != .waiting
/-- The access that holds a line's lock. -/
def State.lockTx (s : State) (line : Nat) : Option Tx := s.home.txs.find? fun t => t.line == line && t.holds
def State.evictLocked (s : State) (line : Nat) : Bool := s.home.snoops.any fun n => n.locks && n.line == line
def State.locked (s : State) (line : Nat) : Bool := (s.lockTx line).isSome || s.evictLocked line
def State.tx (s : State) (id : Nat) : Option Tx := s.home.txs.find? fun t => t.id == id
def State.putTx (s : State) (t : Tx) : State :=
  { s with home := { s.home with txs := s.home.txs.map fun x => if x.id == t.id then t else x } }

/-- A line is to be arbitrated by a later LOCK_GRANT. -/
def State.readyAs (s : State) (line : Nat) (released : Bool) : State :=
  if s.home.ready.any fun x => x.1 == line then s
  else { s with home := { s.home with ready := s.home.ready ++ [(line, released)] } }

/-- A line whose lock was released is arbitrated where accesses wait for it (R138). -/
def State.readyLine (s : State) (line : Nat) : State :=
  if s.home.txs.any fun x => x.line == line && !x.holds then s.readyAs line true else s

/-- Removes an access, which releases its line's lock. -/
def State.dropTx (s : State) (t : Tx) : State :=
  ({ s with home := { s.home with txs := s.home.txs.filter fun x => x.id != t.id } }).readyLine t.line

/-- An access at the home with every field at its plainest. -/
def newTx (kind : HKind) (origin : Origin) (ctx : Ctx) (line cls : Nat) : Tx :=
  { id := 0, kind := kind, origin := origin, ctx := ctx, line := line, wdata := Line.zero, be := fullBe, wpoison := false,
    arrive := 0, cls := cls, demoted := false, express := false, gen := 0, agent := none, known := false, wants := false,
    wk := .other, heat := .none, fill := none, maint := false, upd := false, urgent := false, win := none, got := none, stage := .waiting }

/-! ## Channel accesses made at once -/

/-- The priority's age and settings as a queue entry holds them. -/
def State.priEntry (s : State) (p : Pri) : Nat := p.entry.getD s.pwr.rootTime
def State.priUrg (s : State) (ch : Nat) (p : Pri) : Nat := s.urgency ch p.cls p.demoted (s.priEntry p)

/-- Whether a channel's write queue takes a write to a line now. -/
def State.wrFits (s : State) (ch loc : Nat) (p : Pri) : Bool :=
  ((s.chan ch).remapOf (loc / 64 * 64)).isSome || (s.sub ch (bits loc 6 1)).wrRoom loc (s.priUrg ch p)

/-- A write-back the home keeps for a line gives way to a later one. -/
def State.dropVictim (s : State) (line : Nat) : State :=
  match s.home.txs.find? fun x => x.origin == .victim && x.line == line with
  | some t => s.dropTx t
  | none => s

/-- A full-line write to a channel in service: it enters the write queue, or the home keeps it, the line locked, until an
entry is free (R54). -/
def State.chStore (s : State) (ch loc line : Nat) (l : Line) (p : Pri) (ctx : Ctx) (maint : Bool) : State :=
  if s.wrFits ch loc p then
    let s := s.dropVictim line
    match s.encodeFor line l with
    | none => s
    | some st => s.wqPut ch ⟨loc, line, l, st, p.cls, p.demoted, ctx, maint, s.priEntry p⟩
  else
    let t := { newTx .plainWr .victim ctx line p.cls with
      id := s.home.nextId, wdata := l, arrive := s.priEntry p, demoted := p.demoted, maint := maint, stage := .kept }
    let s := s.dropVictim line
    { s with home := { s.home with nextId := s.home.nextId + 1, txs := s.home.txs ++ [t] } }

/-- A full-line write that reaches its channel: stored, or discarded by a failed channel or one in maintenance. -/
def State.chPut (s : State) (line : Nat) (l : Line) (p : Pri) (ctx : Ctx) (maint : Bool) : State :=
  match s.locate (line * 64) with
  | none => s
  | some (ch, loc) =>
    match s.chSt ch with
    | .ok => s.chStore ch loc line l p ctx maint
    | .failed => s
    | .maint => s.maintReject ch

-- Log entry 42: DESIGN CHOICE, safe.
/-- A metadata line's read that reaches its channel, made at once: a pending write of the line is issued first (R61); CEs are
logged (R84) and UEs counted (R91). Gives the line with the mask of its words that read UE. -/
def State.chRead (s : State) (ch loc line : Nat) : State × Line × BitVec 16 :=
  match (s.home.txs.find? fun t => t.origin == .victim && t.line == line) with
  | some t => (s, t.wdata, 0)
  | none =>
    let s := s.flushWr ch loc
    let v := s.storedGet ch loc
    let ds := decodeWords v
    let u := ueMask ds
    let s := (s.logCes ch loc ds).countUe ch u
    (s, s.decodeFor line v, u)

/-! ## Fills and evictions (R108 - R110) -/

/-- The reset way-table entry of a Dome. -/
def wayReset (d : Nat) : Word := if d = 0 then 3 else 0xFFFC

def State.way (s : State) (d : Nat) : Word := SMap.findD s.honey.ways d (wayReset d)
def State.wayMask (s : State) (d : Nat) : Nat := bits (s.way d).toNat 0 16
def State.engineFill (s : State) (d : Nat) : Bool := bit (s.way d).toNat 31
def State.pinQuota (s : State) (d : Nat) : Nat := bits (s.way d).toNat 16 12

/-- The half a line's block lies in. -/
def State.half (s : State) (line : Nat) : Half := if bit (honeySet line) 18 then s.honey.halfB else s.honey.halfA

/-- The lines the cache may hold (R106). -/
def State.cacheable (s : State) (line : Nat) : Bool :=
  match s.area (line * 64) with
  | .tenant => true
  | .cellTable => true
  | .validMap => true
  | .heat => true
  | _ => false

/-- Whether fills of a line may take place: the cache is enabled and the line's half is on. -/
def State.fillOn (s : State) (line : Nat) : Bool :=
  s.fB F.HONEY_CTL_enable && s.half line == .on && s.cacheable line

/-- The way a fill takes (R109): the first invalid way of the mask, else the victim among its unpinned ways. -/
def State.fillWay (s : State) (line dome : Nat) : Option Nat :=
  if !s.fillOn line then none
  else
    let set := honeySet line
    let m := s.wayMask dome
    match (List.range 16).find? fun w => bit m w && (SMap.find s.honey.lines (set * 16 + w)).isNone with
    | some w => some w
    | none => plruPick (SMap.findD s.honey.plru set 0).toNat
        (fun w => bit m w && !(SMap.find s.honey.lines (set * 16 + w)).any fun x => x.pinned) 4 1 0

/-- Marks a cached line as used. -/
def State.hTouch (s : State) (key : Nat) : State :=
  let t := (SMap.findD s.honey.plru (key / 16) 0).toNat
  { s with honey := { s.honey with
      plru := SMap.put s.honey.plru (key / 16) (BitVec.ofNat 15 (plruTouch 4 1 (key % 16) t)) } }

/-- Removes a cached line; dirty data is written back first where `wb` says so, under the priority of the access that
displaces it (R110). -/
def State.hDrop (s : State) (key : Nat) (wb : Bool) (p : Pri) : State :=
  match SMap.find s.honey.lines key with
  | none => s
  | some x =>
    let s := if wb && x.dirty then s.chPut (lineOf (key / 16) x.tag) x.data p x.wctx false else s
    { s with honey := { s.honey with lines := SMap.del s.honey.lines key } }

-- Log entry 109: DEDUCED, unsafe.
/-- Whether what a way holds may be given up now: a dirty victim needs its own line's lock and an entry of its channel's
write queue, so that its channel has it before the fill's data is placed (R110). -/
def State.wayFree (s : State) (line way : Nat) (p : Pri) : Bool :=
  match SMap.find s.honey.lines (honeySet line * 16 + way) with
  | none => true
  | some x =>
    let v := lineOf (honeySet line) x.tag
    !x.dirty || (!s.locked v &&
      (match s.locate (v * 64) with
        | some (ch, loc) => s.chSt ch != .ok || s.wrFits ch loc p
        | none => true))

/-- A fill that takes a way must wait for the victim's write-back. -/
def State.fillWaits (s : State) (line : Nat) (fill : Option Nat) (p : Pri) : Bool :=
  match fill.bind fun d => s.fillWay line d with
  | some w => (s.honey.lookup line).isNone && !s.wayFree line w p
  | none => false

/-- Places a line in a way, evicting what it held. -/
def State.hPlace (s : State) (line way : Nat) (l : Line) (dirty pinned : Bool) (dome : Nat) (wctx : Ctx) (p : Pri) : State :=
  let key := honeySet line * 16 + way
  let s := s.hDrop key true p
  let s := { s with honey := { s.honey with
    lines := SMap.put s.honey.lines key ⟨honeyTag line, l, dirty, pinned, dome, wctx⟩ } }
  s.hTouch key

/-- A fill of a line for a Dome; nothing where no way takes it. -/
def State.hFill (s : State) (line : Nat) (l : Line) (dirty : Bool) (dome : Nat) (p : Pri) : State :=
  match s.fillWay line dome with
  | some w => s.hPlace line w l dirty false dome 0 p
  | none => s

/-- A fill for the Dome an access names, if it names one. -/
def State.hFillFor (s : State) (line : Nat) (l : Line) (fill : Option Nat) (p : Pri) : State :=
  match fill with
  | some d => if (s.honey.lookup line).isNone then s.hFill line l false d p else s
  | none => s

/-- Replaces the data of a cached line and marks it dirty. In a half that is being flushed the line goes to DRAM as
well, so that it does not become newly dirty. -/
def State.hWrite (s : State) (key line : Nat) (x : HLine) (l : Line) (p : Pri) (ctx : Ctx) : State :=
  let thru := s.half line == .flushWait || s.half line == .flushing
  let s := { s with honey := { s.honey with
    lines := SMap.put s.honey.lines key { x with data := l, dirty := x.dirty || !thru, wctx := ctx } } }
  let s := s.hTouch key
  if thru then s.chPut line l p ctx false else s

/-! ## Metadata lines (R104, R107, R108, R402) -/

/-- Adds events to a class's overflow summary; the first since its last read raises Waggle source 5 (R328). -/
def State.overflowRec (s : State) (cls src n : Nat) : State :=
  let o := SMap.findD s.bel.ovf cls ⟨0, false, 0, 0⟩
  let o' : OvfSum := ⟨min 0xFFFFFFFF (o.lost + n), true, if o.valid then o.first else src, src⟩
  let s := { s with bel := { s.bel with ovf := SMap.put s.bel.ovf cls o' } }
  if o.valid then s else s.wagEvent 5

-- Log entry 93: DEDUCED, unsafe.
/-- A record the archive ring holds has words lost to a UE: it counts in the overflow summary of its class, which is a free
value where its first word is among the lost (R91, R327). A slot never written, or whose record is being written, holds no
record to lose. -/
def State.archLoss (s : State) (l : Line) (u : BitVec 16) (slot : Nat) : State :=
  let lo := slot % 2 * 8
  if bits u.toNat lo 8 = 0 || !(s.bel.archWrapped || decide (slot < s.bel.archNext)) || s.bel.recs.any (fun e => e.2.arch == some slot)
  then s
  else if u.getLsbD lo then
    let (f, s) := s.draw
    s.overflowRec ((Config.random f).toNat % 5) 0 1
  else s.overflowRec (bits (l.word lo).toNat 11 3) (bits (l.word lo).toNat 0 11) 1

/-- What a UE found in a line does by its area (R91): in the valid map it turns the map off; a heat counter is written as 0
and logged; records of the archive ring are dropped and counted; the cell-table entry is corrupt, which the check that uses it
raises, or `own`, where the table's own line is read. Gives the line to hold and whether it is dirty. -/
def State.metaUe (s : State) (dpa ch loc : Nat) (l : Line) (u : BitVec 16) (own : Bool) : State × Line × Bool :=
  if u = 0 then (s, l, false)
  else match s.area dpa with
    | .validMap => (s.mapUe dpa u, l, false)
    | .heat =>
      let l' := (List.range 16).foldl (fun (a : Line) j => if u.getLsbD j then a.setWord j 0 else a) l
      (s.raise (64 + 16 * ch + 9) 0 0 (some loc), ⟨l'.data, l'.poison &&& ~~~u⟩, true)
    | .cellTable => (if own then s.raise 1 0 0 (some dpa) else s, l, false)
    | .faultLog =>
      let slot := (dpa - s.archiveAddr 0) / 64 * 2
      (((s.archLoss l u slot).archLoss l u (slot + 1)), l, false)
    | _ => (s, l, false)

-- Log entry 50: DEDUCED, unsafe.
/-- Counts the lookup of a line. -/
def State.countLookup (s : State) (line : Nat) : State :=
  if (s.honey.lookup line).isSome then s.bump F.HONEY_HIT_CNT_hits else s.bump F.HONEY_MISS_CNT_misses

-- Log entries 42: DESIGN CHOICE, safe; 50: DEDUCED, unsafe.
/-- Reads a metadata line through the cache, filling it in Dome 0's ways. None where its channel refuses requests. -/
def State.metaLoad (s : State) (dpa : Nat) (p : Pri) : State × Option Line :=
  let line := dpa / 64
  let s := s.countLookup line
  match s.honey.lookup line with
  | some (k, x) => (s.hTouch k, some x.data)
  | none =>
    match s.locate (line * 64) with
    | none => (s, some Line.poisoned)
    | some (ch, loc) =>
      match s.chSt ch with
      | .failed => (s, none)
      | .maint => (s.maintReject ch, none)
      | .ok =>
        let (s, l, u) := s.chRead ch loc line
        let (s, l, dirty) := s.metaUe (line * 64) ch loc l u false
        match (s.fillWay line 0).filter fun w => s.wayFree line w p with
        | some w => (s.hPlace line w l dirty false 0 0 p, some l)
        | none => (if dirty then s.chStore ch loc line l p 0 true else s, some l)

/-- Writes a whole metadata line as the home does under its lock. -/
def State.metaPut (s : State) (dpa : Nat) (p : Pri) (l : Line) : State :=
  let line := dpa / 64
  match s.honey.lookup line with
  | some (k, x) => s.hWrite k line x l p 0
  | none =>
    match (s.fillWay line 0).filter fun w => s.wayFree line w p with
    | some w => s.hPlace line w l true false 0 0 p
    | none => s.chPut line l p 0 true

/-- A cell-table entry as an access reads it: `none` where the channel refuses; `some none` where the word is bad. -/
def State.loadEntry (s : State) (cell : Nat) (p : Pri) : State × Option (Option Word) :=
  let a := s.cellEntryAddr cell
  let (s, r) := s.metaLoad a p
  (s, r.map fun l => if l.poison.getLsbD (a % 64 / 4) then none else some (l.word (a % 64 / 4)))

/-- Writes a cell-table entry (R46). -/
def State.putEntry (s : State) (cell : Nat) (e : Word) (p : Pri := .of 33) : State :=
  let a := s.cellEntryAddr cell
  let (s, r) := s.metaLoad a p
  match r with
  | some l =>
    let l' := l.setWord (a % 64 / 4) e
    s.metaPut a p ⟨l'.data, l.poison &&& ~~~(1#16 <<< (a % 64 / 4))⟩
  | none => s

-- Log entry 109: DEDUCED, unsafe.
/-- A line's valid bit as an access reads it; none where the map is off or its channel refuses. -/
def State.loadValid (s : State) (line : Nat) (p : Pri) : State × Option Bool :=
  if !s.fB F.GLOBAL_VMAP_STATUS_on then (s, none)
  else
    let a := s.validByteAddr line
    let (s, r) := s.metaLoad a p
    (s, if s.fB F.GLOBAL_VMAP_STATUS_on then r.map fun l => (l.byte (a % 64)).getLsbD (line % 8) else none)

/-- Sets or clears a line's valid bit while the map is on (R101). -/
def State.putValid (s : State) (line : Nat) (v : Bool) (p : Pri) : State :=
  if !s.fB F.GLOBAL_VMAP_STATUS_on then s
  else
    let a := s.validByteAddr line
    let (s, r) := s.metaLoad a p
    match r with
    | some l =>
      let i := 8 * (a % 64) + line % 8
      let m : BitVec 512 := 1#512 <<< i
      s.metaPut a p ⟨if v then l.data ||| m else l.data &&& ~~~m, l.poison⟩
    | none => s

/-- Clears a cell's 1,024 valid bits: two aligned lines of the map (R101). -/
def State.clearValid (s : State) (cell : Nat) : State :=
  if !s.fB F.GLOBAL_VMAP_STATUS_on then s
  else
    let a := s.validByteAddr (cell * 1024)
    (s.metaPut a (.of 33) Line.zero).metaPut (a + 64) (.of 33) Line.zero

/-- A cell's heat counter. -/
def State.heatOf (s : State) (cell : Nat) : State × Nat :=
  let a := s.heatAddr cell
  let (s, r) := s.metaLoad a (.of 34)
  (s, match r with | some l => bits l.data.toNat (8 * (a % 64)) 16 | none => 0)

def State.putHeat (s : State) (cell v : Nat) : State :=
  let a := s.heatAddr cell
  let (s, r) := s.metaLoad a (.of 34)
  match r with
  | some l => s.metaPut a (.of 34) ⟨BitVec.ofNat 512 (setBits l.data.toNat (8 * (a % 64)) 16 v), l.poison⟩
  | none => s

/-! ## Heat samples (R116, R117) -/

-- Log entry 45: DEDUCED, unsafe.
def State.heatWeight (s : State) (k : HeatKind) : Nat :=
  match k with
  | .hostRd => s.fN F.HONEY_HEAT_CTL_w_host_rd
  | .hostWr => s.fN F.HONEY_HEAT_CTL_w_host_wr
  | .remote => s.fN F.HONEY_HEAT_CTL_w_remote
  | .engine => s.fN F.HONEY_HEAT_CTL_w_engine
  | .none => 0

-- Log entry 45: DEDUCED, unsafe.
/-- Folds a cell's buffered increment into its counter, which saturates. -/
def State.heatFold (s : State) (cell : Nat) : State :=
  match SMap.find s.honey.heat cell with
  | none => s
  | some h =>
    let (s, c) := s.heatOf cell
    let s := s.putHeat cell (min 0xFFFF (c + h.inc))
    { s with honey := { s.honey with heat := SMap.del s.honey.heat cell } }

-- Log entry 45: DEDUCED, unsafe.
/-- Whether an entry may be folded now: its counter's line is unlocked, and a sweep that runs has passed its cell (R118). -/
def State.foldable (s : State) (cell : Nat) : Bool :=
  !s.locked (s.heatAddr cell / 64) && (match s.honey.sweep with | some p => decide (cell < p) | none => true)

-- Log entry 45: DEDUCED, unsafe.
/-- The oldest entry that may be folded. -/
def State.oldHeat (s : State) : Option Nat :=
  ((s.honey.heat.filter fun e => s.foldable e.1).foldl (fun (a : Option (Nat × HeatEnt)) e => match a with
    | none => some e
    | some b => if e.2.at_ < b.2.at_ then some e else some b) none).map fun e => e.1

-- Log entry 45: DEDUCED, unsafe.
/-- One draw for a lookup of a tenant cell; with probability 2^-sample_shift the kind's weight is added to the cell's
entry of the heat buffer. A full buffer's oldest entry that may be folded gives up its slot; without one the increment is
dropped (R117). -/
def State.heatSample (s : State) (line : Nat) (k : HeatKind) : State :=
  let cell := line / 1024
  let w := s.heatWeight k
  let counted := match s.cellEntry cell with | some e => !ceNoHeat e | none => false
  if w = 0 || !s.fB F.HONEY_HEAT_CTL_enable || !counted then s
  else
    let (r, s) := s.random64
    if r.toNat % 2 ^ s.fN F.HONEY_HEAT_CTL_sample_shift ≠ 0 then s
    else match SMap.find s.honey.heat cell with
      | some h => { s with honey := { s.honey with heat := SMap.put s.honey.heat cell { h with inc := h.inc + w } } }
      | none =>
        let add := fun (s : State) => { s with honey := { s.honey with heat := SMap.put s.honey.heat cell ⟨w, s.pwr.rootTime⟩ } }
        if s.honey.heat.length < 2048 then add s
        else match s.oldHeat with
          | some c => add (s.heatFold c)
          | none => s.bump F.HONEY_HEAT_STATUS_dropped

/-! ## Cached lines of a cell -/

/-- The keys of a cell's cached lines. -/
def State.cellKeys (s : State) (cell : Nat) : List Nat :=
  (s.honey.lines.filter fun e => lineOf (e.1 / 16) e.2.tag / 1024 == cell).map fun e => e.1

/-- Invalidates every cached line of a cell, discarding dirty data (R111). -/
def State.dropCell (s : State) (cell : Nat) : State :=
  let s := (s.cellKeys cell).foldl (fun s k => s.hDrop k false (.of 33)) s
  (s.home.txs.filter fun t => t.origin == .victim && t.line / 1024 == cell).foldl (fun s t => s.dropTx t) s

end Sys2Proof.Machine
end

