-- ==== Sys2Proof/Machine/Home.lean ====
section
/-!
DEFINITION. The data step of an access at the home: the owner-tag check (R15, R16, R45), key generations (R311), the
valid map (R99 - R102), the cache table of R108, doorbell pages (R150 - R152), the descriptor table (R147), accumulate
windows (R236 - R238), migration tracking and mirroring (R122, R123). Its writes are made by the access that holds the line's
lock.
-/
namespace Sys2Proof.Machine

/-! ## The owner-tag check -/

inductive Verdict | pass (e : Word) | no (r : Refuse)
  deriving DecidableEq, Repr

/-- Whether the copy of the membership table that a line's channel holds makes a Dome a member of a share group (R43). -/
def State.chanMember (s : State) (line g d : Nat) : Bool :=
  match s.locate (line * 64) with
  | some (ch, _) => (SMap.find (s.chan ch).members g).any fun x => x.members.contains d
  | none => false

/-- The owner-tag check of R45 on a line's entry that is not corrupt. -/
def State.ownerCheck (s : State) (ctx : Ctx) (line : Nat) (e : Word) : Bool :=
  let d := domeOf ctx
  if d = 0 then !ceAllocated e || (!ceGroup e && ceOwner e == 0)
  else if !ceAllocated e then false
  else if ceGroup e then s.chanMember line (ceOwner e % 256) d
  else ceOwner e == d

/-- Whether the key slot of a line's effective generation is CURRENT or DRAINING (R311). -/
def State.keyLive (s : State) (line : Nat) (e : Word) : Bool :=
  let k := s.keySlot (s.keyDome e) (s.effGen line e)
  k.st == .current || k.st == .draining

/-- How the channel of a metadata line refuses. -/
def State.metaRefuse (s : State) (dpa : Nat) : Refuse :=
  match s.locate (dpa / 64 * 64) with
  | some (ch, _) => if (s.chan ch).failed then .failed else .maint
  | none => .unbacked

/-- Whether a DPA is backed for a Dome: inside M, and for a tenant once the layout is locked and the metadata is
initialised (R29, R32). -/
def State.backed (s : State) (ctx : Ctx) (line : Nat) : Bool :=
  (match s.area (line * 64) with
    | .unbacked => false
    | .aperture => false
    | _ => true) && (domeOf ctx == 0 || s.tenantReady)

/-- The check of an access to a line, with the fault it raises when it fails. -/
def State.verdict (s : State) (ctx : Ctx) (line : Nat) (p : Pri) : State × Verdict :=
  let dpa := line * 64
  let d := domeOf ctx
  if !s.backed ctx line then (s.raise 5 ctx d (some dpa), .no .unbacked)
  else
    let (s, r) := s.loadEntry (line / 1024) p
    let bad := fun (s : State) => (s.raise 1 ctx 0 (some (s.cellEntryAddr (line / 1024) / 64 * 64)), Verdict.no .corrupt)
    match r with
    | none => (s, .no (s.metaRefuse (s.cellEntryAddr (line / 1024))))
    | some none => bad s
    | some (some e) =>
      if ceCorrupt e then bad s
      else if !s.ownerCheck ctx line e then (s.raise 4 ctx d (some dpa), .no .denied)
      else if s.area dpa = .tenant && !s.keyLive line e then (s.raise 6 ctx d (some dpa), .no .retired)
      else (s, .pass e)

/-- The check of an access; a maintenance engine, or the device itself, makes none (R41). -/
def State.check (s : State) (maint : Bool) (ctx : Ctx) (line : Nat) (p : Pri) : State × Verdict :=
  if maint then (s, .pass 0) else s.verdict ctx line p

/-! ## Doorbells (R150 - R152) and the descriptor table (R147) -/

/-- The Dome whose doorbell page holds a line. -/
def State.pageDome (s : State) (line : Nat) : Option Nat :=
  (s.domes.pages.find? fun e => e.2 / 4096 == line * 64 / 4096).map fun e => e.1

/-- The first test a doorbell fails, if any (R152). -/
def State.doorbellTest (s : State) (dome : Nat) (v : Nat) : Option Nat :=
  let q := bits v 0 18
  let kind := bit v 31
  let idx := bits v 32 16
  if bits v 18 13 ≠ 0 ∨ bits v 48 16 ≠ 0 then some 0
  else match SMap.find s.q.desc q with
    | none => some 1
    | some d =>
      if d.dome ≠ dome then some 1
      else if d.state = .frozen then some 2
      else if (if kind then 2 ^ d.cringLog2 else 2 ^ d.ringLog2) ≤ idx then some 3
      else none

/-- One doorbell. -/
def State.doorbell (s : State) (ctx : Ctx) (dome dpa v : Nat) : State :=
  let q := bits v 0 18
  let idx := bits v 32 16
  match s.doorbellTest dome v with
  | some t =>
    (s.bump F.QCTL_DB_REJ_CNT_rejected).raise 11 ctx dome (some dpa) (q + (if bit v 31 then 2 ^ 18 else 0) + t * 2 ^ 19)
  | none =>
    match SMap.find s.q.desc q with
    | some d =>
      let d := if bit v 31 then { d with chead := idx } else { d with tail := idx }
      { s with q := { s.q with desc := SMap.put s.q.desc q d } }
    | none => s

/-- The doorbells of a write to a page line: each slot whole, enabled and unpoisoned, in ascending order. -/
def State.doorbells (s : State) (ctx : Ctx) (dome line : Nat) (l : Line) (be : BitVec 64) : State :=
  (List.range 8).foldl (fun s k =>
    if be.extractLsb' (8 * k) 8 = 0xFF ∧ l.poison.extractLsb' (2 * k) 2 = 0 then
      s.doorbell ctx dome (line * 64 + 8 * k) (l.slot8 k).toNat
    else s) s

/-- Queue control's descriptor table. -/
def State.descBase (s : State) : Nat :=
  s.fN F.QCTL_DESC_BASE_HI_base_hi * 2 ^ 32 + s.fN F.QCTL_DESC_BASE_LO_base_lo * 65536

def State.inDescTable (s : State) (line : Nat) : Bool :=
  s.fB F.QCTL_CTL_enable && decide (s.descBase ≤ line * 64 ∧ line * 64 < s.descBase + 2 ^ 24)

/-! ## Entering the tracker (R12, R137) -/

/-- The urgency of an access at the home, by the table of the channel that holds its line (R138). -/
def State.txUrgency (s : State) (t : Tx) : Nat :=
  s.urgency (((s.locate (t.line * 64)).map fun x => x.1).getD 0) t.cls t.demoted t.arrive

/-- The enabled window that holds a cell. -/
def State.windowOf (s : State) (cell : Nat) : Option Nat :=
  (List.range 64).find? fun w =>
    s.fB F.SPIRE_WIN_CTL_enable 0 w &&
    (let b := s.fN F.SPIRE_WIN_BASE_base_cell 0 w
     decide (b ≤ cell ∧ cell < b + s.fN F.SPIRE_WIN_SIZE_cells 0 w))

/-- The window setting a write is accepted under: format and sr of the window it adds to (R235, R236). -/
def State.winSetting (s : State) (t : Tx) : Option (Nat × Bool) :=
  if t.wk = .host ∨ t.wk = .remote then
    (s.windowOf (t.line / 1024)).map fun w => (s.fN F.SPIRE_WIN_CTL_fmt 0 w, s.fB F.SPIRE_WIN_CTL_sr 0 w)
  else none

-- Log entry 53: DEDUCED, unsafe.
/-- The home accepts an access: it waits in the tracker for its line's lock. A line that no access holds is arbitrated by
the next LOCK_GRANT, among all that have come (R12, R13). -/
def State.enter (s : State) (t : Tx) : State :=
  let t := { t with id := s.home.nextId, stage := .waiting, arrive := s.pwr.rootTime, win := s.winSetting t }
  let t := { t with urgent := s.txUrgency t == 7 }
  let s := { s with home := { s.home with nextId := s.home.nextId + 1, txs := s.home.txs ++ [t] } }
  if s.locked t.line then s else s.readyAs t.line false

/-! ## Migration (R122, R123) -/

/-- The migration slot of a source cell. -/
def State.slotOf (s : State) (cell : Nat) : Option (Nat × MigSlot) := s.honey.mig.find? fun e => e.2.cell == cell

/-- The destination line of a source line. -/
def MigSlot.dest (m : MigSlot) (line : Nat) : Nat := m.dstCell * 1024 + line % 1024

/-- The lowest free message number (R279). -/
def State.freeMsg (s : State) : Option Nat :=
  let used : SMap Unit := s.fab.retired.foldl (fun m e => SMap.put m e.1 ()) (s.fab.msgs.map fun e => (e.1, ()))
  SMap.firstFree used 65536

/-- Whether a line's copy in a slot's destination is still being written. -/
def State.migBusy (s : State) (k : Nat) (m : MigSlot) (line : Nat) : Bool :=
  s.home.txs.any (fun t => t.origin == .migration k && t.kind == .plainWr && t.line == m.dest line) ||
  s.fab.msgs.any fun e => match e.2.kind with | .mig j x _ => j == k && x == line | _ => false

/-- One line of a migration copy or mirrored write goes to its destination: through the home of this node, or to the
owning node, which acknowledges it. Nothing is sent while an earlier copy of the line is still being written, or no message
number is free. True: it is on its way. -/
def State.migLine (s : State) (k : Nat) (m : MigSlot) (line : Nat) (l : Line) : State × Bool :=
  if s.migBusy k m line then (s, false)
  else if m.dstNode = s.pwr.node then
    (s.enter { newTx .plainWr (.migration k) 0 (m.dest line) 34 with wdata := l, maint := true }, true)
  else match s.freeMsg with
    | some n =>
      let g : Msg := ⟨.mig k line none, 0, m.dstNode, 0, m.dest line * 64, 64, 0, 0, s.pwr.refTime, 0, 0, []⟩
      ({ s with fab := { s.fab with msgs := SMap.put s.fab.msgs n g } }.emit (.remoteLine m.dstNode (m.dest line) n l), true)
    | none => (s, false)

/-- Sets or clears the tracker bit of a line of a migrating cell (R122). -/
def State.migTrack (s : State) (k line : Nat) (b : Bool) : State :=
  match SMap.find s.honey.mig k with
  | some m =>
    let i := 1#1024 <<< (line % 1024)
    { s with honey := { s.honey with
        mig := SMap.put s.honey.mig k { m with tracker := if b then m.tracker ||| i else m.tracker &&& ~~~i } } }
  | none => s

/-- What every accepted write to a tenant line does beside storing: its valid bit is set, and the tracker bit of a cell that
migrates and does not mirror yet. -/
def State.noteWrite (s : State) (line : Nat) (p : Pri) : State :=
  if s.area (line * 64) ≠ .tenant then s
  else
    let (s, v) := s.loadValid line p
    let s := if v = some false then s.putValid line true p else s
    match s.slotOf (line / 1024) with
    | none => s
    | some (k, m) =>
      if m.stage = .mirror || m.stage = .lost then s else s.migTrack k line true

/-! ## Reads (R99, R108) -/

inductive DRead | served (l : Line) | dram (ch loc : Nat) | no (r : Refuse)
  deriving DecidableEq, Repr

/-- After the check: the line, with nothing but zeros for a doorbell page (R150). -/
def State.checked (s : State) (maint : Bool) (ctx : Ctx) (line : Nat) (p : Pri) (l : Line) : State × DRead :=
  match s.check maint ctx line p with
  | (s, .pass _) => (s, .served (if (s.pageDome line).isSome then Line.zero else l))
  | (s, .no r) => (s, .no r)

/-- The data step of a read up to a DRAM read: served from the cache, as zeros where the valid bit is 0, or from
DRAM. -/
def State.dataRead (s : State) (maint : Bool) (ctx : Ctx) (line : Nat) (p : Pri) (heat : HeatKind) : State × DRead :=
  if !s.backed ctx line then (s.raise 5 ctx (domeOf ctx) (some (line * 64)), .no .unbacked)
  else
    let tenant := s.area (line * 64) == .tenant
    let s := if tenant then s.heatSample line heat else s
    match s.honey.lookup line with
    | some (k, x) => ((s.hTouch k).bump F.HONEY_HIT_CNT_hits).checked maint ctx line p x.data
    | none =>
      let s := s.bump F.HONEY_MISS_CNT_misses
      let (s, v) := if tenant then s.loadValid line p else (s, none)
      if v = some false ∨ (s.pageDome line).isSome then s.checked maint ctx line p Line.zero
      else match s.locate (line * 64) with
        | none => (s.raise 5 ctx (domeOf ctx) (some (line * 64)), .no .unbacked)
        | some (ch, loc) =>
          match s.chSt ch with
          | .ok => (s, .dram ch loc)
          | .failed => (s, .no .failed)
          | .maint => (s.maintReject ch, .no .maint)

-- Log entry 109: DEDUCED, unsafe.
/-- DRAM data meets the check, which sees the entry as it stands now (R46), and is filled for `fill` under the mask as it
stands now (R109). -/
def State.dataArrive (s : State) (maint : Bool) (ctx : Ctx) (line : Nat) (p : Pri) (fill : Option Nat) (l : Line) : State × RdRes :=
  match s.check maint ctx line p with
  | (s, .pass _) =>
    (s.hFillFor line l fill p, .ok l)
  | (s, .no r) => (s, .no r)

/-! ## Writes (R99 - R101, R108) -/

/-- A write at its data step. `cxlPoison` is the poison of a CXL.mem write (R89); `own` marks queue control's write of a
descriptor (R147). -/
structure WrReq where
  ctx : Ctx
  line : Nat
  data : Line
  be : BitVec 64
  cxlPoison : Bool
  pri : Pri
  heat : HeatKind
  fill : Option Nat
  maint : Bool
  own : Bool
  win : Option (Nat × Bool)
  deriving DecidableEq, Repr

/-- What a write comes to: stored as a line, discarded without refusal, in need of the line's DRAM data, kept for want of
room, or refused. -/
inductive DWrite | done (l : Option Line) | dram (ch loc : Nat) | noRoom | no (r : Refuse)
  deriving DecidableEq, Repr

/-- The written line and its byte enables: a poisoned CXL.mem write stores 16 poisoned words. -/
def WrReq.eff (w : WrReq) : Line × BitVec 64 := if w.cxlPoison then (Line.poisoned, fullBe) else (w.data, w.be)

/-- Whether a full line can be stored now: over its cached copy, into a way whose victim is free, or by its channel
(R54, R110). -/
def State.storeRoom (s : State) (line : Nat) (fill : Option Nat) (p : Pri) : Bool :=
  (s.honey.lookup line).isSome ||
  match fill.bind fun d => s.fillWay line d with
  | some w => s.wayFree line w p
  | none =>
    match s.locate (line * 64) with
    | some (ch, loc) => s.chSt ch != .ok || s.wrFits ch loc p
    | none => true

/-- Stores a full line: over its cached copy, into a way a fill takes, or to its channel. `rmw`: the write's read was accepted
before, so maintenance does not refuse it (R76). Where no room is left the home keeps the write (R54). -/
def State.storeFull (s : State) (w : WrReq) (l : Line) (rmw : Bool) : State × DWrite :=
  if !s.storeRoom w.line w.fill w.pri then (s, .noRoom)
  else match s.honey.lookup w.line with
  | some (k, x) => ((s.noteWrite w.line w.pri).hWrite k w.line x l w.pri w.ctx, .done (some l))
  | none =>
    match w.fill.bind fun d => s.fillWay w.line d with
    | some way => ((s.noteWrite w.line w.pri).hPlace w.line way l true false (domeOf w.ctx) w.ctx w.pri, .done (some l))
    | none =>
      match s.locate (w.line * 64) with
      | none => (s, .done none)
      | some (ch, loc) =>
        match s.chSt ch, rmw with
        | .failed, _ => (s, .no .failed)
        | .maint, false => (s.maintReject ch, .no .maint)
        | _, _ => ((s.noteWrite w.line w.pri).chStore ch loc w.line l w.pri w.ctx w.maint, .done (some l))

/-- A UE in the read of a read-modify-write is logged and charged to no Dome (R91). -/
def State.rmwUe (s : State) (ch loc : Nat) (u : BitVec 16) : State :=
  if u = 0 then s else s.raise (64 + 16 * ch + 8) 0 0 (some loc)

/-- A line's old contents for a write that needs them, `old` where DRAM has delivered them (R99, R100, R54). -/
def State.oldLine (s : State) (line : Nat) (p : Pri) (old : Option Line) : State × DRead :=
  match old with
  | some l => (s, .served l)
  | none =>
    let (s, v) := if s.area (line * 64) = .tenant then s.loadValid line p else (s, none)
    if v = some false then (s, .served Line.zero)
    else match s.honey.lookup line with
      | some (_, x) => (s, .served x.data)
      | none =>
        match s.locate (line * 64) with
        | none => (s, .no .unbacked)
        | some (ch, loc) =>
          match s.chSt ch with
          | .failed => (s, .no .failed)
          | .maint => (s.maintReject ch, .no .maint)
          | .ok =>
            match (s.chan ch).pendingWr loc with
            | some p => (s, .served p.data)
            | none => (s, .dram ch loc)

/-- A write's store, merged with the line's old contents where it is partial. -/
def State.storeAny (s : State) (w : WrReq) (old : Option Line) : State × DWrite :=
  let (l, be) := w.eff
  if be = fullBe then s.storeFull w l false
  else match s.oldLine w.line w.pri old with
    | (s, .served o) => s.storeFull w (o.merge l be) old.isSome
    | (s, .dram ch loc) => (s, .dram ch loc)
    | (s, .no .unbacked) => (s, .done none)
    | (s, .no r) => (s, .no r)

/-! ### Accumulate windows (R235 - R238) -/

/-- The Spire that adds for a channel (R238). -/
def State.adder (s : State) (ch : Nat) : Option Nat :=
  ((List.range 24).map fun k => (ch + k) % 24).find? fun n => s.fB F.SPIRE_CTL_enable n && s.domainOn (13 + n / 6)

/-- One element of an add. -/
def addElem (fmt : Nat) (p : Spire) (sr : Bool) (old new : Nat) : Nat × Exc × Spire :=
  let a := widen fmt 0 old
  let b := widen fmt 0 new
  let (r, p) := p.rnd (sr && fmt != 0)
  let (v, x) := roundOut fmt false r (fIsNan a || fIsNan b) (fadd a b)
  (v, x, p)

/-- The element-wise sum of a window add: whole elements are added, partly enabled ones stay and are counted; a poisoned
block keeps its poison (R237). -/
def addLine (fmt : Nat) (sr : Bool) (p : Spire) (old new : Line) (be : BitVec 64) : Line × Exc × Spire × Nat :=
  let w := fmtBits fmt
  (List.range (512 / w)).foldl (fun (acc : Line × Exc × Spire × Nat) i =>
    let (l, x, p, part) := acc
    let e := bits be.toNat (i * w / 8) (w / 8)
    if e = 0 then acc
    else if e ≠ 2 ^ (w / 8) - 1 then (l, x, p, part + 1)
    else if l.blockPoison (i * w / 128) then acc
    else
      let (v, y, p) := addElem fmt p sr (bits old.data.toNat (i * w) w) (bits new.data.toNat (i * w) w)
      (⟨BitVec.ofNat 512 (setBits l.data.toNat (i * w) w v), l.poison⟩, x.add y, p, part)) (old, Exc.none, p, 0)

-- Log entry 55: DEDUCED, unsafe.
/-- A window add, under the setting it was accepted with. The line is brought into the cache under the mask of the writing
Dome (R218). -/
def State.windowAdd (s : State) (w : WrReq) (win : Nat × Bool) (old : Option Line) : State × DWrite :=
  let ch := ((s.locate (w.line * 64)).map fun x => x.1).getD 0
  let put := { w with pri := { w.pri with cls := 31 }, fill := some (domeOf w.ctx) }
  match s.adder ch with
  | none => ((s.bump F.SPIRE_WIN_EVT_CNT_no_spire).raise 12 w.ctx (domeOf w.ctx) (some (w.line * 64)), .done none)
  | some n =>
    if !s.storeRoom put.line put.fill put.pri then (s, .noRoom)
    else if w.cxlPoison || w.data.anyPoison then
      let (s, r) := s.storeFull put Line.poisoned false
      (s.bump F.SPIRE_WIN_ADD_CNT_adds, r)
    else match (if old.isNone then s.countLookup w.line else s).oldLine w.line put.pri old with
      | (s, .no r) => (s, .no r)
      | (s, .dram ch loc) => (s, .dram ch loc)
      | (s, .served o) =>
        let (l, x, p, part) := addLine win.1 win.2 (s.spire n) o w.data w.be
        let s := ((s.setSpire n p).addExc n x).bump F.SPIRE_WIN_EVT_CNT_part_elem part
        let (s, r) := s.storeFull put l old.isSome
        (s.bump F.SPIRE_WIN_ADD_CNT_adds, r)

/-- The check and the store of a write. The descriptor table takes no write but queue control's own (R147). -/
def State.writeStep (s : State) (w : WrReq) (old : Option Line) : State × DWrite :=
  let table := s.inDescTable w.line && !w.own
  let s := if table then s.bump F.QCTL_TABLE_REJ_CNT_rejected else s
  match s.check w.maint w.ctx w.line w.pri with
  | (s, .no r) => (s, .no r)
  | (s, .pass _) =>
    if table then (s, .done none)
    else match s.pageDome w.line with
    | some d => let (l, be) := w.eff; (s.doorbells w.ctx d w.line l be, .done none)
    | none =>
      match w.win with
      | some win => s.windowAdd w win old
      | none => s.storeAny w old

/-- The data step of a write. -/
def State.dataWrite (s : State) (w : WrReq) : State × DWrite :=
  let s := if s.area (w.line * 64) = .tenant then s.heatSample w.line w.heat else s
  (if w.win.isSome || (s.pageDome w.line).isSome || s.inDescTable w.line then s else s.countLookup w.line).writeStep w none

/-! ## Queue control's descriptors (R146, R147) -/

-- Log entry 60: DEDUCED, unsafe.
/-- A descriptor's layout in the table (R146); `st` is its state field. -/
def QDesc.image (d : QDesc) (st : Nat) : Nat :=
  d.ringBase + d.cringBase * 2 ^ 64 + d.countAddr * 2 ^ 128 + d.dome * 2 ^ 192 + d.ringLog2 * 2 ^ 208 + d.cringLog2 * 2 ^ 216 +
    d.mode * 2 ^ 224 + (if d.irqEn then 2 ^ 226 else 0) + d.vector * 2 ^ 228 + d.burst * 2 ^ 232 + d.maxInflight * 2 ^ 240 +
    d.head * 2 ^ 256 + d.tail * 2 ^ 272 + d.ctail * 2 ^ 288 + d.chead * 2 ^ 304 + st * 2 ^ 320 + (if d.phase then 2 ^ 322 else 0)

/-- The state field of a descriptor in use (R146). -/
def QDesc.code (d : QDesc) : Nat := match d.state with | .active => 1 | .halted => 2 | .frozen => 3

-- Log entry 60: DEDUCED, unsafe.
/-- Queue control writes a descriptor into the table, through the home, once the table is its own (R147). -/
def State.tableWrite (s : State) (q : Nat) (d : QDesc) (st : Nat) : State :=
  if !s.fB F.QCTL_CTL_enable then s
  else s.enter { newTx .plainWr .desc 0 ((s.descBase + 64 * q) / 64) 32 with
    wdata := ⟨BitVec.ofNat 512 (d.image st), 0⟩, fill := some 0, maint := true }

-- Log entries 59: DEDUCED, unsafe; 60: DEDUCED, unsafe.
/-- A descriptor takes a new state, in the working copy and in the table. A turn of a queue that stops being ACTIVE ends
(R155). -/
def State.setDesc (s : State) (q : Nat) (d : QDesc) : State :=
  let turn := if d.state ≠ .active ∧ s.q.turn.any fun t => t.1 == q then none else s.q.turn
  ({ s with q := { s.q with desc := SMap.put s.q.desc q d, turn := turn } }).tableWrite q d d.code

-- Log entry 60: DEDUCED, unsafe.
/-- A descriptor becomes FREE. -/
def State.freeDesc (s : State) (q : Nat) : State :=
  match SMap.find s.q.desc q with
  | some d => ({ s with q := { s.q with desc := SMap.del s.q.desc q } }).tableWrite q d 0
  | none => s

/-! ## Poison -/

/-- A poisoned word was delivered to a requester (R90). -/
def State.consume (s : State) (ctx : Ctx) (line : Nat) : State := s.raise 3 ctx (domeOf ctx) (some (line * 64))

-- Log entry 57: DEDUCED, unsafe.
/-- Writes a line poisoned on the device's own account, under a lock that is held, and lists it (R252). A mirrored line is
poisoned in both cells. -/
def State.poisonLine (s : State) (line cls : Nat) : State :=
  let w : WrReq := ⟨0, line, Line.poisoned, fullBe, false, .of cls, .none, none, true, false, none⟩
  let s := if s.inDescTable line then s.bump F.QCTL_TABLE_REJ_CNT_rejected
    else match s.storeFull w Line.poisoned true with
    | (s, .noRoom) =>
      (match s.locate (line * 64) with
        | some (ch, loc) => (s.noteWrite line w.pri).chStore ch loc line Line.poisoned w.pri 0 true
        | none => s)
    | (s, _) => s
  let s := match s.slotOf (line / 1024) with
    | some (k, m) =>
      if m.stage = MigStage.mirror then
        let (s, sent) := s.migLine k m line Line.poisoned
        if sent then s else s.migTrack k line true
      else s
    | none => s
  s.addPoisonList line

end Sys2Proof.Machine
end

