-- ==== Sys2Proof/Machine/Coh.lean ====
section
/-!
DEFINITION. The coherence home (chapter 6): the snoop filter, back-invalidate snoops, grants, filter evictions, and how
every access, of a host or of an engine, proceeds from its line's lock to its answer.
-/
namespace Sys2Proof.Machine

/-! ## The snoop filter (R129 - R132) -/

def filterSet (line : Nat) : Nat := (line % 2 ^ 15) ^^^ bits line 15 15
def filterTag (line : Nat) : Nat := bits line 15 24
def filterBase (agent line : Nat) : Nat := (agent * 32768 + filterSet line) * 16

/-- The line of an entry from its set and tag. -/
def filterLine (set tag : Nat) : Nat := tag * 2 ^ 15 + (set ^^^ (tag % 2 ^ 15))

/-- An agent's configuration: enable in [31], its key as SNOOP_AGENT_CFG places it. -/
def State.agentCfg (s : State) (a : Nat) : Word := SMap.findD s.home.agents a 0
def State.agentOn (s : State) (a : Nat) : Bool := (s.agentCfg a).getLsbD 31
def State.agentDown (s : State) (a : Nat) : Bool := s.home.down.contains a
def State.sweepBusy (s : State) (a : Nat) : Bool := s.home.sweeps.any fun w => w.slot == a

/-- The key of a source as SNOOP_AGENT_CFG holds it. -/
def agentKey (port link : Nat) (ldKind : Bool) (src : Nat) : Nat :=
  port * 2 ^ 18 + link * 2 ^ 17 + (if ldKind then 2 ^ 12 else 0) + src

/-- The registered slot of a source: enabled, or down and not registered again. -/
def State.agentOf (s : State) (c : CxlSrc) : Option Nat :=
  (List.range 32).find? fun a =>
    (s.agentOn a || s.agentDown a) && bits (s.agentCfg a).toNat 0 22 == agentKey c.port c.link c.ldKind c.src

/-- What an agent's array shows for a line: nothing, or a way with state 1 (S) or 2 (E/M). -/
inductive FRes | none | hit (way st : Nat)
  deriving DecidableEq, Repr

/-- The entry of a way, decoded; a damaged one, or one of state 3, gives none (R131). -/
def State.filterWay (s : State) (a line w : Nat) : Option (Nat × Nat) :=
  ((SMap.find s.home.filter (filterBase a line + w)).bind filterDecode).filter fun e => e.2 != 3

def State.filterAt (s : State) (a line : Nat) : FRes :=
  ((List.range 16).findSome? fun w =>
    match s.filterWay a line w with
    | some (t, st) => if st ≠ 0 ∧ t = filterTag line then some (FRes.hit w st) else none
    | none => none).getD .none

/-- A read of a line's set meets a damaged entry of an agent's array (R143). -/
def State.filterBad (s : State) (a line : Nat) : Bool :=
  (List.range 16).any fun w => (SMap.find s.home.filter (filterBase a line + w)).isSome && (s.filterWay a line w).isNone

/-- The agents that hold a line. -/
def State.holders (s : State) (line : Nat) : List (Nat × Nat) :=
  (List.range 32).filterMap fun a => match s.filterAt a line with | .hit _ st => some (a, st) | _ => none

/-- Touches an entry in its set's pseudo-LRU tree. -/
def State.filterTouch (s : State) (a line way : Nat) : State :=
  let k := a * 32768 + filterSet line
  let t := (SMap.findD s.home.plru k 0).toNat
  { s with home := { s.home with plru := SMap.put s.home.plru k (BitVec.ofNat 15 (plruTouch 4 1 way t)) } }

-- Log entry 55: DEDUCED, unsafe.
/-- Sets an agent's state for a line; a new entry takes the lowest free way. -/
def State.setAgent (s : State) (a line st : Nat) : State :=
  let b := filterBase a line
  let way? := match s.filterAt a line with
    | .hit w _ => some w
    | _ => (List.range 16).find? fun w => (SMap.find s.home.filter (b + w)).isNone
  match way? with
  | none => s
  | some w =>
    if st = 0 then
      (match s.filterAt a line with
        | .hit _ _ => { s with home := { s.home with filter := SMap.del s.home.filter (b + w) } }
        | _ => s)
    else
      ({ s with home := { s.home with
        filter := SMap.put s.home.filter (b + w) (filterEncode (filterTag line) st) } }).filterTouch a line w

-- Log entry 54: DEDUCED, safe.
/-- Whether a grant to an agent finds an entry for the line or a free way. -/
def State.filterRoom (s : State) (a line : Nat) : Bool :=
  match s.filterAt a line with
  | .hit _ _ => true
  | _ => (List.range 16).any fun w => (SMap.find s.home.filter (filterBase a line + w)).isNone

/-! ## Answers -/

def HKind.isWrite : HKind → Bool
  | .agentWr _ => true
  | .plainWr => true
  | _ => false

def HKind.isRead : HKind → Bool
  | .rdS => true
  | .rdE => true
  | .rdAny => true
  | .rdCur => true
  | _ => false

/-- What the access reads is written back merged or as it is: a UE in it is logged and charged to no Dome (R91, R312). -/
def Tx.rewrites (t : Tx) : Bool := t.kind.isWrite || t.origin.isSweep

/-- The port settings of R299. -/
def State.portCfg (s : State) (p : Nat) : Word := SMap.findD s.eg.cfg p 0x100

/-- Queues an S2M message for a link, or discards it where the link is, or has been, down (R255). -/
def State.s2m (s : State) (c : CxlSrc) (cls dome : Nat) (express : Bool) (op : S2MOp) (line : Nat) (d : Line) : State :=
  let l := s.cxlLink c.port c.link
  let len := match op with | .memData _ => 64 | _ => 0
  if l.up && c.live then s.egPut c.port c.link cls dome len express (.s2m c op line d)
  else s.setCxlLink c.port c.link { l with discarded := l.discarded + 1 }

/-! ### Entries of a link's egress (R137) -/

/-- An access of a link. -/
def Origin.onLink (o : Origin) (p l : Nat) : Bool := match o with | .cxl c => c.port == p && c.link == l | _ => false

def EgBody.isSnp : EgBody → Bool
  | .s2m _ (.biSnp _) _ _ => true
  | _ => false

def EgBody.isAns : EgBody → Bool
  | .s2m _ op _ _ => (match op with | .biSnp _ => false | _ => true)
  | _ => false

-- Log entry 89: DEDUCED, unsafe.
/-- The entries of a link's egress: NDR and DRS messages queued or owed to accesses that hold a lock or are out through a
window, and queued BISnp messages. -/
def State.egUse (s : State) (p l : Nat) : Nat × Nat :=
  let mine := s.eg.items.filter fun x => x.port == p && x.link == l
  let owed := (s.home.txs.filter fun t => t.stage != .waiting && t.origin.onLink p l).length +
    (s.fab.owin.filter fun r => r.tx.origin.onLink p l).length
  ((mine.filter fun x => x.body.isAns).length + owed, (mine.filter fun x => x.body.isSnp).length)

/-- Whether the 128 entries of a link's egress hold so many messages: 48 are kept for NDR and DRS, 32 for BISnp. -/
def egFits (ans snp : Nat) : Bool := decide ((ans - 48) + (snp - 32) ≤ 48)

/-- Whether a link's egress has room for `n` more answers; a link that is down discards them. -/
def State.ansRoom (s : State) (p l n : Nat) : Bool :=
  !(s.cxlLink p l).up || egFits ((s.egUse p l).1 + n) (s.egUse p l).2

/-- Whether a link's egress has room for `n` more snoops. -/
def State.snpRoom (s : State) (p l n : Nat) : Bool :=
  !(s.cxlLink p l).up || egFits (s.egUse p l).1 ((s.egUse p l).2 + n)

/-- Room for the answer of an access that is about to take its lock. -/
def State.txRoom (s : State) (t : Tx) : Bool := match t.origin with | .cxl c => s.ansRoom c.port c.link 1 | _ => true

/-- The service class of an answer (R293, R302). -/
def State.ansClass (s : State) (t : Tx) (op : S2MOp) : Nat :=
  if t.demoted then 7
  else match op with
    | .memData _ => if (s.windowOf (t.line / 1024)).isSome then 3 else 0
    | _ => 1

/-- Answers a CXL request. -/
def State.answer (s : State) (t : Tx) (op : S2MOp) (d : Line) : State :=
  match t.origin with
  | .cxl c =>
    let ex := F.SHAPER_PORT_CFG_express_en.on (s.portCfg c.port) && s.txUrgency t == 7
    s.s2m c (s.ansClass t op) (domeOf t.ctx) ex op t.line d
  | _ => s

/-- The answer of a request that is granted no state (R127, R129). -/
def grantlessOp (t : Tx) : S2MOp := if t.kind.isRead then .memData .i else .cmp

/-! ## Snoops (R133, R134, R141) -/

/-- The agent's link as the target of a snoop. -/
def State.agentSrc (s : State) (a : Nat) : CxlSrc :=
  let k := (s.agentCfg a).toNat
  ⟨bits k 18 4, bits k 17 1, bit k 12, bits k 0 12, 0, true⟩

/-- Room for the snoops to some agents in the egress of their links (R137). -/
def State.snpsRoom (s : State) (as : List Nat) : Bool :=
  as.all fun a =>
    let c := s.agentSrc a
    s.snpRoom c.port c.link (as.filter fun b => (s.agentSrc b).port == c.port && (s.agentSrc b).link == c.link).length

/-- Sends a back-invalidate snoop. -/
def State.sendSnoop (s : State) (tx : Option Nat) (a line : Nat) (k : SnpKind) (dome : Nat) (evict : Bool) : State :=
  let n : Snoop := ⟨tx, a, line, k, s.pwr.rootTime, dome, evict⟩
  let s := { s with home := { s.home with snoops := s.home.snoops ++ [n] } }
  (s.bump F.SNOOP_EVT_CNT1_bisnp_sent).s2m (s.agentSrc a) 2 dome false (.biSnp k) line Line.zero

/-- A Dome's policy for agents that are lost: the owner of the line's cell, or its group's anchor (R144). -/
def State.lineDome (s : State) (line : Nat) : Nat := match s.cellEntry (line / 1024) with | some e => s.keyDome e | none => 0
def State.keepOnDown (s : State) (line : Nat) : Bool := SMap.findD s.home.keep (s.lineDome line) false

-- Log entry 57: DEDUCED, unsafe.
/-- What the home does for a snoop that times out (R141): the line is written poisoned, the entry set to I, the event
logged and raised. A recall of teardown is logged alone (R316). -/
def State.snoopLost (s : State) (n : Snoop) : State :=
  let s := (s.setAgent n.agent n.line 0).bump F.SNOOP_EVT_CNT0_bi_timeouts
  let s := s.fSet F.SNOOP_TO_LOG_LO_line_lo (n.line % 2 ^ 32)
  let s := ((s.fSet F.SNOOP_TO_LOG_HI_line_hi (n.line / 2 ^ 32)).fSet F.SNOOP_TO_LOG_HI_agent n.agent).fFlag
    F.SNOOP_TO_LOG_HI_valid true
  if n.tx.isNone then s
  else (s.poisonLine n.line 33).raise 7 (BitVec.ofNat 16 (n.dome * 16)) n.dome (some (n.line * 64)) n.agent

/-- A snoop to an agent that is down completes by its line's policy (R144). -/
def State.snoopPolicy (s : State) (n : Snoop) : State :=
  if s.keepOnDown n.line then s.setAgent n.agent n.line 0 else s.snoopLost n

/-- The kind an access is served as: one known to be granted nothing is served as RdCur (R129). -/
def Tx.serve (t : Tx) : HKind := if t.wants && !t.known then .rdCur else t.kind

/-- The snoops an access needs: agents other than the requester (R133). -/
def State.needSnoops (s : State) (t : Tx) : List (Nat × SnpKind) :=
  let h := (s.holders t.line).filter fun x => some x.1 != t.agent
  match t.serve with
  | .rdS => (h.filter fun x => x.2 == 2).map fun x => (x.1, .data)
  | .rdAny => (h.filter fun x => x.2 == 2).map fun x => (x.1, .data)
  | .rdCur => (h.filter fun x => x.2 == 2).map fun x => (x.1, .cur)
  | .drop => []
  | _ => h.map fun x => (x.1, .inv)

/-! ## Grants (R129, R132, R133, R139) -/

/-- Whether the home grants state on a line to a source: a registered, enabled agent that is not down, outside windows,
doorbell pages and the aperture, with the filter on (R129, R150). -/
def State.grantable (s : State) (a : Option Nat) (line : Nat) : Bool :=
  (match a with | some a => s.agentOn a && !s.agentDown a | none => false) && s.fB F.SNOOP_CTL_enable &&
    (s.windowOf (line / 1024)).isNone && (s.pageDome line).isNone && s.area (line * 64) != .aperture

/-- A host's access as the home takes it: its agent, and whether state may be granted, as they stand then (R129). -/
def State.atLock (s : State) (t : Tx) : Tx :=
  match t.origin with
  | .cxl c => let a := s.agentOf c; { t with agent := a, known := s.grantable a t.line }
  | _ => t

/-- Whether an access may be granted state now. -/
def State.mayGrant (s : State) (t : Tx) : Bool := t.wants && t.known && s.grantable t.agent t.line

/-- The state a read is granted. -/
def State.grantSt (s : State) (t : Tx) : Nat :=
  match t.kind with
  | .rdS => 1
  | .rdAny => if (s.holders t.line).any fun x => some x.1 != t.agent then 1 else 2
  | _ => 2

-- Log entry 55: DEDUCED, unsafe.
/-- Grants and answers; the entry exists or a way is free. -/
def State.grant (s : State) (t : Tx) (l : Line) : State :=
  match t.agent with
  | none => s
  | some a =>
    let st := s.grantSt t
    let op : S2MOp := if t.kind = .invE then .cmpE else .memData (if st = 1 then .s else .a)
    (s.setAgent a t.line st).answer t op l

/-- Answers without a grant; a request that asked for state is counted (R129). -/
def State.answerGrantless (s : State) (t : Tx) (l : Line) : State :=
  (if t.wants then s.bump F.SNOOP_EVT_CNT2_grantless else s).answer t (grantlessOp t) l

-- Log entry 54: DEDUCED, safe.
/-- The victim of a filter eviction: pseudo-LRU among unlocked S entries, else among unlocked E/M entries. -/
def State.evictVictim (s : State) (a line : Nat) : Option Nat :=
  let b := filterBase a line
  let tree := (SMap.findD s.home.plru (a * 32768 + filterSet line) 0).toNat
  let ok := fun (st w : Nat) => match (SMap.find s.home.filter (b + w)).bind filterDecode with
    | some (t, x) => x == st && !s.locked (filterLine (filterSet line) t)
    | none => false
  let way := match plruPick tree (ok 1) 4 1 0 with
    | some w => some w
    | none => plruPick tree (ok 2) 4 1 0
  way.bind fun w => ((SMap.find s.home.filter (b + w)).bind filterDecode).map fun x => filterLine (filterSet line) x.1

-- Log entry 54: DEDUCED, safe.
/-- Starts an eviction for an access whose grant finds its set full: the victim's lock is taken and BISnpInv sent. It
waits while every line of the set is locked, or no tracker entry kept for evictions, or no egress entry, is free (R137). -/
def State.startEvict (s : State) (t : Tx) (l : Line) : State :=
  let s := s.putTx { t with stage := .evict, wdata := l }
  match t.agent with
  | none => s
  | some a =>
    match (if 256 ≤ (s.home.snoops.filter fun x => x.evict).length || !s.snpsRoom [a] then none else s.evictVictim a t.line) with
    | some v => (s.bump F.SNOOP_EVT_CNT0_evictions).sendSnoop (some t.id) a v .inv (domeOf t.ctx) true
    | none => s

/-! ## The order of waiters (R13, R138) -/

-- Log entry 53: DEDUCED, unsafe.
/-- A requester's number for the rotating pointer. -/
def originIdx : Origin → Nat
  | .cxl c => c.port * 2 + c.link
  | .mover n _ => 32 + n
  | .spire n _ => 64 + n
  | _ => 96

-- Log entry 53: DEDUCED, unsafe.
/-- The key by which the home takes a line's waiters: on a released line urgency 7 comes first, the oldest first; then by
arrival, those of one home cycle by class and by the rotating pointer. -/
def State.waitKey (s : State) (released : Bool) (t : Tx) : Nat × Nat × Nat × Nat :=
  (if released && s.txUrgency t = 7 then 0 else 1, t.arrive / 2, if t.kind.isWrite then 0 else 1,
    (originIdx t.origin + 128 - s.home.rr % 128) % 128)

def keyLt (a b : Nat × Nat × Nat × Nat) : Bool :=
  decide (a.1 < b.1) || (a.1 == b.1 && (decide (a.2.1 < b.2.1) || (a.2.1 == b.2.1 &&
    (decide (a.2.2.1 < b.2.2.1) || (a.2.2.1 == b.2.2.1 && decide (a.2.2.2 < b.2.2.2))))))

-- Log entry 53: DEDUCED, unsafe.
/-- The accesses that wait for a line's lock, in the order the home takes them. -/
def State.waiters (s : State) (line : Nat) (released : Bool) : List Tx :=
  (s.home.txs.filter fun t => t.line == line && t.stage == .waiting).mergeSort
    fun a b => !keyLt (s.waitKey released b) (s.waitKey released a)

/-! ## Answers to engines -/

def Tx.pri (t : Tx) : Pri := ⟨t.cls, t.demoted, none⟩

/-- The write an access makes. -/
def Tx.wr (t : Tx) : WrReq :=
  ⟨t.ctx, t.line, t.wdata, t.be, t.wpoison, t.pri, t.heat, t.fill, t.maint, t.origin == .desc, t.win⟩

-- Log entry 58: DESIGN CHOICE, safe.
/-- Keeps the outcome of an engine's access until the engine takes it up. -/
def State.addAns (s : State) (t : Tx) (r : RdRes) : State :=
  { s with home := { s.home with answers := s.home.answers ++ [⟨t.origin, t.line, t.kind.isWrite, t.be, r⟩] } }

/-- A migration has read a line of its source cell under the line's lock, or could not: its tracker bit is cleared and the
line goes to the destination; where it cannot be sent now, the line stays to be copied (R122). -/
def State.migRead (s : State) (k line : Nat) (r : RdRes) : State :=
  match SMap.find s.honey.mig k with
  | none => s
  | some m =>
    match r with
    | .no _ => s.migTrack k line true
    | .ok l =>
      let (s, sent) := s.migLine k m line l
      s.migTrack k line (!sent)

-- Log entry 104: PRESUMED, unsafe.
/-- A value a core loads, or the cause of the exception it takes. -/
def State.coreAns (s : State) (k : Nat) (v : Option Nat) (cause : Nat) : State := s.emit (.coreLoad k v cause)

/-- The 32-bit words of a line that an access of `n` bytes from byte `o` touches hold poison. -/
def touchesPoison (l : Line) (o n : Nat) : Bool :=
  (List.range 16).any fun j => l.poison.getLsbD j && decide (o < 4 * j + 4) && decide (4 * j < o + n)

/-- The first byte and the number of bytes that an access's byte enables name. -/
def beSpan (be : BitVec 64) : Nat × Nat :=
  (((List.range 64).find? fun i => be.getLsbD i).getD 0, ((List.range 64).filter fun i => be.getLsbD i).length)

-- Log entry 104: PRESUMED, unsafe.
/-- The outcome of a core's load: a refusal is a load access fault (5), poison a hardware error (19) and a consumption, and
other data is the value (R365). -/
def State.coreGot (s : State) (k : Nat) (t : Tx) (r : RdRes) : State :=
  let (o, n) := beSpan t.be
  match r with
  | .no _ => s.coreAns k none 5
  | .ok l =>
    if touchesPoison l o n then (s.consume 0 t.line).coreAns k none 19
    else s.coreAns k (some (bits l.data.toNat (8 * o) (8 * n))) 0

/-- An access of an engine has its outcome. -/
def State.engDone (s : State) (t : Tx) (r : RdRes) : State :=
  match t.origin with
  | .cxl _ => s
  | .gone _ => s
  | .desc => s
  | .victim => s
  | .device => s
  | .core k => if t.kind.isRead then s.coreGot k t r else s
  | .migration k => if t.kind.isRead then s.migRead k t.line r else s
  | _ => s.addAns t r

/-! ## Completion of reads -/

/-- A delivery to a host of real data that holds poison is a consumption (R90). -/
def State.hostConsume (s : State) (t : Tx) (l : Line) : State :=
  match t.origin with
  | .cxl _ => if l.anyPoison then s.consume t.ctx t.line else s
  | _ => s

/-- Delivers a read's outcome: to a host with the grant its kind gives where one may be made, to an engine as its answer. -/
def State.deliver (s : State) (t : Tx) (r : RdRes) : State :=
  match t.origin, r with
  | .cxl _, .no _ => s.answerGrantless t Line.poisoned
  | .cxl _, .ok l => if s.mayGrant t then (s.hostConsume t l).grant t l else (s.hostConsume t l).answerGrantless t l
  | _, r => s.engDone t r

-- Log entry 53: DEDUCED, unsafe.
/-- One waiting read served with a holder's data (R138). -/
def State.combineOne (s : State) (l : Line) (w : Tx) : State :=
  let s := { s with home := { s.home with txs := s.home.txs.filter fun x => x.id != w.id } }
  let s := if s.area (w.line * 64) == .tenant then s.heatSample w.line w.heat else s
  match s.check w.maint w.ctx w.line w.pri with
  | (s, .pass _) => s.deliver w (.ok l)
  | (s, .no r) => s.deliver w (.no r)

-- Log entry 53: DEDUCED, unsafe.
/-- Whether a waiting read combines: its own request needs no snoop, and its grant no eviction. -/
def State.combines (s : State) (w : Tx) : Bool :=
  let room := match w.agent with | some a => !s.mayGrant w || s.filterRoom a w.line | none => true
  let down := match w.origin, w.agent with | .cxl _, some a => s.agentDown a | _, _ => false
  w.kind.isRead && (s.needSnoops w).isEmpty && room && !down && s.txRoom w

-- Log entry 53: DEDUCED, unsafe.
/-- Serves the waiting reads of a line that combine with a holder's data, in waiter order and at most 15 (R138). -/
def State.combine (s : State) (line : Nat) (l : Line) : State :=
  ((s.waiters line true).foldl (fun (acc : State × Nat) w =>
    let w := acc.1.atLock w
    if acc.2 < 15 && acc.1.combines w then (acc.1.combineOne l w, acc.2 + 1) else acc) (s, 0)).1

/-- Whether a read's grant finds its set of the filter full (R139). -/
def State.readEvicts (s : State) (t : Tx) : Bool :=
  s.mayGrant t && (match t.agent with | some a => !s.filterRoom a t.line | none => false)

/-- A read has its answer: an eviction goes before a grant that needs one; then it is delivered, waiting reads combine with
it and the lock is released. -/
def State.finishRead (s : State) (t : Tx) (r : RdRes) : State :=
  match r with
  | .no _ => (s.deliver t r).dropTx t
  | .ok l => if s.readEvicts t then s.startEvict t l else ((s.deliver t r).combine t.line l).dropTx t

/-! ## Completion of writes -/

-- Log entry 55: DEDUCED, unsafe.
/-- The writer's own entry after a write (R133): I, S or E/M as its MetaValue states; unchanged after a failed check,
except that I gives the line up. -/
def State.writerEntry (s : State) (t : Tx) (ok : Bool) : State :=
  match t.kind, t.agent with
  | .agentWr m, some a =>
    match m with
    | .i => s.setAgent a t.line 0
    | .s => if ok && s.agentOn a && !s.agentDown a && s.filterRoom a t.line then s.setAgent a t.line 1 else s
    | .a => if ok && s.agentOn a && !s.agentDown a && s.filterRoom a t.line then s.setAgent a t.line 2 else s
    | .noOp => s
  | _, _ => s

/-- Whether a write's grant needs an eviction first (R133, R139). -/
def State.writeEvicts (s : State) (t : Tx) : Bool :=
  match t.kind, t.agent with
  | .agentWr m, some a => (m == .s || m == .a) && s.agentOn a && !s.agentDown a && !s.filterRoom a t.line
  | _, _ => false

/-- A write of the device itself keeps the poison list: a line written poisoned is listed, another one taken off (R252). -/
def State.devWrote (s : State) (t : Tx) (r : Option Refuse) : State :=
  if t.origin = .device ∧ r = none then
    (if t.wpoison then s.addPoisonList t.line else { s with poisonList := s.poisonList.filter fun x => x != t.line })
  else s

/-- A write has taken effect, or was refused or discarded: a host's is completed as CXL requires (R16), an engine's has its
outcome. -/
def State.endWrite (s : State) (t : Tx) (r : Option Refuse) : State :=
  match t.origin with
  | .cxl _ =>
    if r.isNone && s.writeEvicts t then s.startEvict t t.wdata
    else ((s.writerEntry t r.isNone).answer t .cmp Line.zero).dropTx t
  | _ => ((s.devWrote t r).engDone t (match r with | some x => .no x | none => t.got.getD (.ok Line.zero))).dropTx t

/-- A copy of a line has been written to a migration's destination: the mirrored write that waited for it completes
(R123). -/
def State.mirrored (s : State) (k line : Nat) : State :=
  match s.home.txs.find? fun t => t.stage == .mirror && t.line == line with
  | some t =>
    match SMap.find s.honey.mig k with
    | some m => if s.migBusy k m line then s else s.endWrite t none
    | none => s.endWrite t none
  | none => s

/-- A write's end; one into a migration's destination lets the mirrored write go. -/
def State.finishWrite (s : State) (t : Tx) (r : Option Refuse) : State :=
  let s := s.endWrite t r
  match t.origin with
  | .migration k =>
    (match SMap.find s.honey.mig k with
      | some m => if t.line / 1024 = m.dstCell then s.mirrored k (m.cell * 1024 + t.line % 1024) else s
      | none => s)
  | _ => s

/-- A line has been stored: a mirrored cell's is written to the destination before the write ends (R123). -/
def State.stored (s : State) (t : Tx) (l : Option Line) : State :=
  match l, s.slotOf (t.line / 1024) with
  | some l, some (k, m) =>
    if m.stage = MigStage.mirror then
      let t := { t with wdata := l, be := fullBe, wpoison := false }
      let (s, sent) := s.migLine k m t.line l
      s.putTx { t with stage := if sent then .mirror else .mirrorWait }
    else s.finishWrite t none
  | _, _ => s.finishWrite t none

-- Log entry 54: DEDUCED, safe.
/-- The grant of an access whose eviction has ended. -/
def State.finishEvict (s : State) (t : Tx) : State :=
  if t.kind.isWrite then s.endWrite t none else
  match t.agent with
  | some a =>
    if s.mayGrant t && s.filterRoom a t.line then
      let s := s.grant t t.wdata
      (if t.kind.isRead then s.combine t.line t.wdata else s).dropTx t
    else if s.mayGrant t then s.startEvict t t.wdata
    else (s.answerGrantless t t.wdata).dropTx t
  | none => s

/-! ## The data step -/

/-- A write-back of the line that the home keeps goes before a read of it (R54). -/
def State.victimKept (s : State) (line : Nat) : Bool := s.home.txs.any fun t => t.origin == .victim && t.line == line

/-- Enters an access's read into the channel's read queue, or keeps it at the home (R54). -/
def State.toChannel (s : State) (t : Tx) (ch loc : Nat) : State :=
  let now := s.pwr.rootTime
  if !s.victimKept t.line && (s.sub ch (bits loc 6 1)).rdRoom (s.urgency ch t.cls t.demoted now) then
    (s.putTx { t with stage := .dram }).rqPut ch ⟨some t.id, loc, t.line, t.cls, t.demoted, t.ctx, now⟩
  else s.putTx { t with stage := .kept }

/-- How a write goes on from its data step. -/
def State.wrote (s : State) (t : Tx) (r : DWrite) : State :=
  match r with
  | .done l => s.stored t l
  | .no r => s.finishWrite t (some r)
  | .noRoom => s.putTx { t with stage := .kept }
  | .dram ch loc => s.toChannel t ch loc

/-- How a read goes on from its data step. -/
def State.readOut (s : State) (t : Tx) (r : DRead) : State :=
  match r with
  | .served l => s.finishRead t (.ok l)
  | .no r => s.finishRead t (.no r)
  | .dram ch loc => s.toChannel t ch loc

/-- An update has its line, `old` where DRAM delivered it: checked as a write is, it holds the lock for the new data (R145,
R218). -/
def State.updLine (s : State) (t : Tx) (p : Pri) (old : Option Line) : State :=
  match s.check t.maint t.ctx t.line p with
  | (s, .no r) => s.finishWrite { t with got := some (.no r) } (some r)
  | (s, .pass _) =>
    match (if (s.pageDome t.line).isSome then (s, DRead.served Line.zero) else s.oldLine t.line p old) with
    | (s, .no r) => s.finishWrite { t with got := some (.no r) } (some r)
    | (s, .dram ch loc) => s.toChannel t ch loc
    | (s, .served l) =>
      let s := if old.isSome && !s.fillWaits t.line t.fill p then s.hFillFor t.line l t.fill p else s
      s.putTx { t with stage := .engine, got := some (.ok l) }

/-- The data step of an access that holds its lock with every snoop answered (R133). -/
def State.dataStep (s : State) (t : Tx) : State :=
  match t.kind with
  | .drop =>
    let s := match t.agent with | some a => s.setAgent a t.line 0 | none => s
    (s.answer t .cmp Line.zero).dropTx t
  | .invE =>
    (match s.verdict t.ctx t.line t.pri with
      | (s, .no _) => (s.answerGrantless t Line.zero).dropTx t
      | (s, .pass _) =>
        if s.readEvicts t then s.startEvict t Line.zero
        else if s.mayGrant t then (s.grant t Line.zero).dropTx t
        else (s.answerGrantless t Line.zero).dropTx t)
  | _ =>
    if t.upd then
      let s := if s.area (t.line * 64) = .tenant then s.heatSample t.line t.heat else s
      (s.countLookup t.line).updLine t t.pri none
    else if t.kind.isWrite then
      let (s, r) := s.dataWrite t.wr
      s.wrote t r
    else
      let (s, r) := s.dataRead t.maint t.ctx t.line t.pri t.heat
      s.readOut t r

-- Log entry 109: DEDUCED, unsafe.
/-- A read's data meets the check and its fill; while the fill's victim must be written back first it waits (R110). -/
def State.readArrive (s : State) (t : Tx) (p : Pri) (l : Line) : State :=
  if s.fillWaits t.line t.fill p then s.putTx { t with stage := .kept, got := some (.ok l) }
  else
    let (s, r) := s.dataArrive t.maint t.ctx t.line p t.fill l
    s.finishRead t r

/-- DRAM data for an access: the read is answered, the write merged and stored, the update given its line. -/
def State.dramArrive (s : State) (t : Tx) (p : Pri) (l : Line) : State :=
  if t.upd then s.updLine t p (some l)
  else if t.kind.isWrite then
    let t := { t with got := some (.ok l) }
    let (s, r) := s.writeStep { t.wr with pri := p } (some l)
    s.wrote t r
  else s.readArrive t p l

/-- The channel of an access refuses it, or lost its data (R72, R74). -/
def State.errorTx (s : State) (tx : Option Nat) : State :=
  match tx.bind s.tx with
  | some t => if t.kind.isWrite then s.finishWrite { t with got := none } (some .failed) else s.finishRead t (.no .failed)
  | none => s

/-- An access the home kept tries again: its channel's queue, or the way its fill waits for (R54, R110). -/
def State.keptStep (s : State) (t : Tx) : State :=
  let l := match t.got with | some (.ok l) => some l | _ => none
  if t.origin = .victim then
    match s.locate (t.line * 64) with
    | none => s.dropTx t
    | some (ch, loc) =>
      if s.chSt ch = .ok ∧ !s.wrFits ch loc t.pri then s
      else (s.dropTx t).chPut t.line t.wdata { t.pri with entry := some t.arrive } t.ctx t.maint
  else if t.upd then s.updLine t t.pri l
  else if t.kind.isWrite then
    let (s, r) := s.writeStep t.wr l
    s.wrote t r
  else match l with
    | some l => s.readArrive t t.pri l
    | none =>
      match s.locate (t.line * 64) with
      | none => s
      | some (ch, loc) =>
        match s.chSt ch with
        | .ok => s.toChannel t ch loc
        | .failed => s.finishRead t (.no .failed)
        | .maint => (s.maintReject ch).finishRead t (.no .maint)

/-- The accesses the home keeps try again, in the order they came. -/
def State.retryKept (s : State) : State :=
  (s.home.txs.filter fun t => t.stage == .kept).foldl (fun s t =>
    match s.tx t.id with | some t => if t.stage = .kept then s.keptStep t else s | none => s) s

/-- Mirrored writes whose copy could not be sent try again. -/
def State.retryMirror (s : State) : State :=
  (s.home.txs.filter fun t => t.stage == .mirrorWait).foldl (fun s t =>
    match s.slotOf (t.line / 1024) with
    | some (k, m) =>
      let (s, sent) := s.migLine k m t.line t.wdata
      s.putTx { t with stage := if sent then .mirror else .mirrorWait }
    | none => s.endWrite t none) s

/-- Mirrored writes of a slot that ends complete with their source copy (R124, R125). -/
def State.endMirror (s : State) (m : MigSlot) : State :=
  (s.home.txs.filter fun t => (t.stage == .mirror || t.stage == .mirrorWait) && t.line / 1024 == m.cell).foldl
    (fun s t => s.endWrite t none) s

/-- Accesses whose eviction has ended, or has found no victim or no tracker entry, try their grant again (R139). -/
def State.retryEvict (s : State) : State :=
  (s.home.txs.filter fun t => t.stage == .evict && !s.home.snoops.any fun n => n.evict && n.tx == some t.id).foldl
    (fun s t => s.finishEvict t) s

/-! ## Snoop answers (R134, R136, R141, R142) -/

/-- After a snoop has its answer the access it belongs to goes on when no other is outstanding. The end of an eviction
releases its victim's lock (R139). -/
def State.snoopGone (s : State) (n : Snoop) : State :=
  let s := { s with home := { s.home with snoops := s.home.snoops.filter fun x =>
    !(x.tx == n.tx && x.agent == n.agent && x.line == n.line && x.evict == n.evict) } }
  let s := if n.locks then s.readyLine n.line else s
  match n.tx.bind s.tx with
  | none => s
  | some t =>
    if n.evict then s.finishEvict t
    else if s.home.snoops.any fun x => x.tx == n.tx && !x.evict then s
    else s.dataStep t

/-- The state an answer claims: 0 I, 1 S, 2 E/M; allowed by the snoop or not. -/
def snoopAllows (k : SnpKind) (st : Nat) : Bool :=
  match k with
  | .inv => st == 0
  | .data => decide (st ≤ 1)
  | .cur => true

/-- A BIRsp for an outstanding snoop of its agent and line. -/
def State.birsp (s : State) (a line st : Nat) : State :=
  match s.home.snoops.find? fun n => n.agent == a && n.line == line with
  | none => s.bump F.SNOOP_EVT_CNT2_late_birsp
  | some n =>
    if snoopAllows n.kind st then (s.setAgent a line st).snoopGone n
    else (s.snoopLost n).snoopGone n

/-- Every snoop awaiting an agent completes by its line's policy (step 2 of R144). -/
def State.downSnoops (s : State) (a : Nat) : State :=
  (s.home.snoops.filter fun n => n.agent == a).foldl (fun s n => (s.snoopPolicy n).snoopGone n) s

/-! ## Taking the lock -/

/-- A damaged filter entry met by an access: the slot goes down, snoops that await it complete, its sweep starts, UE-device
is raised (R143). -/
def State.filterFail (s : State) (a : Nat) : State :=
  if s.agentDown a then s
  else
    let s := (s.fFlag F.SNOOP_STATUS_entry_ue true).raise 2 0 0 none a
    let h := { s.home with down := s.home.down ++ [a], sweeps := s.home.sweeps ++ [(⟨a, none⟩ : DownSweep)] }
    { s with home := h }.downSnoops a

/-- Back-invalidate tracker entries a request may use: all but those kept for filter evictions (R137). -/
def biRoom (s : State) (n : Nat) : Bool :=
  decide ((s.home.snoops.filter fun x => !x.evict).length + n ≤ 1792)

/-- A message whose source went down while it waited: a read is refused with an all-poisoned line, any other message
discarded and counted (R144). -/
def State.downTx (s : State) (t : Tx) : State :=
  if t.kind.isRead then s.answer t (.memData .i) Line.poisoned else s.bump F.SNOOP_EVT_CNT2_odd_meta

/-- Whether the agent behind a host's access is down. -/
def State.txDown (s : State) (t : Tx) : Bool :=
  match t.origin, t.agent with | .cxl _, some a => s.agentDown a | _, _ => false

/-- An access takes its free line's lock: the filter is read, snoops are sent, and without any to wait for the data
step follows. While the back-invalidate tracker, or the egress of a link, lacks room it waits. -/
def State.lockStep (s : State) (t : Tx) : State :=
  let s := ((List.range 32).filter fun a => s.filterBad a t.line).foldl (fun s a => s.filterFail a) s
  let t := s.atLock t
  if s.txDown t then (s.downTx t).dropTx t
  else
    let need := s.needSnoops t
    let t := { t with stage := .snoop }
    if !biRoom s need.length || !s.txRoom t || !s.snpsRoom ((need.map fun x => x.1).filter fun a => !s.agentDown a) then
      s.readyAs t.line true
    else
      let s := need.foldl (fun s x =>
        if s.agentDown x.1 then s.snoopPolicy ⟨some t.id, x.1, t.line, x.2, 0, domeOf t.ctx, false⟩
        else s.sendSnoop (some t.id) x.1 t.line x.2 (domeOf t.ctx) false) (s.putTx t)
      if need.all fun x => s.agentDown x.1 then s.dataStep t else s

/-- A waiting RwD of an agent whose snoop the line's holder awaits: it is applied under the held lock (R135). -/
def State.prompted (s : State) : Option Tx :=
  s.home.txs.find? fun t => t.stage == .waiting && t.kind.isWrite && s.txRoom t && s.home.snoops.any fun n =>
    n.line == t.line && (match (s.atLock t).origin, (s.atLock t).agent with | .cxl _, some a => n.agent == a | _, _ => false)

/-! ## The tracker's room (R137) -/

/-- The entries of the tracker by class: RwD, Req, and Req of urgency 7. -/
def State.trackerUse (s : State) : Nat × Nat × Nat :=
  let w := (s.home.txs.filter fun x => x.kind.isWrite).length
  let u := (s.home.txs.filter fun x => !x.kind.isWrite && x.urgent).length
  (w, s.home.txs.length - w - u, u)

/-- Unreserved entries a class mix takes: RwD beyond 512, and Req beyond the 448 that any Req may take, where urgency 7 uses
64 of its own first. -/
def sharedUse (w r u : Nat) : Nat := (w - 512) + (r + (u - 64) - 448)

/-- Whether the tracker takes an access: an entry reserved for its class, or one of the 3,072 unreserved. -/
def State.trackerRoom (s : State) (t : Tx) : Bool :=
  let (w, r, u) := s.trackerUse
  if t.kind.isWrite then decide (sharedUse (w + 1) r u ≤ 3072)
  else if s.txUrgency { t with arrive := s.pwr.rootTime } = 7 then decide (sharedUse w r (u + 1) ≤ 3072)
  else decide (sharedUse w (r + 1) u ≤ 3072)

/-- Unreserved tracker entries that are free. -/
def State.trackerFree (s : State) : Nat := let (w, r, u) := s.trackerUse; 3072 - sharedUse w r u

-- Log entry 58: DESIGN CHOICE, safe.
/-- Keeps an access that the home cannot take: in its port's ingress, or with the device. -/
def State.keepAtPort (s : State) (t : Tx) (policed : Bool) : State :=
  let id := s.home.nextId
  { s with home := { s.home with nextId := id + 1, held := s.home.held ++ [⟨t, policed, id⟩] } }

/-- Requesters that send an access once and keep nothing of it: the device itself and the control cores. -/
def Origin.selfSent : Origin → Bool
  | .device => true
  | .core _ => true
  | _ => false

/-- Accesses of the device and of the cores that found no tracker entry go in (R137). -/
def State.retryDevice (s : State) : State :=
  (s.home.held.filter fun h => h.tx.origin.selfSent && s.area (h.tx.line * 64) != .aperture).foldl (fun s h =>
    if s.trackerRoom h.tx then
      ({ s with home := { s.home with held := s.home.held.filter fun x => x.seq != h.seq } }).enter h.tx
    else s) s

/-! ## LOCK_GRANT -/

-- Log entry 53: DEDUCED, unsafe.
/-- LOCK_GRANT: a prompted RwD is applied; else the line that has waited longest for arbitration goes to its first waiter
(R13, R138); else evictions, kept accesses, mirrored writes and writes of the device go on. -/
def State.lockGrant (s : State) : State :=
  match s.prompted with
  | some t =>
    let t := { s.atLock t with stage := .snoop }
    (s.putTx t).dataStep t
  | none =>
    match s.home.ready with
    | (line, rel) :: rest =>
      let s := { s with home := { s.home with ready := rest } }
      if s.locked line then s
      else match s.waiters line rel with
        | t :: _ => ({ s with home := { s.home with rr := originIdx t.origin + 1 } }).lockStep t
        | [] => s
    | [] => s.retryEvict.retryKept.retryMirror.retryDevice

/-! ## Engines at the home (R145) -/

/-- The outcome of an engine's access that has not been taken up. -/
def State.engAns (s : State) (o : Origin) (line : Nat) (wr : Bool) (be : BitVec 64) : Option EngAns :=
  s.home.answers.find? fun a => a.origin == o && a.line == line && a.wr == wr && a.be == be

/-- Whether an engine's access is under way. -/
def State.engTx (s : State) (o : Origin) (line : Nat) (wr : Bool) (be : BitVec 64) : Option Tx :=
  s.home.txs.find? fun t => t.origin == o && t.line == line && t.kind.isWrite == wr && t.be == be

-- Log entry 58: DESIGN CHOICE, safe.
/-- An engine's access enters the home, where the tracker has room; an engine that finds none asks again. -/
def State.engEnter (s : State) (t : Tx) : State :=
  if (s.engTx t.origin t.line t.kind.isWrite t.be).isSome || !s.trackerRoom t then s else s.enter t

-- Log entry 58: DESIGN CHOICE, safe.
/-- An engine's access through the home: its outcome, or none while it waits. -/
def State.engAccess (s : State) (t : Tx) : State × Option RdRes :=
  match s.engAns t.origin t.line t.kind.isWrite t.be with
  | some a => (s, some a.res)
  | none => (s.engEnter t, none)

/-- One engine read through the home; none while it waits. -/
def State.engRead (s : State) (o : Origin) (ctx : Ctx) (line cls gen : Nat) (heat : HeatKind) (fill : Option Nat) :
    State × Option RdRes :=
  s.engAccess { newTx .rdCur o ctx line cls with gen := gen, heat := heat, fill := fill }

/-- A write of an engine as the home takes it. -/
structure EngWr where
  ctx : Ctx
  line : Nat
  data : Line
  be : BitVec 64
  cls : Nat
  wk : WrKind
  heat : HeatKind
  fill : Option Nat
  deriving DecidableEq, Repr

def EngWr.tx (w : EngWr) (o : Origin) (gen : Nat) : Tx :=
  { newTx .plainWr o w.ctx w.line w.cls with
    gen := gen, wdata := w.data, be := w.be, wk := w.wk, heat := w.heat, fill := w.fill }

/-- One engine write through the home; none while it waits. -/
def State.engWrite (s : State) (o : Origin) (gen : Nat) (w : EngWr) : State × Option (Option Refuse) :=
  match s.engAccess (w.tx o gen) with
  | (s, some (.no r)) => (s, some (some r))
  | (s, some (.ok _)) => (s, some none)
  | (s, none) => (s, none)

/-- How an update stands: its old line held under the lock, complete with the line it read, or waiting. -/
inductive Upd | held (old : Line) | done (r : RdRes) | wait
  deriving DecidableEq, Repr

/-- An engine's update: the line is read under its lock and held for the new data (R12, R218). -/
def State.engUpdate (s : State) (o : Origin) (ctx : Ctx) (line cls gen : Nat) (heat : HeatKind) (fill : Option Nat) : State × Upd :=
  match s.engAns o line true fullBe with
  | some a => (s, .done a.res)
  | none =>
    match s.engTx o line true fullBe with
    | some t =>
      match t.stage, t.got with
      | .engine, some (.ok l) => (s, .held l)
      | _, _ => (s, .wait)
    | none =>
      (s.engEnter { newTx .plainWr o ctx line cls with gen := gen, heat := heat, fill := fill, upd := true }, .wait)

/-- The new data of an update is written and its lock released; while no room is found the home keeps it. The outcome is
what the update read. -/
def State.engFinish (s : State) (o : Origin) (line : Nat) (l : Line) : State :=
  match s.engTx o line true fullBe with
  | some t =>
    let t := { t with upd := false, wdata := l }
    let (s, r) := s.writeStep t.wr none
    (s.putTx t).wrote t r
  | none => s

/-- An update that turns out to have nothing to write ends. -/
def State.engCancel (s : State) (o : Origin) (line : Nat) : State :=
  match s.engTx o line true fullBe with
  | some t => (s.engDone t (t.got.getD (.ok Line.zero))).dropTx t
  | none => s

/-- The outcomes kept for a requester are cleared: its unit of work has ended. -/
def State.dropAns (s : State) (o : Origin) : State :=
  { s with home := { s.home with answers := s.home.answers.filter fun a => a.origin != o } }

/-- An access of a data mover or a Spire is a beat (R186). -/
def Origin.isBeat : Origin → Bool
  | .mover _ _ => true
  | .spire _ _ => true
  | .gone b => b
  | _ => false

-- Log entry 58: DESIGN CHOICE, safe.
/-- What a requester had under way is given up: an update that holds its line ends without a write, an update that has not
read its line never does, and other accesses complete for nobody. -/
def State.dropOrigin (s : State) (o : Origin) : State :=
  (((s.home.txs.filter fun t => t.origin == o).foldl (fun s t =>
    if t.upd then s.dropTx t else s.putTx { t with origin := .gone o.isBeat }) s)).dropAns o

/-- The outcome of an engine's access is taken up. -/
def State.takeAns (s : State) (o : Origin) (line : Nat) (wr : Bool) (be : BitVec 64) : State :=
  { s with home := { s.home with answers := s.home.answers.eraseP fun a =>
      a.origin == o && a.line == line && a.wr == wr && a.be == be } }

/-- One engine access whose outcome is taken up at once, so that the same access may be made again. -/
def State.engTake (s : State) (t : Tx) : State × Option RdRes :=
  match s.engAccess t with
  | (s, some r) => (s.takeAns t.origin t.line t.kind.isWrite t.be, some r)
  | (s, none) => (s, none)

/-- An access of the device enters the home, or waits for room in its tracker. -/
def State.deviceTx (s : State) (t : Tx) : State := if s.trackerRoom t then s.enter t else s.keepAtPort t false

/-- A write the device makes on its own account, through the home under the line's lock, filled for Dome 0 (R108). -/
def State.deviceWrite (s : State) (line : Nat) (l : Line) (cls : Nat) (poison : Bool) : State :=
  s.deviceTx { newTx .plainWr .device 0 line cls with wdata := l, wpoison := poison, fill := some 0, maint := true }

end Sys2Proof.Machine
end

