-- ==== Sys2Proof/Machine/Comb.lean ====
section
/-!
DEFINITION. Comb translation (chapter 8): the walk of R175, the ATCs and the shared cache (R177), pending misses and
prefetch (R178, R179), fills (R181 - R184), invalidation (R185, R186).
-/
namespace Sys2Proof.Machine

/-! ## Status codes (R167) -/

def stOK : Nat := 0
def stPartial : Nat := 1
def stWithdrawn : Nat := 2
def stTrans : Nat := 3
def stDenied : Nat := 4
def stPoison : Nat := 5
def stLength : Nat := 6
def stBusy : Nat := 7
def stStale : Nat := 8
def stTeardown : Nat := 9
def stKey : Nat := 10
def stOpcode : Nat := 11
def stFormat : Nat := 12
def stRemote : Nat := 13
def stTimeout : Nat := 14
def stFault : Nat := 15

/-- The status of a command whose access the home or a channel refused. -/
def Refuse.status : Refuse → Nat
  | .unbacked => stTrans
  | .denied => stDenied
  | .corrupt => stDenied
  | .retired => stKey
  | .maint => stBusy
  | .failed => stFault

/-! ## The walk of firmware (R173 - R175) -/

inductive Walk | leaf (dpa shift : Nat) (r w : Bool) | notMapped | bad | poison | wait
  deriving DecidableEq, Repr

inductive Rd8 | refused | poison | wait | val (e : Nat)
  deriving DecidableEq, Repr

/-- The 8 bytes a table read delivers from its line. -/
def rd8 (dpa : Nat) (l : Line) : Rd8 :=
  if (l.poison.extractLsb' (dpa % 64 / 4) 2) != 0 then .poison else .val (l.slot8 (dpa % 64 / 8)).toNat

/-- One 8-byte table read of requester `o` through the home, as RdCur under CTX 0 (R145, R175). -/
def State.read8 (o : Origin) (s : State) (dpa : Nat) : State × Rd8 :=
  match s.engRead o 0 (dpa / 64) 33 0 .none (some 0) with
  | (s, none) => (s, .wait)
  | (s, some (.no _)) => (s, .refused)
  | (s, some (.ok l)) => (if rd8 dpa l = .poison then s.consume 0 (dpa / 64) else s, rd8 dpa l)

/-- A line as it stands: its cached copy, a write on its way, zeros where its valid bit is 0, else DRAM. -/
def State.peekLine (s : State) (line : Nat) : Line :=
  match s.honey.lookup line with
  | some (_, x) => x.data
  | none =>
    if s.area (line * 64) == .tenant && s.fB F.GLOBAL_VMAP_STATUS_on && s.validBit line == some false then Line.zero
    else match s.locate (line * 64) with
      | some (ch, loc) => (s.pendingLine ch loc line).getD (s.decodeFor line (s.storedGet ch loc))
      | none => Line.poisoned

/-- Eight table bytes as they stand. -/
def State.peek8 (s : State) (dpa : Nat) : State × Rd8 := (s, rd8 dpa (s.peekLine (dpa / 64)))

/-- Whether a table page lies in a cell allocated to Dome 0. -/
def State.dome0Cell (s : State) (dpa : Nat) : Bool :=
  match s.cellEntry (dpa / 65536) with
  | some e => ceAllocated e && !ceGroup e && ceOwner e == 0 && !ceCorrupt e
  | none => false

-- Log entry 69: DEDUCED, unsafe.
/-- The levels of a walk below table `t`, each table read by `rd`. -/
def State.walkFrom (rd : State → Nat → State × Rd8) (s : State) (pva : Nat) : List Nat → Nat → State × Walk
  | [], _ => (s, .bad)
  | sh :: rest, t =>
    if !s.dome0Cell t then (s, .bad)
    else match rd s (t + 8 * (pva / 2 ^ sh % 512)) with
      | (s, .refused) => (s, .bad)
      | (s, .poison) => (s, .poison)
      | (s, .wait) => (s, .wait)
      | (s, .val e) =>
        let leaf := bit e 1
        let addr := bits e 12 33 * 4096
        if !bit e 0 then (s, .notMapped)
        else if bits e 4 8 ≠ 0 ∨ bits e 45 11 ≠ 0 ∨ (!leaf ∧ bits e 2 2 ≠ 0) then (s, .bad)
        else if leaf && sh == 43 then (s, .bad)
        else if !leaf && sh == 16 then (s, .bad)
        else if leaf && addr % 2 ^ sh != 0 then (s, .bad)
        else if leaf then (s, .leaf addr sh (bit e 2) (bit e 3))
        else s.walkFrom rd pva rest addr

def State.rootDir (s : State) : Nat :=
  s.fN F.COMB_ROOTDIR_HI_base_hi * 2 ^ 32 + s.fN F.COMB_ROOTDIR_LO_base_lo * 2 ^ 19

/-- A walk, its tables read by `rd`. -/
def State.walkBy (rd : State → Nat → State × Rd8) (s : State) (ctx : Ctx) (pva : Nat) : State × Walk :=
  match rd s (s.rootDir + 8 * ctx.toNat) with
  | (s, .refused) => (s, .bad)
  | (s, .poison) => (s, .poison)
  | (s, .wait) => (s, .wait)
  | (s, .val d) =>
    if !bit d 0 then (s, .notMapped)
    else if bits d 1 11 ≠ 0 ∨ bits d 45 19 ≠ 0 then (s, .bad)
    else s.walkFrom rd pva [43, 34, 25, 16] (bits d 12 33 * 4096)

-- Log entry 69: DEDUCED, unsafe.
/-- A walk as firmware makes it for requester `o`, through the home. -/
def State.walk (s : State) (o : Origin) (ctx : Ctx) (pva : Nat) : State × Walk := s.walkBy (State.read8 o) ctx pva

/-- What the tables map a PVA to as they stand. -/
def State.walkPeek (s : State) (ctx : Ctx) (pva : Nat) : Walk := (s.walkBy State.peek8 ctx pva).2

/-! ## The caches (R177) -/

/-- The engine number of R181. -/
def moverEng (n : Nat) : Nat := n
def spireEng (n : Nat) : Nat := 32 + n

/-- Whether a leaf maps a page of an address space. -/
def Leaf.maps (l : Leaf) (ctx : Ctx) (page : Nat) : Bool :=
  l.ctx == ctx && l.page / 2 ^ (l.shift - 16) == page / 2 ^ (l.shift - 16)

def State.atcFind (s : State) (eng : Nat) (ctx : Ctx) (page : Nat) : Option (Nat × Leaf) :=
  s.comb.atc.find? fun e => e.1 / 512 == eng && e.2.maps ctx page

def State.atcTouch (s : State) (key : Nat) : State :=
  let t := (SMap.findD s.comb.atcPlru (key / 512) 0).toNat
  { s with comb := { s.comb with
      atcPlru := SMap.put s.comb.atcPlru (key / 512) (BitVec.ofNat 511 (plruTouch 9 1 (key % 512) t)) } }

/-- Fills an engine's ATC: the lowest free entry, else the pseudo-LRU victim. -/
def State.atcFill (s : State) (eng : Nat) (l : Leaf) : State :=
  let used := (s.comb.atc.filter fun e => e.1 / 512 == eng).map fun e => (e.1 % 512, e.2)
  let t := (SMap.findD s.comb.atcPlru eng 0).toNat
  let i := match SMap.firstFree used 512 with
    | some i => i
    | none => (plruPick t (fun _ => true) 9 1 0).getD 0
  let s := { s with comb := { s.comb with atc := SMap.put s.comb.atc (eng * 512 + i) l } }
  s.atcTouch (eng * 512 + i)

/-- The set a leaf of shift `sh` lies in. -/
def stcSet (ctx : Ctx) (page sh : Nat) : Nat :=
  (page / 2 ^ (sh - 16) % 4096) ^^^ domeOf ctx ^^^ (ctx.toNat % 16 * 256)

def State.stcFind (s : State) (ctx : Ctx) (page : Nat) : Option (Nat × Leaf) :=
  ([16, 25, 34] : List Nat).findSome? fun sh =>
    (List.range 16).findSome? fun w =>
      match SMap.find s.comb.stc (stcSet ctx page sh * 16 + w) with
      | some l => if l.shift = sh && l.maps ctx page then some (stcSet ctx page sh * 16 + w, l) else none
      | none => none

def State.stcTouch (s : State) (key : Nat) : State :=
  let t := (SMap.findD s.comb.stcPlru (key / 16) 0).toNat
  { s with comb := { s.comb with
      stcPlru := SMap.put s.comb.stcPlru (key / 16) (BitVec.ofNat 15 (plruTouch 4 1 (key % 16) t)) } }

def State.stcFill (s : State) (l : Leaf) : State :=
  let set := stcSet l.ctx l.page l.shift
  let t := (SMap.findD s.comb.stcPlru set 0).toNat
  let w := match (List.range 16).find? fun w => (SMap.find s.comb.stc (set * 16 + w)).isNone with
    | some w => w
    | none => (plruPick t (fun _ => true) 4 1 0).getD 0
  let s := { s with comb := { s.comb with stc := SMap.put s.comb.stc (set * 16 + w) l } }
  s.stcTouch (set * 16 + w)

/-! ## Pending misses (R178, R179) -/

/-- Posts a miss record, or joins the pending one; `c` is the waiting command. False: 1,024 misses are pending. -/
def State.postMiss (s : State) (ctx : Ctx) (page eng : Nat) (wr : Bool) (c : Option Nat) : State × Bool :=
  match s.comb.miss.find? fun e => e.2.ctx == ctx && e.2.page == page with
  | some (k, m) =>
    let ws := match c with
      | some c => if m.waiters.contains c then m.waiters else m.waiters ++ [c]
      | none => m.waiters
    ({ s with comb := { s.comb with miss := SMap.put s.comb.miss k { m with waiters := ws } } }, true)
  | none =>
    match SMap.firstFree s.comb.miss 1024 with
    | none => (s, false)
    | some k =>
      let m : Miss := ⟨ctx, page, wr, c.isNone, eng, s.fN F.COMB_GEN_gen, s.pwr.refTime, false, false, c.toList, s.comb.order⟩
      let s := { s with comb := { s.comb with miss := SMap.put s.comb.miss k m, order := s.comb.order + 1 } }
      (s.bump F.COMB_MISS_CNT_records, true)

-- Log entry 70: DEDUCED, unsafe.
/-- The prefetch of R179: an ascending stream of command `c` that has touched a leaf's lower half reaches its upper half. -/
def State.prefetch (s : State) (c eng : Nat) (l : Leaf) (pva : Nat) : State :=
  let size := 2 ^ l.shift
  let seen := SMap.findD s.comb.lower c []
  if pva % size < size / 2 then
    if seen.contains l.page then s else { s with comb := { s.comb with lower := SMap.put s.comb.lower c (l.page :: seen) } }
  else if !seen.contains l.page then s
  else
    let s := { s with comb := { s.comb with lower := SMap.put s.comb.lower c (seen.filter fun p => p != l.page) } }
    let next := (pva / size + 1) * size / 65536
    if !s.fB F.COMB_CTL_prefetch || next ≥ 2 ^ 36 || (s.atcFind eng l.ctx next).isSome then s
    else match s.stcFind l.ctx next with
      | some (k, x) => (s.stcTouch k).atcFill eng x
      | none => if s.comb.miss.length < 768 then (s.postMiss l.ctx next eng false none).1 else s

/-- An access stalls for want of a pending miss; it is counted once (R178). -/
def State.stall (s : State) (c page : Nat) : State :=
  if SMap.find s.comb.stalled c = some page then s
  else { s.bump F.COMB_STALL_CNT_stalls with comb := { s.comb with stalled := SMap.put s.comb.stalled c page } }

/-- What the translation unit keeps for a command goes with it. -/
def State.combForget (s : State) (c : Nat) : State :=
  { s with comb := { s.comb with outcomes := SMap.del s.comb.outcomes c, stalled := SMap.del s.comb.stalled c,
                                 lower := SMap.del s.comb.lower c } }

/-! ## Translation of an engine's access (R177, R180) -/

inductive Xl | dpa (d : Nat) | wait | fail (st : Nat)
  deriving DecidableEq, Repr

/-- The status that a miss outcome gives a command (R182, R184, R186). Outcome 8 is the timeout. -/
def missStatus (cm : Cmd) (outcome page : Nat) : Nat :=
  if outcome = 3 then stPoison
  else if outcome = 8 then stTimeout
  else if cm.invals.any fun r => decide (r.2.1 ≤ page ∧ page < r.2.1 + r.2.2) then stWithdrawn
  else stTrans

/-- Translates one access of a command. `stream` marks an operand read or written in ascending order. -/
def State.xlate (s : State) (c : Nat) (cm : Cmd) (ctx : Ctx) (eng pva : Nat) (rd wr stream : Bool) : State × Xl :=
  let page := pva / 65536
  let use := fun (s : State) (l : Leaf) =>
    if (rd && !l.r) || (wr && !l.w) then (s, Xl.fail stDenied)
    else
      let s := if stream then s.prefetch c eng l pva else s
      (s, Xl.dpa (l.dpa + pva % 2 ^ l.shift))
  if !s.fB F.COMB_CTL_enable then (s, .fail stTrans)
  else match (SMap.findD s.comb.outcomes c []).find? fun o => o.2.1 == page with
    | some o => (s, .fail (missStatus cm o.1 page))
    | none =>
      match s.atcFind eng ctx page with
      | some (k, l) => use (s.atcTouch k) l
      | none =>
        match s.stcFind ctx page with
        | some (k, l) => use ((s.stcTouch k).atcFill eng l) l
        | none =>
          match s.postMiss ctx page eng wr (some c) with
          | (s, true) => ({ s with comb := { s.comb with stalled := SMap.del s.comb.stalled c } }, .wait)
          | (s, false) => (s.stall c page, .wait)

/-! ## Miss service (R181 - R184) -/

/-- The oldest record not yet taken. -/
def State.nextMiss (s : State) : Option (Nat × Miss) :=
  (s.comb.miss.filter fun e => !e.2.taken).foldl (fun (acc : Option (Nat × Miss)) e =>
    match acc with
    | none => some e
    | some b => if e.2.order < b.2.order then some e else some b) none

/-- A read of COMB_FWn_REC0: takes the oldest record into core n's window. Gives the value read. -/
def State.recTake (s : State) (n : Nat) : State × Word :=
  match s.nextMiss with
  | none => (s, 0)
  | some (k, m) =>
    let s := { s with comb := { s.comb with miss := SMap.put s.comb.miss k { m with taken := true } } }
    let s := s.wr R.COMB_FW_REC1 (BitVec.ofNat 32 (m.page % 2 ^ 32)) 0 n
    let s := s.wr R.COMB_FW_REC2 (BitVec.ofNat 32 (m.page / 2 ^ 32 % 16 + m.engine * 16 + m.gen * 65536)) 0 n
    let s := s.wr R.COMB_FW_REC3 (BitVec.ofNat 32 (m.posted / 3)) 0 n
    (s, BitVec.ofNat 32 (2 ^ 31 + (if m.write then 2 ^ 30 else 0) + (if m.prefetch then 2 ^ 29 else 0) + k * 65536 +
      m.ctx.toNat))

/-- Ends a record with an outcome for every command that waits on it. -/
def State.missEnd (s : State) (k : Nat) (m : Miss) (outcome : Nat) : State :=
  let add := fun (o : SMap (List (Nat × Nat × Nat))) c => SMap.put o c (SMap.findD o c [] ++ [(outcome, m.page, m.ctx.toNat)])
  { s with comb := { s.comb with miss := SMap.del s.comb.miss k, outcomes := m.waiters.foldl add s.comb.outcomes } }

/-- A stale record's fill: it is posted again ahead of every record not yet taken (R183). -/
def State.missAgain (s : State) (k : Nat) (m : Miss) : State :=
  let first := s.comb.miss.foldl (fun (a : Int) e => min a e.2.order) s.comb.order - 1
  let m := { m with stale := false, taken := false, gen := s.fN F.COMB_GEN_gen, posted := s.pwr.refTime, order := first }
  let s := { s with comb := { s.comb with miss := SMap.put s.comb.miss k m } }
  (s.bump F.COMB_MISS_CNT_records).bump F.COMB_EVT_CNT_stale_fills

/-- The engine a command runs on. -/
def Engine.num : Engine → Nat
  | .mover n => n
  | .spireQ n => spireEng n
  | .spireSlot n _ => spireEng n
  | _ => 63

/-- A write of COMB_FWn_FILL2. -/
def State.fill2Write (s : State) (n : Nat) (v : Word) : State :=
  let s := s.wrCodes R.COMB_FW_FILL2 v 0 n
  if !F.COMB_FW_FILL2_commit.on v then s
  else
    let out := s.fN F.COMB_FW_FILL0_outcome 0 n
    let k := s.fN F.COMB_FW_FILL0_miss_id 0 n
    let size := s.fN F.COMB_FW_FILL1_size 0 n
    let dpa := s.fN F.COMB_FW_FILL1_dpa 0 n
    let badLeaf := out == 0 && (size == 3 || dpa % 2 ^ (9 * size) != 0)
    match SMap.find s.comb.miss k with
    | none => s.bump F.COMB_EVT_CNT_stale_fills
    | some m =>
      if 4 ≤ out || badLeaf then s.bump F.COMB_EVT_CNT_stale_fills
      else if m.stale then s.missAgain k m
      else if out = 0 then
        let sh := 16 + 9 * size
        let l : Leaf := ⟨m.ctx, m.page / 2 ^ (sh - 16) * 2 ^ (sh - 16), sh, dpa * 65536, s.fB F.COMB_FW_FILL2_r 0 n,
          s.fB F.COMB_FW_FILL2_w 0 n⟩
        let engs := (m.waiters.filterMap fun c => (SMap.find s.q.cmds c).map fun x => x.eng.num) ++
          (if m.prefetch then [m.engine] else [])
        let s := { s with comb := { s.comb with miss := SMap.del s.comb.miss k } }
        engs.eraseDups.foldl (fun s e => if (s.atcFind e m.ctx m.page).isSome then s else s.atcFill e l) (s.stcFill l)
      else if m.prefetch && m.waiters.isEmpty then { s with comb := { s.comb with miss := SMap.del s.comb.miss k } }
      else
        let s := if out = 2 then s.raise 9 m.ctx (domeOf m.ctx) (some m.page)
          else if out = 3 then s.raise 3 m.ctx (domeOf m.ctx) none else s
        s.missEnd k m out

-- Log entry 70: DEDUCED, unsafe.
/-- A record pending for miss_timeout microseconds ends (R184). A prefetch that nothing waits on reports nothing. -/
def State.missTimeout (s : State) (k : Nat) : State :=
  match SMap.find s.comb.miss k with
  | none => s
  | some m =>
    if s.fN F.COMB_CTL_miss_timeout = 0 then s
    else if m.prefetch && m.waiters.isEmpty then { s with comb := { s.comb with miss := SMap.del s.comb.miss k } }
    else
      let s := s.bump F.COMB_EVT_CNT_timeouts
      (s.raise 10 m.ctx (domeOf m.ctx) (some m.page)).missEnd k m 8

/-! ## Invalidation (R185, R186) -/

/-- Whether an invalidation covers a context. -/
def Inval.covers (v : Inval) (ctx : Ctx) : Bool :=
  if v.scope = 2 then domeOf ctx == domeOf v.ctx else ctx == v.ctx

/-- Whether an invalidation covers a leaf. -/
def Inval.hits (v : Inval) (l : Leaf) : Bool :=
  v.covers l.ctx && (v.scope != 0 || (decide (l.page < v.start + v.pages) && decide (v.start < l.page + 2 ^ (l.shift - 16))))

/-- The unit takes an invalidation: COMB_GEN rises, the shared cache and every ATC lose the matching leaves, pending
misses it covers become stale, running commands note the range. -/
def State.startInval (s : State) (scope : Nat) (ctx : Ctx) (start pages : Nat) (cmd : Option Nat) : State :=
  let gen := (s.fN F.COMB_GEN_gen + 1) % 65536
  let v : Inval := ⟨scope, ctx, start, pages, gen, cmd⟩
  let s := (s.fSet F.COMB_GEN_gen gen).fFlag F.COMB_INV_CMD_busy true
  let keep := fun (m : SMap Leaf) => m.filter fun e => !v.hits e.2
  let miss := s.comb.miss.map fun e => (e.1, if v.covers e.2.ctx then { e.2 with stale := true } else e.2)
  let range := if scope = 0 then (start, pages) else (0, 2 ^ 36)
  let cmds := s.q.cmds.map fun e =>
    let cctx : Ctx := BitVec.ofNat 16 (e.2.dome * 16 + bits e.2.pkt.toNat 16 4)
    (e.1, if v.covers cctx && (e.2.st == .running || e.2.st == .blocked) then
        { e.2 with invals := e.2.invals ++ [(cctx.toNat, range)] }
      else e.2)
  { s with comb := { s.comb with atc := keep s.comb.atc, stc := keep s.comb.stc, miss := miss, inval := some v },
           q := { s.q with cmds := cmds } }

/-- A write of COMB_INV_CMD (R185). -/
def State.invCmdWrite (s : State) (v : Word) : State :=
  let s := s.wrCodes R.COMB_INV_CMD v
  if !F.COMB_INV_CMD_go.on v then s
  else
    let scope := s.fN F.COMB_INV_CTX_scope
    let start := s.fN F.COMB_INV_START_HI_vpn_hi * 2 ^ 32 + s.fN F.COMB_INV_START_LO_vpn_lo
    let pages := s.fN F.COMB_INV_PAGES_HI_pages_hi * 2 ^ 32 + s.fN F.COMB_INV_PAGES_LO_pages_lo
    if s.comb.inval.isSome || scope = 3 || (scope = 0 && decide (2 ^ 36 < start + pages)) then
      s.fFlag F.COMB_INV_CMD_refused true
    else if scope = 0 ∧ pages = 0 then s
    else s.startInval scope (BitVec.ofNat 16 (s.fN F.COMB_INV_CTX_ctx)) start pages none

/-- Whether an engine's beat of an older epoch is outstanding: an access that holds or awaits a line lock, or a window
request without its answer. -/
def State.oldBeats (s : State) (gen : Nat) : Bool :=
  s.home.txs.any (fun t => t.origin.isBeat && t.gen != gen) ||
    s.fab.owin.any fun r => r.tx.origin.isBeat && r.tx.gen != gen && r.ans.isNone

/-- A write of COMB_CTL (R176): enable is set only while the root directory lies in 8 allocated Dome-0 cells. -/
def State.combCtlWrite (s : State) (v : Word) : State :=
  let was := s.fB F.COMB_CTL_enable
  let s := s.wrCodes R.COMB_CTL v
  if was || !F.COMB_CTL_enable.on v then s
  else if (List.range 8).all fun k => s.dome0Cell (s.rootDir + k * 65536) then s
  else (s.fFlag F.COMB_CTL_enable false).fFlag F.COMB_STATUS_refused true

/-! ## Commands of the block -/

/-- COMB_ENABLE: a write of COMB_CTL. -/
def execCombEnable (v : Word) (s : State) : Result := run s fun s => s.combCtlWrite (v ||| 1)

/-- COMB_RECORD_TAKE: a read of COMB_FWn_REC0. -/
def execCombRecordTake (n : Fin 8) (s : State) : Result :=
  run s fun s => let (s, v) := s.recTake n; s.emit (.csr (R.COMB_FW_REC0.addr 0 n) v)

/-- COMB_FILL_COMMIT: a write of COMB_FWn_FILL2 with commit = 1. -/
def execCombFillCommit (n : Fin 8) (v : Word) (s : State) : Result := run s fun s => s.fill2Write n (v ||| 0x80000000)

/-- COMB_MISS_TIMEOUT: a record's time has run out. -/
def execCombMissTimeout (k : Fin 1024) (s : State) : Result := run s fun s => s.missTimeout k

/-- COMB_INV_GO: a write of COMB_INV_CMD with go = 1. -/
def execCombInvGo (v : Word) (s : State) : Result := run s fun s => s.invCmdWrite (v ||| 1)

end Sys2Proof.Machine
end

