-- ==== Sys2Proof/Machine/Ring.lean ====
section
/-!
DEFINITION. Packets of the Rythar fabric (R277, R278), message numbers (R279), and outbound windows as hosts and engines
use them (R283, R284).
-/
namespace Sys2Proof.Machine

/-! ## Packets -/

def kHRd : Nat := 0
def kHWr : Nat := 1
def kWRd : Nat := 2
def kWWr : Nat := 3
def kRdData : Nat := 4
def kWrAck : Nat := 5
def kErr : Nat := 6
def kPing : Nat := 7
def kPong : Nat := 8
def kQueen : Nat := 9

/-- The virtual channel of a packet kind: 0 REQ, 1 RSP, 2 BULK, 3 MGT (R278). -/
def vcOf (kind : Nat) : Nat :=
  if kind = 1 then 2 else if kind = 4 ∨ kind = 5 ∨ kind = 6 then 1 else if kind = 7 ∨ kind = 8 ∨ kind = 9 then 3 else 0

/-- A packet without data. -/
def Pkt.bare (dst src kind : Nat) (ctx : Ctx) (msg offset length : Nat) (target : BitVec 32) (status : Nat) : Pkt :=
  ⟨dst, src, kind, 0, ctx, msg, offset, length, target, status, 0, 0, 0⟩

/-- The service class of a packet this node originates (R293). `forWin` says that RD_DATA answers a W_RD. -/
def pktClass (kind : Nat) (forWin : Bool) : Nat :=
  if kind = 2 then 0 else if kind = 3 ∨ kind = 5 ∨ kind = 6 then 1 else if kind = 4 then (if forWin then 0 else 4)
  else if kind = 7 ∨ kind = 8 ∨ kind = 9 then 6 else 4

/-- A packet this node originates waits to be forwarded, or to be served where it is addressed to this node. -/
def State.originate (s : State) (p : Pkt) (cls : Nat) : State :=
  if p.dst = s.pwr.node then
    { s with fab := { s.fab with here := s.fab.here ++ [⟨vcOf p.kind, p, .passed, none, 0, 0⟩] } }
  else
  { s with fab := { s.fab with fwd := s.fab.fwd ++ [⟨p, none, false, cls, s.pwr.refTime⟩] } }

/-- The node a message's requester is at: src of a data kind, dst of an answer (R280). -/
def Pkt.requester (p : Pkt) : Nat := if p.kind = 4 ∨ p.kind = 5 ∨ p.kind = 6 then p.dst else p.src

/-- Answers a packet's requester with an ERR (R276, R280, R282). `demoted` puts it in class 7 (R302). -/
def State.sendErr (s : State) (p : Pkt) (status : Nat) (demoted : Bool := false) : State :=
  s.originate (Pkt.bare p.requester s.pwr.node kErr p.ctx p.msg p.offset p.length 0 status) (if demoted then 7 else 1)

/-- A packet is discarded under step 3 of R316, and counted. -/
def State.tdDiscard (s : State) (d : Nat) : State :=
  let s := s.bump F.SEC_TD_CNT_discarded
  match SMap.find s.sec.teardowns d with
  | some t => { s with sec := { s.sec with teardowns := SMap.put s.sec.teardowns d { t with discarded := t.discarded + 1 } } }
  | none => s

/-! ## Message numbers (R279) -/

/-- A message ends: its number stays out of the pool for 2 × msg_timeout. -/
def State.endMsg (s : State) (n : Nat) : State :=
  { s with fab := { s.fab with msgs := SMap.del s.fab.msgs n, retired := SMap.put s.fab.retired n s.pwr.refTime } }

/-! ## Outbound windows (R283, R284) -/

def State.domeMode (s : State) (d : Nat) : Word := SMap.findD s.fab.modes d 3

/-- The enabled outbound window that holds an aperture cell. -/
def State.owinOf (s : State) (cell : Nat) : Option Nat :=
  (List.range 64).find? fun w =>
    s.fB F.RYP_OWIN_CTL_enable 0 w &&
    (let b := s.fN F.RYP_OWIN_BASE_base_cell 0 w
     decide (b ≤ cell ∧ cell < b + s.fN F.RYP_OWIN_SIZE_cells 0 w))

/-- The window an access uses: an aperture line of an enabled window, from a Dome with window mode. -/
def State.owinFor (s : State) (ctx : Ctx) (line : Nat) : Option Nat :=
  if s.area (line * 64) = .aperture && bit (s.domeMode (domeOf ctx)).toNat 1 && (domeOf ctx == 0 || s.tenantReady) then
    s.owinOf (line / 1024)
  else none

/-- The poison field of a line: block b is marked where it holds poison and a written byte. -/
def linePoison (l : Line) (be : BitVec 64) : BitVec 256 :=
  (List.range 4).foldl (fun (a : BitVec 256) b =>
    if l.blockPoison b && (be.extractLsb' (16 * b) 16) != 0 then a ||| (1#256 <<< b) else a) 0

/-- The class of a window's packet: that of its kind, or of the results of a Spire (R293). -/
def Origin.winCls (o : Origin) (kind : Nat) : Nat := match o with | .spire _ _ => 3 | _ => pktClass kind true

/-- Sends a line access to its window's node; none while no message number is free. -/
def State.owinSend (s : State) (t : Tx) (w : Nat) : Option State :=
  s.freeMsg.map fun n =>
    let node := s.fN F.RYP_OWIN_CTL_node 0 w
    let off := t.line * 64 - s.fN F.RYP_OWIN_BASE_base_cell 0 w * 65536
    let wr := t.kind.isWrite
    let be := if t.wpoison then fullBe else t.be
    let data := if t.wpoison then Line.poisoned else t.wdata
    let target : BitVec 32 := BitVec.ofNat 32 (s.fN F.RYP_OWIN_CTL_iwin 0 w + (if wr then bits be.toNat 56 8 * 65536 else 0))
    let p : Pkt := { Pkt.bare node s.pwr.node (if wr then kWWr else kWRd) t.ctx n off 64 target 0 with
      units := if wr then 1 else 0, be := if wr then be else 0, poison := if wr then linePoison data be else 0,
      data := if wr then data.data.setWidth 32768 else 0 }
    let id := s.home.nextId
    let s := { s with home := { s.home with nextId := id + 1 } }
    let m : Msg := ⟨if wr then .wwr id else .wrd id, 0, node, 0, off, 64, 0, 0, s.pwr.refTime, t.ctx, w, []⟩
    let r : OwinReq := ⟨{ t with id := id }, n, w, s.pwr.refTime, none⟩
    let fab := { s.fab with msgs := SMap.put s.fab.msgs n m, owin := s.fab.owin ++ [r] }
    { s with fab := fab }.originate p (t.origin.winCls p.kind)

/-- Accesses of the cores to a window that found no free message number go out, in their order (R279). -/
def State.retryWindow (s : State) : State :=
  (s.home.held.filter fun h => h.tx.origin.selfSent).foldl (fun s h =>
    match (s.owinFor 0 h.tx.line).bind (s.owinSend h.tx) with
    | some u => { u with home := { u.home with held := u.home.held.filter fun x => x.seq != h.seq } }
    | none => s) s

-- Log entry 65: DESIGN CHOICE, safe.
/-- An engine's access to a window: its answer, kept until the engine's unit of work ends. None: it waits. -/
def State.owinEng (s : State) (t : Tx) (w : Nat) : State × Option (Option Line) :=
  match s.fab.owin.find? fun r =>
      r.tx.origin == t.origin && r.tx.line == t.line && r.tx.kind.isWrite == t.kind.isWrite with
  | some r =>
    (s, r.ans)
  | none =>
    match s.owinSend t w with
    | some s => (s, none)
    | none => (s, none)

/-- The outcomes of a requester's accesses, at home and through windows, are cleared: its unit of work has ended. -/
def State.clearAns (s : State) (o : Origin) : State :=
  let s := s.dropAns o
  { s with fab := { s.fab with owin := s.fab.owin.filter fun r => !(r.tx.origin == o && r.ans.isSome) } }

/-- The outcome of a window request reaches its requester: the line, or none where the request failed (R284). -/
def State.owinDone (s : State) (r : OwinReq) (a : Option Line) : State :=
  let s := s.endMsg r.msg
  let s := if a.isNone then s.raise 13 r.tx.ctx (domeOf r.tx.ctx) (some (r.tx.line * 64)) else s
  match r.tx.origin with
  | .cxl _ =>
    let s := { s with fab := { s.fab with owin := s.fab.owin.filter fun x => !(x.msg == r.msg && x.ans.isNone) } }
    if r.tx.kind.isWrite then s.answer r.tx .cmp Line.zero
    else match a with
      | some l => (if l.anyPoison then s.consume r.tx.ctx r.tx.line else s).answerGrantless r.tx l
      | none => s.answerGrantless r.tx Line.poisoned
  | .core k =>
    let s := { s with fab := { s.fab with owin := s.fab.owin.filter fun x => !(x.msg == r.msg && x.ans.isNone) } }
    if r.tx.kind.isWrite then s
    else match a with
      | some l => s.coreGot k r.tx (.ok l)
      | none => s.coreAns k none 5
  | _ =>
    let upd := fun (x : OwinReq) => if x.msg == r.msg && x.ans.isNone then { x with ans := some a } else x
    { s with fab := { s.fab with owin := s.fab.owin.map upd } }

/-! ## Delivering a packet's data -/

/-- A line of a packet's data, with poison per 16-byte block: bytes `lo .. lo + n` of the line come from packet byte
`k` on. -/
def Pkt.bytesAt (p : Pkt) (k n : Nat) : Nat := bits p.data.toNat (8 * k) (8 * n)

/-- The destination line's image of packet bytes [k, k + n) placed at byte `lo`: data, poison of every word of a block
that receives a byte marked poisoned (R277). -/
def Pkt.lineAt (p : Pkt) (k lo n : Nat) : Line :=
  let d : BitVec 512 := BitVec.ofNat 512 (p.bytesAt k n * 2 ^ (8 * lo))
  let pois := (List.range 4).foldl (fun (a : BitVec 16) b =>
    let from_ := max (16 * b) lo
    let to_ := min (16 * b + 16) (lo + n)
    if from_ < to_ ∧ (List.range (to_ - from_)).any (fun j => p.poison.getLsbD ((k + from_ - lo + j) / 16)) then
      a ||| (0xF#16 <<< (4 * b)) else a) 0
  ⟨d, pois⟩

end Sys2Proof.Machine
end

