-- ==== Sys2Proof/Machine/Egress.lean ====
section
/-!
DEFINITION. Egress scheduling, token buckets (R293 - R300) and the policer's bucket (R301).
-/
namespace Sys2Proof.Machine

/-! ## Token buckets (R296, R297) -/

def Bucket.reset : Bucket :=
  { tokens := 0, rate := 0, depth := 0, enable := false, newRate := 0, newDepth := 0, newEnable := false,
    refused := false, action := false, holdMax := 16 }

/-- The depth in bytes: 64-byte units, 0 for 16 MiB. -/
def Bucket.depthBytes (b : Bucket) : Nat := if b.depth = 0 then 2 ^ 24 else b.depth * 64

def Bucket.passable (b : Bucket) : Bool := !b.enable || decide (0 < b.tokens)

-- Log entry 89: DEDUCED, unsafe.
/-- A debit; one that would take the count below -16 MiB is not recorded. -/
def Bucket.debit (b : Bucket) (n : Nat) : Bucket :=
  if b.enable && decide (-(2 ^ 24 : Int) ≤ b.tokens - n) then { b with tokens := b.tokens - n } else b

/-- A refill edge: held writes are applied, then the count refills; a bucket that becomes enabled starts full. -/
def Bucket.refill (b : Bucket) : Bucket :=
  let b1 := { b with rate := b.newRate, depth := b.newDepth, enable := b.newEnable }
  if !b1.enable then b1
  else if !b.enable then { b1 with tokens := b1.depthBytes }
  else { b1 with tokens := min (b1.depthBytes : Int) (b1.tokens + b1.rate) }

/-- The levels of shaping a bucket belongs to. -/
inductive Level | sub | svc | port | pol
  deriving DecidableEq, Repr

/-- The table of a level. -/
def Egress.table (e : Egress) : Level → SMap Bucket
  | .sub => e.subs
  | .svc => e.svcs
  | .port => e.ports
  | .pol => e.pols

def Egress.setTable (e : Egress) (l : Level) (t : SMap Bucket) : Egress :=
  match l with
  | .sub => { e with subs := t }
  | .svc => { e with svcs := t }
  | .port => { e with ports := t }
  | .pol => { e with pols := t }

def State.bucket (s : State) (l : Level) (k : Nat) : Bucket := SMap.findD (s.eg.table l) k Bucket.reset

def State.setBucket (s : State) (l : Level) (k : Nat) (b : Bucket) : State :=
  { s with eg := s.eg.setTable l (SMap.store (s.eg.table l) Bucket.reset k b) }

/-- The overhead a port adds to each item (R296). -/
def State.overhead (s : State) (p : Nat) : Nat := F.SHAPER_PORT_CFG_overhead.of (s.portCfg p)

-- Log entry 89: DEDUCED, unsafe.
/-- SHAPER_REFILL: one refill edge of every bucket; the settings of Domes torn down return to reset (R300). -/
def State.shaperRefill (s : State) : State :=
  let gone := fun (k : Nat) => s.eg.resetDomes.contains (k % 4096)
  let edge := fun (t : SMap Bucket) => (t.map fun e => (e.1, e.2.refill)).filter fun e => e.2 != Bucket.reset
  { s with eg := { s.eg with
      subs := edge (s.eg.subs.filter fun e => !gone e.1), svcs := edge s.eg.svcs, ports := edge s.eg.ports,
      pols := edge (s.eg.pols.filter fun e => !gone e.1), weights := s.eg.weights.filter (fun e => !gone e.1),
      resetDomes := [] } }

def execShaperRefill (s : State) : Result := run s fun s => s.shaperRefill

-- Log entry 89: DEDUCED, unsafe.
/-- The bucket SHAPER_IDX selects. -/
def State.shaperSel (s : State) : Option (Level × Nat) :=
  let p := s.fN F.SHAPER_IDX_port
  let i := s.fN F.SHAPER_IDX_index
  if 28 ≤ p then none
  else match s.fN F.SHAPER_IDX_level with
    | 0 => some (.sub, p * 4096 + i)
    | 1 => if i < 8 then some (.svc, p * 8 + i) else none
    | 2 => if i = 0 then some (.port, p) else none
    | _ => some (.pol, p * 4096 + i)

/-- A write of SHAPER_RATE. -/
def State.shaperRate (s : State) (v : Word) : State :=
  match s.shaperSel with
  | some (l, k) => s.setBucket l k { s.bucket l k with newRate := F.SHAPER_RATE_rate.of v }
  | none => s

/-- A write of SHAPER_DEPTH. -/
def State.shaperDepth (s : State) (v : Word) : State :=
  match s.shaperSel with
  | some (l, k) => s.setBucket l k { s.bucket l k with newDepth := F.SHAPER_DEPTH_depth_64.of v }
  | none => s

/-- A write of SHAPER_CTL: enable is held to the next edge, and refused with rate 0 (R297). -/
def State.shaperCtl (s : State) (v : Word) : State :=
  match s.shaperSel with
  | none => s
  | some (l, k) =>
    let b := s.bucket l k
    let b := if l = .pol then
        { b with action := F.SHAPER_CTL_action.on v, holdMax := F.SHAPER_CTL_hold_max.of v }
      else b
    let b := if F.SHAPER_CTL_refused.on v then { b with refused := false } else b
    s.setBucket l k (if F.SHAPER_CTL_enable.on v then
        (if b.newRate = 0 then { b with refused := true } else { b with newEnable := true })
      else { b with newEnable := false })

def execShaperCtlWrite (v : Word) (s : State) : Result := run s fun s => s.shaperCtl v

/-! ## Classes and weights -/

/-- SHAPER_CLASS_CFG of a class at reset. -/
def classCfgReset (c : Nat) : Word := BitVec.ofNat 32 (([8, 8, 4, 4, 2, 1, 0x101, 1] : List Nat).getD c 0)

def State.classCfg (s : State) (p c : Nat) : Word := SMap.findD s.eg.classCfg (p * 8 + c) (classCfgReset c)

def State.strict (s : State) (p c : Nat) : Bool := F.SHAPER_CLASS_CFG_strict.on (s.classCfg p c)

/-- A class's weight; 0 acts as 1. -/
def State.classWeight (s : State) (p c : Nat) : Nat := max 1 (F.SHAPER_CLASS_CFG_weight.of (s.classCfg p c))

def domeWeightReset (d : Nat) : Word := if d = 0 then 16 else 1

def State.domeWeight (s : State) (d : Nat) : Nat :=
  max 1 (F.SHAPER_DOME_WT_weight.of (SMap.findD s.eg.weights d (domeWeightReset d)))

/-! ## Eligibility (R295, R266) -/

/-- The units of a packet on the wire: its header unit and its data units. -/
def Pkt.wire (p : Pkt) : Nat := p.units + 1

/-- The credits a port holds for a virtual channel. -/
def RyPort.cred (r : RyPort) (vc : Nat) : Nat :=
  if vc = 0 then r.credReq else if vc = 1 then r.credRsp else if vc = 2 then r.credBulk else r.credMgt

/-- The units handed to the link and not yet sent on a virtual channel. -/
def RyPort.owed (r : RyPort) (vc : Nat) : Nat := (r.outq.map fun x => if x.vc = vc then x.left else 0).sum

/-- Whether an item is an S2M NDR or DRS message. -/
def EgItem.ndrDrs (x : EgItem) : Bool := match x.body with | .s2m _ (.biSnp _) _ _ => false | .s2m _ _ _ _ => true | _ => false

def EgItem.line (x : EgItem) : Nat := match x.body with | .s2m _ _ l _ => l | _ => 0

/-- The earliest NDR or DRS item queued before `x` for the same line and link. -/
def State.blocker (s : State) (x : EgItem) : Option EgItem :=
  if !x.ndrDrs then none
  else s.eg.items.find? fun y =>
    y.ndrDrs && y.port == x.port && y.link == x.link && y.line == x.line && decide (y.seq < x.seq)

-- Log entry 89: DEDUCED, unsafe.
/-- Link credit. A CX link's partner has credit for NDR, DRS, BISnp and CXL.io as `cr` says, bits 0 to 3. -/
def State.creditOk (s : State) (cr : BitVec 4) (x : EgItem) : Bool :=
  match x.body with
  | .s2m _ (.memData _) _ _ => cr.getLsbD 1
  | .s2m _ (.biSnp _) _ _ => cr.getLsbD 2
  | .s2m _ _ _ _ => cr.getLsbD 0
  | .cxlio _ _ => cr.getLsbD 3
  | .fmMsix _ => cr.getLsbD 3
  | .ry vc p _ => let r := s.ryPort (x.port - 16); decide (r.owed vc + p.wire ≤ r.cred vc)

def State.eligible (s : State) (cr : BitVec 4) (x : EgItem) : Bool := (s.blocker x).isNone && s.creditOk cr x

/-- The items of a link in a class, oldest first. -/
def State.egItems (s : State) (p l c : Nat) : List EgItem :=
  s.eg.items.filter fun x => x.port == p && x.link == l && x.cls == c

/-! ## The pick (R298, R299) -/

def State.counted (s : State) (x : EgItem) : Nat := x.len + s.overhead x.port

/-- Deficits of classes and subscribers with no queued item are cleared. -/
def State.egTidy (s : State) : State :=
  let cls := fun (k : Nat) => s.eg.items.any fun x => x.port * 8 + x.cls == k
  let sub := fun (k : Nat) => s.eg.items.any fun x => (x.port * 8 + x.cls) * 4096 + x.dome == k
  { s with eg := { s.eg with cdef := s.eg.cdef.filter (fun e => cls e.1), sdef := s.eg.sdef.filter (fun e => sub e.1) } }

/-- Sends an item: its length is debited, and it leaves on its link. -/
def State.egSend (s : State) (x : EgItem) : State :=
  let n := s.counted x
  let deb := fun (s : State) (l : Level) (k : Nat) => s.setBucket l k ((s.bucket l k).debit n)
  let s := deb (deb (deb s .sub (x.port * 4096 + x.dome)) .svc (x.port * 8 + x.cls)) .port x.port
  let s := { s with eg := { s.eg with items := s.eg.items.filter fun y => y.seq != x.seq } }
  match x.body with
  | .s2m c op line d => s.emit (.s2m x.port x.link op line d c.src c.tag)
  | .cxlio a d => s.emit (.cxlio x.port x.link a d)
  | .fmMsix v => s.emit (.fmMsix x.port v)
  | .ry vc p i =>
    let r := s.ryPort (x.port - 16)
    s.setRy (x.port - 16) { r with outq := r.outq ++ [⟨vc, p, p.wire, x.cls, i⟩] }

/-- `n` numbers from the one after `last` on, in rotation. -/
def rotation (n last : Nat) : List Nat := (List.range n).map fun i => (last + 1 + i) % n

/-- The subscribers of a class with an eligible item, in rotation after the one served last. -/
def State.egSubs (s : State) (p l c : Nat) (cr : BitVec 4) : List Nat :=
  let ds := (((s.egItems p l c).filter fun x => s.eligible cr x).map fun x => x.dome).eraseDups.mergeSort
  let last := SMap.findD s.eg.lastSub ((p * 2 + l) * 8 + c) 4095
  (ds.filter fun d => last < d) ++ (ds.filter fun d => d ≤ last)

/-- `class_pick` of R298: the item, with the deficits it leaves. -/
def State.classPick (s : State) (p l c : Nat) (cr : BitVec 4) : State × Option EgItem :=
  if !(s.bucket .port p).passable || !(s.bucket .svc (p * 8 + c)).passable then (s, none)
  else
    match (s.egSubs p l c cr).find? fun d => d == 0 || (s.bucket .sub (p * 4096 + d)).passable with
    | none => (s, none)
    | some d =>
      match (s.egItems p l c).find? fun x => x.dome == d && s.eligible cr x with
      | none => (s, none)
      | some x =>
        let k := (p * 8 + c) * 4096 + d
        let v := SMap.findD s.eg.sdef k 0
        let v := (if v ≤ 0 then v + s.domeWeight d * 1024 else v) - s.counted x
        ({ s with eg := { s.eg with sdef := SMap.put s.eg.sdef k v,
                                    lastSub := SMap.put s.eg.lastSub ((p * 2 + l) * 8 + c) d } }, some x)

/-- The strict classes, ascending. -/
def State.strictPick (s : State) (p l : Nat) (cr : BitVec 4) : List Nat → State × Option EgItem
  | [] => (s, none)
  | c :: r =>
    match s.classPick p l c cr with
    | (s, some x) => (s, some x)
    | (s, none) => s.strictPick p l cr r

/-- The ring of non-strict classes. -/
def State.ringPick (s : State) (p l : Nat) (cr : BitVec 4) : List Nat → State × Option EgItem
  | [] => (s, none)
  | c :: r =>
    if !(s.egItems p l c).any (fun x => s.eligible cr x) then s.ringPick p l cr r
    else
      let k := p * 8 + c
      let v := SMap.findD s.eg.cdef k 0
      let s := if v ≤ 0 then
          { s with eg := { s.eg with cdef := SMap.put s.eg.cdef k (v + s.classWeight p c * 1024) } }
        else s
      match s.classPick p l c cr with
      | (s, none) => s.ringPick p l cr r
      | (s, some x) =>
        ({ s with eg := { s.eg with cdef := SMap.put s.eg.cdef k (SMap.findD s.eg.cdef k 0 - s.counted x),
                                    lastCls := SMap.put s.eg.lastCls (p * 2 + l) c } }, some x)

/-- The oldest express item of a link, or the item that R295 sends before it. -/
def State.expressPick (s : State) (p l : Nat) : Option EgItem :=
  (s.eg.items.find? fun x => x.express && x.port == p && x.link == l).map fun x => (s.blocker x).getD x

-- Log entry 89: DEDUCED, unsafe.
/-- The item a link starts next. -/
def State.pick (s : State) (p l : Nat) (cr : BitVec 4) : State × Option EgItem :=
  match (s.expressPick p l).filter fun x => s.creditOk cr x with
  | some x => (s, some x)
  | none =>
    match s.strictPick p l cr ((List.range 8).filter fun c => s.strict p c) with
    | (s, some x) => (s, some x)
    | (s, none) =>
      s.ringPick p l cr ((rotation 8 (SMap.findD s.eg.lastCls (p * 2 + l) 7)).filter fun c => !s.strict p c)

/-- Whether a link can start an item: up and not in Recovery (R254), or an ACTIVE Rythar link that is not paused
(R268). -/
def State.canStart (s : State) (p l : Nat) : Bool :=
  if p < 16 then (s.cxlLink p l).up && (s.cxlLink p l).recovery.isNone
  else l == 0 && (s.ryPort (p - 16)).st == .active && !(s.ryPort (p - 16)).paused

def State.egressPick (s : State) (p l : Nat) (cr : BitVec 4) : State :=
  if !s.canStart p l then s
  else match s.pick p l cr with
    | (s, some x) => (s.egSend x).egTidy
    | (s, none) => s

-- Log entry 3: DESIGN CHOICE, safe.
/-- EGRESS_PICK: a link can start an item; `cr` is the credit the partner of a CX link has given. -/
def execEgressPick (p : Fin 28) (l : Fin 2) (cr : BitVec 4) (s : State) : Result :=
  run s fun s => s.egressPick p.val l.val cr

end Sys2Proof.Machine
end

