-- ==== Sys2Proof/Machine/CxlIn.lean ====
section
/-!
DEFINITION. CXL.mem messages from a link to the home: HDM decode (R243, R245), the ingress context table (R37), misses
(R17), the MAC epochs of IDE (R246), policing (R301, R302), admission (R137, R330), the mapping of R127, and snoop answers
(R134 - R136, R144).
-/
namespace Sys2Proof.Machine

/-! ## HDM decoders -/

/-- A decoder's selector against a source (R243). -/
def State.hdmSel (s : State) (d : Nat) (c : CxlSrc) : Bool :=
  s.fB F.CXLP_HDM_SRC_any_port 0 d ||
    (s.fN F.CXLP_HDM_SRC_port 0 d == c.port && s.fN F.CXLP_HDM_SRC_link 0 d == c.link &&
      (s.fB F.CXLP_HDM_SRC_any_src 0 d ||
        (s.fB F.CXLP_HDM_SRC_src_kind 0 d == c.ldKind && s.fN F.CXLP_HDM_SRC_src_id 0 d == c.src)))

def State.hdmBase (s : State) (d : Nat) : Nat :=
  s.fN F.CXLP_HDM_BASE_HI_base_hi 0 d * 2 ^ 60 + s.fN F.CXLP_HDM_BASE_LO_base_lo 0 d * 2 ^ 28

def State.hdmSize (s : State) (d : Nat) : Nat := s.fN F.CXLP_HDM_SIZE_size_256m 0 d * 2 ^ 28

/-- The lowest-numbered decoder that matches a request. -/
def State.hdmMatch (s : State) (c : CxlSrc) (hpa : Nat) : Option Nat :=
  (List.range 32).find? fun d =>
    s.fB F.CXLP_HDM_CTL_committed 0 d && s.hdmSel d c &&
      decide (s.hdmBase d ≤ hpa ∧ hpa < s.hdmBase d + s.hdmSize d)

/-- The DPA a decoder forms (R245). -/
def State.hdmDpa (s : State) (d hpa : Nat) : Nat :=
  let off := hpa - s.hdmBase d
  let g := s.fN F.CXLP_HDM_CTL_ig 0 d + 8
  let w := s.fN F.CXLP_HDM_CTL_iw 0 d
  s.fN F.CXLP_HDM_DPA_dpa_base 0 d * 2 ^ 28 + off / 2 ^ (g + w) * 2 ^ g + off % 2 ^ g

/-! ## The ingress context table -/

/-- A key as CXLP_CTXT_KEY lays it out. -/
def ctxtKey (dec : Nat) (c : CxlSrc) : BitVec 19 :=
  BitVec.ofNat 19 (dec * 2 ^ 14 + c.link * 2 ^ 13 + (if c.ldKind then 2 ^ 12 else 0) + c.src)

/-- The context of a request: the entry whose whole key matches (R37); an entry of a Dome that is not ACTIVE gives
none. -/
def State.ctxtFind (s : State) (p : Nat) (key : BitVec 19) : Option Ctx :=
  ((s.cxlPort p).ctxt.find? fun e => e.2.valid && e.2.key == key).bind fun e =>
    if s.domeSt (domeOf e.2.ctx) = .active then some e.2.ctx else none

/-- Whether a port's mode uses a source (R241). -/
def State.srcFits (s : State) (c : CxlSrc) : Bool :=
  match (s.cxlPort c.port).mode with
  | 0 => !c.ldKind && c.src == 0
  | 1 => c.ldKind && decide (c.src < 16)
  | _ => !c.ldKind

/-- The context and DPA line of a request; none for an ingress miss (R17, R241, R243, R247). -/
def State.ingress (s : State) (c : CxlSrc) (hpa : Nat) : Option (Ctx × Nat) :=
  if !s.srcFits c || (s.fB F.CXLP_CFG_ide_required c.port && !(s.cxlLink c.port c.link).ideSecure) then none
  else
    (s.hdmMatch c hpa).bind fun d =>
      (s.ctxtFind c.port (ctxtKey d c)).map fun x => (x, s.hdmDpa d hpa / 64)

/-! ## Answers made at the port -/

-- Log entry 20: DEDUCED, unsafe.
/-- Answers a message that does not reach the home. -/
def State.portAnswer (s : State) (c : CxlSrc) (a : Ask) (dome line : Nat) : State :=
  match a with
  | .read => s.s2m c 0 dome false (.memData .i) line Line.poisoned
  | .hint => s
  | _ => s.s2m c 1 dome false .cmp line Line.zero

-- Log entries 19: DESIGN CHOICE, safe; 20: DEDUCED, unsafe.
/-- An ingress miss (R17). The line number of its answer stands for the host address. -/
def State.ingressMiss (s : State) (c : CxlSrc) (a : Ask) (hpa : Nat) : State :=
  ((s.bump F.CXLP_CTXT_MISS_CNT_miss_count 1 c.port).raise (640 + 16 * c.port) 0 0 none c.src).portAnswer c a 0
    (2 ^ 58 + hpa / 64)

/-! ## Admission (R137) -/

/-- Messages of an epoch that is not verified: RwD, and others. -/
def CxlMsg.isReq : CxlMsg → Bool
  | .req _ _ _ _ => true
  | .odd _ _ => true
  | _ => false

def CxlMsg.isWrite : CxlMsg → Bool
  | .req _ a _ _ => a == .write
  | .odd _ a => a == .write
  | _ => false

/-- The ingress entries of a link in use: RwD, Req that no policer holds, and held Req. -/
def State.ingressUse (s : State) (p l : Nat) : Nat × Nat × Nat :=
  let mine := s.home.held.filter fun h => h.tx.origin.onLink p l
  let ep := (s.cxlLink p l).epoch.filter fun x => x.isReq
  ((mine.filter fun h => h.tx.kind.isWrite).length + (ep.filter fun x => x.isWrite).length,
    (mine.filter fun h => !h.tx.kind.isWrite && !h.policed).length + (ep.filter fun x => !x.isWrite).length,
    (mine.filter fun h => !h.tx.kind.isWrite && h.policed).length)

/-- Whether the 128 ingress entries of a link hold so many messages: 32 are kept for RwD and 32 for Req, 16 for BIRsp, which
is always sunk; a policer holds requests in shared entries alone (R301). -/
def ingressFits (w r h : Nat) : Bool := decide (h + (w - 32) + (r - 32) ≤ 48)

/-- Whether a link's ingress has an entry for one more request. -/
def State.ingressRoom (s : State) (p l : Nat) (wr : Bool) : Bool :=
  let (w, r, h) := s.ingressUse p l
  if wr then ingressFits (w + 1) r h else ingressFits w (r + 1) h

/-- Whether the read of a hint finds a read-queue entry, or needs none. -/
def State.hintRoom (s : State) (t : Tx) : Bool :=
  (s.honey.lookup t.line).isSome ||
  match s.locate (t.line * 64) with
  | some (ch, loc) => s.chSt ch != .ok || (s.sub ch (bits loc 6 1)).rdRoom (s.urgency ch t.cls t.demoted s.pwr.rootTime)
  | none => true

/-- MemSpecRd at the home: dropped when fewer than 512 unreserved entries are free; else a lookup, and on a miss a DRAM
read that fills (R140), for which it waits in the ingress while the channel's read queue has no room. -/
def State.hintStep (s : State) (t : Tx) : State :=
  if s.trackerFree < 512 || s.area (t.line * 64) == .aperture then s
  else if !s.hintRoom t then s.keepAtPort t false
  else match s.dataRead false t.ctx t.line t.pri .none with
    | (s, .dram ch loc) => s.rqPut ch ⟨none, loc, t.line, t.cls, t.demoted, t.ctx, s.pwr.rootTime⟩
    | (s, _) => s

/-- Whether the home can take an access now: the device admits, and the tracker has room. -/
def State.canEnter (s : State) (t : Tx) : Bool := !s.bel.active && (t.kind == .hint || s.trackerRoom t)

/-- An access enters the home, or goes out through a window of the aperture (R23, R284). A host's MemInv of a window's line
is granted nothing (R129). -/
def State.enterHome (s : State) (t : Tx) : State :=
  if t.kind = .hint then s.hintStep t
  else if s.txDown (s.atLock t) then s.downTx t
  else match s.owinFor t.ctx t.line with
    | some w =>
      if t.kind.isRead || t.kind.isWrite then
        (match (if s.txRoom t then s.owinSend t w else none) with | some s => s | none => s.keepAtPort t false)
      else if t.kind = .invE then s.answerGrantless t Line.zero
      else s.enter t
    | none => s.enter t

def State.enterOrKeep (s : State) (t : Tx) : State := if s.canEnter t then s.enterHome t else s.keepAtPort t false

/-! ## Policing (R301, R302) -/

/-- The bytes a request debits at a policer: 64 for a line it reads or writes, and the port's overhead. -/
def State.polCost (s : State) (p : Nat) (lines : Nat) : Nat := 64 * lines + s.overhead p

def Tx.lines (t : Tx) : Nat := if t.kind.isRead || t.kind.isWrite || t.kind == .hint then 1 else 0

/-- The port and link of an access from a host. -/
def Tx.at_ (t : Tx) : Nat × Nat := match t.origin with | .cxl c => (c.port, c.link) | _ => (28, 0)

/-- Whether a policer may hold one more request: its Dome's hold_max, and a shared ingress entry of the link. -/
def State.mayHold (s : State) (t : Tx) (b : Bucket) : Bool :=
  let mine := s.home.held.filter fun h => h.policed && h.tx.at_.1 == t.at_.1 && domeOf h.tx.ctx == domeOf t.ctx
  let (w, r, h) := s.ingressUse t.at_.1 t.at_.2
  decide (mine.length < max 1 b.holdMax) && ingressFits w r (h + 1)

/-- Ingress policing of an access on a CXL port, then its admission. -/
def State.police (s : State) (t : Tx) : State :=
  let p := t.at_.1
  let k := p * 4096 + domeOf t.ctx
  let b := s.bucket .pol k
  let pay := fun (s : State) => s.setBucket .pol k ((s.bucket .pol k).debit (s.polCost p t.lines))
  if b.passable then (pay s).enterOrKeep t
  else if !b.action && !t.kind.isWrite && s.mayHold t b then
    (s.bump F.SHAPER_POL_CNT_held).keepAtPort t true
  else ((pay s).bump F.SHAPER_POL_CNT_demoted).enterOrKeep { t with demoted := true }

/-- A kept access that may go: its policer is passable where it was held for it, and the home can take it. -/
def State.mayRelease (s : State) (p : Nat) (h : HeldReq) : Bool :=
  h.tx.at_.1 == p && s.canEnter h.tx &&
    (!h.policed || (s.bucket .pol (p * 4096 + domeOf h.tx.ctx)).passable)

-- Log entry 89: DEDUCED, unsafe.
/-- A packet held at a Rythar port that may go on to be served (R301). -/
def State.mayPass (s : State) (p : Nat) (x : InPkt) : Bool :=
  x.gate == .held && (s.bucket .pol ((p + 16) * 4096 + domeOf x.pkt.ctx)).passable

/-- The lines a packet reads or writes. -/
def Pkt.lineCount (p : Pkt) : Nat := if p.length = 0 then 0 else (p.offset % 64 + p.length + 63) / 64

/-- Lets the oldest held packet of a Rythar port through, with its debit. -/
def State.passPacket (s : State) (p : Nat) : State :=
  let r := s.ryPort p
  match r.ready.findIdx? fun x => s.mayPass p x with
  | some i =>
    (match r.ready[i]? with
      | some x =>
        let k := (p + 16) * 4096 + domeOf x.pkt.ctx
        let s := s.setRy p { r with ready := r.ready.set i { x with gate := .passed } }
        s.setBucket .pol k ((s.bucket .pol k).debit (s.polCost (p + 16) x.pkt.lineCount))
      | none => s)
  | none => s

/-- POLICER_RELEASE at a port: the oldest request held there that may go. -/
def State.policerRelease (s : State) (p : Nat) : State :=
  if 16 ≤ p then s.passPacket (p - 16)
  else match s.home.held.find? fun h => s.mayRelease p h with
    | some h =>
      let s := { s with home := { s.home with held := s.home.held.filter fun x => x.seq != h.seq } }
      let k := p * 4096 + domeOf h.tx.ctx
      let s := if h.policed then s.setBucket .pol k ((s.bucket .pol k).debit (s.polCost p h.tx.lines)) else s
      s.enterHome h.tx
    | none => s

def execPolicerRelease (p : Fin 28) (s : State) : Result := run s fun s => s.policerRelease p.val

/-! ## Requests (R127) -/

def CxlId.src_ (i : CxlId) : CxlSrc := ⟨i.port.val, i.link.val, i.ldKind, i.src.toNat, i.tag.toNat, true⟩

def mapRd : Meta → Mapped
  | .s => ⟨.rdS, true, false⟩
  | .a => ⟨.rdE, true, false⟩
  | .noOp => ⟨.rdCur, false, false⟩
  | .i => ⟨.rdCur, false, true⟩

def mapInv : Meta → Mapped
  | .a => ⟨.invE, true, false⟩
  | .i => ⟨.drop, false, false⟩
  | _ => ⟨.rdCur, false, true⟩

def mapClnEvct : Meta → Mapped
  | .i => ⟨.drop, false, false⟩
  | _ => ⟨.rdCur, false, true⟩

def mapWr : Meta → Mapped
  | .noOp => ⟨.plainWr, false, false⟩
  | m => ⟨.agentWr m, false, false⟩

/-- The access of a message that met a context entry. Its agent, and whether state may be granted, are found when the home
takes it. -/
def State.hostTx (c : CxlSrc) (x : Ctx) (line : Nat) (k : Mapped) (w : Option RwD) : Tx :=
  { newTx k.kind (.cxl c) x line c.port with
    wants := k.wants, wk := .host, heat := if k.kind.isWrite then .hostWr else .hostRd, fill := some (domeOf x),
    wdata := (w.map fun d => ⟨d.data, 0⟩).getD Line.zero, be := (w.map fun d => d.be).getD fullBe,
    wpoison := (w.map fun d => d.poison).getD false }

/-- A source whose agent slot is down (R144). -/
def State.srcDown (s : State) (c : CxlSrc) : Bool :=
  match s.agentOf c with | some a => s.agentDown a | none => false

-- Log entry 21: DEDUCED, unsafe.
/-- A message from a source that is down: a read is refused, anything else discarded and counted. -/
def State.downAnswer (s : State) (c : CxlSrc) (a : Ask) (x : Ctx) (line : Nat) : State :=
  if a = .read then s.portAnswer c .read (domeOf x) line else s.bump F.SNOOP_EVT_CNT2_odd_meta

/-- A request of the home's kinds, as its port releases it. -/
def State.m2s (s : State) (m : M2S) (a : Ask) (k : Mapped) (w : Option RwD) : State :=
  let c := m.id.src_
  match s.ingress c m.hpa.toNat with
  | none => s.ingressMiss c a m.hpa.toNat
  | some (x, line) =>
    if s.srcDown c then s.downAnswer c a x line
    else
      let s := if k.odd then s.bump F.SNOOP_EVT_CNT2_odd_meta else s
      s.police (State.hostTx c x line k w)

-- Log entry 21: DEDUCED, unsafe.
/-- A message the home does not support: logged; a read is answered with an all-poisoned line, a write discarded. -/
def State.unsupported (s : State) (m : M2S) (a : Ask) : State :=
  let c := m.id.src_
  match s.ingress c m.hpa.toNat with
  | none => s.ingressMiss c a m.hpa.toNat
  | some (x, line) =>
    let s := s.bump F.SNOOP_EVT_CNT2_odd_meta
    if a = .read then s.portAnswer c .read (domeOf x) line else s

/-! ## Snoop answers and conflicts (R128, R134 - R136) -/

-- Log entry 21: DEDUCED, unsafe.
/-- A BIRsp of the state it claims: 0 I, 1 S, 2 E/M. From a source that is down it is counted and discarded. -/
def State.birspIn (s : State) (x : CxlLine) (st : Nat) : State :=
  match s.agentOf x.id.src_ with
  | none => s.bump F.SNOOP_EVT_CNT2_late_birsp
  | some a => if s.agentDown a then s.bump F.SNOOP_EVT_CNT2_odd_meta else s.birsp a x.line.toNat st

/-- A BIConflict: answered without a lock, a tracker entry or admission, in the Dome of the snoop it conflicts with. -/
def State.biConflict (s : State) (x : CxlLine) : State :=
  let c := x.id.src_
  if s.srcDown c then s.bump F.SNOOP_EVT_CNT2_odd_meta
  else
    let a := s.agentOf c
    let dome := ((s.home.snoops.find? fun n => some n.agent == a && n.line == x.line.toNat).map fun n => n.dome).getD 0
    s.s2m c 2 dome false .biConflictAck x.line.toNat Line.zero

/-! ## MAC epochs (R246) -/

/-- A message as its port releases it. -/
def State.takeMsg (s : State) (x : CxlMsg) : State :=
  match x with
  | .req m a k w => s.m2s m a k w
  | .odd m a => s.unsupported m a
  | .birsp x st => s.birspIn x st
  | .block _ => s.bump F.SNOOP_EVT_CNT2_odd_meta
  | .conflict x => s.biConflict x

def CxlMsg.id : CxlMsg → CxlId
  | .req m _ _ _ => m.id
  | .odd m _ => m.id
  | .birsp x _ => x.id
  | .block x => x.id
  | .conflict x => x.id

/-- Whether a message can arrive: its link is up and not in Recovery, and a request finds an ingress entry of its class and,
where its port answers it, an egress entry. -/
def State.canHear (s : State) (x : CxlMsg) : Bool :=
  let c := x.id.src_
  let l := s.cxlLink c.port c.link
  let ans := match x with
    | .req m _ _ _ => (s.ingress c m.hpa.toNat).isNone || s.srcDown c
    | .odd _ _ => true
    | .conflict _ => true
    | _ => false
  l.up && l.recovery.isNone && (!x.isReq || s.ingressRoom c.port c.link x.isWrite) && (!ans || s.ansRoom c.port c.link 1)

-- Log entry 23: PRESUMED, unsafe.
/-- A message arrives. On a link whose CXL.mem stream is secure it is held until the MAC of its epoch has been verified; in
skid mode writes alone are held. `mac` of the message says that the MAC comes with it and verifies. -/
def State.hear (s : State) (x : CxlMsg) : State :=
  if !s.canHear x then s
  else
    let c := x.id.src_
    let l := s.cxlLink c.port c.link
    if !l.ideSecure then s.takeMsg x
    else if x.id.mac then
      (l.epoch ++ [x]).foldl (fun s x => s.takeMsg x) (s.setCxlLink c.port c.link { l with epoch := [] })
    else if l.skid && !x.isWrite then s.takeMsg x
    else s.setCxlLink c.port c.link { l with epoch := l.epoch ++ [x] }

/-! ## The messages -/

-- Log entry 111: DESIGN CHOICE, safe.
/-- Bits of a stored filter entry flip. -/
def State.upset (s : State) (line : Nat) (u : Option Upset) : State :=
  match u with
  | none => s
  | some u =>
    let k := filterBase u.agent.val line + u.way.val
    match SMap.find s.home.filter k with
    | some e => { s with home := { s.home with filter := SMap.put s.home.filter k (e ^^^ u.mask) } }
    | none => s

/-- MEMRD; `u` is what has happened to a filter entry in the line's set before the request meets it. -/
def execMemrd (m : M2S) (u : Option Upset) (s : State) : Result := run s fun s =>
  let s := match s.ingress m.id.src_ m.hpa.toNat with | some (_, line) => s.upset line u | none => s
  s.hear (.req m .read (mapRd m.meta_) none)

/-- MEMRDDATA. -/
def execMemrddata (m : M2S) (s : State) : Result := run s fun s => s.hear (.req m .read ⟨.rdAny, true, false⟩ none)

/-- MEMINV. -/
def execMeminv (m : M2S) (s : State) : Result := run s fun s => s.hear (.req m .state (mapInv m.meta_) none)

/-- MEMINVNT. -/
def execMeminvnt (m : M2S) (s : State) : Result := run s fun s => s.hear (.req m .state (mapInv m.meta_) none)

/-- MEMCLNEVCT. -/
def execMemclnevct (m : M2S) (s : State) : Result := run s fun s => s.hear (.req m .state (mapClnEvct m.meta_) none)

/-- MEMSPECRD. -/
def execMemspecrd (m : M2S) (s : State) : Result := run s fun s => s.hear (.req m .hint ⟨.hint, false, false⟩ none)

/-- MEMWR. -/
def execMemwr (m : M2S) (d : RwD) (s : State) : Result := run s fun s =>
  s.hear (.req m .write (mapWr m.meta_) (some { d with be := fullBe }))

/-- MEMWRPTL. -/
def execMemwrptl (m : M2S) (d : RwD) (s : State) : Result := run s fun s => s.hear (.req m .write (mapWr m.meta_) (some d))

/-- MEMRDFWD. -/
def execMemrdfwd (m : M2S) (s : State) : Result := run s fun s => s.hear (.odd m .read)

/-- MEMWRFWD. -/
def execMemwrfwd (m : M2S) (s : State) : Result := run s fun s => s.hear (.odd m .write)

/-- BIRSPI. -/
def execBirspi (x : CxlLine) (s : State) : Result := run s fun s => s.hear (.birsp x 0)

/-- BIRSPS. -/
def execBirsps (x : CxlLine) (s : State) : Result := run s fun s => s.hear (.birsp x 1)

/-- BIRSPE. -/
def execBirspe (x : CxlLine) (s : State) : Result := run s fun s => s.hear (.birsp x 2)

-- Log entry 21: DEDUCED, unsafe.
/-- BIRSP_BLOCK. -/
def execBirspBlock (x : CxlLine) (s : State) : Result := run s fun s => s.hear (.block x)

/-- BICONFLICT. -/
def execBiconflict (x : CxlLine) (s : State) : Result := run s fun s => s.hear (.conflict x)

end Sys2Proof.Machine
end

