-- ==== Sys2Proof/Machine/CxlPort.lean ====
section
/-!
DEFINITION. CXL ports beside CXL.mem: the context-table commands (R38, R39), HDM decoders (R243, R244), link training and
loss (R240, R254, R255), IDE (R246, R247, R305), DOE and CDAT (R248, R249).
-/
namespace Sys2Proof.Machine

/-! ## The ingress context table's commands -/

/-- A write of CXLP_CTXT_CMD: ignored while a command runs; op 3 has no effect (R39). -/
def State.ctxtCmdWrite (s : State) (p : Nat) (v : Word) : State :=
  let op := F.CXLP_CTXT_CMD_op.of v
  if s.fB F.CXLP_CTXT_CMD_busy p || op == 3 then s
  else
    let c : CtxtCmd := ⟨op, F.CXLP_CTXT_CMD_index.of v, BitVec.ofNat 19 (s.rd R.CXLP_CTXT_KEY p).toNat,
      BitVec.ofNat 16 (s.fN F.CXLP_CTXT_VAL_ctx p)⟩
    (s.setCxlPort p { s.cxlPort p with ctxtCmd := some c }).fFlag F.CXLP_CTXT_CMD_busy true p

def ctxtCmdWord (op i : Nat) : Word := BitVec.ofNat 32 (op * 2 ^ 12 + i)

/-- CTXT_READ. -/
def execCtxtRead (p : Fin 16) (i : Fin 1024) (s : State) : Result :=
  run s fun s => s.ctxtCmdWrite p.val (ctxtCmdWord 0 i.val)

/-- CTXT_WRITE. -/
def execCtxtWrite (p : Fin 16) (i : Fin 1024) (s : State) : Result :=
  run s fun s => s.ctxtCmdWrite p.val (ctxtCmdWord 1 i.val)

/-- CTXT_INVALIDATE. -/
def execCtxtInvalidate (p : Fin 16) (i : Fin 1024) (s : State) : Result :=
  run s fun s => s.ctxtCmdWrite p.val (ctxtCmdWord 2 i.val)

/-- An entry write's effect, or the bits that say why it was refused (R38). -/
def State.ctxtPut (s : State) (p : Nat) (c : CtxtCmd) : State :=
  let x := s.cxlPort p
  let dup := x.ctxt.any fun e => e.1 != c.idx && e.2.valid && e.2.key == c.key
  let zero := domeOf c.ctx == 0
  let dead := s.domeSt (domeOf c.ctx) != .active
  if dup || zero || dead then
    let s := if dup then s.fFlag F.CXLP_CTXT_STATUS_dup_key true p else s
    let s := if zero then s.fFlag F.CXLP_CTXT_STATUS_dome_zero true p else s
    if dead then s.fFlag F.CXLP_CTXT_STATUS_dome_not_active true p else s
  else s.setCxlPort p { x with ctxt := SMap.put x.ctxt c.idx ⟨true, c.key, c.ctx⟩ }

/-- A context-table command takes effect and busy clears. -/
def State.ctxtDone (s : State) (p : Nat) : State :=
  let x := s.cxlPort p
  match x.ctxtCmd with
  | none => s
  | some c =>
    let e : CtxtEnt := SMap.findD x.ctxt c.idx ⟨false, 0, 0⟩
    let s := (s.setCxlPort p { x with ctxtCmd := none }).fFlag F.CXLP_CTXT_CMD_busy false p
    if c.op = 0 then
      ((s.wr R.CXLP_CTXT_KEY (BitVec.ofNat 32 e.key.toNat) p).wr R.CXLP_CTXT_VAL (BitVec.ofNat 32 e.ctx.toNat) p).fFlag
        F.CXLP_CTXT_STATUS_entry_valid e.valid p
    else if c.op = 1 then s.ctxtPut p c
    else
      let y := s.cxlPort p
      s.setCxlPort p { y with ctxt := SMap.store y.ctxt ⟨false, 0, 0⟩ c.idx { e with valid := false } }

/-- CTXT_CMD_DONE. -/
def execCtxtCmdDone (p : Fin 16) (s : State) : Result := run s fun s => s.ctxtDone p.val

/-! ## HDM decoders (R244) -/

/-- Whether some request could match both decoders' selectors. -/
def State.selOverlap (s : State) (a b : Nat) : Bool :=
  let same := fun (f : Fld) => s.fN f 0 a == s.fN f 0 b
  s.fB F.CXLP_HDM_SRC_any_port 0 a || s.fB F.CXLP_HDM_SRC_any_port 0 b ||
    (same F.CXLP_HDM_SRC_port && same F.CXLP_HDM_SRC_link &&
      (s.fB F.CXLP_HDM_SRC_any_src 0 a || s.fB F.CXLP_HDM_SRC_any_src 0 b ||
        (same F.CXLP_HDM_SRC_src_kind && same F.CXLP_HDM_SRC_src_id)))

/-- Whether a commit of a decoder is refused. -/
def State.hdmRefused (s : State) (d : Nat) : Bool :=
  let n := s.fN F.CXLP_HDM_SIZE_size_256m 0 d
  let iw := s.fN F.CXLP_HDM_CTL_iw 0 d
  decide (n = 0) || decide (3 < iw) || decide (6 < s.fN F.CXLP_HDM_CTL_ig 0 d) || decide (n % 2 ^ iw ≠ 0) ||
    decide (2 ^ 45 < s.fN F.CXLP_HDM_DPA_dpa_base 0 d * 2 ^ 28 + s.hdmSize d / 2 ^ iw) ||
    ((List.range 32).any fun e => e != d && s.fB F.CXLP_HDM_CTL_committed 0 e &&
      decide (s.hdmBase d < s.hdmBase e + s.hdmSize e ∧ s.hdmBase e < s.hdmBase d + s.hdmSize d) && s.selOverlap d e) ||
    !s.fB F.GLOBAL_IL_STATUS_locked

/-- A write of CXLP_HDMd_CTL. -/
def State.hdmCtlWrite (s : State) (d : Nat) (v : Word) : State :=
  let s := if F.CXLP_HDM_CTL_error.on v then s.fFlag F.CXLP_HDM_CTL_error false 0 d else s
  let go := F.CXLP_HDM_CTL_commit.on v
  if s.fB F.CXLP_HDM_CTL_committed 0 d then
    if go then s else (s.fFlag F.CXLP_HDM_CTL_committed false 0 d).fFlag F.CXLP_HDM_CTL_commit false 0 d
  else
    let s := (s.fSet F.CXLP_HDM_CTL_ig (F.CXLP_HDM_CTL_ig.of v) 0 d).fSet F.CXLP_HDM_CTL_iw (F.CXLP_HDM_CTL_iw.of v) 0 d
    if !go then s
    else if s.hdmRefused d then s.fFlag F.CXLP_HDM_CTL_error true 0 d
    else (s.fFlag F.CXLP_HDM_CTL_committed true 0 d).fFlag F.CXLP_HDM_CTL_commit true 0 d

/-- HDM_COMMIT: a write of commit = 1 with the granularity and ways beside it. -/
def execHdmCommit (d : Fin 32) (ig : Fin 16) (iw : Fin 8) (s : State) : Result :=
  run s fun s => s.hdmCtlWrite d.val (BitVec.ofNat 32 (ig.val * 2 ^ 8 + iw.val * 2 ^ 4 + 1))

/-- HDM_UNCOMMIT: a write of commit = 0. -/
def execHdmUncommit (d : Fin 32) (s : State) : Result :=
  run s fun s => s.hdmCtlWrite d.val ((s.rd R.CXLP_HDM_CTL 0 d.val) &&& 0xF70#32)

/-! ## Links (R240, R254, R255) -/

/-- The access's answer will be discarded. -/
def Tx.deaf (t : Tx) : Tx := match t.origin with | .cxl c => { t with origin := .cxl { c with live := false } } | _ => t

def Origin.deaf (o : Origin) : Origin := match o with | .cxl c => .cxl { c with live := false } | o => o

-- Log entry 22: DEDUCED, unsafe.
/-- A vector message that was queued for a link that went down is pending again. -/
def State.vecBack (s : State) (x : EgItem) : State :=
  match x.body with
  | .cxlio a d =>
    (match s.wag.vecs.find? fun e =>
        e.1 / 16 == x.dome && e.2.addr == a && e.2.data == d && e.2.port == x.port && e.2.link == x.link with
      | some e => s.setVec (e.1 / 16) (e.1 % 16) { e.2 with pending := true }
      | none => s)
  | _ => s

-- Log entry 22: DEDUCED, unsafe.
/-- A link goes down (R255): what is queued for it and what its ingress still holds is discarded, its IDE keys are erased,
the event is counted and raised. -/
def State.linkDown (s : State) (p l : Nat) : State :=
  let x := s.cxlLink p l
  if !x.up then s
  else
    let mine := s.eg.items.filter fun i => i.port == p && i.link == l
    let lost := (mine.filter fun i => match i.body with | .s2m _ _ _ _ => true | _ => false).length
    let s := mine.foldl (fun s i => s.vecBack i) s
    let s := ({ s with
        eg := { s.eg with items := s.eg.items.filter fun i => !(i.port == p && i.link == l) },
        home := { s.home with
          held := s.home.held.filter (fun h => !h.tx.origin.onLink p l),
          txs := s.home.txs.map fun t => if t.origin.onLink p l then t.deaf else t },
        fab := { s.fab with owin := s.fab.owin.map fun r =>
          if r.tx.origin.onLink p l then { r with tx := r.tx.deaf } else r } } : State).egTidy
    let s := s.setCxlLink p l { x with up := false, recovery := none, width := 0, speed := 0, ideSecure := false,
                                       keySet := 0, ideKeys := [], ioKeys := [], ioSet := [], epoch := [],
                                       downs := x.downs + 1, discarded := x.discarded + lost }
    (s.bump F.CXLP_ERR_CNT_link_down 1 p).raise (640 + 16 * p + 2) 0 0 none l

/-- Vectors whose messages wait for a link are sent (R339). -/
def State.vecsUp (s : State) (p l : Nat) : State :=
  (s.wag.vecs.filter fun e => e.2.pending && !e.2.mask && e.2.port == p && e.2.link == l && e.1 / 16 != 0).foldl
    (fun s e => s.vecSend (e.1 / 16) (e.1 % 16)) s

-- Log entry 26: DESIGN CHOICE, safe.
/-- CXL_LINK_UP: a link finishes training, or leaves Recovery, at a width (0 x4, 1 x8, 2 x16) and a speed. -/
def State.cxlUp (s : State) (p l w : Nat) (fast : Bool) : State :=
  let y := s.cxlPort p
  let x := y.link l
  if !s.fB F.CXLP_CFG_enable p || (l == 1 && !y.bifurcate) || (y.bifurcate && w == 2) then s
  else if x.up && x.recovery.isNone then s
  else
    let z := { x with up := true, recovery := none, width := w + 1, speed := if fast then 2 else 1 }
    (s.setCxlLink p l z).vecsUp p l

def execCxlLinkUp (p : Fin 16) (l : Fin 2) (w : Fin 3) (fast : Bool) (s : State) : Result :=
  run s fun s => s.cxlUp p.val l.val w.val fast

-- Log entry 27: DEDUCED, unsafe.
/-- A link enters Recovery (R254). -/
def State.recover (s : State) (p l : Nat) : State :=
  let x := s.cxlLink p l
  if x.up && x.recovery.isNone then s.setCxlLink p l { x with recovery := some s.pwr.refTime, replays := x.replays + 1 }
  else s

/-- LINK_RECOVERY. -/
def execLinkRecovery (p : Fin 16) (l : Fin 2) (s : State) : Result := run s fun s => s.recover p.val l.val

/-- RECOVERY_TIMEOUT: the link has been in Recovery for longer than hold_timeout. -/
def execRecoveryTimeout (p : Fin 16) (l : Fin 2) (s : State) : Result := run s fun s =>
  if (s.cxlLink p.val l.val).recovery.isSome then s.linkDown p.val l.val else s

/-- A write of CXLP_LINK_CTL. -/
def State.linkCtlWrite (s : State) (p : Nat) (v : Word) : State :=
  let s := s.fSet F.CXLP_LINK_CTL_hold_timeout (F.CXLP_LINK_CTL_hold_timeout.of v) p
  let s := if F.CXLP_LINK_CTL_retrain0.on v then s.recover p 0 else s
  if F.CXLP_LINK_CTL_retrain1.on v then s.recover p 1 else s

/-- RETRAIN0. -/
def execRetrain0 (p : Fin 16) (s : State) : Result := run s fun s => s.recover p.val 0

/-- RETRAIN1. -/
def execRetrain1 (p : Fin 16) (s : State) : Result := run s fun s => s.recover p.val 1

/-- LINK_DOWN. -/
def execLinkDown (p : Fin 16) (l : Fin 2) (s : State) : Result := run s fun s => s.linkDown p.val l.val

-- Log entry 24: DESIGN CHOICE, safe.
/-- A hot reset takes the link down and returns its functions to their PCIe reset state: BAR2 is unassigned, the DOE Error
bits are clear (R255). -/
def State.hotReset (s : State) (p l : Nat) : State :=
  let s := s.linkDown p l
  let s := if l = 0 then s.setCxlPort p { s.cxlPort p with bar2 := none } else s
  s.setCxlLink p l { s.cxlLink p l with doeErr := [] }

/-- HOT_RESET. -/
def execHotReset (p : Fin 16) (l : Fin 2) (s : State) : Result := run s fun s => s.hotReset p.val l.val

/-- LINK_DISABLE. -/
def execLinkDisable (p : Fin 16) (l : Fin 2) (s : State) : Result := run s fun s => s.linkDown p.val l.val

/-- A write of CXLP_CFG (R240, R241). -/
def State.cxlCfgWrite (s : State) (p : Nat) (v : Word) : State :=
  let s := (s.fFlag F.CXLP_CFG_fm_func (F.CXLP_CFG_fm_func.on v) p).fFlag F.CXLP_CFG_ide_required
    (F.CXLP_CFG_ide_required.on v) p
  let en := F.CXLP_CFG_enable.on v
  if s.fB F.CXLP_CFG_enable p then
    if en then s else ((s.fFlag F.CXLP_CFG_enable false p).linkDown p 0).linkDown p 1
  else
    let s := (s.fSet F.CXLP_CFG_mode (F.CXLP_CFG_mode.of v) p).fFlag F.CXLP_CFG_bifurcate (F.CXLP_CFG_bifurcate.on v) p
    if !en || s.fN F.CXLP_CFG_mode p == 3 then s
    else
      let s := s.fFlag F.CXLP_CFG_enable true p
      s.setCxlPort p { s.cxlPort p with mode := s.fN F.CXLP_CFG_mode p, bifurcate := s.fB F.CXLP_CFG_bifurcate p,
                                        fmFunc := s.fB F.CXLP_CFG_fm_func p }

/-- CXLP_CFG_WRITE. -/
def execCxlpCfgWrite (p : Fin 16) (v : Word) (s : State) : Result := run s fun s => s.cxlCfgWrite p.val v

/-- CXLP_LINK_STATUS as the links stand. -/
def State.linkStatus (s : State) (p : Nat) : Word :=
  let y := s.cxlPort p
  let one := fun (x : CxlLink) =>
    if x.up then 1 + x.speed * 2 + x.width * 8 + (if x.width < (if y.bifurcate then 2 else 3) then 32 else 0) +
      (if x.ideSecure then 64 else 0) else 0
  BitVec.ofNat 32 (one y.link0 + one y.link1 * 65536)

/-! ## IDE (R246, R247, R305) -/

-- Log entry 23: PRESUMED, unsafe.
/-- IDE_INTEGRITY_FAILURE: what is held of the failing epoch is discarded, reads of it that were released are not answered
any more, the failure is counted and raised, the link taken down. -/
def State.ideFail (s : State) (p l : Nat) : State :=
  let x := s.cxlLink p l
  if !x.up then s
  else
    let s := s.setCxlLink p l { x with ideFails := x.ideFails + 1 }
    ((s.bump F.CXLP_ERR_CNT_ide_fail 1 p).raise (640 + 16 * p + 1) 0 0 none l).linkDown p l

-- Log entry 107: DESIGN CHOICE, safe.
def execIdeIntegrityFailure (p : Fin 16) (l : Fin 2) (s : State) : Result := run s fun s => s.ideFail p.val l.val

/-- A session bound to a Dome (R305). -/
def State.sessBound (s : State) (k dome : Nat) : Bool :=
  match SMap.find s.sec.sessions k with
  | some x => x.mutualAuth && SMap.find s.sec.bind dome == some x.digest
  | none => false

/-- The Dome that every valid context entry of a link names, if there is one. -/
def State.linkDome (s : State) (p l : Nat) : Option Nat :=
  let es := (s.cxlPort p).ctxt.filter fun e => e.2.valid && e.2.key.getLsbD 13 == (l == 1)
  match es with
  | e :: r => if r.all fun f => domeOf f.2.ctx == domeOf e.2.ctx then some (domeOf e.2.ctx) else none
  | [] => none

/-- Whether a session may program a link's CXL.mem stream. -/
def State.mayKey (s : State) (p l k : Nat) : Bool :=
  s.sessBound k 0 || (match s.linkDome p l with | some d => s.sessBound k d | none => false)

-- Log entry 23: PRESUMED, unsafe.
/-- A CXL.io stream's key by its place: the link stream is 0, the selective streams are 1 to 4 (R239). -/
def ioKey (n sub set dir : Nat) : Nat := ((n * 3 + sub) * 2 + set) * 2 + dir

-- Log entry 23: PRESUMED, unsafe.
/-- KEY_PROG: the key of one direction of a key set of a stream, from an authorised session; answered by a KP_ACK. -/
def State.keyProg (s : State) (p l sess : Nat) (t : IdeStream) (set dir : Nat) (key : BitVec 256) : State :=
  let x := s.cxlLink p l
  if !x.up then s
  else if !s.mayKey p l sess then s.emit (.doe p l 1 [])
  else match t with
    | .mem => (s.setCxlLink p l { x with ideKeys := SMap.put x.ideKeys (set * 2 + dir) key }).emit (.doe p l 0 [])
    | .io n sub =>
      if 5 ≤ n.val then s.emit (.doe p l 1 [])
      else (s.setCxlLink p l { x with ioKeys := SMap.put x.ioKeys (ioKey n sub set dir) key }).emit (.doe p l 0 [])

def execKeyProg (p : Fin 16) (l : Fin 2) (sess : Fin 256) (t : IdeStream) (set dir : Fin 2) (key : BitVec 256) (s : State) :
    Result := run s fun s => s.keyProg p.val l.val sess.val t set.val dir.val key

-- Log entry 23: PRESUMED, unsafe.
/-- K_SET_GO: a stream goes over to a key set whose keys the link holds, and is secure; the CXL.mem stream in the mode the
message names. -/
def State.kSetGo (s : State) (p l : Nat) (t : IdeStream) (set : Nat) (skid : Bool) : State :=
  let x := s.cxlLink p l
  if !x.up then s
  else match t with
    | .mem =>
      if (SMap.find x.ideKeys (set * 2)).isSome && (SMap.find x.ideKeys (set * 2 + 1)).isSome then
        s.setCxlLink p l { x with keySet := set, ideSecure := true, skid := skid }
      else s
    | .io n _ =>
      if (List.range 3).all fun sub => (List.range 2).all fun dir => (SMap.find x.ioKeys (ioKey n sub set dir)).isSome then
        s.setCxlLink p l { x with ioSet := SMap.put x.ioSet n set }
      else s

def execKSetGo (p : Fin 16) (l : Fin 2) (g : SetGo) (s : State) : Result :=
  run s fun s => s.kSetGo p.val l.val g.stream g.set.val g.skid

/-! ## DOE and CDAT (R248, R249) -/

/-- The link's raw flit rate in GB/s, at its trained width and speed. -/
def CxlLink.rate (x : CxlLink) : Nat := 8 * 2 ^ x.width * x.speed

-- Log entry 25: PRESUMED, unsafe.
/-- The idle read latency of the trained speed bin, in ns (R400). -/
def State.idleRead (s : State) : Nat := if s.fB F.CLK_CTL_fast_dram then 160 else if s.pwr.dpcSel then 172 else 170

-- Log entry 25: PRESUMED, unsafe.
/-- The CDAT of a link: a DSMAS entry (type 0: handle, base, length), a DSEMTS entry (4: handle, memory type, offset, length),
and DSLBIS entries (1: handle, data type, value) for the read latency, the read and the write bandwidth. -/
def State.cdatNow (s : State) (x : CxlLink) : List Nat :=
  let rate := if x.up then x.rate else 0
  [0, 0, 0, s.hiveBase] ++ [4, 0, 0, 0, s.hiveBase] ++ [1, 0, 1, s.idleRead] ++ [1, 0, 4, rate] ++ [1, 0, 5, rate]

-- Log entry 25: PRESUMED, unsafe.
/-- The CDAT of every link is built as READY rises (R249). -/
def State.buildCdat (s : State) : State :=
  (List.range 16).foldl (fun s p =>
    let y := s.cxlPort p
    s.setCxlPort p { y with link0 := { y.link0 with cdat := s.cdatNow y.link0 },
                            link1 := { y.link1 with cdat := s.cdatNow y.link1 } }) s

/-- A function a mailbox or DOE belongs to: the Type 3 function of a link, or of each LD in MLD mode, or the fabric-manager
function (R241). -/
def State.hasFunc (s : State) (p l : Nat) (f : Func) : Bool :=
  (s.cxlLink p l).up &&
  match f with
  | .fm => (s.cxlPort p).fmFunc && l == 0
  | .dev ld => ld.val == 0 || (s.cxlPort p).mode == 1

/-- The number of a function on its link. -/
def Func.idx : Func → Nat
  | .fm => 16
  | .dev ld => ld.val

def Func.isFm : Func → Bool
  | .fm => true
  | .dev _ => false

-- Log entries 13: DESIGN CHOICE, safe; 25: PRESUMED, unsafe.
/-- DOE_OBJECT: served by its protocol; one longer than 65,536 bytes is discarded and the function's DOE Error bit set, which
a write of DOE Abort clears. Each object is answered before the next one comes. -/
def State.doe (s : State) (p l : Nat) (f : Func) (k : DoeKind) (n : Nat) : State :=
  let x := s.cxlLink p l
  if !s.hasFunc p l f then s
  else if k = .abort then s.setCxlLink p l { x with doeErr := x.doeErr.filter fun e => e != f.idx }
  else if x.doeErr.contains f.idx then s
  else if 65536 < n then s.setCxlLink p l { x with doeErr := f.idx :: x.doeErr }
  else match k with
    | .cdat => s.emit (.doe p l 0 x.cdat)
    | .discovery => s.emit (.doe p l 0 [0, 1, 2, 3, 4])
    | .spdm => let (d, s) := s.draw; s.emit (.doe p l 0 (Config.standardReply 1 n d))
    | .secured => let (d, s) := s.draw; s.emit (.doe p l 0 (Config.standardReply 2 n d))
    | .ideKm => let (d, s) := s.draw; s.emit (.doe p l 0 (Config.standardReply 5 n d))
    | _ => s.emit (.doe p l 2 [])

def execDoeObject (p : Fin 16) (l : Fin 2) (f : Func) (k : DoeKind) (n : Nat) (s : State) : Result :=
  run s fun s => s.doe p.val l.val f k n

end Sys2Proof.Machine
end

