-- ==== Sys2Proof/Machine/Cmd.lean ====
section
/-!
DEFINITION. Command packets (R157 - R161), admission (R159, R160) with the format rules of the Spire opcodes (R202 - R204,
R215 - R217, R221 - R234), fetch turns (R154, R155), dispatch (R20, R191, R192, R368, R409), heavy commands (R162, R193,
R351), completion (R164 - R166) and the mailbox (R171).
-/
namespace Sys2Proof.Machine

/-! ## The packet (R157, R158) -/

/-- Parameter word P`k`. -/
def Cmd.p (c : Cmd) (k : Nat) : Nat := bits c.pkt.toNat (64 + 64 * k) 64
/-- Bits of a parameter word. -/
def Cmd.pb (c : Cmd) (k lo w : Nat) : Nat := bits (c.p k) lo w
def Cmd.opcode (c : Cmd) : Nat := bits c.pkt.toNat 0 8
def Cmd.asp (c : Cmd) : Nat := bits c.pkt.toNat 16 4
def Cmd.tag (c : Cmd) : Nat := if c.noTag then 0 else bits c.pkt.toNat 32 32
def Cmd.ofQueue (c : Cmd) : Option Nat := match c.src with | .queue q => some q | _ => none
/-- A flag of byte 1; the mailbox ignores the flags (R171). -/
def Cmd.flag (c : Cmd) (i : Nat) : Bool := c.ofQueue.isSome && bit c.pkt.toNat (8 + i)
def Cmd.fence (c : Cmd) : Bool := c.flag 0
def Cmd.quiet (c : Cmd) : Bool := c.flag 1
def Cmd.irq (c : Cmd) : Bool := c.flag 2
def Cmd.halt (c : Cmd) : Bool := c.flag 3
/-- The context a command runs under (R19). -/
def Cmd.ctx (c : Cmd) : Ctx := BitVec.ofNat 16 (c.dome * 16 + c.asp)
/-- The subject Dome of a control command (R158). -/
def Cmd.subject (c : Cmd) : Nat := if c.dome = 0 then c.pb 0 0 12 else c.dome

def m40 : Nat := 2 ^ 40 - 1
def m32 : Nat := 2 ^ 32 - 1
def m64 : Nat := 2 ^ 64 - 1
def pvaTop : Nat := 2 ^ 52

/-- The bits P0 to P6 may hold, by opcode (R157, R161, R221 - R234); none where the opcode is not defined. The words not
listed are reserved. -/
def opMasks (op : Nat) : Option (List Nat) :=
  match op with
  | 0x00 => some [0xFFF]
  | 0x01 => some [0xFFF, 0x3FFFF, m64]
  | 0x02 => some [0xFFF, 0x3FFFF]
  | 0x03 => some [0xFFF, 0x3FFFF]
  | 0x04 => some [0xFFF, 2 ^ 45 - 1]
  | 0x08 => some [0xFFF]
  | 0x09 => some [0xFFF, m32, 1]
  | 0x0A => some [0xFFF, 0x1FF]
  | 0x0B => some [0xFFF, 0xFF]
  | 0x10 => some [0xFFF, m32, 0x1F7F, m64, m40]
  | 0x11 => some [0xFFF, m32, m32]
  | 0x12 => some [0xFFF, m64, m32, 0x1FF]
  | 0x14 => some [0xFFF, m32]
  | 0x15 => some [0xFFF, m32]
  | 0x18 => some [0xFFF, m32, 2 ^ 51 - 1]
  | 0x19 => some [0xFFF, m32, 1]
  | 0x1C => some [0xFFF, m64, pvaTop - 1]
  | 0x1D => some [0xFFF, 0xF, 2 ^ 45 - 1]
  | 0x20 => some [0xFFF, 0x1F, m64, m40]
  | 0x24 => some [0xFFF, m32, m32]
  | 0x28 => some [0xFFF, m32, m32, 3]
  | 0x29 => some [0xFFF, m32]
  | 0x40 => some [m64, m64, m40]
  | 0x41 => some [m64, m40, m64]
  | 0x42 => some [m64, m64, m40, m32, m40, m40]
  | 0x48 => some [m64, m64]
  | 0x80 => some [m64, m64, m40, 0xFFFF, m64]
  | 0x81 => some [m64, m64, m40, m64, m64, 0xFFFF]
  | 0x82 => some [m64, m64, m40, 0xFFFF]
  | 0x84 => some [m64, m64, m64, m64, m64, 2 ^ 56 - 1, 2 ^ 43 - 1]
  | 0x88 => some [m64, m64, m64, m40, m64, m64, 0xFFFFF]
  | 0x8C => some [m64, m64, m64, m64, m64, 0xFFFFFFFF0000FFFF, m64]
  | 0x90 => some [m64, m40, 0x1FFFF, m64, m64, 0xFFFF, m32]
  | 0x94 => some [m64, m40, 1, m64]
  | 0x98 => some [m64, m64, m64, m40, m64, 2 ^ 63 - 1]
  | 0xC0 => some [2 ^ 38 - 1, m40, m64, m40]
  | 0xC1 => some [2 ^ 38 - 1, m40, m64, m40]
  | 0xC4 => some [0x3F00000000]
  | _ => none

/-- The parameter words that are PVAs (R36). -/
def opPvas (op : Nat) : List Nat :=
  match op with
  | 0x01 => [2]
  | 0x10 => [3]
  | 0x1C => [1]
  | 0x20 => [2]
  | 0x40 => [0, 1]
  | 0x41 => [0]
  | 0x42 => [0, 1]
  | 0x48 => [0]
  | 0x80 => [0, 1]
  | 0x81 => [0, 1, 3]
  | 0x82 => [0, 1]
  | 0x84 => [0, 1, 3, 4]
  | 0x88 => [0, 1, 2, 4, 5]
  | 0x8C => [0, 1, 2, 3, 6]
  | 0x90 => [0, 3, 4]
  | 0x94 => [0]
  | 0x98 => [0, 1, 2]
  | 0xC0 => [2]
  | 0xC1 => [2]
  | _ => []

/-- The opcodes only Dome 0 may submit (R161). -/
def opZ (op : Nat) : Bool :=
  ([0x01, 0x04, 0x08, 0x09, 0x0A, 0x0B, 0x18, 0x19, 0x1D, 0x20, 0x24] : List Nat).contains op

def isControl (op : Nat) : Bool := decide (op < 0x40)
def isSpire (op : Nat) : Bool := decide (0x80 ≤ op ∧ op < 0xC0)

/-! ## Format words (R203, R204, R216) -/

/-- Where an opcode's format word lies. -/
def fmtWordAt (op : Nat) : Option Nat :=
  match op with
  | 0x80 => some 3
  | 0x81 => some 5
  | 0x82 => some 3
  | 0x84 => some 5
  | 0x88 => some 6
  | 0x8C => some 5
  | 0x90 => some 5
  | _ => none

def Cmd.fw (c : Cmd) : Nat := match fmtWordAt c.opcode with | some k => c.pb k 0 16 | none => 0
def Cmd.fa (c : Cmd) : Nat := bits c.fw 0 3
def Cmd.fb (c : Cmd) : Nat := bits c.fw 3 3
def Cmd.fo (c : Cmd) : Nat := bits c.fw 6 3
def Cmd.sr (c : Cmd) : Bool := bit c.fw 9
def Cmd.sat (c : Cmd) : Bool := bit c.fw 10

/-- A scale field: the scale of an INT8 operand, 0 where the operand is not INT8 (R202). -/
def scaleField (code w : Nat) : Bool := if code = 7 then scaleOk (BitVec.ofNat 32 w) else w == 0

/-- An operand's base and element count fit its format (R201, R204). -/
def operandOk (code base n : Nat) : Bool := base % fmtAlign code == 0 && (!isMx code || n % 32 == 0)

/-- Two ranges given by base and length share a byte. -/
def meet (a b : Nat × Nat) : Bool :=
  a.2 != 0 && b.2 != 0 && decide (a.1 < b.1 + b.2) && decide (b.1 < a.1 + a.2)

/-- An output range shares a byte with an input or with another output (R217). -/
def overlaps (ins outs : List (Nat × Nat)) : Bool :=
  outs.any (fun o => ins.any fun i => meet o i) ||
    (outs.zipIdx.any fun o => outs.zipIdx.any fun p => decide (o.2 < p.2) && meet o.1 p.1)

/-- AXPY reads y unless β is ±0 (R222). -/
def Cmd.readsY (c : Cmd) : Bool := c.pb 4 32 31 != 0

/-- ATTN_PARTIAL's D, H, P and the number of query rows (R230). -/
def Cmd.attD (c : Cmd) : Nat := c.pb 4 16 9
def Cmd.attH (c : Cmd) : Nat := c.pb 4 25 5
def Cmd.attP (c : Cmd) : Nat := c.pb 4 30 10
def Cmd.attNq (c : Cmd) : Nat := c.attH * c.attP

/-- The operand ranges a Spire command's packet gives: inputs and outputs (R217). -/
def Cmd.ranges (c : Cmd) : List (Nat × Nat) × List (Nat × Nat) :=
  match c.opcode with
  | 0x80 => let n := c.pb 2 0 40; ([(c.p 0, fmtBytes c.fa n)], [(c.p 1, fmtBytes c.fo n)])
  | 0x81 =>
    let n := c.pb 2 0 40
    let inPlace := c.p 3 == c.p 1 && c.fb == c.fo
    ([(c.p 0, fmtBytes c.fa n)] ++ (if c.readsY && !inPlace then [(c.p 1, fmtBytes c.fb n)] else []),
      [(c.p 3, fmtBytes c.fo n)])
  | 0x82 => let n := c.pb 2 0 40; ([(c.p 0, fmtBytes c.fa n)], [(c.p 1, fmtBytes c.fo n)])
  | 0x84 =>
    let bags := c.pb 2 32 32
    ([(c.p 1, c.pb 2 0 32 * (if bit (c.p 6) 42 then 8 else 4)), (c.p 3, 4 * bags)],
      [(c.p 4, bags * fmtBytes c.fo (c.pb 5 16 16))])
  | 0x88 =>
    let n := c.pb 3 0 40
    ([(c.p 4, fmtBytes c.fa n), (c.p 5, 64)],
      [(c.p 0, 4 * n), (c.p 1, 4 * n)] ++ (if c.pb 6 16 2 = 0 then [(c.p 2, 4 * n)] else []))
  | 0x8C =>
    let kv := fmtBytes c.fb (c.pb 4 0 16 * c.attD)
    ([(c.p 0, fmtBytes c.fa (c.attNq * c.attD)), (c.p 1, kv), (c.p 2, kv)],
      [(c.p 3, fmtBytes c.fo (c.attNq * c.attD)), (c.p 6, 8 * c.attNq)])
  | 0x90 =>
    let k := c.pb 2 0 16
    ([(c.p 0, fmtBytes c.fa (c.pb 1 0 40))], [(c.p 3, fmtBytes c.fo k), (c.p 4, 8 * k)])
  | 0x94 => ([(c.p 0, c.pb 1 0 40)], [])
  | 0x98 => let n := c.pb 3 0 40; ([(c.p 1, n)], [(c.p 2, n), (c.p 0, 8)])
  | _ => ([], [])

/-- The format checks of a Spire opcode (R202 - R204, R216, R217, R224, R227, R230, R232, R168). True: FORMAT_INVALID. -/
def Cmd.spireBad (c : Cmd) : Bool :=
  let fa := c.fa
  let fb := c.fb
  let fo := c.fo
  let (ins, outs) := c.ranges
  bits c.fw 11 5 != 0 || overlaps ins outs ||
  match c.opcode with
  | 0x80 =>
    let n := c.pb 2 0 40
    fb != 0 || (fa == 7 && fo != 0 && fo != 7) || !scaleField fa (c.pb 4 0 32) || !scaleField fo (c.pb 4 32 32) ||
      !operandOk fa (c.p 0) n || !operandOk fo (c.p 1) n
  | 0x81 =>
    let n := c.pb 2 0 40
    fa == 7 || fb == 7 || fo == 7 || !operandOk fa (c.p 0) n || (c.readsY && !operandOk fb (c.p 1) n) ||
      !operandOk fo (c.p 3) n
  | 0x82 =>
    let n := c.pb 2 0 40
    fa == 7 || fb != 0 || decide (2 < fo) || !operandOk fa (c.p 0) n || !operandOk fo (c.p 1) n
  | 0x84 =>
    let bags := c.pb 2 32 32
    let dim := c.pb 5 16 16
    let stride := c.pb 5 32 24
    fa == 7 || fb != 0 || fo == 7 || bags == 0 || decide (1048576 < bags) || dim == 0 || decide (4096 < dim) ||
      decide (stride < fmtBytes fa dim) || stride % fmtAlign fa != 0 || c.pb 6 0 40 == 0 || c.pb 6 40 2 == 3 ||
      !operandOk fa (c.p 0) dim || !operandOk fo (c.p 4) dim || c.p 1 % (if bit (c.p 6) 42 then 8 else 4) != 0 ||
      c.p 3 % 4 != 0
  | 0x88 =>
    let alg := c.pb 6 16 2
    let copy := bit (c.p 6) 18
    fa == 0 || decide (4 < fa) || fb != 0 || (if copy then fo == 0 || decide (4 < fo) else fo != 0 || c.sr || c.sat) ||
      alg == 3 || (alg != 0 && c.p 2 != 0) || c.p 5 % 64 != 0 || c.p 0 % 4 != 0 || c.p 1 % 4 != 0 || c.p 2 % 4 != 0 ||
      !operandOk fa (c.p 4) 0
  | 0x8C =>
    decide (4 < fa) || fb == 0 || fb == 7 || decide (2 < fo) || c.attD == 0 || decide (256 < c.attD) || c.attH == 0 ||
      decide (16 < c.attH) || c.attP == 0 || (!bit (c.p 4) 40 && c.pb 4 41 23 != 0) || (isMx fb && c.attD % 32 != 0) ||
      !fIsFin (BitVec.ofNat 32 (c.pb 5 32 32)) || !operandOk fa (c.p 0) 0 || !operandOk fb (c.p 1) 0 ||
      !operandOk fb (c.p 2) 0 || !operandOk fo (c.p 3) 0 || c.p 6 % 8 != 0
  | 0x90 =>
    fb != 0 || c.sr || c.sat || !(fo == 0 || (fo == fa && !isMx fa)) || !scaleField fa (c.pb 6 0 32) ||
      !operandOk fa (c.p 0) (c.pb 1 0 40) || !operandOk fo (c.p 3) 0 || c.p 4 % 8 != 0
  | 0x94 => c.pb 2 0 1 == 0 && c.pb 3 32 32 != 0
  | 0x98 => c.p 0 % 8 != 0 || c.pb 5 0 63 == c.pb 4 0 63
  | _ => false

-- Log entry 77: DESIGN CHOICE, unsafe.
/-- Persistent state of a Spire command in bytes (R197, R215). -/
def Cmd.stateBytes (c : Cmd) : Nat :=
  match c.opcode with
  | 0x84 => 64 * c.pb 5 16 16
  | 0x88 => 64
  | 0x8C => c.attNq * (4 * c.attD + 8) + fmtBytes c.fa (c.attNq * c.attD)
  | 0x90 => 12 * c.pb 2 0 16
  | _ => 0

/-- The bytes a Spire command counts toward R193 (R215). -/
def Cmd.counted (c : Cmd) : Nat :=
  match c.opcode with
  | 0x80 => let n := c.pb 2 0 40; fmtBytes c.fa n + fmtBytes c.fo n
  | 0x81 => let n := c.pb 2 0 40; fmtBytes c.fa n + (if c.readsY then fmtBytes c.fb n else 0) + fmtBytes c.fo n
  | 0x82 => let n := c.pb 2 0 40; fmtBytes c.fa n + 2 * fmtBytes c.fo n
  | 0x84 =>
    let n := c.pb 2 0 32
    let bags := c.pb 2 32 32
    let dim := c.pb 5 16 16
    n * ((if bit (c.p 6) 42 then 8 else 4) + fmtBytes c.fa dim) + 4 * bags + bags * fmtBytes c.fo dim
  | 0x88 =>
    let n := c.pb 3 0 40
    fmtBytes c.fa n + n * (if c.pb 6 16 2 = 0 then 24 else 16) + (if bit (c.p 6) 18 then fmtBytes c.fo n else 0) + 64
  | 0x8C =>
    let q := c.attNq * c.attD
    2 * fmtBytes c.fb (c.pb 4 0 16 * c.attD) + fmtBytes c.fa q + fmtBytes c.fo q + 8 * c.attNq
  | 0x90 => fmtBytes c.fa (c.pb 1 0 40) + fmtBytes c.fo (c.pb 2 0 16) + 8 * c.pb 2 0 16
  | 0x94 => c.pb 1 0 40
  | 0x98 => 2 * c.pb 3 0 40 + 16
  | _ => 0

/-- The bytes a data-movement or fabric command moves (R162). -/
def Cmd.moved (c : Cmd) : Nat :=
  match c.opcode with
  | 0x40 => c.pb 2 0 40
  | 0x41 => c.pb 1 0 40
  | 0x42 => c.pb 2 0 40 * c.pb 3 0 32
  | 0xC0 => c.pb 3 0 40
  | 0xC1 => c.pb 3 0 40
  | _ => 0

/-- Whether a command is a heavy operation (R162, R193). -/
def Cmd.isHeavy (c : Cmd) : Bool :=
  if isSpire c.opcode then decide (4096 < c.counted) else decide (2 ^ 20 < c.moved)

/-! ## Admission (R159, R160) -/

-- Log entry 62: DEDUCED, unsafe.
/-- A reserved bit is set, a field lies outside its range, or a PVA has a bit above 51 set. -/
def Cmd.formatBad (c : Cmd) (masks : List Nat) : Bool :=
  let h := c.pkt.toNat
  bits h 12 4 != 0 || bits h 20 12 != 0 ||
  ((List.range 7).any fun k => c.p k != c.p k &&& masks.getD k 0) ||
  ((opPvas c.opcode).any fun k => decide (pvaTop ≤ c.p k)) ||
  (match c.opcode with
    | 0x04 => c.p 1 % 4096 != 0
    | 0x10 =>
      let aff := bit (c.p 2) 5
      let contig := bit (c.p 2) 6
      let al := c.pb 2 8 5
      (aff && contig) || decide (18 < al) || (al != 0 && !contig)
    | 0x18 => c.p 2 % 65536 != 0
    | 0x1D => c.p 2 % 4096 != 0
    | 0x40 => meet (c.p 0, c.p 2) (c.p 1, c.p 2)
    | 0x48 => c.p 0 % 8 != 0
    | _ => false) ||
  (isSpire c.opcode && c.spireBad)

/-- A count of 0 that makes the command do nothing (R160, R161). -/
def Cmd.zeroCount (c : Cmd) : Bool :=
  match c.opcode with
  | 0x10 => c.p 1 == 0
  | 0x11 => c.p 2 == 0
  | 0x12 => c.p 2 == 0
  | 0x1C => c.p 2 == 0
  | 0x28 => c.p 2 == 0
  | 0x40 => c.p 2 == 0
  | 0x41 => c.p 1 == 0
  | 0x42 => c.p 2 == 0 || c.p 3 == 0
  | 0x80 => c.p 2 == 0
  | 0x81 => c.p 2 == 0
  | 0x82 => c.p 2 == 0
  | 0x84 => c.pb 2 0 32 == 0
  | 0x88 => c.p 3 == 0
  | 0x8C => c.pb 4 0 16 == 0
  | 0x90 => c.p 1 == 0 || c.pb 2 0 16 == 0
  | 0xC0 => c.p 3 == 0
  | 0xC1 => c.p 3 == 0
  | _ => false

-- Log entry 61: DEDUCED, unsafe.
/-- A range lies beyond 2^52 or beyond what the opcode table names (R160, R161, R197, R224). -/
def State.rangeExceeds (s : State) (c : Cmd) : Bool :=
  let past := fun (a n : Nat) => decide (pvaTop < a + n)
  match c.opcode with
  | 0x01 => past (c.p 2) 64
  | 0x10 => decide (c.p 4 < 4 * c.p 1) || past (c.p 3) (c.p 4)
  | 0x11 => decide (s.tenantCells < c.p 1 + c.p 2)
  | 0x12 => decide (s.tenantCells < c.p 1 + c.p 2)
  | 0x14 => decide (s.tenantCells ≤ c.p 1)
  | 0x15 => decide (s.tenantCells ≤ c.p 1)
  | 0x1C => past (c.p 1) (c.p 2)
  | 0x28 => decide (s.tenantCells < c.p 1 + c.p 2)
  | 0x40 => past (c.p 0) (c.p 2) || past (c.p 1) (c.p 2)
  | 0x41 => past (c.p 0) (c.p 1)
  | 0x42 =>
    let n := c.p 3 - 1
    decide (m40 < c.p 2 * c.p 3) || past (c.p 0) (n * c.p 4 + c.p 2) || past (c.p 1) (n * c.p 5 + c.p 2)
  | 0x48 => past (c.p 0) 8
  | 0xC0 => past (c.p 2) (c.p 3)
  | 0xC1 => past (c.p 2) (c.p 3)
  | op =>
    isSpire op &&
      (((c.ranges.1 ++ c.ranges.2).any fun r => past r.1 r.2) || decide (9175040 < c.stateBytes) ||
        (op == 0x90 && decide (c.p 1 < c.pb 2 0 16)) || (op == 0x84 && past (c.p 0) (c.pb 6 0 40 * c.pb 5 32 24)))

-- Log entry 62: DEDUCED, unsafe.
/-- What admission decides: a status that completes the command, or none where it is to be executed (R159). -/
def State.admission (s : State) (c : Cmd) : Option Nat :=
  match opMasks c.opcode with
  | none => some stOpcode
  | some masks =>
    if c.formatBad masks then some stFormat
    else if opZ c.opcode && c.dome != 0 then some stDenied
    else if isControl c.opcode && c.pb 0 0 12 != 0 && c.dome != 0 then some stDenied
    else if c.zeroCount then some stOK
    else if s.rangeExceeds c then some stLength
    else none

/-! ## Contexts -/

-- Log entry 110: DEDUCED, unsafe.
def mbxCtx : Nat := 16384

def State.cmd (s : State) (k : Nat) : Option Cmd := SMap.find s.q.cmds k
def State.putCmd (s : State) (k : Nat) (c : Cmd) : State := { s with q := { s.q with cmds := SMap.put s.q.cmds k c } }

/-- A queue's commands fetched and not completed. -/
def State.inflight (s : State) (q : Nat) : Nat := (s.q.cmds.filter fun e => e.2.src == .queue q).length

/-- A queue's command is kept from starting while the device is in the device fault state (R330). -/
def State.heldBack (s : State) (c : Cmd) : Bool := s.bel.active && c.ofQueue.isSome

-- Log entry 110: DEDUCED, unsafe.
/-- Contexts in use, as QCTL_STATUS shows them. -/
def State.showInflight (s : State) : State := s.fSet F.QCTL_STATUS_inflight (min 16384 s.q.cmds.length)

/-- Updates of a mover's or a Spire's command that hold, or wait for, their line end without a write. -/
def State.endUpds (s : State) (k : Nat) : State :=
  (s.home.txs.filter fun t => t.upd && (match t.origin with | .mover _ c => c == k | .spire _ c => c == k | _ => false)).foldl
    (fun s t => s.dropTx t) s

/-- A command has its status; R165 is left to COMMAND_COMPLETE. Poison consumed by a command that ran to its end is its
status (R90, R167). -/
def State.endCmd (s : State) (k : Nat) (c : Cmd) (status result : Nat) : State :=
  let st := if status = stOK ∧ c.poison then stPoison else status
  (s.putCmd k { c with st := .done, status := st, result := result, pos := 0, aux := 0, part := [], wbuf := [],
                        beats := [], ending := none, undef := [] }).endUpds k

/-! ## Heavy commands (R351) -/

def Engine.same : Engine → Engine → Bool
  | .mover a, .mover b => a == b
  | .spireQ a, .spireQ b => a == b
  | _, _ => false

/-- The engine presents its oldest heavy command that waits for leave, one at a time. -/
def State.present (s : State) (e : Engine) : State :=
  let mine := s.q.cmds.filter fun x => x.2.eng.same e && x.2.st == .leaveWait
  if mine.any fun x => s.pwr.queue.any fun r => r.owner == .cmd x.1 then s
  else
    let first := mine.foldl (fun (a : Option (Nat × Cmd)) x => match a with
      | none => some x
      | some b => if x.2.seq < b.2.seq then some x else some b) none
    match first with
    | none => s
    | some (k, c) =>
      let s := s.pguAsk (if isSpire c.opcode then 0 else 1) (.cmd k)
      if s.hasLeave (.cmd k) then s.putCmd k { c with st := .queued, leave := true } else s

/-! ## Dispatch (R20, R191, R192, R368, R409) -/

/-- A Spire in service (R191). -/
def State.inService (s : State) (n : Nat) : Bool :=
  s.fB F.SPIRE_CTL_enable n && s.fB F.SPIRE_STATUS_st_pass n && s.domainOn (13 + n / 6) && !s.fB F.SPIRE_CTL_hold n

/-- Shows a Spire's queue, slots and service in SPIRE_STATUS. -/
def State.showSpire (s : State) (n : Nat) : State :=
  let p := s.spire n
  ((s.fSet F.SPIRE_STATUS_opq (min 256 p.opq.length) n).fSet F.SPIRE_STATUS_active p.slots.length n).fFlag
    F.SPIRE_STATUS_in_service (s.inService n) n

/-- The word that holds a Spire opcode's primary operand (R215). -/
def Cmd.primary (c : Cmd) : Nat :=
  match c.opcode with
  | 0x82 => c.p 1
  | 0x84 => c.p 1
  | 0x8C => c.p 1
  | 0x98 => if c.pb 3 0 40 = 0 then c.p 0 else c.p 2
  | _ => c.p 0

-- Log entry 71: DEDUCED, unsafe.
/-- The channel of a primary operand's first line as the tables map it; channel 0 where they map none. -/
def State.primaryChan (s : State) (c : Cmd) : Nat :=
  match s.walkPeek c.ctx c.primary with
  | .leaf d sh _ _ => ((s.locate (d + c.primary % 2 ^ sh)).map fun x => x.1).getD 0
  | _ => 0

-- Log entry 71: DEDUCED, unsafe.
/-- The Spire a command is dispatched to: the named one, or the next in service (R191). -/
def State.pickSpire (s : State) (n : Nat) : Option Nat := ((List.range 24).map fun k => (n + k) % 24).find? fun m => s.inService m

def State.moverLoad (s : State) (n : Nat) : Nat := (s.q.cmds.filter fun e => e.2.eng == .mover n).length

-- Log entry 71: DEDUCED, unsafe.
/-- The mover that holds the fewest commands, the lowest-numbered among equals (R409). -/
def State.pickMover (s : State) : Option Nat :=
  let n := (List.range 32).foldl (fun a k => if s.moverLoad k < s.moverLoad a then k else a) 0
  if s.moverLoad n < 16 then some n else none

/-- Gives a command to its engine; where the engine has no room the command stays as fetched and not completed. -/
def State.dispatch (s : State) (k : Nat) (c : Cmd) : State :=
  let place := fun (e : Engine) =>
    let heavy := c.isHeavy
    (s.putCmd k { c with eng := e, heavy := heavy, st := if heavy then .leaveWait else .queued }).present e
  if s.heldBack c then s.putCmd k { c with st := .queued }
  else if isControl c.opcode then
    if s.q.fwBuf.length < 256 then
      let s := s.putCmd k { c with eng := .fwBuffer, st := .queued }
      { s with q := { s.q with fwBuf := s.q.fwBuf ++ [k] } }
    else s.putCmd k { c with st := .queued }
  else if isSpire c.opcode then
    match s.pickSpire (s.primaryChan c) with
    | none => s.endCmd k c stBusy 0
    | some n =>
      if (s.spire n).opq.length < 256 then
        let s := place (.spireQ n)
        let p := s.spire n
        (s.setSpire n { p with opq := p.opq ++ [k] }).showSpire n
      else s.putCmd k { c with st := .queued }
  else match s.pickMover with
    | some n => place (.mover n)
    | none => s.putCmd k { c with st := .queued }

/-- Commands kept for want of room go to their engines, oldest first. -/
def State.redispatch (s : State) : State :=
  let ks := (s.q.cmds.filter fun e => e.2.st == .queued && e.2.eng == .none).mergeSort fun a b => decide (a.2.seq ≤ b.2.seq)
  ks.foldl (fun s e => s.dispatch e.1 e.2) s

/-- A new command in a free context: stopped by admission, or dispatched; with a fence it waits for every earlier command
of its queue. -/
def State.startCmd (s : State) (k : Nat) (c : Cmd) : State :=
  match s.admission c with
  | some st => s.endCmd k c st 0
  | none =>
    if c.fence then s.putCmd k { c with st := .fence } else s.dispatch k c

/-- A fresh command record. -/
def newCmd (src : CmdSrc) (dome seq : Nat) (pkt : BitVec 512) (start : Nat) : Cmd :=
  ⟨src, dome, seq, pkt, false, .none, .queued, false, false, 0, 0, false, 0, 0, start, [], 0, [], (0, 0), [], [], [], none, []⟩

/-! ## Fetch (R154 - R156) -/

/-- A command that has not started yet. -/
def Cmd.unstarted (c : Cmd) : Bool := c.st == .fence || c.st == .queued || c.st == .leaveWait

/-- Whether queue control may fetch from a queue; a fenced command holds fetching until it has started (R154, R166). -/
def State.canFetch (s : State) (q : Nat) (d : QDesc) : Bool :=
  let n := s.inflight q
  !s.bel.active && d.state == .active && d.head != d.tail && decide (n < d.maxInflight) &&
    (d.mode % 2 == 0 || decide ((d.ctail + 2 ^ d.cringLog2 - d.chead) % 2 ^ d.cringLog2 + n < 2 ^ d.cringLog2 - 1)) &&
    (SMap.firstFree s.q.cmds 16384).isSome && !(s.q.cmds.any fun e => e.2.src == .queue q && e.2.fence && e.2.unstarted)

/-- The smallest number above `last` in a list, else the smallest. -/
def nextAfter (last : Nat) (l : List Nat) : Option Nat :=
  let lo := fun (xs : List Nat) => xs.foldl (fun (a : Option Nat) x => match a with
    | none => some x
    | some y => some (min x y)) none
  (lo (l.filter fun x => decide (last < x))).orElse fun _ => lo l

/-- The queue whose turn it is and the packets its turn may still fetch (R155). -/
def State.nextTurn (s : State) : Option (Nat × Nat) :=
  let ok := s.q.desc.filter fun e => s.canFetch e.1 e.2
  match s.q.turn with
  | some (q, n) =>
    if n ≠ 0 ∧ ok.any fun e => e.1 == q then some (q, n) else pick ok
  | none => pick ok
where
  pick (ok : SMap QDesc) : Option (Nat × Nat) :=
    (nextAfter s.q.lastDome (ok.map fun e => e.2.dome)).bind fun d =>
      (nextAfter (SMap.findD s.q.lastQ d 0) ((ok.filter fun e => e.2.dome == d).map fun e => e.1)).bind fun q =>
        (SMap.find ok q).map fun e => (q, e.burst + 1)

/-- The turn after a packet of queue `q` was fetched: it ends where R154 stops it. -/
def State.turnNow (s : State) (q left : Nat) : State :=
  let go := left != 0 && (match SMap.find s.q.desc q with | some d => s.canFetch q d | none => false)
  { s with q := { s.q with turn := if go then some (q, left) else none } }

-- Log entry 110: DEDUCED, unsafe.
/-- One packet fetched. A packet whose fetch is refused, or that holds poison, executes nothing; no flag of it counts
(R156). -/
def State.packetFetch (s : State) : State :=
  match s.nextTurn with
  | none => { s with q := { s.q with turn := none } }
  | some (q, left) =>
    let s := { s with q := { s.q with turn := some (q, left) } }
    match SMap.find s.q.desc q, SMap.firstFree s.q.cmds 16384 with
    | some d, some k =>
      let ctx : Ctx := BitVec.ofNat 16 (d.dome * 16)
      let line := d.ringBase / 64 + d.head
      match s.engTake { newTx .rdCur (.queue q) ctx line 32 with fill := some d.dome } with
      | (s, none) => s
      | (s, some r) =>
        let seq := s.q.nextSeq
        let d := { d with head := (d.head + 1) % 2 ^ d.ringLog2 }
        let q' := { s.q with desc := SMap.put s.q.desc q d, nextSeq := seq + 1, lastDome := d.dome,
                             lastQ := SMap.put s.q.lastQ d.dome q }
        let s := { s with q := q' }
        let stop := fun (s : State) (st : Nat) =>
          s.endCmd k { newCmd (.queue q) d.dome seq 0 s.pwr.refTime with noTag := true } st 0
        let s := match r with
          | .no e => stop s e.status
          | .ok l =>
            if l.anyPoison then stop (s.consume ctx line) stPoison
            else s.startCmd k (newCmd (.queue q) d.dome seq l.data s.pwr.refTime)
        (s.turnNow q (left - 1)).showInflight
    | _, _ => s

-- Log entry 3: DESIGN CHOICE, safe.
/-- PACKET_FETCH. -/
def execPacketFetch (s : State) : Result := run s fun s => s.packetFetch

-- Log entry 62: DEDUCED, unsafe.
/-- A fenced command starts once every earlier command of its queue has completed (R166). -/
def State.fenceRelease (s : State) (k : Nat) : State :=
  match s.cmd k with
  | some c =>
    if c.st == .fence && !s.heldBack c &&
        !(s.q.cmds.any fun e => e.2.src == c.src && decide (e.2.seq < c.seq)) then s.dispatch k c
    else s
  | none => s

/-- FENCE_RELEASE. -/
def execFenceRelease (k : Fin 16384) (s : State) : Result := run s fun s => s.fenceRelease k

/-! ## Completion (R164 - R166, R171) -/

/-- The 16 bytes of a status reply. -/
def replyBits (tag head status phase result : Nat) : Nat :=
  tag % 2 ^ 32 + head % 2 ^ 16 * 2 ^ 32 + status * 2 ^ 48 + phase * 2 ^ 56 + result % 2 ^ 64 * 2 ^ 64

/-- A write of some bytes of one line by queue control. -/
def qWrite (ctx : Ctx) (dpa n v : Nat) : EngWr :=
  ⟨ctx, dpa / 64, ⟨BitVec.ofNat 512 (v * 2 ^ (8 * (dpa % 64))), 0⟩, rangeBe (dpa % 64) n, 32, .other, .none, some (domeOf ctx)⟩

-- Log entry 110: DEDUCED, unsafe.
/-- Adds 1 to the count word under its line lock; a poisoned word is consumed and left as it is, and an update that is
refused counts as done. False: it waits. -/
def State.countUp (s : State) (o : Origin) (ctx : Ctx) (dpa : Nat) : State × Bool :=
  let line := dpa / 64
  match s.engUpdate o ctx line 32 0 .none (some (domeOf ctx)) with
  | (s, .wait) => (s, false)
  | (s, .done _) => (s, true)
  | (s, .held l) =>
    let s := if l.poison.extractLsb' (dpa % 64 / 4) 2 ≠ 0 then (s.consume ctx line).engCancel o line
      else s.engFinish o line (l.setSlot8 (dpa % 64 / 8) (BitVec.ofNat 64 ((l.slot8 (dpa % 64 / 8)).toNat + 1)))
    (s, (s.engAns o line true fullBe).isSome)

/-- Whether an access was made for a command. -/
def Origin.ofCmd (o : Origin) (k : Nat) : Bool :=
  match o with
  | .mover _ c => c == k
  | .spire _ c => c == k
  | .fw c => c == k
  | .comp _ c => c == k
  | _ => false

/-- Accesses of a command that are not complete. -/
def State.busyFor (s : State) (k : Nat) : Bool :=
  s.home.txs.any (fun t => t.origin.ofCmd k) || s.fab.owin.any fun r => r.tx.origin.ofCmd k && r.ans.isNone

/-- A command issues no further beat: its updates end, its other accesses complete without it, window answers that come for
it are discarded (R186, R317). -/
def State.dropBeats (s : State) (k : Nat) : State :=
  let s := (s.home.txs.filter fun t => t.origin.ofCmd k && t.upd).foldl (fun s t => s.dropTx t) s
  let txs := s.home.txs.map fun t => if t.origin.ofCmd k then { t with origin := .gone t.origin.isBeat } else t
  { s with home := { s.home with txs := txs, answers := s.home.answers.filter fun a => !a.origin.ofCmd k },
           fab := { s.fab with owin := s.fab.owin.filter fun r => !r.tx.origin.ofCmd k } }

/-- Releases everything a completed command held. -/
def State.dropCmd (s : State) (k : Nat) (c : Cmd) : State :=
  let s := (s.dropBeats k).pguReturn (.cmd k)
  let q := { s.q with cmds := SMap.del s.q.cmds k, tcmReply := SMap.del s.q.tcmReply k, fwBuf := s.q.fwBuf.filter fun x => x != k,
                      areas := s.q.areas.filter fun x => x.2 != k }
  let s := { s with q := q }.combForget k
  let s := (List.range 24).foldl (fun s n =>
    let p := s.spire n
    if p.opq.contains k then
      let p' := { p with opq := p.opq.filter fun x => x != k, slots := p.slots.filter fun x => x.2 != k }
      let s := (s.setSpire n p').showSpire n
      if c.eng == .none then s else s.bump F.SPIRE_OPS_CNT_completed 1 n
    else s) s
  (s.present c.eng).redispatch.showInflight

/-- Answers a datagram and keeps the response for a repeated sequence (R377). -/
def State.respond (s : State) (who seq : Nat) (r : Resp) : State :=
  ({ s with cores := { s.cores with lastResp := SMap.put s.cores.lastResp who (seq, r) } }).emit
    (.mgmt r.code seq r.status r.payload)

-- Log entry 94: DEDUCED, unsafe.
/-- The reply of a command that has no queue (R171, R253, R378); Waggle source 9 is raised (R333). -/
def State.mailboxReply (s : State) (c : Cmd) : State :=
  let r := replyBits c.tag 0 c.status 0 c.result
  let s := match c.src with | .queue _ => s | _ => s.wagEvent 9
  match c.src with
  | .mailbox =>
    let s := (List.range 4).foldl (fun s n => s.wr R.QCTL_MBX_RPL (BitVec.ofNat 32 (bits r (32 * n) 32)) 0 n) s
    s.fFlag F.QCTL_MBX_CMD_busy false
  | .cxlMailbox p l =>
    (s.emit (.mailbox p l 0 ((List.range 16).map fun j => bits r (8 * j) 8))).fFlag F.QCTL_MBX_CMD_busy false
  | .mgmt =>
    let s := s.fFlag F.QCTL_MBX_CMD_busy false
    let bytes := (List.range 16).map fun j => bits r (8 * j) 8
    (match s.cores.mgmtCmd with
      | some (who, seq) => ({ s with cores := { s.cores with mgmtCmd := none } }).respond who seq ⟨0x4B12, c.status, bytes⟩
      | none => s.emit (.spdm 0x4B12 c.status bytes))
  | .queue _ => s

/-- Step 2 of R165: the reply goes to the ring slot that the command takes as it writes it. `pos` counts the steps begun and
`aux` holds the slot and its phase. False: it waits. -/
def State.replyStep (s : State) (k : Nat) (c : Cmd) (q : Nat) (d : QDesc) : State × Cmd × Bool :=
  let ctx : Ctx := BitVec.ofNat 16 (d.dome * 16)
  if d.mode % 2 = 0 || (c.status == stOK && c.quiet) then (s, c, true)
  else
    let (s, c) := if c.pos = 0 then
        let t := (d.ctail + 1) % 2 ^ d.cringLog2
        let d' := { d with ctail := t, phase := if t = 0 then !d.phase else d.phase }
        let c := { c with pos := 1, aux := 2 * d.ctail + (if d.phase then 1 else 0) }
        ({ s with q := { s.q with desc := SMap.put s.q.desc q d' } }.putCmd k c, c)
      else (s, c)
    match s.engWrite (.comp q k) 0 (qWrite ctx (d.cringBase + 16 * (c.aux / 2)) 16
        (replyBits c.tag d.head c.status (c.aux % 2) c.result)) with
    | (s, none) => (s, c, false)
    | (s, some _) => (s, c, true)

/-- A queue becomes HALTED: it fetches nothing; what is fetched completes (R166). -/
def State.haltQueue (s : State) (q : Nat) (d : QDesc) : State := (s.setDesc q { d with state := .halted }).dropOrigin (.queue q)

/-- Steps 3 and 4 of R165: the count word, the vector and the halt; then the command is gone. -/
def State.countStep (s : State) (k : Nat) (c : Cmd) (q : Nat) (d : QDesc) : State :=
  let ctx : Ctx := BitVec.ofNat 16 (d.dome * 16)
  let (s, ok) := if 2 ≤ d.mode then s.countUp (.comp q k) ctx d.countAddr else (s, true)
  if !ok then s
  else
    let s := if c.irq && d.irqEn then s.vecRaise d.dome d.vector else s
    let s := if c.halt && c.status != stOK then
        match SMap.find s.q.desc q with
        | some d => if d.state = .active then s.haltQueue q d else s
        | none => s
      else s
    s.dropCmd k c

/-- Steps 2 to 4 of R165 for a command of a queue. -/
def State.queueComplete (s : State) (k : Nat) (c : Cmd) (q : Nat) (d : QDesc) : State :=
  if c.pos = 2 then s.countStep k c q d
  else match s.replyStep k c q d with
    | (s, _, false) => s
    | (s, c, true) => (s.putCmd k { c with pos := 2 }).countStep k { c with pos := 2 } q d

/-- A command whose status is known completes, once every write it has made is applied (step 1 of R165). -/
def State.complete (s : State) (k : Nat) : State :=
  match s.cmd k with
  | some c =>
    if c.st != .done || (c.pos == 0 && s.busyFor k) then s
    else match c.src with
      | .queue q =>
        match SMap.find s.q.desc q with
        | some d => s.queueComplete k c q d
        | none => s.dropCmd k c
      | _ => (s.mailboxReply c).dropCmd k c
  | none => s

/-- COMMAND_COMPLETE. -/
def execCommandComplete (k : Fin 16385) (s : State) : Result := run s fun s => s.complete k

/-! ## The mailbox (R171) -/

/-- Starts a packet on the mailbox's context. -/
def State.mailboxStart (s : State) (src : CmdSrc) (pkt : BitVec 512) : State :=
  let seq := s.q.nextSeq
  let s := ({ s with q := { s.q with nextSeq := seq + 1 } }).fFlag F.QCTL_MBX_CMD_busy true
  (s.startCmd mbxCtx (newCmd src 0 seq pkt s.pwr.refTime)).showInflight

/-- The packet in QCTL_MBX_PKT0 to 15. -/
def State.mailboxPkt (s : State) : BitVec 512 :=
  BitVec.ofNat 512 ((List.range 16).foldl (fun a n => a + (s.rd R.QCTL_MBX_PKT 0 n).toNat * 2 ^ (32 * n)) 0)

/-- A write of QCTL_MBX_CMD; ignored while busy. -/
def State.mbxCmdWrite (s : State) (v : Word) : State :=
  if F.QCTL_MBX_CMD_go.on v && !s.fB F.QCTL_MBX_CMD_busy then s.mailboxStart .mailbox s.mailboxPkt else s

/-- MAILBOX_GO. -/
def execMailboxGo (s : State) : Result := run s fun s => s.mbxCmdWrite 1

-- Log entry 59: DEDUCED, unsafe.
/-- A write of QCTL_CTL (R147): enable is set only while the table lies in 256 allocated Dome-0 cells. -/
def State.qctlWrite (s : State) (v : Word) : State :=
  if s.fB F.QCTL_CTL_enable || !F.QCTL_CTL_enable.on v then s
  else if (List.range 256).all fun k =>
      decide (s.descBase + k * 65536 < s.memTop) && s.dome0Cell (s.descBase + k * 65536) then
    s.fFlag F.QCTL_CTL_enable true
  else s.fFlag F.QCTL_STATUS_refused true

/-- QCTL_ENABLE. -/
def execQctlEnable (s : State) : Result := run s fun s => s.qctlWrite 1

end Sys2Proof.Machine
end

