-- ==== Sys2Proof/Machine/Control.lean ====
section
/-!
DEFINITION. Control commands of firmware (R20, R158, R407): the control buffer and command areas (R368, R369), firmware's
own accesses, queues and doorbell pages (R148 - R150), Domes and share groups (R40, R408), cells (R46, R163), pins (R114,
R115), migration (R122 - R126), Comb maintenance (R176, R185), AGENT_DOWN, REKEY (R313), handles (R281).
-/
namespace Sys2Proof.Machine

/-! ## Command areas (R368, R369) -/

/-- The oldest command of the control buffer that may start. -/
def State.fwNext (s : State) : Option Nat :=
  s.q.fwBuf.find? fun k => match s.cmd k with | some c => !s.heldBack c | none => false

/-- The address of byte `i` of area `a` in the table of TCM bytes (R368). -/
def areaByte (n a i : Nat) : Nat := n * 2 ^ 20 + 0xFF800 + 128 * a + i

/-- Bytes 0 to 95 of an area: the packet, its queue, the queue's Dome. -/
def Cmd.areaImage (c : Cmd) : Nat :=
  let q := match c.src with | .queue q => q | _ => 2 ^ 31
  c.pkt.toNat + q * 2 ^ 512 + c.dome * 2 ^ 544

-- Log entry 67: DESIGN CHOICE, unsafe.
/-- Stores `n` bytes of a number in a TCM. -/
def State.tcmPut (s : State) (k n v : Nat) : State :=
  let m := (List.range n).foldl (fun m i => SMap.store m 0 (k + i) (BitVec.ofNat 8 (v / 2 ^ (8 * i)))) s.cores.tcm
  { s with cores := { s.cores with tcm := m } }

-- Log entry 67: DESIGN CHOICE, unsafe.
/-- `n` bytes of a TCM as a number. -/
def State.tcmGet (s : State) (k n : Nat) : Nat :=
  (List.range n).foldl (fun a i => a + (SMap.findD s.cores.tcm (k + i) 0).toNat * 2 ^ (8 * i)) 0

-- Log entry 66: DESIGN CHOICE, unsafe.
/-- A read of GLOBAL_FWCMD_TAKEn: the oldest command goes to the core's lowest free area. Gives the value read. -/
def State.fwTake (s : State) (n : Nat) : State × Word :=
  match s.fwNext, (List.range 16).find? fun a => (SMap.find s.q.areas (n * 16 + a)).isNone with
  | some k, some a =>
    match s.cmd k with
    | some c =>
      let s := (s.putCmd k { c with eng := .fwArea n a }).tcmPut (areaByte n a 0) 96 c.areaImage
      let s := { s with q := { s.q with fwBuf := s.q.fwBuf.filter (fun x => x != k), areas := SMap.put s.q.areas (n * 16 + a) k } }
      (s.redispatch, BitVec.ofNat 32 (2 ^ 31 + a))
    | none => (s, 0)
  | _, _ => (s, 0)

/-- FWCMD_TAKE. -/
def execFwcmdTake (n : Fin 8) (s : State) : Result :=
  run s fun s => let (s, v) := s.fwTake n; s.emit (.csr (R.GLOBAL_FWCMD_TAKE.addr 0 n) v)

/-- What still names a command that has been completed no longer does: units that work for it go on for nobody, sweeps of
it that have not started are dropped. -/
def State.orphan (s : State) (k : Nat) : State :=
  let none' : Nat := 20000
  let (idle, rest) := s.sec.sweeps.partition fun w => w.cmd == k && w.ptr == 1024
  let s := idle.foldl (fun s w => s.pguReturn (.sweep w.cell)) s
  let sweeps := rest.map fun w => if w.cmd == k then { w with cmd := none' } else w
  let tds := s.sec.teardowns.map fun e => (e.1, if e.2.cmd == some k then { e.2 with cmd := none } else e.2)
  let mig := s.honey.mig.map fun e => (e.1, if e.2.cmd == k then { e.2 with cmd := none' } else e.2)
  let downs := s.home.sweeps.map fun w => if w.cmd == some k then { w with cmd := none } else w
  let inval := s.comb.inval.map fun v => if v.cmd == some k then { v with cmd := none } else v
  { s with
    sec := { s.sec with sweeps := sweeps, teardowns := tds, rekeyRun := s.sec.rekeyRun.filter fun r => r.2 != k },
    honey := { s.honey with mig := mig }, home := { s.home with sweeps := downs },
    comb := { s.comb with inval := inval } }

-- Log entry 66: DESIGN CHOICE, unsafe.
/-- The command in an area completes with the status and result of bytes 96 to 111. -/
def State.fwDone (s : State) (n a : Nat) : State :=
  match SMap.find s.q.areas (n * 16 + a) with
  | none => s
  | some k =>
    match s.cmd k with
    | none => s
    | some c =>
      let r := match SMap.find s.q.tcmReply k with
        | some r => r.toNat
        | none => s.tcmGet (areaByte n a 96) 16
      let s := s.tcmPut (areaByte n a 96) 16 r
      let s := { s with q := { s.q with areas := SMap.del s.q.areas (n * 16 + a), tcmReply := SMap.del s.q.tcmReply k } }
      (s.orphan k).putCmd k { c with st := .done, eng := .none, status := bits r 48 8, result := bits r 64 64, pos := 0, aux := 0 }

/-- A write of GLOBAL_FWCMD_DONEn. -/
def State.fwDoneWrite (s : State) (n : Nat) (v : Word) : State := s.fwDone n (F.GLOBAL_FWCMD_DONE_area.of v)

/-- FWCMD_DONE. -/
def execFwcmdDone (n : Fin 8) (v : Word) (s : State) : Result := run s fun s => s.fwDoneWrite n v

/-! ## Running a control command -/

/-- What a control command comes to: its reply, or it waits and is taken up again. -/
inductive Ctl | done (st res : Nat) | wait
  deriving DecidableEq, Repr

-- Log entry 66: DESIGN CHOICE, unsafe.
/-- Firmware writes the reply of a command it holds. -/
def State.fwReply (s : State) (k st res : Nat) : State :=
  if (s.cmd k).isNone then s
  else { s with q := { s.q with tcmReply := SMap.put s.q.tcmReply k (BitVec.ofNat 128 (replyBits 0 0 st 0 res)) } }

/-- The check of a subject's state (R407): the status that stops the command. -/
def State.subjectBad (s : State) (c : Cmd) : Option Nat :=
  match s.domeSt c.subject with
  | .active => none
  | .free => some stDenied
  | .teardown => some stTeardown

-- Log entry 66: DESIGN CHOICE, unsafe.
/-- Firmware works on a control command it has taken. `chk` says that R407 applies. -/
def State.control (s : State) (k op : Nat) (chk : Bool) (f : State → Cmd → State × Ctl) : State :=
  match s.cmd k with
  | none => s
  | some c =>
    let held := match c.eng with | .fwArea _ _ => true | _ => false
    if !held || c.opcode != op || c.st == .done || (SMap.find s.q.tcmReply k).isSome then s
    else
      let first := c.st == .queued
      let c := { c with st := .running }
      let s := s.putCmd k c
      match (if first && chk then s.subjectBad c else none) with
      | some st => s.fwReply k st 0
      | none =>
        match f s c with
        | (s, .done st res) => ((s.clearAns (.fw k)).dropOrigin (.fw k)).fwReply k st res
        | (s, .wait) =>
          match s.cmd k with
          | some c => s.putCmd k { c with st := .blocked }
          | none => s

/-- Every request the home accepted before number `m` has been checked (R43, R46): it has left the home. Write-backs the home
keeps are no requests. -/
def State.drainedTo (s : State) (m : Nat) : Bool := s.home.txs.all fun t => decide (m ≤ t.id) || t.origin == .victim

/-- A change of owners, allocation or membership completes once the requests accepted before it have been checked. -/
def State.settle (s : State) (k : Nat) (st res : Nat) : State × Ctl :=
  match s.cmd k with
  | some c =>
    let s := (s.clearAns (.fw k)).dropOrigin (.fw k)
    let m := s.home.nextId
    if s.drainedTo m then (s, .done st res)
    else (s.putCmd k { c with pos := 1, aux := m, status := st, result := res }, .wait)
  | none => (s, .wait)

/-- The second half of a command that settles. -/
def State.settled (s : State) (c : Cmd) : Option (State × Ctl) :=
  if c.pos = 1 then some (s, if s.drainedTo c.aux then .done c.status c.result else .wait) else none

/-! ## Firmware's own accesses -/

inductive Fw | ok (v : Nat) | wait | fail (st : Nat)
  deriving DecidableEq, Repr

-- Log entry 69: DEDUCED, unsafe.
/-- Translates a PVA as firmware does: by a walk. -/
def State.fwXl (s : State) (o : Origin) (ctx : Ctx) (pva : Nat) (rd wr : Bool) : State × Fw :=
  if !s.fB F.COMB_CTL_enable then (s, .fail stTrans)
  else match s.walk o ctx pva with
    | (s, .leaf d sh r w) =>
      if (rd && !r) || (wr && !w) then (s, .fail stDenied) else (s, .ok (d + pva % 2 ^ sh))
    | (s, .wait) => (s, .wait)
    | (s, .poison) => (s, .fail stPoison)
    | (s, _) => (s, .fail stTrans)

/-- What a line read gives firmware: `n` bytes of it, the status of a refusal, or poison consumed (R90). -/
def State.fwTakeLine (s : State) (ctx : Ctx) (dpa n : Nat) (l : Line) : State × Fw :=
  let words := (List.range 16).any fun j => l.poison.getLsbD j && decide (dpa % 64 < 4 * j + 4) && decide (4 * j < dpa % 64 + n)
  if words then (s.consume ctx (dpa / 64), .fail stPoison)
  else (s, .ok (bits l.data.toNat (8 * (dpa % 64)) (8 * n)))

-- Log entries 65: DESIGN CHOICE, safe; 68: DEDUCED, safe.
/-- Reads `n` bytes of one line at a DPA, through the home or the outbound window that covers the line (R29). -/
def State.fwRead1 (s : State) (o : Origin) (ctx : Ctx) (dpa n : Nat) : State × Fw :=
  match s.owinFor ctx (dpa / 64) with
  | some w =>
    (match s.owinEng (newTx .rdCur o ctx (dpa / 64) 33) w with
      | (s, none) => (s, .wait)
      | (s, some none) => (s, .fail stPoison)
      | (s, some (some l)) => s.fwTakeLine ctx dpa n l)
  | none =>
    match s.engRead o ctx (dpa / 64) 33 0 .none (some (domeOf ctx)) with
    | (s, none) => (s, .wait)
    | (s, some (.no r)) => (s, .fail r.status)
    | (s, some (.ok l)) => s.fwTakeLine ctx dpa n l

/-- A write of `n` bytes of one line at a DPA. -/
def fwWr (ctx : Ctx) (dpa n v : Nat) : EngWr :=
  ⟨ctx, dpa / 64, ⟨BitVec.ofNat 512 (v % 2 ^ (8 * n) * 2 ^ (8 * (dpa % 64))), 0⟩, rangeBe (dpa % 64) n, 33, .other, .none,
    some (domeOf ctx)⟩

-- Log entries 65: DESIGN CHOICE, safe; 68: DEDUCED, safe.
/-- Writes `n` bytes of one line at a DPA, through the home or the outbound window that covers the line (R29). -/
def State.fwWrite1 (s : State) (o : Origin) (ctx : Ctx) (dpa n v : Nat) : State × Fw :=
  match s.owinFor ctx (dpa / 64) with
  | some w =>
    (match s.owinEng ((fwWr ctx dpa n v).tx o 0) w with
      | (s, none) => (s, .wait)
      | (s, some _) => (s, .ok n))
  | none =>
    match s.engWrite o 0 (fwWr ctx dpa n v) with
    | (s, none) => (s, .wait)
    | (s, some (some r)) => (s, .fail r.status)
    | (s, some none) => (s, .ok n)

-- Log entry 68: DEDUCED, safe.
/-- Reads `n` bytes at a PVA, line by line: `fuel` lines at most. -/
def State.fwGet (o : Origin) (ctx : Ctx) : Nat → State → Nat → Nat → State × Fw
  | 0, s, _, _ => (s, .ok 0)
  | fuel + 1, s, pva, n =>
    if n = 0 then (s, .ok 0)
    else
      let m := min n (64 - pva % 64)
      match s.fwXl o ctx pva true false with
      | (s, .ok d) =>
        match s.fwRead1 o ctx d m with
        | (s, .ok v) =>
          match State.fwGet o ctx fuel s (pva + m) (n - m) with
          | (s, .ok w) => (s, .ok (v + w * 2 ^ (8 * m)))
          | r => r
        | r => r
      | r => r

-- Log entry 68: DEDUCED, safe.
/-- Writes `n` bytes at a PVA, line by line. -/
def State.fwPut (o : Origin) (ctx : Ctx) : Nat → State → Nat → Nat → Nat → State × Fw
  | 0, s, _, _, _ => (s, .ok 0)
  | fuel + 1, s, pva, n, v =>
    if n = 0 then (s, .ok 0)
    else
      let m := min n (64 - pva % 64)
      match s.fwXl o ctx pva false true with
      | (s, .ok d) =>
        match s.fwWrite1 o ctx d m v with
        | (s, .ok _) => State.fwPut o ctx fuel s (pva + m) (n - m) (v / 2 ^ (8 * m))
        | r => r
      | r => r

/-! ## NOP and queues -/

/-- NOP. -/
def State.nopCmd (s : State) (_ : Cmd) : State × Ctl := (s, .done stOK 0)

/-- The fields of a descriptor image (R146), with the working state of a new queue. -/
def descOf (v : Nat) : QDesc :=
  ⟨bits v 0 45, bits v 64 45, bits v 128 45, bits v 192 12, bits v 208 5, bits v 216 5, bits v 224 2, bit v 226, bits v 228 4,
    bits v 232 4, bits v 240 12, 0, 0, 0, 0, .active, true⟩

-- Log entries 61: DEDUCED, unsafe; 110: DEDUCED, unsafe.
/-- The image's checks of the first row of R148. A bit of bytes 24 to 31 that R146 lists no field for lies in no field's range. -/
def imageBad (v subject : Nat) : Bool :=
  let d := descOf v
  d.dome != subject || bits v 204 4 != 0 || bits v 45 19 != 0 || d.ringBase % 64 != 0 || bits v 213 3 != 0 ||
    bits v 221 3 != 0 || bit v 227 || bits v 236 4 != 0 || bits v 252 4 != 0 || d.mode == 0 || d.maxInflight == 0 ||
    d.ringLog2 < 4 || decide (16 < d.ringLog2) || d.cringLog2 < 4 || decide (16 < d.cringLog2) ||
    (d.mode % 2 == 1 && (d.cringBase % 16 != 0 || bits v 109 19 != 0)) ||
    (2 ≤ d.mode && (d.countAddr % 8 != 0 || bits v 173 19 != 0)) || bits v 256 256 != 0

-- Log entry 59: DEDUCED, unsafe.
/-- QUEUE_CREATE (R148). -/
def State.queueCreate (s : State) (k : Nat) (c : Cmd) : State × Ctl :=
  match State.fwGet (.fw k) c.ctx 3 s (c.p 2) 64 with
  | (s, .wait) => (s, .wait)
  | (s, .fail st) => (s, .done st 0)
  | (s, .ok v) =>
    let q := c.pb 1 0 18
    let d := descOf v
    let top := s.hiveBase
    if imageBad v c.subject then (s, .done stFormat 0)
    else if s.domeSt c.subject ≠ .active then (s, .done stDenied 0)
    else if (SMap.find s.q.desc q).isSome then (s, .done stBusy 0)
    else if top < d.ringBase + 64 * 2 ^ d.ringLog2 || (d.mode % 2 == 1 && decide (top < d.cringBase + 16 * 2 ^ d.cringLog2)) ||
        (2 ≤ d.mode && decide (top < d.countAddr + 8)) then (s, .done stLength 0)
    else (s.setDesc q d, .done stOK 0)

/-- The ownership checks of QUEUE_DESTROY and QUEUE_RESUME (R161). -/
def State.queueBad (s : State) (c : Cmd) (q : Nat) : Option Nat :=
  match SMap.find s.q.desc q with
  | none => some stFormat
  | some d => if d.dome ≠ c.subject then some stDenied else none

-- Log entry 61: DEDUCED, unsafe.
/-- QUEUE_DESTROY (R149): the queue is FROZEN at once and freed after its fetched commands; `aux` is 1 from then on and
`pos` holds the packets never fetched. -/
def State.queueDestroy (s : State) (k : Nat) (c : Cmd) : State × Ctl :=
  let q := c.pb 1 0 18
  let free := fun (s : State) (n : Nat) =>
    if s.inflight q = 0 then (s.freeDesc q, Ctl.done stOK n)
    else (s.putCmd k { c with aux := 1, pos := n }, .wait)
  if c.aux = 1 then
    match SMap.find s.q.desc q with
    | some d => if d.state = .frozen then free s c.pos else (s, .done stOK c.pos)
    | none => (s, .done stOK c.pos)
  else if c.src = .queue q then (s, .done stFormat 0)
  else match s.queueBad c q with
    | some st => (s, .done st 0)
    | none =>
      match SMap.find s.q.desc q with
      | none => (s, .done stFormat 0)
      | some d =>
        let s := (s.setDesc q { d with state := .frozen }).dropOrigin (.queue q)
        free s ((d.tail + 2 ^ d.ringLog2 - d.head) % 2 ^ d.ringLog2)

/-- QUEUE_RESUME (R161, R166). -/
def State.queueResume (s : State) (c : Cmd) : State × Ctl :=
  let q := c.pb 1 0 18
  match s.queueBad c q with
  | some st => (s, .done st 0)
  | none =>
    match SMap.find s.q.desc q with
    | none => (s, .done stFormat 0)
    | some d =>
      match d.state with
      | .active => (s, .done stOK 0)
      | .frozen => (s, .done stBusy 0)
      | .halted => (s.setDesc q { d with state := .active }, .done stOK 0)

/-! ## Cells -/

/-- A cell's entry as firmware reads it for a command, or the status its channel's refusal gives. A corrupt entry belongs
to nobody. -/
def State.fwEntry (s : State) (cell : Nat) : State × (Word ⊕ Nat) :=
  match s.loadEntry cell (.of 33) with
  | (s, none) => (s, .inr (s.metaRefuse (s.cellEntryAddr cell)).status)
  | (s, some none) => (s, .inr stDenied)
  | (s, some (some e)) => (s, if ceCorrupt e then .inr stDenied else .inl e)

/-- Updates that a requester holds on other lines end without a write. -/
def State.dropUpds (s : State) (o : Origin) (line : Nat) : State :=
  (s.home.txs.filter fun t => t.origin == o && t.upd && t.line != line).foldl (fun s t => s.dropTx t) s

-- Log entry 68: DEDUCED, safe.
/-- Firmware takes the lock of a cell-table line that it is to change (R46). A line that no access and no agent holds is its
own for the step; for another it asks the home, as it writes, and holds the line until its command answers. -/
def State.fwLock (s : State) (k cell : Nat) : State × Bool :=
  let line := s.cellEntryAddr cell / 64
  if !s.locked line && (s.holders line).isEmpty then (s, true)
  else match (s.dropUpds (.fw k) line).engUpdate (.fw k) 0 line 33 0 .none (some 0) with
    | (s, .wait) => (s, false)
    | (s, _) => (s, true)

/-- The locks of the cell-table lines of a list of cells; false at the first that has to be waited for. -/
def State.fwLocks (k : Nat) : List Nat → State → State × Bool
  | [], s => (s, true)
  | c :: cs, s =>
    match s.fwLock k c with
    | (s, true) => State.fwLocks k cs s
    | r => r

/-- The cell-table line of a cell is held by no access, so that the device may change an entry of it (R46). -/
def State.entryFree (s : State) (cell : Nat) : Bool := !s.locked (s.cellEntryAddr cell / 64)

/-- The cell is the Dome's own. -/
def ownedBy (e : Word) (d : Nat) : Bool := ceAllocated e && !ceGroup e && ceOwner e == d

/-- The Dome anchors the share group that owns the cell (R42). -/
def State.anchorOf (s : State) (e : Word) (d : Nat) : Bool :=
  ceAllocated e && ceGroup e &&
    (match SMap.find s.domes.groups (ceOwner e % 256) with | some g => g.anchor == d | none => false)

/-- The cell is the Dome's or a group's that contains it. -/
def State.reaches (s : State) (e : Word) (d : Nat) : Bool :=
  ownedBy e d || (ceAllocated e && ceGroup e && s.member (ceOwner e % 256) d)

-- Log entry 51: DEDUCED, unsafe.
/-- The cell holds a doorbell page (R150). -/
def State.pageCell (s : State) (cell : Nat) : Bool := s.domes.pages.any fun e => e.2 / 65536 == cell

/-- Reads entries one after another and stops at the first a test refuses. -/
def State.checkCells (s : State) (test : State → Nat → Word → Option Nat) : List Nat → State × Option Nat
  | [] => (s, none)
  | c :: cs =>
    match s.fwEntry c with
    | (s, .inr st) => (s, some st)
    | (s, .inl e) =>
      match test s c e with
      | some st => (s, some st)
      | none => s.checkCells test cs

def State.drainingGen (s : State) (d : Nat) : Option Nat := ([0, 1] : List Nat).find? fun g => (s.keySlot d g).st == .draining
def State.currentGen (s : State) (d : Nat) : Option Nat := ([0, 1] : List Nat).find? fun g => (s.keySlot d g).st == .current

/-- Whether a Dome has cells at another node, by the pool's map. -/
def State.heldElsewhere (s : State) (d : Nat) : Bool :=
  (List.range 64).any fun n => n != s.pwr.node && SMap.findD s.fab.alloc (d * 64 + n) 0 != 0

/-- Zeroises a key slot; the broker's copy goes with it where no other node holds cells of the Dome (R309, R310). -/
def State.clearSlot (s : State) (d g : Nat) : State :=
  { s with sec := { s.sec with slots := SMap.del s.sec.slots (d * 2 + g) },
           fab := { s.fab with broker := if s.heldElsewhere d then s.fab.broker else SMap.del s.fab.broker (d * 2 + g) } }

-- Log entry 88: DEDUCED, unsafe.
/-- An update takes effect in the queen's state, or in the successor's copy of it. -/
def State.applyUpd (s : State) (u : QUpd) : State :=
  match u with
  | .dome d st =>
    let v : DomeSt := if st.val = 0 then .free else if st.val = 1 then .active else .teardown
    { s with fab := { s.fab with registry := SMap.store s.fab.registry .free d.val v } }
  | .cells d node n =>
    let k := d.val * 64 + node.val
    let v := ((SMap.findD s.fab.alloc k 0 : Nat) : Int) + n
    { s with fab := { s.fab with alloc := SMap.store s.fab.alloc 0 k v.toNat } }
  | .key d g k => { s with fab := { s.fab with broker := SMap.put s.fab.broker (d.val * 2 + g.val) k } }
  | .dir k v => { s with fab := { s.fab with directory := SMap.put s.fab.directory k v } }
  | .teardown d _ _ => { s with fab := { s.fab with registry := SMap.store s.fab.registry .free d.val .teardown } }

-- Log entry 65: DESIGN CHOICE, safe.
/-- The queen is reachable and takes updates (R288). -/
def State.queenOk (s : State) : Bool := s.fB F.RYP_FAB_STATUS_queen_valid && !s.fB F.RYP_FAB_STATUS_alloc_stopped

-- Log entry 14: DESIGN CHOICE, safe.
/-- A QUEEN packet of a message type. -/
def State.sendQueen (s : State) (node type_ : Nat) : State :=
  s.originate (Pkt.bare node s.pwr.node kQueen 0 0 0 0 (Config.queenTarget type_) 0) 6

-- Log entries 65: DESIGN CHOICE, safe; 88: DEDUCED, unsafe.
/-- An update of the queen's state that no requester waits for: a queen alone takes it at once, a queen with a successor
holds it until the successor has a copy, another node sends it to the queen, or holds it until she is reachable and takes
updates (R287 - R289). -/
def State.report (s : State) (u : QUpd) : State :=
  if s.fB F.RYP_FAB_STATUS_is_queen && s.fB F.RYP_QUEEN_CTL_solo then s.applyUpd u
  else if !s.fB F.RYP_FAB_STATUS_is_queen && s.queenOk then s.sendQueen (s.fN F.RYP_FAB_STATUS_queen_node) 0
  else { s with fab := { s.fab with reports := s.fab.reports ++ [u] } }

-- Log entry 65: DESIGN CHOICE, safe.
/-- What a command changes of the queen's state where the queen runs it: her successor has the copy since the command asked
(R287). -/
def State.asked (s : State) (u : QUpd) : State := if s.fB F.RYP_FAB_STATUS_is_queen then s.applyUpd u else s

/-- Installs a memory key: CURRENT while no slot is, else STAGED (R309). -/
def State.installKey (s : State) (d gen : Nat) (k : BitVec 512) : State :=
  let st := if (s.currentGen d).isSome then SlotSt.staged else .current
  { s with sec := { s.sec with slots := SMap.put s.sec.slots (d * 2 + gen) ⟨st, k⟩ } }

/-- Installs a memory key; the queen's broker keeps a copy (R310). -/
def State.putKey (s : State) (d gen : Nat) (k : BitVec 512) : State :=
  (s.installKey d gen k).asked (.key (Fin.ofNat 4096 d) (Fin.ofNat 2 gen) k)

/-- One cell less under a Dome's old generation; at 0 the DRAINING slot is zeroised (R313). -/
def State.decOld (s : State) (d : Nat) : State :=
  let n := SMap.findD s.sec.old d 0 - 1
  let s := { s with sec := { s.sec with old := SMap.store s.sec.old 0 d n } }
  if n = 0 then match s.drainingGen d with | some g => s.clearSlot d g | none => s else s

/-- Counts a Dome's cells at this node in the pool's map (R287 - R289). -/
def State.allocCount (s : State) (d : Nat) (n : Int) : State :=
  s.report (.cells (Fin.ofNat 4096 d) (Fin.ofNat 64 s.pwr.node) n)

/-- A cell becomes free: allocated cleared, then its valid bits, cached lines, pin and heat (R46, R101, R111). -/
def State.releaseCell (s : State) (cell : Nat) (e : Word) : State :=
  let kd := s.keyDome e
  let old := s.drainingGen kd == some (ceKeyGen e)
  let s := s.putEntry cell 0
  let s := ((s.clearValid cell).dropCell cell).putHeat cell 0
  let pins := s.honey.pins.filter fun p => p.1 != cell
  let s := { s with honey := { s.honey with heat := SMap.del s.honey.heat cell, pins := pins } }
  let s := (s.fSet F.HONEY_PIN_CTL_pinned_cells pins.length).allocCount kd (-1)
  if old then s.decOld kd else s

/-- The successor, as far as this node knows one: firmware's choice before what it has heard (R286, R290). -/
def State.successor (s : State) : Option Nat :=
  if s.fB F.RYP_QUEEN_CTL_succ_override then some (s.fN F.RYP_QUEEN_CTL_succ_node) else s.fab.succ

-- Log entry 65: DESIGN CHOICE, safe.
/-- An update of the queen's state, with the queen's or its successor's answer (R287, R288). Gives the status that stops
the command. -/
def State.queenAsk (s : State) (a : QAns) : State × Option Nat :=
  if !s.queenOk then (s, some stRemote)
  else if s.fB F.RYP_FAB_STATUS_is_queen then
    if s.fB F.RYP_QUEEN_CTL_solo then (s, none)
    else match s.successor with
      | none => (s.fFlag F.RYP_FAB_STATUS_alloc_stopped true, some stRemote)
      | some n =>
        let s := s.sendQueen n 0
        if a = .unreachable then (s.fFlag F.RYP_FAB_STATUS_alloc_stopped true, some stRemote) else (s, none)
  else
    let s := s.sendQueen (s.fN F.RYP_FAB_STATUS_queen_node) 0
    (s, match a with | .ok => none | .busy => some stBusy | .unreachable => some stRemote)

/-- DOORBELL_SET (R150). -/
def State.doorbellSet (s : State) (c : Cmd) : State × Ctl :=
  let dpa := c.pb 1 0 45
  if s.area dpa ≠ .tenant then (s, .done stDenied 0)
  else match s.fwEntry (dpa / 65536) with
    | (s, .inr st) => (s, .done st 0)
    | (s, .inl e) =>
      if !ownedBy e c.subject then (s, .done stDenied 0)
      else ({ s with domes := { s.domes with pages := SMap.put s.domes.pages c.subject dpa } }, .done stOK 0)

/-- Sets a Dome's state at this node, and in the registry where this node is queen. -/
def State.setDome (s : State) (d : Nat) (st : DomeSt) : State :=
  let s := { s with domes := { s.domes with st := SMap.store s.domes.st .free d st } }
  if s.fB F.RYP_FAB_STATUS_is_queen then { s with fab := { s.fab with registry := SMap.store s.fab.registry .free d st } } else s

/-- DOME_CREATE (R161). -/
def State.domeCreate (s : State) (a : QAns) (c : Cmd) : State × Ctl :=
  let d := c.subject
  if d = 0 then (s, .done stFormat 0)
  else if !s.queenOk then (s, .done stRemote 0)
  else if s.fB F.RYP_FAB_STATUS_is_queen && SMap.findD s.fab.registry d .free != .free then (s, .done stBusy 0)
  else match s.queenAsk a with
    | (s, some st) => (s, .done st 0)
    | (s, none) => (s.setDome d .active, .done stOK 0)

/-! ## Share groups (R408) -/

/-- A membership table with one group changed. -/
def groupSet (m : SMap Group) (g : Nat) (x : Option Group) : SMap Group :=
  match x with
  | some y => SMap.put m g y
  | none => SMap.del m g

/-- A membership change reaches firmware's table and the copy of every channel whose group is populated and powered (R43). -/
def State.setGroup (s : State) (g : Nat) (x : Option Group) : State :=
  let s := { s with domes := { s.domes with groups := groupSet s.domes.groups g x } }
  (s.chanList.filter fun ch => s.domainOn (7 + ch / 4)).foldl (fun s ch =>
    s.setChan ch { s.chan ch with members := groupSet (s.chan ch).members g x }) s

/-- A DRAM group is being switched on, whose channels copy the membership table; a membership change waits (R43). -/
def State.copying (s : State) : Bool := match s.pwr.switching with | some (d, true) => decide (7 ≤ d ∧ d ≤ 12) | _ => false

/-- SHARE_JOIN. -/
def State.shareJoin (s : State) (k : Nat) (c : Cmd) : State × Ctl :=
  let g := c.pb 1 0 8
  let d := c.subject
  let asAnchor := bit (c.p 1) 8
  match s.settled c with
  | some r => r
  | none =>
    if d = 0 then (s, .done stFormat 0)
    else match SMap.find s.domes.groups g with
      | some gr =>
        if gr.anchor == d || (!asAnchor && gr.members.contains d) then (s, .done stOK 0)
        else if asAnchor then (s, .done stBusy 0)
        else if s.copying then (s, .wait)
        else (s.setGroup g (some { gr with members := gr.members ++ [d] })).settle k stOK 0
      | none =>
        if !asAnchor then (s, .done stBusy 0)
        else if s.copying then (s, .wait)
        else (s.setGroup g (some ⟨d, [d]⟩)).settle k stOK 0

/-- Whether a share group owns a cell. -/
def State.groupOwns (s : State) (g : Nat) : Bool :=
  s.ownedCells.any fun cell => match s.cellEntry cell with
    | some e => ceAllocated e && ceGroup e && ceOwner e % 256 == g
    | none => false

/-- SHARE_LEAVE. -/
def State.shareLeave (s : State) (k : Nat) (c : Cmd) : State × Ctl :=
  let g := c.pb 1 0 8
  let d := c.subject
  match s.settled c with
  | some r => r
  | none =>
    if d = 0 then (s, .done stFormat 0)
    else match SMap.find s.domes.groups g with
      | none => (s, .done stOK 0)
      | some gr =>
        if !gr.members.contains d then (s, .done stOK 0)
        else if gr.anchor = d ∧ s.groupOwns g then (s, .done stBusy 0)
        else if s.copying then (s, .wait)
        else if gr.anchor = d then (s.setGroup g none).settle k stOK 0
        else (s.setGroup g (some { gr with members := gr.members.filter fun x => x != d })).settle k stOK 0

/-! ## CELL_ALLOC, CELL_FREE, SHARE_MOVE -/

/-- A cell that may be allocated: free, not being overwritten, not chosen by a CELL_ALLOC that still writes its list. -/
def State.cellFree (s : State) (cell : Nat) : Bool :=
  !(s.sec.overwrite.any fun o => o.2.contains cell) &&
    !(s.q.cmds.any fun e => e.2.opcode == 0x10 && e.2.part.any fun l => l.contains cell) &&
    (match s.cellEntry cell with | some e => !ceAllocated e && !ceCorrupt e | none => false)

/-- The cells of a run, if all are free. -/
def State.freeRun (s : State) (first n : Nat) : Bool := (List.range n).all fun j => s.cellFree (first + j)

/-- Whether a cell lies in an affinity region, and on which channel. -/
def State.affinityChan (s : State) (cell : Nat) : Option Nat :=
  match s.regions.find? fun r => decide (r.1 ≤ cell * 65536 ∧ cell * 65536 < r.1 + r.2.1) with
  | some (_, _, u) => if u = 65536 then (s.locate (cell * 65536)).map fun x => x.1 else none
  | none => none

/-- Of `fuel` cells from `c` on, the first `n` that pass a test. -/
def firstCells (test : Nat → Bool) : Nat → Nat → Nat → List Nat
  | 0, _, _ => []
  | fuel + 1, n, c =>
    if n = 0 then []
    else if test c then c :: firstCells test fuel (n - 1) (c + 1) else firstCells test fuel n (c + 1)

/-- The cells an allocation takes (R34, R163): the lowest-numbered that meet it. -/
def State.chooseCells (s : State) (n : Nat) (p2 : Nat) : Option (List Nat) :=
  let aff := bit p2 5
  let al := 2 ^ bits p2 8 5
  if bit p2 6 then
    let run := fun j => decide (j * al + n ≤ s.tenantCells) && s.freeRun (j * al) n
    match firstCells run (s.tenantCells / al + 1) 1 0 with
    | j :: _ => some ((List.range n).map fun i => j * al + i)
    | [] => none
  else
    let free := fun cell => s.cellFree cell && (!aff || s.affinityChan cell == some (bits p2 0 5))
    let l := firstCells free s.tenantCells n 0
    if l.length = n then some l else none

/-- A new cell's entry: allocated to a Dome under its CURRENT generation (R44, R309). -/
def newEntry (d gen : Nat) : Word := BitVec.ofNat 32 (d + gen * 2 ^ 13 + 2 ^ 14)

/-- The cells of a CELL_ALLOC: those it chose before, or a choice made now. -/
def State.allocCells (s : State) (c : Cmd) : Option (List Nat) :=
  match c.part with
  | l :: _ => some l
  | [] => s.chooseCells (c.p 1) (c.p 2)

/-- The chosen cells become the Dome's: lines cached under the free cell are dropped, so that the new owner reads zeros (R99),
and the valid bits cleared. -/
def State.takeCells (s : State) (d gen : Nat) (cells : List Nat) : State :=
  (cells.foldl (fun s x => ((s.dropCell x).clearValid x).putEntry x (newEntry d gen)) s).asked
    (.cells (Fin.ofNat 4096 d) (Fin.ofNat 64 s.pwr.node) cells.length)

/-- CELL_ALLOC. The list is written before the cells are taken, so that every cell is allocated or none. -/
def State.cellAlloc (s : State) (k : Nat) (a : QAns) (c : Cmd) : State × Ctl :=
  let d := c.subject
  match s.settled c with
  | some r => r
  | none =>
  if bit (c.p 2) 5 && !s.chanList.contains (c.pb 2 0 5) then (s, .done stFormat 0)
  else match (if c.pos = 0 then s.queenAsk a else (s, none)) with
    | (s, some st) => (s, .done st 0)
    | (s, none) =>
      match s.currentGen d, s.allocCells c with
      | none, _ => (s, .done stKey 0)
      | _, none => (s, .done stBusy 0)
      | some g, some cells =>
        let s := s.putCmd k { c with pos := 2, part := [cells] }
        match s.checkCells (fun _ _ _ => none) cells with
        | (s, some st) => (s, .done st 0)
        | (s, none) =>
          let v := cells.zipIdx.foldl (fun a x => a + x.1 * 2 ^ (32 * x.2)) 0
          let n := 4 * cells.length
          match State.fwPut (.fw k) c.ctx (n / 64 + 2) s (c.p 3) n v with
          | (s, .wait) => (s, .wait)
          | (s, .fail st) => (s, .done st 0)
          | (s, .ok _) =>
            match State.fwLocks k cells s with
            | (s, false) => (s, .wait)
            | (s, true) => (s.takeCells d g cells).settle k stOK cells.length

/-- CELL_FREE (R46, R126, R150). -/
def State.cellFreeCmd (s : State) (k : Nat) (c : Cmd) : State × Ctl :=
  let d := c.subject
  let cells := (List.range (c.p 2)).map fun i => c.p 1 + i
  match s.settled c with
  | some r => r
  | none =>
    let test := fun (s : State) (cell : Nat) (e : Word) =>
      if !(ownedBy e d || s.anchorOf e d) then some stDenied
      else if s.pageCell cell || ceMigrating e then some stBusy else none
    match s.checkCells test cells with
    | (s, some st) => (s, .done st 0)
    | (s, none) =>
      if cells.any fun x => s.sec.sweeps.any fun w => w.cell == x then (s, .wait)
      else match State.fwLocks k cells s with
        | (s, false) => (s, .wait)
        | (s, true) =>
          (cells.foldl (fun s x => match s.cellEntry x with | some e => s.releaseCell x e | none => s) s).settle k stOK 0

-- Log entry 61: DEDUCED, unsafe.
/-- SHARE_MOVE (R42). -/
def State.shareMove (s : State) (k : Nat) (a : QAns) (c : Cmd) : State × Ctl :=
  let d := c.subject
  let g := c.pb 3 0 8
  let out := bit (c.p 3) 8
  let cells := (List.range (c.p 2)).map fun i => c.p 1 + i
  match s.settled c with
  | some r => r
  | none =>
    match (if c.pos = 0 then s.queenAsk a else (s, none)) with
    | (s, some st) => (s, .done st 0)
    | (s, none) =>
      let s := s.putCmd k { c with pos := 2 }
      let anchored := match SMap.find s.domes.groups g with | some x => x.anchor == d | none => false
      if !anchored then (s, .done stDenied 0)
      else
        let test := fun (s : State) (cell : Nat) (e : Word) =>
          let mine := if out then ceAllocated e && ceGroup e && ceOwner e % 256 == g else ownedBy e d
          if !mine then some stDenied else if s.pageCell cell then some stBusy else none
        match s.checkCells test cells with
        | (s, some st) => (s, .done st 0)
        | (s, none) =>
          let own : Nat := if out then d else g + 2 ^ 12
          match State.fwLocks k cells s with
          | (s, false) => (s, .wait)
          | (s, true) =>
            (cells.foldl (fun s x => match s.cellEntry x with
              | some e => s.putEntry x (BitVec.ofNat 32 (setBits e.toNat 0 13 own))
              | none => s) s).settle k stOK 0

/-! ## Pins (R114, R115) -/

/-- The lines of a cell. -/
def cellLines (cell : Nat) : List Nat := (List.range 1024).map fun i => cell * 1024 + i

/-- The pinned lines of a set. -/
def State.pinnedIn (s : State) (set : Nat) : Nat :=
  ((List.range 16).filter fun w => match SMap.find s.honey.lines (set * 16 + w) with | some x => x.pinned | none => false).length

/-- A line is pinned in the cache. -/
def State.linePinned (s : State) (line : Nat) : Bool := (s.honey.lookup line).any fun x => x.2.pinned

-- Log entry 49: DEDUCED, unsafe.
/-- What stands in the way of a pin, seen over the lines not yet placed. -/
def State.pinBusy (s : State) (cell d : Nat) (e : Word) : Bool :=
  let m := s.wayMask d
  ceMigrating e || s.half (cell * 1024) != .on || !s.fB F.HONEY_CTL_enable ||
    decide (s.pinQuota d ≤ (s.honey.pins.filter fun p => p.2 == d).length) ||
    (cellLines cell).any fun line =>
      let set := honeySet line
      !s.linePinned line && (decide (s.fN F.HONEY_PIN_CTL_max_pin_ways ≤ s.pinnedIn set) ||
        !((List.range 16).any fun w => bit m w &&
          (match SMap.find s.honey.lines (set * 16 + w) with | some x => !x.pinned | none => true)))

/-- Marks a cached line as pinned. -/
def State.pinMark (s : State) (key : Nat) (x : HLine) : State :=
  { s with honey := { s.honey with lines := SMap.put s.honey.lines key { x with pinned := true } } }

/-- Places a line in a way of the Dome's mask, pinned, once the way can be given up. -/
def State.pinPlace (s : State) (line d : Nat) (l : Line) (dirty : Bool) (wctx : Ctx) : State :=
  match s.fillWay line d with
  | some w => if s.wayFree line w (.of 33) then s.hPlace line w l dirty true d wctx (.of 33) else s
  | none => s

/-- A line that the cache does not hold is read under its lock, and placed while the lock is held. -/
def State.pinRead (s : State) (k line d : Nat) : State × Option Nat :=
  let o := Origin.fw k
  match s.engAns o line false fullBe with
  | some a => (s, match a.res with | .no r => some r.status | .ok _ => none)
  | none =>
    match s.engTx o line false fullBe with
    | some t =>
      match t.stage, t.got with
      | .engine, some (.ok l) =>
        let s := s.pinPlace line d l false 0
        (if s.linePinned line then s.dropTx t else s, none)
      | _, _ => (s, none)
    | none => (s.engEnter { newTx .rdCur o 0 line 33 with maint := true, upd := true }, none)

-- Log entry 49: DEDUCED, unsafe.
/-- One line of a cell that is being pinned: converted in place where its way lies in the mask, moved or read otherwise, each
once no access holds the line (R114). Gives the status of a read that was refused. -/
def State.pinLine (s : State) (k line d : Nat) : State × Option Nat :=
  match s.honey.lookup line with
  | some (key, x) =>
    if x.pinned || s.locked line then (s, none)
    else if bit (s.wayMask d) (key % 16) then (s.pinMark key x, none)
    else
      let moved := (s.hDrop key false (.of 33)).pinPlace line d x.data x.dirty x.wctx
      (if moved.linePinned line then moved else s, none)
  | none => s.pinRead k line d

/-- All lines of a cell; it stops at a refusal. -/
def State.pinLines (k d : Nat) : List Nat → State → State × Option Nat
  | [], s => (s, none)
  | l :: ls, s =>
    match s.pinLine k l d with
    | (s, none) => State.pinLines k d ls s
    | r => r

/-- Releases the pinned lines of a cell as ordinary lines, each keeping its dirty state (R115). -/
def State.unpinLines (s : State) (cell : Nat) : State :=
  let lines := s.honey.lines.map fun x =>
    (x.1, if lineOf (x.1 / 16) x.2.tag / 1024 = cell then { x.2 with pinned := false } else x.2)
  { s with honey := { s.honey with lines := lines } }

-- Log entry 49: DEDUCED, unsafe.
/-- The worst answer of a cell's channels: a status where one refuses. -/
def State.cellChans (s : State) (cell : Nat) : Option Nat :=
  (cellLines cell).findSome? fun line => match s.locate (line * 64) with
    | none => some stTrans
    | some (ch, _) => match s.chSt ch with
      | .ok => none
      | .failed => some stFault
      | .maint => some stBusy

/-- An earlier command of the given opcodes is at work; firmware takes one after the other. -/
def State.behind (s : State) (k : Nat) (c : Cmd) (ops : List Nat) : Bool :=
  s.q.cmds.any fun e => e.1 != k && ops.contains e.2.opcode && decide (e.2.seq < c.seq) && e.2.pos == 0 &&
    (e.2.st == .running || e.2.st == .blocked) && (SMap.find s.q.tcmReply e.1).isNone

-- Log entry 49: DEDUCED, unsafe.
/-- PIN. The pin engine places the lines of one cell at a time; a pin that cannot place every line places none (R114). -/
def State.pinCmd (s : State) (k : Nat) (c : Cmd) : State × Ctl :=
  let cell := c.p 1
  let d := c.subject
  let stop := fun (s : State) (e : Option Word) (st : Nat) => (if e.any cePinned then s else s.unpinLines cell, Ctl.done st 0)
  if s.behind k c [0x14] then (s, .wait)
  else match s.fwEntry cell with
  | (s, .inr st) => stop s (s.cellEntry cell) st
  | (s, .inl e) =>
    if !s.reaches e d then stop s (some e) stDenied
    else if cePinned e then (s, .done stOK 0)
    else if s.pinBusy cell d e then stop s none stBusy
    else if !s.keyLive (cell * 1024) e then stop s none stKey
    else match s.cellChans cell with
      | some st => stop s none st
      | none =>
        match State.pinLines k d (cellLines cell) s with
        | (s, some st) => stop s none st
        | (s, none) =>
          if !(cellLines cell).all s.linePinned then (s, .wait)
          else match s.fwLock k cell with
            | (s, false) => (s, .wait)
            | (s, true) =>
              let pins := s.honey.pins ++ [(cell, d)]
              let s := ({ s with honey := { s.honey with pins := pins } }).fSet F.HONEY_PIN_CTL_pinned_cells pins.length
              (s.putEntry cell (e ||| 0x10000), .done stOK 0)

/-- UNPIN. -/
def State.unpinCmd (s : State) (k : Nat) (c : Cmd) : State × Ctl :=
  let cell := c.p 1
  match s.fwEntry cell with
  | (s, .inr st) => (s, .done st 0)
  | (s, .inl e) =>
    if !s.reaches e c.subject then (s, .done stDenied 0)
    else if !cePinned e then (s, .done stOK 0)
    else match s.fwLock k cell with
      | (s, false) => (s, .wait)
      | (s, true) =>
        let s := (s.putEntry cell (e &&& ~~~0x10000)).unpinLines cell
        let pins := s.honey.pins.filter fun p => p.1 != cell
        (({ s with honey := { s.honey with pins := pins } }).fSet F.HONEY_PIN_CTL_pinned_cells pins.length, .done stOK 0)

/-! ## Migration (R122 - R126) -/

/-- Shows the slots in use in HONEY_MIG_STATUS. -/
def State.showMig (s : State) : State := s.fSet F.HONEY_MIG_STATUS_slot_busy (s.honey.mig.foldl (fun a e => a + 2 ^ e.1) 0)

def State.putMig (s : State) (k : Nat) (m : MigSlot) : State :=
  ({ s with honey := { s.honey with mig := SMap.put s.honey.mig k m } }).showMig

/-- What a slot has under way is given up: reads and copies at home complete for nobody, messages end. -/
def State.migForget (s : State) (k : Nat) : State :=
  let mine := fun (m : Msg) => match m.kind with | .mig j _ _ => j == k | _ => false
  (s.fab.msgs.filter fun e => mine e.2).foldl (fun s e => s.endMsg e.1) (s.dropOrigin (.migration k))

/-- Frees a slot and clears migrating in its cell, whose cell-table line no access holds; mirrored writes complete. -/
def State.dropMig (s : State) (k : Nat) (m : MigSlot) : State :=
  let s := ((s.pguReturn (.mig k)).migForget k).endMirror m
  let s := ({ s with honey := { s.honey with mig := SMap.del s.honey.mig k } }).showMig
  match s.loadEntry m.cell (.of 33) with
  | (s, some (some e)) => s.putEntry m.cell (e &&& ~~~0x20000)
  | (s, _) => s

-- Log entry 51: DEDUCED, unsafe.
/-- The destination's node cannot be reached: the slot copies and mirrors no more, and ends with the next MIRROR_ENTRY
(R125). -/
def State.migLost (s : State) (k : Nat) : State :=
  match SMap.find s.honey.mig k with
  | some m => (((s.pguReturn (.mig k)).migForget k).putMig k { m with stage := .lost }).endMirror m
  | none => s

def trackedLines (m : MigSlot) : Nat := ((List.range 1024).filter fun i => m.tracker.getLsbD i).length

/-- A line's channel takes no request now. -/
def State.chanHeld (s : State) (line : Nat) : Bool :=
  match s.locate (line * 64) with
  | some (ch, _) => s.chSt ch != .ok
  | none => true

-- Log entry 51: DEDUCED, unsafe.
/-- The lines of a pass begin their copies in ascending order, every line in the copy pass, tracked lines afterwards: each is
read through the home under its lock. It stops at a line whose channel or whose earlier copy makes it wait, or where the
tracker has no room. -/
def State.migCopy (k : Nat) : Nat → State → State
  | 0, s => s
  | fuel + 1, s =>
    match SMap.find s.honey.mig k with
    | none => s
    | some m =>
      let line := m.cell * 1024 + m.at_
      let t : Tx := { newTx .rdCur (.migration k) 0 line 34 with maint := true }
      if 1024 ≤ m.at_ then s
      else if m.stage != .copyWait && !m.tracker.getLsbD m.at_ then State.migCopy k fuel (s.putMig k { m with at_ := m.at_ + 1 })
      else if s.chanHeld line || s.migBusy k m line || !s.trackerRoom t then s
      else State.migCopy k fuel ((s.putMig k { m with at_ := m.at_ + 1 }).enter t)

/-- Nothing of a slot is under way: no read and no copy. -/
def State.migQuiet (s : State) (k : Nat) : Bool :=
  !(s.home.txs.any fun t => t.origin == .migration k) &&
    !(s.fab.msgs.any fun e => match e.2.kind with | .mig j _ _ => j == k | _ => false)

-- Log entry 51: DEDUCED, unsafe.
/-- The current pass goes on with its leave; at its end, every copy written, the leave is returned. -/
def State.migPass (s : State) (k : Nat) : State :=
  match SMap.find s.honey.mig k with
  | none => s
  | some m =>
    if !((m.stage == .copyWait || m.stage == .recopyWait) && s.hasLeave (.mig k)) then s
    else
      let s := State.migCopy k 1024 s
      match SMap.find s.honey.mig k with
      | some m =>
        if 1024 ≤ m.at_ ∧ s.migQuiet k then
          (s.pguReturn (.mig k)).putMig k { m with stage := .copied, passes := m.passes + 1, at_ := 0 }
        else s
      | none => s

/-- Asks leave for a pass; before READY it begins at once. -/
def State.migAsk (s : State) (k : Nat) : State := (s.pguAsk 4 (.mig k)).migPass k

-- Log entry 51: DEDUCED, unsafe.
/-- MIGRATE (R125). `dstOk`: a remote destination is allocated with the source's owner; `reach`: its node answers. A cell of
the Hive reserve is no Dome's to migrate. -/
def State.migrateCmd (s : State) (k : Nat) (a : QAns) (dstOk reach : Bool) (c : Cmd) : State × Ctl :=
  let cell := c.p 1
  let node := c.pb 2 45 6
  let dcell := c.pb 2 16 29
  let d := c.subject
  if c.pos = 1 then (s, .wait)
  else if s.tenantCells ≤ cell then (s, .done stDenied 0)
  else match s.fwEntry cell with
    | (s, .inr st) => (s, .done st 0)
    | (s, .inl e) =>
      if !s.reaches e d then (s, .done stDenied 0)
      else match (if node = s.pwr.node || c.pos = 2 then (s, none) else s.queenAsk a) with
        | (s, some st) => (s, .done st 0)
        | (s, none) =>
          let s := s.putCmd k { c with pos := 2 }
          if node ≠ s.pwr.node && !reach then (s, .done stRemote 0)
          else match (if node = s.pwr.node then
              (if s.tenantCells ≤ dcell then (s, some stDenied)
               else match s.fwEntry dcell with
                | (s, .inr st) => (s, some st)
                | (s, .inl x) => (s, if ceAllocated x && ceGroup x == ceGroup e && ceOwner x == ceOwner e then none else some stDenied))
              else (s, if dstOk then none else some stDenied)) with
          | (s, some st) => (s, .done st 0)
          | (s, none) =>
            match SMap.firstFree s.honey.mig 16 with
            | none => (s, .done stBusy 0)
            | some slot =>
              if cePinned e || ceMigrating e || s.pageCell cell || (node == s.pwr.node && s.pageCell dcell) then (s, .done stBusy 0)
              else match s.fwLock k cell with
                | (s, false) => (s, .wait)
                | (s, true) =>
                  let s := ((s.putEntry cell (e ||| 0x20000)).clearAns (.fw k)).dropOrigin (.fw k)
                  let m : MigSlot := ⟨cell, node, dcell, s.keyDome e, k, .copyWait, 0, 0, 0, 0⟩
                  (((s.putMig slot m).putCmd k { c with pos := 1 }).migAsk slot, .wait)

/-- The command of a slot has its reply; the slot no longer names it. -/
def State.migReply (s : State) (k : Nat) (m : MigSlot) (st : Nat) : State :=
  (s.fwReply m.cmd st 0).putMig k { m with cmd := 20000 }

/-- In the mirror the lines still tracked are copied; when none is left source and destination agree and the command
completes. -/
def State.mirrorStep (s : State) (k : Nat) : State :=
  let s := State.migCopy k 1024 s
  match SMap.find s.honey.mig k with
  | none => s
  | some m =>
    if m.at_ < 1024 || !s.migQuiet k then s
    else if m.tracker ≠ 0 then s.putMig k { m with at_ := 0 }
    else s.migReply k m stOK

-- Log entry 51: DEDUCED, unsafe.
/-- The slot goes on: it finishes its pass, re-copies while too many lines are tracked and passes are left, then enters
the mirror. A lost slot ends. -/
def State.mirrorEntry (s : State) (k : Nat) : State :=
  let s := s.migPass k
  match SMap.find s.honey.mig k with
  | none => s
  | some m =>
    match m.stage with
    | .copied =>
      if min 1024 (s.fN F.HONEY_MIG_CTL_final_lines) < trackedLines m ∧ m.passes ≤ s.fN F.HONEY_MIG_CTL_max_passes then
        (s.putMig k { m with stage := .recopyWait }).migAsk k
      else (s.putMig k { m with stage := .mirror, mirrorAt := s.pwr.rootTime }).mirrorStep k
    | .mirror => s.mirrorStep k
    | .lost =>
      if !s.entryFree m.cell then s
      else
        let open_ := m.cmd != 20000
        let s := (s.migReply k m stRemote).dropMig k m
        if open_ then s
        else { s with honey := { s.honey with migAborted := s.honey.migAborted ++ [(m.cell, stRemote)] } }
    | _ => s

/-- MIRROR_ENTRY. -/
def execMirrorEntry (k : Fin 16) (s : State) : Result := run s fun s => s.mirrorEntry k

/-- The mirror's time has run out (R124); the slot waits for the lock of its cell-table line. -/
def State.mirrorTimeout (s : State) (k : Nat) : State :=
  match SMap.find s.honey.mig k with
  | some m =>
    if m.stage = .mirror ∧ s.fN F.HONEY_MIG_CTL_mirror_timeout ≠ 0 ∧ s.entryFree m.cell then
      let s := ((s.migReply k m stTimeout).dropMig k m).bump F.HONEY_MIG_STATUS_timed_out
      { s with honey := { s.honey with migAborted := s.honey.migAborted ++ [(m.cell, stTimeout)] } }
    else s
  | none => s

/-- MIRROR_TIMEOUT. -/
def execMirrorTimeout (k : Fin 16) (s : State) : Result := run s fun s => s.mirrorTimeout k

-- Log entry 51: DEDUCED, unsafe.
/-- MIGRATE_END (R124). Commit and abort do the same here; firmware frees the source or the destination by CELL_FREE. -/
def State.migrateEnd (s : State) (k : Nat) (c : Cmd) : State × Ctl :=
  let cell := c.p 1
  match s.slotOf cell with
  | some (j, m) =>
    if m.stage ≠ .mirror || m.cmd ≠ 20000 then (s, .done stBusy 0)
    else match s.fwLock k cell with
      | (s, false) => (s, .wait)
      | (s, true) => (s.dropMig j m, .done stOK 0)
  | none =>
    match s.honey.migAborted.find? fun x => x.1 == cell with
    | some x => ({ s with honey := { s.honey with migAborted := s.honey.migAborted.filter fun y => y.1 != cell } }, .done x.2 0)
    | none => (s, .done stFormat 0)

/-! ## Comb maintenance (R176, R185) -/

/-- Firmware writes the unit's registers and go for a command (step 1 of R188). -/
def State.fwInval (s : State) (scope : Nat) (ctx : Ctx) (start pages : Nat) (k : Option Nat) : State :=
  let s := (s.fSet F.COMB_INV_CTX_scope scope).fSet F.COMB_INV_CTX_ctx ctx.toNat
  let s := (s.fSet F.COMB_INV_START_LO_vpn_lo (start % 2 ^ 32)).fSet F.COMB_INV_START_HI_vpn_hi (start / 2 ^ 32)
  let s := (s.fSet F.COMB_INV_PAGES_LO_pages_lo (pages % 2 ^ 32)).fSet F.COMB_INV_PAGES_HI_pages_hi (pages / 2 ^ 32)
  s.startInval scope ctx start pages k

/-- COMB_INVAL. It waits for the unit, then for the invalidation, which COMB_INV_DONE ends. -/
def State.combInval (s : State) (k : Nat) (c : Cmd) : State × Ctl :=
  if c.pos = 1 || s.comb.inval.isSome then (s, .wait)
  else
    let start := c.p 1 / 65536
    let pages := (c.p 1 + c.p 2 - 1) / 65536 - start + 1
    ((s.putCmd k { c with pos := 1 }).fwInval 0 (BitVec.ofNat 16 (c.subject * 16 + c.asp)) start pages (some k), .wait)

/-- COMB_ROOT_SET. -/
def State.combRootSet (s : State) (k : Nat) (c : Cmd) : State × Ctl :=
  let ctx : Ctx := BitVec.ofNat 16 (c.subject * 16 + c.pb 1 0 4)
  let root := c.pb 2 0 45
  let inval := fun (s : State) =>
    if s.comb.inval.isSome then (s.putCmd k { c with pos := 1 }, Ctl.wait)
    else ((s.putCmd k { c with pos := 2 }).fwInval 1 ctx 0 0 (some k), Ctl.wait)
  if c.pos = 2 then (s, .wait)
  else if c.pos = 1 then inval s
  else if s.domeSt c.subject ≠ .active then (s, .done stDenied 0)
  else if !s.fB F.COMB_CTL_enable then (s, .done stBusy 0)
  else match s.fwWrite1 (.fw k) 0 (s.rootDir + 8 * ctx.toNat) 8 (if root = 0 then 0 else root + 1) with
    | (s, .wait) => (s, .wait)
    | (s, .fail st) => (s, .done st 0)
    | (s, .ok _) => inval s

/-- The running invalidation ends once every old-epoch beat has (R186). -/
def State.invDone (s : State) : State :=
  match s.comb.inval with
  | some v =>
    if s.oldBeats v.gen then s
    else
      let s := ({ s with comb := { s.comb with inval := none } }).fFlag F.COMB_INV_CMD_busy false
      match v.cmd with
      | some k => ((s.clearAns (.fw k)).dropOrigin (.fw k)).fwReply k stOK 0
      | none => s
  | none => s

/-- COMB_INV_DONE. -/
def execCombInvDone (s : State) : Result := run s fun s => s.invDone

/-! ## AGENT_DOWN (R144) -/

-- Log entry 56: DEDUCED, unsafe.
/-- Steps 1 and 2 of R144; the sweep is left to AGENT_DOWN_SWEEP_DONE. -/
def State.agentDownCmd (s : State) (k : Nat) (c : Cmd) : State × Ctl :=
  let a := c.pb 1 0 5
  if c.pos = 1 then (s, .wait)
  else
    let down := if s.agentDown a then s.home.down else s.home.down ++ [a]
    let w : DownSweep := ⟨a, some k⟩
    let s := { s with home := { s.home with down := down, sweeps := s.home.sweeps ++ [w] } }
    let s := s.putCmd k { c with pos := 1 }
    (s.downSnoops a, .wait)

/-! ## REKEY (R313) -/

/-- The cells a REKEY covers: the subject's own and those of groups it anchors, stored under the old generation. -/
def State.rekeyCells (s : State) (d first n : Nat) : List Nat :=
  let cells := if n = 0 then s.ownedCells else (List.range n).map fun i => first + i
  cells.filter fun cell => match s.cellEntry cell with
    | some e => (ownedBy e d || s.anchorOf e d) && s.drainingGen d == some (ceKeyGen e)
    | none => false

/-- Starts sweep engines on the cells of running REKEYs: at most 8 engines, one cell each, never a migrating cell. Each
asks leave (kind 7) for its cell. -/
def State.startSweeps (s : State) (k : Nat) (d : Nat) (cells : List Nat) : State :=
  cells.foldl (fun s cell =>
    let idle := !(s.sec.sweeps.any fun w => w.cell == cell)
    let mig := (s.slotOf cell).isSome
    if s.sec.sweeps.length < 8 && idle && !mig then
      let w : Sweep := ⟨k, d, cell, 1024⟩
      let s := { s with sec := { s.sec with sweeps := s.sec.sweeps ++ [w] } }
      s.pguAsk 7 (.sweep cell)
    else s) s

/-- A running REKEY of a Dome in TEARDOWN stops at its next cell: sweeps not started are dropped, and it completes with
DOME_TEARDOWN once the started ones have ended (R316). -/
def State.rekeyStop (s : State) (k : Nat) (c : Cmd) : State × Ctl :=
  let (idle, rest) := s.sec.sweeps.partition fun w => w.cmd == k && w.ptr == 1024
  let s := idle.foldl (fun s w => s.pguReturn (.sweep w.cell)) { s with sec := { s.sec with sweeps := rest } }
  if rest.any fun w => w.cmd == k then (s, .wait)
  else ({ s with sec := { s.sec with rekeyRun := s.sec.rekeyRun.filter fun r => r.2 != k } }, .done stTeardown c.aux)

/-- REKEY. `pos` is 1 once it runs; `aux` counts the cells swept. -/
def State.rekeyCmd (s : State) (k : Nat) (c : Cmd) : State × Ctl :=
  let d := c.subject
  let go := fun (s : State) (c : Cmd) =>
    let s := s.putCmd k { c with pos := 1 }
    let cells := s.rekeyCells d (c.p 1) (c.p 2)
    if cells.isEmpty && !(s.sec.sweeps.any fun w => w.cmd == k) then
      ({ s with sec := { s.sec with rekeyRun := s.sec.rekeyRun.filter fun r => r.2 != k } }, Ctl.done stOK c.aux)
    else (s.startSweeps k d cells, .wait)
  if c.pos = 1 && s.domeSt d == .teardown then s.rekeyStop k c
  else if c.pos = 1 then go s c
  else if d = 0 || s.domeSt d == .free then (s, .done stFormat 0)
  else if s.domeSt d == .teardown then (s, .done stTeardown 0)
  else if c.p 2 ≠ 0 ∧ s.tenantCells < c.p 1 + c.p 2 then (s, .done stLength 0)
  else
    let staged := ([0, 1] : List Nat).find? fun g => (s.keySlot d g).st == .staged
    if staged.isNone && (s.drainingGen d).isNone then (s, .done stKey 0)
    else if s.sec.rekeyRun.any fun r => r.1 == d then (s, .wait)
    else
      let s := match staged with
        | some g =>
          let old := 1 - g
          let up := fun (x : KeySlot) (st : SlotSt) => { x with st := st }
          let sl := SMap.put (SMap.put s.sec.slots (d * 2 + g) (up (s.keySlot d g) .current)) (d * 2 + old)
            (up (s.keySlot d old) .draining)
          let s := { s with sec := { s.sec with slots := sl } }
          let n := (s.rekeyCells d 0 0).length
          let s := { s with sec := { s.sec with old := SMap.store s.sec.old 0 d n } }
          if n = 0 then s.clearSlot d old else s
        | none => s
      go { s with sec := { s.sec with rekeyRun := s.sec.rekeyRun ++ [(d, k)] } } c

/-! ## Handles (R281) -/

def State.handleBase (s : State) : Nat :=
  s.fN F.RYP_HANDLE_BASE_HI_base_hi * 2 ^ 32 + s.fN F.RYP_HANDLE_BASE_LO_base_lo * 2 ^ 20

/-- A handle entry as hardware and firmware read it, for requester `o`. -/
def State.handleEntry (s : State) (o : Origin) (i : Nat) : State × Fw :=
  match s.engRead o 0 ((s.handleBase + 16 * i) / 64) 33 0 .none (some 0) with
  | (s, none) => (s, .wait)
  | (s, some (.no r)) => (s, .fail r.status)
  | (s, some (.ok l)) =>
    let o := (s.handleBase + 16 * i) % 64
    if (l.poison.extractLsb' (o / 4) 4) != 0 then (s.consume 0 ((s.handleBase + 16 * i) / 64), .fail stPoison)
    else (s, .ok (bits l.data.toNat (8 * o) 128))

def heValid (e : Nat) : Bool := bit e 0
def heGen (e : Nat) : Nat := bits e 32 16
def heDome (e : Nat) : Nat := bits e 4 12

/-- The lowest index from `i` on whose entry is not in use, with its entry; `none` where the search waits for a read. -/
def State.freeHandle (o : Origin) : Nat → State → Nat → State × Option (Option (Nat × Nat))
  | 0, s, _ => (s, some none)
  | fuel + 1, s, i =>
    match s.handleEntry o i with
    | (s, .ok e) => if heValid e then State.freeHandle o fuel s (i + 1) else (s, some (some (i, e)))
    | (s, .wait) => (s, none)
    | (s, .fail _) => State.freeHandle o fuel s (i + 1)

-- Log entry 64: DEDUCED, unsafe.
/-- HANDLE_CREATE. -/
def State.handleCreate (s : State) (k : Nat) (c : Cmd) : State × Ctl :=
  let d := c.subject
  let cells := (List.range (c.p 2)).map fun i => c.p 1 + i
  if s.behind k c [0x28, 0x29] then (s, .wait)
  else match s.fwEntry (c.p 1) with
  | (s, .inr st) => (s, .done st 0)
  | (s, .inl e0) =>
    let test := fun (_ : State) (_ : Nat) (e : Word) =>
      if ceAllocated e && ceGroup e == ceGroup e0 && ceOwner e == ceOwner e0 then none else some stDenied
    if !s.reaches e0 d then (s, .done stDenied 0)
    else match s.checkCells test cells with
      | (s, some st) => (s, .done st 0)
      | (s, none) =>
        if !s.fB F.RYP_HANDLE_CTL_enable then (s, .done stBusy 0)
        else match State.freeHandle (.fw k) 65535 s 1 with
          | (s, none) => (s, .wait)
          | (s, some none) => (s, .done stBusy 0)
          | (s, some (some (i, old))) =>
            let gen := heGen old
            let grp := if ceGroup e0 then 8 + (ceOwner e0 % 256) * 2 ^ 16 else 0
            let v := 1 + c.pb 3 0 2 * 2 + grp + d * 16 + gen * 2 ^ 32 + c.p 1 * 2 ^ 64 + c.p 2 * 2 ^ 96
            match s.fwWrite1 (.fw k) 0 (s.handleBase + 16 * i) 16 v with
            | (s, .wait) => (s, .wait)
            | (s, .fail st) => (s, .done st 0)
            | (s, .ok _) => (s, .done stOK (gen * 65536 + i))

/-- Clears a handle entry and raises its generation. -/
def State.endHandle (s : State) (o : Origin) (i e : Nat) : State × Fw :=
  s.fwWrite1 o 0 (s.handleBase + 16 * i) 16 (setBits (e - e % 2) 32 16 (heGen e + 1))

/-- A packet that was resolved under a handle and is not served yet. -/
def State.handleOpen (s : State) (h : Nat) : Bool :=
  (s.ry.toList.flatMap (fun p => p.ready) ++ s.fab.here).any fun x =>
    x.base.isSome && decide (x.pkt.kind ≤ 1) && x.pkt.target.toNat == h

/-- Reads of a handle's entry that packets have made and not used are made again. -/
def State.forgetHandle (s : State) (i : Nat) : State :=
  let line := (s.handleBase + 16 * i) / 64
  { s with home := { s.home with answers := s.home.answers.filter fun a =>
      !(a.line == line && !a.wr && (match a.origin with | .rythar _ _ _ => true | _ => false)) } }

-- Log entry 64: DEDUCED, unsafe.
/-- HANDLE_DESTROY. It completes once every packet resolved before has been served. -/
def State.handleDestroy (s : State) (k : Nat) (c : Cmd) : State × Ctl :=
  let h := c.pb 1 0 32
  if c.pos = 1 then (s, if s.handleOpen h then .wait else .done stOK 0)
  else if s.behind k c [0x28, 0x29] then (s, .wait)
  else if h % 65536 = 0 || !s.fB F.RYP_HANDLE_CTL_enable then (s, .done stFormat 0)
  else match s.handleEntry (.fw k) (h % 65536) with
    | (s, .fail st) => (s, .done st 0)
    | (s, .wait) => (s, .wait)
    | (s, .ok e) =>
      if !heValid e || heGen e != h / 65536 then (s, .done stFormat 0)
      else if heDome e ≠ c.subject then (s, .done stDenied 0)
      else match s.endHandle (.fw k) (h % 65536) e with
        | (s, .wait) => (s, .wait)
        | (s, .fail st) => (s, .done st 0)
        | (s, .ok _) =>
          let s := s.forgetHandle (h % 65536)
          if s.handleOpen h then (s.putCmd k { c with pos := 1 }, .wait) else (s, .done stOK 0)

/-! ## Commands of the block -/

/-- NOP. -/
def execNop (k : Fin 16385) (s : State) : Result := run s fun s => s.control k 0x00 true fun s c => s.nopCmd c
/-- QUEUE_CREATE. -/
def execQueueCreate (k : Fin 16385) (s : State) : Result := run s fun s => s.control k 0x01 false fun s c => s.queueCreate k c
/-- QUEUE_DESTROY. -/
def execQueueDestroy (k : Fin 16385) (s : State) : Result := run s fun s => s.control k 0x02 true fun s c => s.queueDestroy k c
/-- QUEUE_RESUME. -/
def execQueueResume (k : Fin 16385) (s : State) : Result := run s fun s => s.control k 0x03 true fun s c => s.queueResume c
/-- DOORBELL_SET. -/
def execDoorbellSet (k : Fin 16385) (s : State) : Result := run s fun s => s.control k 0x04 true fun s c => s.doorbellSet c
/-- DOME_CREATE. -/
def execDomeCreate (k : Fin 16385) (a : QAns) (s : State) : Result :=
  run s fun s => s.control k 0x08 false fun s c => s.domeCreate a c
/-- SHARE_JOIN. -/
def execShareJoin (k : Fin 16385) (s : State) : Result := run s fun s => s.control k 0x0A true fun s c => s.shareJoin k c
/-- SHARE_LEAVE. -/
def execShareLeave (k : Fin 16385) (s : State) : Result := run s fun s => s.control k 0x0B true fun s c => s.shareLeave k c
/-- CELL_ALLOC. -/
def execCellAlloc (k : Fin 16385) (a : QAns) (s : State) : Result :=
  run s fun s => s.control k 0x10 true fun s c => s.cellAlloc k a c
/-- CELL_FREE. -/
def execCellFree (k : Fin 16385) (s : State) : Result := run s fun s => s.control k 0x11 true fun s c => s.cellFreeCmd k c
/-- SHARE_MOVE. -/
def execShareMove (k : Fin 16385) (a : QAns) (s : State) : Result :=
  run s fun s => s.control k 0x12 true fun s c => s.shareMove k a c
/-- PIN. -/
def execPin (k : Fin 16385) (s : State) : Result := run s fun s => s.control k 0x14 true fun s c => s.pinCmd k c
/-- UNPIN. -/
def execUnpin (k : Fin 16385) (s : State) : Result := run s fun s => s.control k 0x15 true fun s c => s.unpinCmd k c
/-- MIGRATE. -/
def execMigrate (k : Fin 16385) (a : QAns) (dstOk reach : Bool) (s : State) : Result :=
  run s fun s => s.control k 0x18 true fun s c => s.migrateCmd k a dstOk reach c
/-- MIGRATE_END. -/
def execMigrateEnd (k : Fin 16385) (s : State) : Result := run s fun s => s.control k 0x19 true fun s c => s.migrateEnd k c
/-- COMB_INVAL. -/
def execCombInval (k : Fin 16385) (s : State) : Result := run s fun s => s.control k 0x1C true fun s c => s.combInval k c
/-- COMB_ROOT_SET. -/
def execCombRootSet (k : Fin 16385) (s : State) : Result := run s fun s => s.control k 0x1D false fun s c => s.combRootSet k c
/-- AGENT_DOWN. -/
def execAgentDown (k : Fin 16385) (s : State) : Result := run s fun s => s.control k 0x20 true fun s c => s.agentDownCmd k c
/-- REKEY. -/
def execRekey (k : Fin 16385) (s : State) : Result := run s fun s => s.control k 0x24 false fun s c => s.rekeyCmd k c
/-- HANDLE_CREATE. -/
def execHandleCreate (k : Fin 16385) (s : State) : Result := run s fun s => s.control k 0x28 true fun s c => s.handleCreate k c
/-- HANDLE_DESTROY. -/
def execHandleDestroy (k : Fin 16385) (s : State) : Result := run s fun s => s.control k 0x29 true fun s c => s.handleDestroy k c

end Sys2Proof.Machine
end

