-- ==== Sys2Proof/Machine/Movers.lean ====
section
/-!
DEFINITION. Engine accesses to PVA operands (R177, R180, R187, R284), the data movers' opcodes (R161) and the fabric
opcodes at the requester (R279, R280, R283).
-/
namespace Sys2Proof.Machine

/-! ## An engine's access to one line of a PVA operand -/

inductive Acc | ok (line : Nat) (l : Line) | wait | fail (st : Nat)
  deriving DecidableEq, Repr

/-- An engine that runs a command: its origin at the home, its number (R181), its source classes for reads and writes. -/
structure Eng where
  o : Origin
  num : Nat
  rdCls : Nat
  wrCls : Nat
  deriving DecidableEq, Repr

def moverOf (n k : Nat) : Eng := ⟨.mover n k, moverEng n, 28, 28⟩
def spireOf (n k : Nat) : Eng := ⟨.spire n k, spireEng n, 29, 30⟩
/-- The engine that runs a command. -/
def Cmd.unit (c : Cmd) (k : Nat) : Eng := match c.eng with | .spireSlot n _ => spireOf n k | .mover n => moverOf n k | _ => moverOf 0 k

/-- The line of an access that the unit of work has begun: it keeps its DPA (R186). -/
def State.ownLine (s : State) (k pva : Nat) (wr : Bool) : Option Nat :=
  (s.cmd k).bind fun c => (c.beats.find? fun b => b.1 == pva / 64 && b.2.1 == wr).map fun b => b.2.2

/-- Notes an access that the unit of work has begun. -/
def State.keepBeat (s : State) (k pva : Nat) (wr : Bool) (line : Nat) : State :=
  match s.cmd k with
  | some c =>
    if c.beats.any fun b => b.1 == pva / 64 && b.2.1 == wr then s
    else s.putCmd k { c with beats := (pva / 64, wr, line) :: c.beats }
  | none => s

/-- The DPA of an access: that of the access begun, else by translation. -/
def State.engXl (s : State) (k : Nat) (c : Cmd) (e : Eng) (pva : Nat) (rd wr stream : Bool) : State × Xl :=
  match s.ownLine k pva wr with
  | some line => (s, .dpa (line * 64 + pva % 64))
  | none => s.xlate k c c.ctx e.num pva rd wr stream

/-- Who an engine's access fills for (R108). -/
def State.engFill (s : State) (ctx : Ctx) : Option Nat := if s.engineFill (domeOf ctx) then some (domeOf ctx) else none

/-- The window request of an engine's access. -/
def winTx (s : State) (c : Cmd) (e : Eng) (line : Nat) (wr : Bool) (l : Line) (be : BitVec 64) : Tx :=
  { newTx (if wr then .plainWr else .rdCur) e.o c.ctx line (if wr then e.wrCls else e.rdCls) with
    wdata := l, be := be, gen := s.fN F.COMB_GEN_gen }

/-- A Spire counts the lines of other channels it reaches over the mesh. -/
def State.offChan (s : State) (e : Eng) (line : Nat) : State :=
  match e.o with
  | .spire n _ =>
    (match s.locate (line * 64) with
      | some (ch, _) => if ch = n then s else s.bump F.SPIRE_OFFCH_CNT_lines 1 n
      | none => s)
  | _ => s

/-- A line filled with poison only to refuse its read is not consumed (R90, R284). -/
def State.spare (s : State) (k line : Nat) : State :=
  match s.cmd k with
  | some c => if c.eaten.contains line then s else s.putCmd k { c with eaten := line :: c.eaten }
  | none => s

-- Log entry 65: DESIGN CHOICE, safe.
/-- Reads a line at its DPA. A window's failure delivers an all-poisoned line (R284). -/
def State.acReadAt (s : State) (k : Nat) (c : Cmd) (e : Eng) (line : Nat) : State × Acc :=
  match s.owinFor c.ctx line with
  | some w =>
    (match s.owinEng (winTx s c e line false Line.zero 0) w with
      | (s, none) => (s, .wait)
      | (s, some none) => (s.spare k line, .ok line Line.poisoned)
      | (s, some (some l)) => (s, .ok line l))
  | none =>
    match s.engRead e.o c.ctx line e.rdCls (s.fN F.COMB_GEN_gen) .engine (s.engFill c.ctx) with
    | (s, none) => (s, .wait)
    | (s, some (.no r)) => (s, .fail r.status)
    | (s, some (.ok l)) => (s.offChan e line, .ok line l)

-- Log entry 65: DESIGN CHOICE, safe.
/-- Writes bytes of a line at its DPA. A write that a window fails to deliver completes, discarded (R284). -/
def State.acWriteAt (s : State) (c : Cmd) (e : Eng) (line : Nat) (l : Line) (be : BitVec 64) : State × Acc :=
  match s.owinFor c.ctx line with
  | some w =>
    (match s.owinEng (winTx s c e line true l be) w with
      | (s, none) => (s, .wait)
      | (s, some _) => (s, .ok line l))
  | none =>
    match s.engWrite e.o (s.fN F.COMB_GEN_gen) ⟨c.ctx, line, l, be, e.wrCls, .engine, .engine, s.engFill c.ctx⟩ with
    | (s, none) => (s, .wait)
    | (s, some (some r)) => (s, .fail r.status)
    | (s, some none) => (s.offChan e line, .ok line l)

/-- Whether an engine's access to a line is under way or answered. -/
def State.begun (s : State) (e : Eng) (line : Nat) (wr : Bool) : Bool :=
  (s.home.txs.any fun t => t.origin == e.o && t.line == line && t.kind.isWrite == wr) ||
    (s.home.answers.any fun a => a.origin == e.o && a.line == line && a.wr == wr) ||
    s.fab.owin.any fun r => r.tx.origin == e.o && r.tx.line == line && r.tx.kind.isWrite == wr

/-- Keeps the DPA of an access that has begun. -/
def State.noteBeat (s : State) (k : Nat) (e : Eng) (pva : Nat) (wr : Bool) (line : Nat) : State :=
  if s.begun e line wr then s.keepBeat k pva wr line else s

/-- Reads the line that holds a PVA. -/
def State.acRead (s : State) (k : Nat) (c : Cmd) (e : Eng) (pva : Nat) (stream : Bool := true) : State × Acc :=
  match s.engXl k c e pva true false stream with
  | (s, .wait) => (s, .wait)
  | (s, .fail st) => (s, .fail st)
  | (s, .dpa d) =>
    let (s, a) := s.acReadAt k c e (d / 64)
    (s.noteBeat k e pva false (d / 64), a)

/-- Writes bytes of the line that holds a PVA. -/
def State.acWrite (s : State) (k : Nat) (c : Cmd) (e : Eng) (pva : Nat) (l : Line) (be : BitVec 64) : State × Acc :=
  match s.engXl k c e pva false true true with
  | (s, .wait) => (s, .wait)
  | (s, .fail st) => (s, .fail st)
  | (s, .dpa d) =>
    let (s, a) := s.acWriteAt c e (d / 64) l be
    (s.noteBeat k e pva true (d / 64), a)

/-- A command consumes poison as an operand, once for a line and unit of work (R90). -/
def State.cmdConsume (s : State) (k : Nat) (c : Cmd) (line : Nat) : State :=
  match s.cmd k with
  | some x =>
    if x.eaten.contains line then s
    else (s.consume c.ctx line).putCmd k { x with poison := true, eaten := line :: x.eaten }
  | none => s

/-! ## Bytes of an operand, with a poison mark per byte -/

/-- The marks of a line's bytes: byte k is marked where its 16-byte block is poisoned (R83, R89). -/
def lineMarks (l : Line) : BitVec 64 :=
  (List.range 4).foldl (fun (a : BitVec 64) b => if l.blockPoison b then a ||| (0xFFFF#64 <<< (16 * b)) else a) 0

inductive Bytes | ok (v m : Nat) | wait | fail (st : Nat)
  deriving DecidableEq, Repr

/-- Reads `n` bytes from a PVA, line by line: value and poison marks; a marked byte is a consumption. -/
def State.getBytes (k : Nat) (e : Eng) (stream : Bool) : Nat → State → Nat → Nat → State × Bytes
  | 0, s, _, _ => (s, .ok 0 0)
  | fuel + 1, s, pva, n =>
    if n = 0 then (s, .ok 0 0)
    else match s.cmd k with
      | none => (s, .wait)
      | some c =>
        let o := pva % 64
        let j := min n (64 - o)
        match s.acRead k c e pva stream with
        | (s, .wait) => (s, .wait)
        | (s, .fail st) => (s, .fail st)
        | (s, .ok line l) =>
          let v := bits l.data.toNat (8 * o) (8 * j)
          let m := bits (lineMarks l).toNat o j
          let s := if m = 0 then s else s.cmdConsume k c line
          match State.getBytes k e stream fuel s (pva + j) (n - j) with
          | (s, .ok w x) => (s, .ok (v + w * 2 ^ (8 * j)) (m + x * 2 ^ j))
          | r => r

/-- The words of a line poisoned because a byte of their block is marked. -/
def markPoison (lo n m : Nat) : BitVec 16 :=
  (List.range 4).foldl (fun (a : BitVec 16) b =>
    let x := max (16 * b) lo
    let y := min (16 * b + 16) (lo + n)
    if x < y ∧ bits m (x - lo) (y - x) ≠ 0 then a ||| (0xF#16 <<< (4 * b)) else a) 0

/-- Writes `n` bytes within one line at a PVA. -/
def State.putBytes (s : State) (k : Nat) (e : Eng) (pva n v m : Nat) : State × Acc :=
  match s.cmd k with
  | none => (s, .wait)
  | some c =>
    let o := pva % 64
    s.acWrite k c e pva ⟨BitVec.ofNat 512 (v % 2 ^ (8 * n) * 2 ^ (8 * o)), markPoison o n m⟩ (rangeBe o n)

/-- Writes `n` bytes from a PVA on, line by line. -/
def State.putRange (k : Nat) (e : Eng) : Nat → State → Nat → Nat → Nat → Nat → State × Acc
  | 0, s, _, _, _, _ => (s, .ok 0 Line.zero)
  | fuel + 1, s, pva, n, v, m =>
    if n = 0 then (s, .ok 0 Line.zero)
    else
      let j := min n (64 - pva % 64)
      match s.putBytes k e pva j (v % 2 ^ (8 * j)) (m % 2 ^ j) with
      | (s, .ok _ _) => State.putRange k e fuel s (pva + j) (n - j) (v / 2 ^ (8 * j)) (m / 2 ^ j)
      | r => r

/-! ## Running a command -/

/-- What one unit of work comes to: the next unit, a wait, or the end with a status. -/
inductive Prog | go | wait | stop (st : Nat)
  deriving DecidableEq, Repr

def State.cmdPos (s : State) (k : Nat) : Nat := match s.cmd k with | some c => c.pos | none => 0
def State.setPos (s : State) (k p : Nat) : State := match s.cmd k with | some c => s.putCmd k { c with pos := p } | none => s

-- Log entry 63: DESIGN CHOICE, safe.
/-- A unit of work has ended: its accesses' outcomes are cleared. -/
def State.unitEnd (s : State) (k : Nat) (e : Eng) : State :=
  match s.cmd k with
  | some c => (s.putCmd k { c with eaten := [], beats := [] }).clearAns e.o
  | none => s

/-- Ends a command that ran, with its units done as the result of a failure (R187). -/
def State.stopCmd (s : State) (k st res : Nat) : State :=
  match s.cmd k with
  | some c => s.endCmd k c st res
  | none => s

/-! ### What a command leaves undefined (R161, R169, R187, R217) -/

/-- The DPA of a PVA as a command's engine has it cached or the tables map it, where they allow a write if one is asked
for. -/
def State.mapNow (s : State) (c : Cmd) (pva : Nat) (wr : Bool) : Option Nat :=
  let cached := ((s.atcFind c.eng.num c.ctx (pva / 65536)).orElse fun _ => s.stcFind c.ctx (pva / 65536)).map fun e => e.2
  match cached with
  | some l => if wr && !l.w then none else some (l.dpa + pva % 2 ^ l.shift)
  | none =>
    match s.walkPeek c.ctx pva with
    | .leaf d sh _ w => if wr && !w then none else some (d + pva % 2 ^ sh)
    | _ => none

-- Log entry 11: DESIGN CHOICE, unsafe.
/-- Whether a write of a command may reach a line: local storage of its own. -/
def State.canReach (s : State) (c : Cmd) (line cls : Nat) : Bool :=
  (s.owinFor c.ctx line).isNone && (s.pageDome line).isNone && !s.inDescTable line &&
    (match (s.verdict c.ctx line (.of cls)).2 with | .pass _ => true | .no _ => false)

/-- The pieces of a range that lie in one 64 KiB page each. -/
def pagePieces (r : Nat × Nat) : List (Nat × Nat) :=
  if r.2 = 0 then []
  else (List.range ((r.1 + r.2 + 65535) / 65536 - r.1 / 65536)).map fun i =>
    let a := max r.1 ((r.1 / 65536 + i) * 65536)
    (a, min (r.1 + r.2) ((r.1 / 65536 + i + 1) * 65536) - a)

/-- Elements of MOVE_STRIDED from byte `o` of element `i` on. -/
def Cmd.strideRuns (c : Cmd) (base stride i o : Nat) : List (Nat × Nat) :=
  (List.range (c.p 3 - i)).map fun j => if j = 0 then (base + i * stride + o, c.p 2 - o) else (base + (i + j) * stride, c.p 2)

/-- The operand ranges of a command that reads and writes memory: inputs and outputs. -/
def Cmd.runs (c : Cmd) : List (Nat × Nat) × List (Nat × Nat) :=
  match c.opcode with
  | 0x40 => ([(c.p 0, c.p 2)], [(c.p 1, c.p 2)])
  | 0x42 => (c.strideRuns (c.p 0) (c.p 4) 0 0, c.strideRuns (c.p 1) (c.p 5) 0 0)
  | 0x84 =>
    let z := if bit (c.p 6) 42 then 8 else 4
    let idx := (c.part.getD 2 []).getD 0 0
    let rows := (List.range (c.pb 2 0 32)).filterMap fun x =>
      let r := bits idx (8 * z * x) (8 * z)
      if r < c.pb 6 0 40 then some (c.p 0 + r * c.pb 5 32 24, fmtBytes c.fa (c.pb 5 16 16)) else none
    (c.ranges.1 ++ rows, c.ranges.2)
  | 0x88 =>
    let copy := if bit (c.p 6) 18 then [(bits ((c.part.getD 0 []).getD 0 0) 256 64, fmtBytes c.fo (c.pb 3 0 40))] else []
    (c.ranges.1, c.ranges.2 ++ copy)
  | _ => c.ranges

/-- The first entry of the first list of `part`: 0 while a GATHER_POOL or ATTN_PARTIAL reads what it must have first. -/
def Cmd.phase (c : Cmd) : Nat := (c.part.getD 0 []).getD 0 0

/-- Whether a command may have written outputs: GATHER_POOL, ATTN_PARTIAL and TOPK only after inputs have been read (R217,
R220). -/
def Cmd.wrote (c : Cmd) : Bool :=
  match c.opcode with
  | 0x84 => c.phase != 0 && c.aux != 0
  | 0x8C => decide (c.pb 4 0 16 ≤ c.pos)
  | 0x90 => decide (c.pb 1 0 40 ≤ c.pos)
  | 0xC0 => false
  | _ => c.pos != 0

-- Log entry 11: DESIGN CHOICE, unsafe.
/-- The outputs of a command that lie at or beyond its units done. -/
def Cmd.left (c : Cmd) : List (Nat × Nat) :=
  let tail := fun (code base n : Nat) => (base + fmtBytes code c.pos, fmtBytes code n - fmtBytes code c.pos)
  match c.opcode with
  | 0x40 => [(c.p 1 + c.pos, c.p 2 - c.pos)]
  | 0x41 => [(c.p 0 + c.pos, c.p 1 - c.pos)]
  | 0x42 => if c.p 2 = 0 then [] else c.strideRuns (c.p 1) (c.p 5) (c.pos / c.p 2) (c.pos % c.p 2)
  | 0x80 => [tail c.fo (c.p 1) (c.pb 2 0 40)]
  | 0x81 => [tail c.fo (c.p 3) (c.pb 2 0 40)]
  | 0x82 => [tail c.fo (c.p 1) (c.pb 2 0 40)]
  | 0x84 =>
    let row := fmtBytes c.fo (c.pb 5 16 16)
    if c.phase = 0 then [] else [(c.p 4 + c.aux * row, (c.pb 2 32 32 - c.aux) * row)]
  | 0x88 =>
    let n := c.pb 3 0 40
    (c.runs.2.take (if c.pb 6 16 2 = 0 then 3 else 2)).map (fun r => tail 0 r.1 n) ++
      (if bit (c.p 6) 18 then (c.runs.2.drop (if c.pb 6 16 2 = 0 then 3 else 2)).map (fun r => tail c.fo r.1 n) else [])
  | 0x98 => if c.aux = 0 then [] else [(c.p 2, c.pb 3 0 40)]
  | 0xC0 => [(c.p 2 + min c.result c.pos, c.p 3 - min c.result c.pos)]
  | 0x8C => if c.wrote then c.ranges.2 else []
  | 0x90 => if c.wrote then c.ranges.2 else []
  | _ => c.ranges.2

/-- The pieces of a range by the DPA they reach: PVA, DPA and bytes. -/
def State.reach (s : State) (c : Cmd) (wr : Bool) (r : Nat × Nat) : List (Nat × Nat × Nat) :=
  (pagePieces r).filterMap fun p => (s.mapNow c p.1 wr).map fun d => (p.1, d, p.2)

/-- An output shares stored bytes with an input of its command under a different PVA. -/
def State.aliases (s : State) (c : Cmd) (out : Nat × Nat) : Bool :=
  let ins := c.runs.1.flatMap (s.reach c false)
  (s.reach c true out).any fun o => ins.any fun x => o.1 + x.2.1 != x.1 + o.2.1 && meet o.2 x.2

/-- The bytes of a MOVE_STRIDED that two of its destination elements cover. -/
def Cmd.strideMeet (c : Cmd) : List (Nat × Nat) :=
  if c.opcode = 0x42 ∧ c.p 5 < c.p 2 then (List.range (c.p 3 - 1)).map fun j => (c.p 1 + (j + 1) * c.p 5, c.p 2 - c.p 5) else []

-- Log entry 11: DESIGN CHOICE, unsafe.
/-- The statuses after which units beyond those done are undefined. -/
def openEnd (st : Nat) : Bool :=
  [stWithdrawn, stTrans, stDenied, stTimeout, stTeardown, stKey, stBusy, stRemote, stFault].contains st

-- Log entry 11: DESIGN CHOICE, unsafe.
/-- The ranges that a command which ends with a status leaves undefined. -/
def State.doubt (s : State) (c : Cmd) (st : Nat) : List (Nat × Nat) :=
  (if openEnd st then c.left else []) ++ (if c.wrote then c.runs.2.filter (s.aliases c) ++ c.strideMeet else [])

-- Log entry 11: DESIGN CHOICE, unsafe.
/-- Ends a command that ran; what the manual calls undefined in its destination is written with free values first. -/
def State.finishRun (s : State) (k st res : Nat) : State :=
  match s.cmd k with
  | some c =>
    let s := s.unitEnd k (c.unit k)
    let u := s.doubt c st
    if u.isEmpty then s.stopCmd k st res
    else s.putCmd k { c with ending := some (st, res), undef := u, st := .running, eaten := [], beats := [] }
  | none => s

-- Log entry 11: DESIGN CHOICE, unsafe.
/-- The next piece of undefined ranges that lies in one line a write may reach: PVA, bytes, its DPA and the ranges from it
on. Pages that are not mapped and lines no write may reach are passed over; at most `fuel` of them at once. -/
def State.undefNext (s : State) (c : Cmd) (cls : Nat) : Nat → List (Nat × Nat) → List (Nat × Nat) × Option (Nat × Nat × Nat)
  | 0, l => (l, none)
  | _, [] => ([], none)
  | fuel + 1, (a, n) :: r =>
    if n = 0 then s.undefNext c cls fuel r
    else
      match s.mapNow c a true with
      | none => let j := min n (65536 - a % 65536); s.undefNext c cls fuel ((a + j, n - j) :: r)
      | some d =>
        let j := min n (64 - a % 64)
        if s.canReach c (d / 64) cls then ((a, n) :: r, some (a, j, d)) else s.undefNext c cls fuel ((a + j, n - j) :: r)

-- Log entry 11: DESIGN CHOICE, unsafe.
/-- One line of what a command leaves undefined takes a free value, through the home; the command ends after the last. -/
def State.scrubStep (s : State) (k : Nat) (c : Cmd) (e : Eng) (st res : Nat) : State :=
  match s.undefNext c e.wrCls 4096 c.undef with
  | ([], _) => s.stopCmd k st res
  | (l, none) => s.putCmd k { c with undef := l }
  | (l, some (_, j, d)) =>
    let (n, s) := s.draw
    let w : EngWr := ⟨c.ctx, d / 64, Config.undefinedData n, rangeBe (d % 64) j, e.wrCls, .engine, .none, none⟩
    match s.engWrite e.o (s.fN F.COMB_GEN_gen) w with
    | (s, none) => s.putCmd k { c with undef := l }
    | (s, some _) =>
      let l := match l with | (b, n) :: r => (b + j, n - j) :: r | [] => []
      (s.putCmd k { c with undef := l }).clearAns e.o

/-- The command in a context as a mover may work on it. -/
def State.moverCmd (s : State) (k op : Nat) : Option (Cmd × Nat) :=
  match s.cmd k with
  | some c =>
    (match c.eng with
      | .mover n =>
        let ok := c.opcode == op && (c.st == .running || c.st == .blocked || (c.st == .queued && !s.heldBack c))
        if ok then some (c, n) else none
      | _ => none)
  | none => none

/-- A command is running, or waits after it ran. -/
def State.markCmd (s : State) (k : Nat) (st : CmdSt) : State := match s.cmd k with | some c => s.putCmd k { c with st := st } | none => s

-- Log entry 63: DESIGN CHOICE, safe.
/-- One unit of work of a data-movement command of `total` bytes, so that a mover's commands interleave (R409); `pos` counts
the bytes done. -/
def State.moverRun (s : State) (k op total : Nat) (f : Cmd → Eng → State → State × Prog) : State :=
  match s.moverCmd k op with
  | none => s
  | some (c, n) =>
    let e := moverOf n k
    match c.ending with
    | some (st, res) => s.scrubStep k c e st res
    | none =>
      match f c e (s.markCmd k .running) with
      | (s, .wait) => s.markCmd k .blocked
      | (s, .stop st) => s.finishRun k st (s.cmdPos k)
      | (s, .go) => if total ≤ s.cmdPos k then s.finishRun k stOK (s.cmdPos k) else s.unitEnd k e

/-! ## MOVE, FILL, MOVE_STRIDED (R161) -/

-- Log entry 63: DESIGN CHOICE, safe.
/-- One destination line's share of a copy: `n` bytes from `src` to `dst`, at most to the end of the line. -/
def State.copyUnit (s : State) (k : Nat) (e : Eng) (src dst n : Nat) : State × Prog :=
  let j := min n (64 - dst % 64)
  match State.getBytes k e true 3 s src j with
  | (s, .wait) => (s, .wait)
  | (s, .fail st) => (s, .stop st)
  | (s, .ok v m) =>
    match s.putBytes k e dst j v m with
    | (s, .wait) => (s, .wait)
    | (s, .fail st) => (s, .stop st)
    | (s, .ok _ _) => (s.setPos k (s.cmdPos k + j), .go)

/-- MOVE. -/
def State.moveWork (c : Cmd) (k : Nat) (e : Eng) (s : State) : State × Prog :=
  let p := s.cmdPos k
  s.copyUnit k e (c.p 0 + p) (c.p 1 + p) (c.p 2 - p)

/-- FILL: the byte at destination PVA a takes pattern byte a mod 8. -/
def State.fillWork (c : Cmd) (k : Nat) (e : Eng) (s : State) : State × Prog :=
  let p := s.cmdPos k
  let a := c.p 0 + p
  let j := min (c.p 1 - p) (64 - a % 64)
  let v := (List.range j).foldl (fun x i => x + bits (c.p 2) (8 * ((a + i) % 8)) 8 * 2 ^ (8 * i)) 0
  match s.putBytes k e a j v 0 with
  | (s, .wait) => (s, .wait)
  | (s, .fail st) => (s, .stop st)
  | (s, .ok _ _) => (s.setPos k (p + j), .go)

/-- MOVE_STRIDED: element i of P2 bytes from source + i x P4 to destination + i x P5. -/
def State.stridedWork (c : Cmd) (k : Nat) (e : Eng) (s : State) : State × Prog :=
  let p := s.cmdPos k
  let i := p / c.p 2
  let o := p % c.p 2
  s.copyUnit k e (c.p 0 + i * c.p 4 + o) (c.p 1 + i * c.p 5 + o) (c.p 2 - o)

/-! ## Reading and writing an 8-byte word under its line lock -/

/-- What an update of a word comes to: the word as it was, poison, a wait, or a failure. -/
inductive WUpd | done (old : Nat) | poison | wait | fail (st : Nat)
  deriving DecidableEq, Repr

-- Log entry 65: DESIGN CHOICE, safe.
/-- An update through an outbound window, where no lock is taken (R284): the word is read and then written. -/
def State.updateWin (s : State) (k : Nat) (c : Cmd) (e : Eng) (line o w : Nat) (f : Nat → Option Nat) : State × WUpd :=
  match s.owinEng (winTx s c e line false Line.zero 0) w with
  | (s, none) => (s, .wait)
  | (s, some none) => (s, .poison)
  | (s, some (some l)) =>
    if l.badWord o then (s.cmdConsume k c line, .poison)
    else
      let old := (l.slot8 (o / 8)).toNat
      match f old with
      | none => (s, .done old)
      | some v =>
        match s.owinEng (winTx s c e line true (Line.zero.setSlot8 (o / 8) (BitVec.ofNat 64 v)) (rangeBe o 8)) w with
        | (s, none) => (s, .wait)
        | (s, some _) => (s, .done old)

/-- What a completed update of a word read. -/
def State.updated (s : State) (k : Nat) (c : Cmd) (e : Eng) (line o : Nat) (r : RdRes) : State × WUpd :=
  match r with
  | .no r => (s, .fail r.status)
  | .ok l => if l.badWord o then (s.cmdConsume k c line, .poison) else (s.offChan e line, .done (l.slot8 (o / 8)).toNat)

/-- An update of a word of a line under the line's lock. -/
def State.updateAt (s : State) (k : Nat) (c : Cmd) (e : Eng) (line o : Nat) (f : Nat → Option Nat) : State × WUpd :=
  match s.engUpdate e.o c.ctx line e.wrCls (s.fN F.COMB_GEN_gen) .engine (s.engFill c.ctx) with
  | (s, .wait) => (s, .wait)
  | (s, .done r) => s.updated k c e line o r
  | (s, .held l) =>
    let s := match (if l.badWord o then none else f (l.slot8 (o / 8)).toNat) with
      | some v => s.engFinish e.o line (l.setSlot8 (o / 8) (BitVec.ofNat 64 v))
      | none => s.engCancel e.o line
    match s.engAns e.o line true fullBe with
    | some a => s.updated k c e line o a.res
    | none => (s, .wait)

/-- Reads the word at a PVA and writes what `f` makes of it, under the line lock; `f` gives none to write nothing. A
poisoned word is consumed and left as it is. -/
def State.update8 (s : State) (k : Nat) (c : Cmd) (e : Eng) (pva : Nat) (f : Nat → Option Nat) : State × WUpd :=
  match s.engXl k c e pva true true false with
  | (s, .wait) => (s, .wait)
  | (s, .fail st) => (s, .fail st)
  | (s, .dpa d) =>
    let (s, r) := match s.owinFor c.ctx (d / 64) with
      | some w => s.updateWin k c e (d / 64) (d % 64) w f
      | none => s.updateAt k c e (d / 64) (d % 64) f
    (s.noteBeat k e pva true (d / 64), r)

/-! ## ATOMIC_ADD64 (R161) -/

/-- Adds under the word's line lock and gives the old value; a failed access reports nothing done. -/
def State.atomicRun (s : State) (k : Nat) : State :=
  match s.moverCmd k 0x48 with
  | none => s
  | some (c, n) =>
    let e := moverOf n k
    match (s.markCmd k .running).update8 k c e (c.p 0) fun old => some ((old + c.p 1) % 2 ^ 64) with
    | (s, .wait) => s.markCmd k .blocked
    | (s, .fail st) => (s.unitEnd k e).stopCmd k st 0
    | (s, .poison) => (s.unitEnd k e).stopCmd k stPoison 0
    | (s, .done old) => (s.unitEnd k e).stopCmd k stOK old

/-! ## GET, PUT, PING at the requester (R279, R280, R283) -/

/-- The end of a fabric command once all its messages have ended: OK with every byte, or the first failure with the bytes
below which all is done. `aux` is 1 after a failure. -/
def State.fabEnd (s : State) (k : Nat) : State :=
  match s.cmd k with
  | some c =>
    let total := c.p 3
    let left := s.fab.msgs.any fun m => m.2.cmd == k && (m.2.kind == .get || m.2.kind == .put)
    if left || c.ending.isSome || !(c.opcode == 0xC0 || c.opcode == 0xC1) || !(c.st == .running || c.st == .blocked) then s
    else if c.aux = 1 then s.finishRun k c.status (min c.result c.pos)
    else if c.pos = total then s.endCmd k c stOK total
    else s
  | none => s

/-- The bytes of a message, from its start, below which every packet has come. -/
def piecesDone : Nat → List (Nat × Nat) → Nat → Nat
  | 0, _, n => n
  | fuel + 1, l, n => match l.find? fun p => p.1 == n && p.2 != 0 with
    | some p => piecesDone fuel l (n + p.2)
    | none => n

/-- A message fails (R280): its command keeps the first status and the lowest byte not done. -/
def State.msgFail (s : State) (n st : Nat) : State :=
  match SMap.find s.fab.msgs n with
  | none => s
  | some m =>
    let s := s.endMsg n
    match s.cmd m.cmd with
    | none => s
    | some c =>
      match m.kind with
      | .ping => s.endCmd m.cmd c st 0
      | .get =>
        let done := m.base + piecesDone 32 m.pieces 0
        let c := if c.aux = 1 then { c with result := min c.result done } else { c with aux := 1, status := st, result := done }
        (s.putCmd m.cmd c).fabEnd m.cmd
      | .put =>
        let done := m.base + piecesDone 32 m.pieces 0
        let c := if c.aux = 1 then { c with result := min c.result done } else { c with aux := 1, status := st, result := done }
        (s.putCmd m.cmd c).fabEnd m.cmd
      | _ => s

def Cmd.rNode (c : Cmd) : Nat := c.pb 0 32 6
def Cmd.rHandle (c : Cmd) : Nat := c.pb 0 0 32

/-- Opens a message of a command. -/
def State.openMsg (s : State) (n k : Nat) (c : Cmd) (kind : MsgKind) (base len : Nat) : State :=
  let m : Msg := ⟨kind, k, c.rNode, c.rHandle, c.p 1 + base, len, base, 0, s.pwr.refTime, c.ctx, 0, []⟩
  { s with fab := { s.fab with msgs := SMap.put s.fab.msgs n m } }

/-- One message of a GET: an H_RD. -/
def State.getWork (c : Cmd) (k : Nat) (s : State) : State × Prog :=
  match s.cmd k with
  | none => (s, .wait)
  | some x =>
    if c.p 3 ≤ x.pos || x.aux = 1 then (s, .wait)
    else match s.freeMsg with
      | none => (s, .wait)
      | some n =>
        let off := c.p 1 + x.pos
        let len := min (c.p 3 - x.pos) (65536 - off % 65536)
        let s := (s.openMsg n k c .get x.pos len).putCmd k { x with pos := x.pos + len }
        (s.originate (Pkt.bare c.rNode s.pwr.node kHRd c.ctx n off len (BitVec.ofNat 32 c.rHandle) 0) 4, .go)

-- Log entry 86: DEDUCED, unsafe.
/-- One packet of a PUT: an H_WR of at most 4,096 bytes, split at 4 KiB boundaries of the offset. The first packet of a
message takes its number. -/
def State.putWork (c : Cmd) (k : Nat) (e : Eng) (s : State) : State × Prog :=
  match s.cmd k with
  | none => (s, .wait)
  | some x =>
    if c.p 3 ≤ x.pos || x.aux = 1 then (s, .wait)
    else
      let off := c.p 1 + x.pos
      let base := max (c.p 1) (off / 65536 * 65536) - c.p 1
      let len := min (c.p 3 - x.pos) (4096 - off % 4096)
      let known := (s.fab.msgs.find? fun m => m.2.cmd == k && m.2.kind == .put && m.2.base == base).map fun m => m.1
      match (if known.isSome then known else s.freeMsg) with
      | none => (s, .wait)
      | some n =>
        match State.getBytes k e true 66 s (c.p 2 + x.pos) len with
        | (s, .wait) => (s, .wait)
        | (s, .fail st) => (s, .stop st)
        | (s, .ok v m) =>
          let mlen := min (c.p 3 - base) (65536 - (c.p 1 + base) % 65536)
          let s := if known.isSome then s else s.openMsg n k c .put base mlen
          let pois := (List.range 256).foldl (fun (a : BitVec 256) b => if bits m (16 * b) 16 ≠ 0 then a ||| (1#256 <<< b) else a) 0
          let p : Pkt := { Pkt.bare c.rNode s.pwr.node kHWr c.ctx n off len (BitVec.ofNat 32 c.rHandle) 0 with
            units := (len + 63) / 64, poison := pois, data := BitVec.ofNat 32768 v }
          ((s.setPos k (x.pos + len)).originate p 4, .go)

/-- GET and PUT, a message or packet at a time: refused without handle mode (R283); a local failure of a PUT ends it once its
messages have ended. -/
def State.fabRun (s : State) (k op : Nat) (f : Cmd → Eng → State → State × Prog) : State :=
  match s.moverCmd k op with
  | none => s
  | some (c, n) =>
    let e := moverOf n k
    match c.ending with
    | some (st, res) => s.scrubStep k c e st res
    | none =>
      if !bit (s.domeMode c.dome).toNat 0 then s.endCmd k c stDenied 0
      else
        match f c e (s.markCmd k .running) with
        | (s, .stop st) =>
          (match (s.unitEnd k e).cmd k with
            | some x => (((s.unitEnd k e).putCmd k { x with aux := 1, status := st, result := x.pos, st := .blocked }).fabEnd k)
            | none => s)
        | (s, .go) => ((s.unitEnd k e).markCmd k .blocked).fabEnd k
        | (s, .wait) => (s.markCmd k .blocked).fabEnd k

/-- PING: a probe, or result 0 for this node. -/
def State.pingRun (s : State) (k : Nat) : State :=
  match s.moverCmd k 0xC4 with
  | none => s
  | some (c, _) =>
    if c.rNode = s.pwr.node then s.endCmd k c stOK 0
    else if s.fab.msgs.any fun m => m.2.cmd == k && m.2.kind == .ping then s
    else match s.freeMsg with
      | none => s.markCmd k .blocked
      | some n =>
        ((s.openMsg n k c .ping 0 0).markCmd k .blocked).originate (Pkt.bare c.rNode s.pwr.node kPing c.ctx n 0 0 0 0) 6

/-! ## Commands of the block -/

/-- MOVE. -/
def execMove (k : Fin 16385) (s : State) : Result :=
  run s fun s => s.moverRun k 0x40 (match s.cmd k with | some c => c.p 2 | none => 0) fun c e s => State.moveWork c k e s
/-- FILL. -/
def execFill (k : Fin 16385) (s : State) : Result :=
  run s fun s => s.moverRun k 0x41 (match s.cmd k with | some c => c.p 1 | none => 0) fun c e s => State.fillWork c k e s
/-- MOVE_STRIDED. -/
def execMoveStrided (k : Fin 16385) (s : State) : Result :=
  run s fun s => s.moverRun k 0x42 (match s.cmd k with | some c => c.p 2 * c.p 3 | none => 0) fun c e s => State.stridedWork c k e s
/-- ATOMIC_ADD64. -/
def execAtomicAdd64 (k : Fin 16385) (s : State) : Result := run s fun s => s.atomicRun k
/-- GET. -/
def execGet (k : Fin 16385) (s : State) : Result := run s fun s => s.fabRun k 0xC0 fun c _ s => State.getWork c k s
/-- PUT. -/
def execPut (k : Fin 16385) (s : State) : Result := run s fun s => s.fabRun k 0xC1 fun c e s => State.putWork c k e s
/-- PING. -/
def execPing (k : Fin 16385) (s : State) : Result := run s fun s => s.pingRun k

end Sys2Proof.Machine
end

