-- ==== Sys2Proof/Machine/Fec.lean ====
section
/-!
DEFINITION. The Reed-Solomon code RS(544,514) over 10-bit symbols (R257), as IEEE 802.3 defines it: the field of
x^10 + x^3 + 1, the generator with the roots alpha^0 to alpha^29, the first symbol of a codeword its highest coefficient.
Symbol `k` of a codeword lies in bits [10k+9:10k].
-/
namespace Sys2Proof.Machine

-- Log entry 108: PRESUMED, unsafe.
/-- Multiplication by alpha. -/
def gfStep (a : Nat) : Nat := if a < 512 then 2 * a else (2 * a) ^^^ 0x409

/-- Multiplication in the field of 1,024 elements. -/
def gfMul (a b : Nat) : Nat :=
  ((List.range 10).foldl (fun (x : Nat × Nat) i => (if bit b i then x.1 ^^^ x.2 else x.1, gfStep x.2)) (0, a)).1

/-- A power of an element, the exponent below 1,024. -/
def gfPow (a n : Nat) : Nat :=
  ((List.range 10).foldl (fun (x : Nat × Nat) i => (if bit n i then gfMul x.1 x.2 else x.1, gfMul x.2 x.2)) (1, a)).1

def gfAlpha (n : Nat) : Nat := gfPow 2 (n % 1023)

/-- The inverse of an element that is not 0. -/
def gfInv (a : Nat) : Nat := gfPow a 1022

/-- The value of a polynomial, its lowest coefficient first. -/
def gfEval (p : List Nat) (x : Nat) : Nat := p.foldr (fun c acc => c ^^^ gfMul acc x) 0

/-- The sum of two polynomials. -/
def gfAdd (p q : List Nat) : List Nat := (List.range (max p.length q.length)).map fun i => p.getD i 0 ^^^ q.getD i 0

-- Log entry 108: PRESUMED, unsafe.
/-- The symbols of a number, the lowest bits first. -/
def symbols (n x : Nat) : List Nat := (List.range n).map fun k => bits x (10 * k) 10

/-- The number some symbols spell. -/
def ofSymbols (l : List Nat) : Nat := l.foldr (fun c acc => c + 1024 * acc) 0

-- Log entry 108: PRESUMED, unsafe.
/-- The generator polynomial, its lowest coefficient first. -/
def rsGen : List Nat :=
  (List.range 30).foldl (fun g i => gfAdd (0 :: g) (g.map fun c => gfMul c (gfAlpha i))) [1]

-- Log entry 108: PRESUMED, unsafe.
/-- The codeword of 514 message symbols: the message, then 30 parity symbols. -/
def rsEncode (m : List Nat) : List Nat :=
  let g := (rsGen.take 30).reverse
  m ++ m.foldl (fun r c =>
    let f := c ^^^ r.headD 0
    List.zipWith (fun x y => x ^^^ gfMul f y) (r.drop 1 ++ [0]) g) (List.replicate 30 0)

/-- The syndromes of a received word: its values at alpha^0 to alpha^29. -/
def rsSyndromes (w : List Nat) : List Nat :=
  (List.range 30).map fun j => w.foldl (fun a c => gfMul a (gfAlpha j) ^^^ c) 0

/-- One step of the search for the error locator (Berlekamp and Massey). -/
structure Locator where
  c : List Nat
  b : List Nat
  len : Nat
  gap : Nat
  last : Nat
  deriving DecidableEq, Repr

def Locator.step (syn : List Nat) (x : Locator) (n : Nat) : Locator :=
  let d := (List.range (x.len + 1)).foldl (fun a i => a ^^^ gfMul (x.c.getD i 0) (syn.getD (n - i) 0)) 0
  if d = 0 then { x with gap := x.gap + 1 }
  else
    let k := gfMul d (gfInv x.last)
    let c := gfAdd x.c (List.replicate x.gap 0 ++ x.b.map fun v => gfMul k v)
    if 2 * x.len ≤ n then ⟨c, x.c, n + 1 - x.len, 1, d⟩ else { x with c := c, gap := x.gap + 1 }

/-- The formal derivative of a polynomial. -/
def gfDeriv (p : List Nat) : List Nat := (List.range (p.length - 1)).map fun i => if i % 2 = 0 then p.getD (i + 1) 0 else 0

-- Log entry 108: PRESUMED, unsafe.
/-- A received codeword decoded: its message symbols and the positions of the symbols corrected, or none where more than 15
are wrong. -/
def rsDecode (w : List Nat) : Option (List Nat × List Nat) :=
  let syn := rsSyndromes w
  if syn.all fun s => s == 0 then some (w.take 514, [])
  else
    let x := (List.range 30).foldl (Locator.step syn) (⟨[1], [1], 0, 1, 1⟩ : Locator)
    let omega := (List.range 30).map fun i =>
      (List.range (i + 1)).foldl (fun a k => a ^^^ gfMul (x.c.getD k 0) (syn.getD (i - k) 0)) 0
    let der := gfDeriv x.c
    let bad := (List.range 544).filter fun k => gfEval x.c (gfAlpha (1023 - (543 - k))) == 0
    if 15 < x.len || bad.length != x.len then none
    else
      let fix := fun (k : Nat) =>
        let z := gfAlpha (1023 - (543 - k))
        gfMul (gfAlpha (543 - k)) (gfMul (gfEval omega z) (gfInv (gfEval der z)))
      some ((w.zipIdx.map fun s => if bad.contains s.2 then s.1 ^^^ fix s.2 else s.1).take 514, bad)

/-- The symbols of a codeword as the lanes carry them: dealt to the active lanes in turn, the lowest-numbered first. -/
def dealLanes (lanes w : List Nat) : List (Nat × Nat) :=
  lanes.zipIdx.map fun l =>
    (l.1, ofSymbols ((w.zipIdx.filter fun s => s.2 % lanes.length == l.2).map fun s => s.1))

end Sys2Proof.Machine
end

