-- ==== Sys2Proof/Machine/Scratch.lean ====
section
/-!
DEFINITION. A Spire's scratch (R194 - R198): lines under the word code, the streaming buffer's shares and tiles,
persistent state with its spill area; and the rows in which an operation runs (R196, R409).
-/
namespace Sys2Proof.Machine

/-! ## Lines of scratch (R194, R195) -/

/-- The stored words of line `i` of a slot; none while its written bit is 0. -/
def Spire.line (p : Spire) (slot i : Nat) : Option Stored := SMap.find p.scratch (slot * 16384 + i)

def Spire.setLine (p : Spire) (slot i : Nat) (b : Stored) : Spire :=
  { p with scratch := SMap.put p.scratch (slot * 16384 + i) b }

/-- Every written bit of a slot is cleared. -/
def Spire.wipe (p : Spire) (slot : Nat) : Spire := { p with scratch := p.scratch.filter fun e => e.1 / 16384 != slot }

-- Log entries 77: DESIGN CHOICE, unsafe; 111: DESIGN CHOICE, safe.
/-- Bits of one stored word change: what an error does. -/
def State.scrFlip (s : State) (n slot : Nat) (e : Scr) : State :=
  match e with
  | .none => s
  | .flip i w m =>
    match (s.spire n).line slot i with
    | some b => s.setSpire n ((s.spire n).setLine slot i (setBeat b w (beat b w ^^^ m)))
    | none => s

/-- A word lost to an uncorrectable error is used: a consumption charged to the operation's Dome (R195). -/
def State.scrLost (s : State) (k : Nat) : State :=
  match s.cmd k with
  | some c => (s.raise 3 c.ctx c.dome none).putCmd k { c with poison := true }
  | none => s

/-- Reads words of a scratch line: a correctable error is corrected and counted; a word with an uncorrectable error is
poisoned, counted and consumed. A line that is not written reads zeros. -/
def State.scrLine (s : State) (k n slot i : Nat) (words : Nat → Bool) : State × Line :=
  match (s.spire n).line slot i with
  | none => (s, Line.zero)
  | some b =>
    let ds := decodeWords b
    let hit := fun (a : Nat) => ds.zipIdx.filter fun x => words x.2 && x.1.action == a
    let fixed := (hit 1 ++ hit 2).foldl (fun b x => setBeat b x.2 (encodeBeat x.1.data (x.1.p || x.1.action == 2))) b
    let s := ((s.setSpire n ((s.spire n).setLine slot i fixed)).bump F.SPIRE_SCR_ERR_ce (hit 1).length n).bump
      F.SPIRE_SCR_ERR_ue (hit 2).length n
    (if (hit 2).isEmpty then s else s.scrLost k, ⟨decData ds, badMask ds⟩)

/-- Marks of a line's bytes by its words' poison. -/
def wordMarks (l : Line) : Nat := (List.range 16).foldl (fun a j => if l.poison.getLsbD j then a + 15 * 16 ^ j else a) 0

/-- Reads `n` bytes from byte `a` of a slot: value and marks. -/
def State.scrGet (k sp slot : Nat) : Nat → State → Nat → Nat → State × (Nat × Nat)
  | 0, s, _, _ => (s, (0, 0))
  | fuel + 1, s, a, n =>
    if n = 0 then (s, (0, 0))
    else
      let o := a % 64
      let j := min n (64 - o)
      let (s, l) := s.scrLine k sp slot (a / 64) fun w => decide (o < 4 * w + 4 ∧ 4 * w < o + j)
      let (s, (v, m)) := State.scrGet k sp slot fuel s (a + j) (n - j)
      (s, (bits l.data.toNat (8 * o) (8 * j) + v * 2 ^ (8 * j), bits (wordMarks l) o j + m * 2 ^ j))

/-- Writes `n` bytes from byte `o` of a scratch line. A word is poisoned where a byte of it is marked; where the bytes begin
within a word and `join` says that an earlier run of the same result ends there, that word keeps its poison too. -/
def State.scrPutLine (s : State) (sp slot i o n v m : Nat) (join : Bool) : State :=
  let b := ((s.spire sp).line slot i).getD (encodeLine Line.zero)
  let ds := decodeWords b
  let new := (List.range 16).foldl (fun b j =>
    let x := max (4 * j) o
    let y := min (4 * j + 4) (o + n)
    if y ≤ x then b
    else
      let d := ds.getD j ⟨0, false, 0, 0⟩
      let keep := bits d.data.toNat 0 (8 * (x - 4 * j)) + bits d.data.toNat (8 * (y - 4 * j)) (8 * (4 * j + 4 - y)) * 2 ^ (8 * (y - 4 * j))
      let w := keep + bits v (8 * (x - o)) (8 * (y - x)) * 2 ^ (8 * (x - 4 * j))
      let pois := bits m (x - o) (y - x) != 0 || (join && decide (4 * j < o) && (d.p || d.action == 2))
      setBeat b j (encodeBeat (BitVec.ofNat 32 w) pois)) b
  s.setSpire sp ((s.spire sp).setLine slot i new)

/-- Writes `n` bytes from byte `a` of a slot on. -/
def State.scrPut (sp slot : Nat) : Nat → State → Nat → Nat → Nat → Nat → Bool → State
  | 0, s, _, _, _, _, _ => s
  | fuel + 1, s, a, n, v, m, join =>
    if n = 0 then s
    else
      let o := a % 64
      let j := min n (64 - o)
      State.scrPut sp slot fuel (s.scrPutLine sp slot (a / 64) o j (v % 2 ^ (8 * j)) (m % 2 ^ j) join)
        (a + j) (n - j) (v / 2 ^ (8 * j)) (m / 2 ^ j) true

/-! ## The streaming buffer (R196) -/

-- Log entry 77: DESIGN CHOICE, unsafe.
/-- The share of one streaming operand or result in its slot's buffer: its first byte, the address its offsets count from,
and the bytes of a tile. The share holds two tiles. -/
structure Lane where
  at_ : Nat
  base : Nat
  tile : Nat
  deriving DecidableEq, Repr

-- Log entry 77: DESIGN CHOICE, unsafe.
/-- Share `i` of `k` equal ones for the operand of a format from PVA `base` on. A tile is half the share: whole lines, or
MX blocks. -/
def lane (k i code base : Nat) : Lane :=
  let half := 131072 / k / 64 * 64
  if isMx code then ⟨2 * half * i, base / 4 * 4, half / fmtBytes code 32 / 2 * 2 * fmtBytes code 32⟩
  else ⟨2 * half * i, base / 64 * 64, half⟩

-- Log entry 77: DESIGN CHOICE, unsafe.
/-- Share `i` of `k` for records of `n` bytes that lie anywhere: each has room for its place within a word. -/
def recLane (k i n : Nat) : Lane :=
  let half := 131072 / k / 64 * 64
  let r := n / 4 * 4 + 8
  ⟨2 * half * i, 0, half / r * r⟩

/-- Where record `i` of `n` bytes lies in its share when it comes from a PVA: an offset with the PVA's place in a word. -/
def recAt (n i pva : Nat) : Nat := i * (n / 4 * 4 + 8) + pva % 4

/-- A run of an operand or a result: its share, its offset there, its PVA and bytes. -/
structure Run where
  l : Lane
  off : Nat
  pva : Nat
  n : Nat
  deriving DecidableEq, Repr

/-- The run of `n` bytes from a PVA of a stream. -/
def Lane.run (l : Lane) (pva n : Nat) : Run := ⟨l, pva - l.base, pva, n⟩

/-- The pieces of a run that lie in one piece of its share: first byte in the slot, PVA, bytes. -/
def Run.pieces (r : Run) : List (Nat × Nat × Nat) :=
  let o := r.off % (2 * r.l.tile)
  let a := min r.n (2 * r.l.tile - o)
  if a < r.n then [(r.l.at_ + o, r.pva, a), (r.l.at_, r.pva + a, r.n - a)] else [(r.l.at_ + o, r.pva, r.n)]

/-- Whether a run lies no further than the tile after the one that holds offset `used`: the next tile is read while the
current one is computed on. -/
def Run.room (r : Run) (used : Nat) : Bool := decide (r.off + r.n ≤ (used / r.l.tile + 2) * r.l.tile)

/-- Puts a run's bytes into its share. -/
def State.putRun (s : State) (sp slot : Nat) (r : Run) (v m : Nat) (join : Bool) : State :=
  (r.pieces.foldl (fun (a : State × Nat × Nat) p =>
    (State.scrPut sp slot (p.2.2 / 64 + 2) a.1 p.1 p.2.2 (a.2.1 % 2 ^ (8 * p.2.2)) (a.2.2 % 2 ^ p.2.2) join,
      a.2.1 / 2 ^ (8 * p.2.2), a.2.2 / 2 ^ p.2.2)) (s, v, m)).1

/-- Reads a run's bytes from its share. -/
def State.getRun (s : State) (k sp slot : Nat) (r : Run) : State × (Nat × Nat) :=
  let a := r.pieces.foldl (fun (a : State × Nat × Nat × Nat) p =>
    let (s, (v, m)) := State.scrGet k sp slot (p.2.2 / 64 + 2) a.1 p.1 p.2.2
    (s, a.2.1 + v * 2 ^ (8 * a.2.2.2), a.2.2.1 + m * 2 ^ a.2.2.2, a.2.2.2 + p.2.2)) (s, 0, 0, 0)
  (a.1, (a.2.1, a.2.2.1))

/-! ## Reading operands into the buffer -/

/-- The accesses of a kind that a command has made are taken up: their outcomes are cleared. -/
def State.takeBeats (s : State) (k : Nat) (e : Eng) (wr : Bool) : State :=
  match s.cmd k with
  | some c =>
    let lines := (c.beats.filter fun b => b.2.1 == wr).map fun b => b.2.2
    let mine := fun (o : Origin) (line : Nat) (w : Bool) => o == e.o && w == wr && lines.contains line
    let s := s.putCmd k { c with beats := c.beats.filter fun b => b.2.1 != wr, eaten := if wr then c.eaten else [] }
    { s with home := { s.home with answers := s.home.answers.filter fun a => !mine a.origin a.line a.wr },
             fab := { s.fab with owin := s.fab.owin.filter fun r =>
               !(mine r.tx.origin r.tx.line r.tx.kind.isWrite && r.ans.isSome) } }
  | none => s

inductive Loads | ok (xs : List (Nat × Nat)) | wait | fail (st : Nat)
  deriving DecidableEq, Repr

/-- Reads runs from memory. -/
def State.readRuns (k : Nat) (e : Eng) : List Run → State → State × Loads
  | [], s => (s, .ok [])
  | r :: rest, s =>
    match State.getBytes k e true (r.n / 64 + 2) s r.pva r.n with
    | (s, .wait) => (s, .wait)
    | (s, .fail st) => (s, .fail st)
    | (s, .ok v m) =>
      match State.readRuns k e rest s with
      | (s, .ok xs) => (s, .ok ((v, m) :: xs))
      | x => x

/-- Brings runs into the buffer: `units` units of work more lie there. -/
def State.loadRuns (s : State) (k : Nat) (e : Eng) (sp slot : Nat) (runs : List Run) (units : Nat) : State × Prog :=
  match State.readRuns k e runs s with
  | (s, .wait) => (s, .wait)
  | (s, .fail st) => (s, .stop st)
  | (s, .ok xs) =>
    let s := ((runs.zip xs).foldl (fun s x => s.putRun sp slot x.1 x.2.1 x.2.2 false) s).takeBeats k e false
    match s.cmd k with
    | some c => (s.putCmd k { c with ahead := c.ahead + units }, .go)
    | none => (s, .wait)

-- Log entry 77: DESIGN CHOICE, unsafe.
/-- A streaming operand's next unit is read where its tile has room. `at_` gives the runs and the units from a unit on. -/
def State.stream (s : State) (k : Nat) (e : Eng) (sp slot total : Nat) (c : Cmd) (at_ : Nat → List Run × Nat) : State × Prog :=
  if total ≤ c.ahead then (s, .go)
  else
    let (runs, u) := at_ c.ahead
    if ((runs.zip (at_ c.pos).1).all fun x => x.1.room x.2.off) then s.loadRuns k e sp slot runs u else (s, .go)

/-! ## Persistent state and its spill (R197) -/

-- Log entry 77: DESIGN CHOICE, unsafe.
/-- The line of memory that holds a spilled line of a slot's persistent state. -/
def State.spillLine (s : State) (sp slot i : Nat) : Nat := s.spillAddr sp slot / 64 + (i - 12288)

-- Log entry 77: DESIGN CHOICE, unsafe.
/-- Reads `n` bytes from byte `a` of the persistent state on; what does not fit in scratch is read from the spill area. -/
def State.persGet (k : Nat) (e : Eng) (sp slot : Nat) (c : Cmd) : Nat → State → Nat → Nat → State × Bytes
  | 0, s, _, _ => (s, .ok 0 0)
  | fuel + 1, s, a, n =>
    if n = 0 then (s, .ok 0 0)
    else
      let o := a % 64
      let j := min n (64 - o)
      let got := fun (s : State) (v m : Nat) =>
        match State.persGet k e sp slot c fuel s (a + j) (n - j) with
        | (s, .ok w x) => (s, Bytes.ok (v + w * 2 ^ (8 * j)) (m + x * 2 ^ j))
        | r => r
      if a / 64 < 12288 then
        let (s, (v, m)) := State.scrGet k sp slot 2 s (262144 + a) j
        got s v m
      else
        let line := s.spillLine sp slot (a / 64)
        match s.engAccess { newTx .rdCur e.o c.ctx line e.rdCls with gen := s.fN F.COMB_GEN_gen, maint := true } with
        | (s, none) => (s, .wait)
        | (s, some (.no r)) => (s, .fail r.status)
        | (s, some (.ok l)) =>
          let m := bits (wordMarks l) o j
          got (if m = 0 then s else s.cmdConsume k c line) (bits l.data.toNat (8 * o) (8 * j)) m

/-- The pieces of a range of persistent state that lie in one line each: byte, bytes, value, marks. -/
def persPieces : Nat → Nat × Nat × Nat × Nat → List (Nat × Nat × Nat × Nat)
  | 0, _ => []
  | fuel + 1, (a, n, v, m) =>
    if n = 0 then []
    else
      let j := min n (64 - a % 64)
      (a, j, v % 2 ^ (8 * j), m % 2 ^ j) :: persPieces fuel (a + j, n - j, v / 2 ^ (8 * j), m / 2 ^ j)

/-- Writes pieces of persistent state to the spill area. -/
def State.spillOutLines (k : Nat) (e : Eng) (sp slot : Nat) (c : Cmd) : List (Nat × Nat × Nat × Nat) → State → State × Acc
  | [], s => (s, .ok 0 Line.zero)
  | (a, n, v, m) :: rest, s =>
    let line := s.spillLine sp slot (a / 64)
    let w : EngWr := ⟨c.ctx, line, ⟨BitVec.ofNat 512 (v * 2 ^ (8 * (a % 64))), markPoison (a % 64) n m⟩, rangeBe (a % 64) n, e.wrCls,
      .engine, .none, none⟩
    match s.engAccess { w.tx e.o (s.fN F.COMB_GEN_gen) with maint := true } with
    | (s, none) => (s, .wait)
    | (s, some (.no r)) => (s, .fail r.status)
    | (s, some (.ok _)) => State.spillOutLines k e sp slot c rest s

-- Log entry 77: DESIGN CHOICE, unsafe.
/-- Writes ranges of the persistent state: first what lies in the spill area, each line counted; then the scratch lines. -/
def State.persPut (s : State) (k : Nat) (e : Eng) (sp slot : Nat) (c : Cmd) (rs : List (Nat × Nat × Nat × Nat)) : State × Acc :=
  let ps := rs.flatMap fun r => persPieces (r.2.1 / 64 + 2) r
  let out := ps.filter fun p => decide (12288 ≤ p.1 / 64)
  match State.spillOutLines k e sp slot c out s with
  | (s, .ok _ _) =>
    let s := (ps.filter fun p => decide (p.1 / 64 < 12288)).foldl (fun s p =>
      State.scrPut sp slot 2 s (262144 + p.1) p.2.1 p.2.2.1 p.2.2.2 false) s
    let s := s.bump F.SPIRE_SPILL_CNT_lines out.length sp
    let lo := s.spillLine sp slot 12288
    ({ s with home := { s.home with answers := s.home.answers.filter fun a =>
      !(a.origin == e.o && decide (lo ≤ a.line ∧ a.line < lo + 131072)) } }, .ok 0 Line.zero)
  | x => x

/-! ## The rows of an operation -/

/-- The operation in a context where a slot runs it, its Spire and its slot. -/
def State.spireCmd (s : State) (k op : Nat) : Option (Cmd × Nat × Nat) :=
  match s.cmd k with
  | some c =>
    (match c.eng with
      | .spireSlot n slot => if c.opcode == op && (c.st == .running || c.st == .blocked) then some (c, n, slot) else none
      | _ => none)
  | none => none

/-- Units of work whose results are written are done. -/
def State.advance (s : State) (k : Nat) : State :=
  match s.cmd k with
  | some c => s.putCmd k { c with pos := c.pos + c.adv.1, aux := c.aux + c.adv.2, adv := (0, 0), wbuf := [] }
  | none => s

/-- Results of a unit of work go into their shares; its units count once they are written to memory. -/
def State.give (s : State) (k sp slot : Nat) (runs : List (Run × Nat × Nat)) (adv : Nat × Nat) : State :=
  let s := (runs.zipIdx.foldl (fun s x => s.putRun sp slot x.1.1 x.1.2.1 x.1.2.2 (x.2 != 0)) s)
  match s.cmd k with
  | some c =>
    let s := s.putCmd k { c with wbuf := runs.flatMap fun x => x.1.pieces, adv := adv }
    if runs.isEmpty then s.advance k else s
  | none => s

/-- Writes the next bytes of the results in the buffer to memory, within one line. -/
def State.drain (s : State) (k : Nat) (e : Eng) (sp slot : Nat) (c : Cmd) : State × Prog :=
  match c.wbuf with
  | [] => (s.advance k, .go)
  | (a, pva, n) :: r =>
    let j := min n (64 - pva % 64)
    let (s, (v, m)) := State.scrGet k sp slot 3 s a j
    match s.putBytes k e pva j v m with
    | (s, .wait) => (s, .wait)
    | (s, .fail st) => (s, .stop st)
    | (s, .ok _ _) =>
      let s := s.takeBeats k e true
      match s.cmd k with
      | some c =>
        let rest := if j < n then (a + j, pva + j, n - j) :: r else r
        let s := s.putCmd k { c with wbuf := rest }
        (if rest.isEmpty then s.advance k else s, .go)
      | none => (s, .wait)

-- Log entry 63: DESIGN CHOICE, safe.
/-- One row of a Spire operation: the next operands are read into the buffer, and results are written, or a unit of work is
computed once its operands are there. `fin` says that every unit is done, `ok` gives the result then and `bad` the result
when an access failed after some units. -/
def State.spireRun (s : State) (k op : Nat) (e : Scr) (fin : Cmd → Bool) (ok bad : Cmd → Nat)
    (load f : Eng → Nat → Nat → Cmd → State → State × Prog) : State :=
  match s.spireCmd k op with
  | none => s
  | some (c, n, slot) =>
    let g := spireOf n k
    let s := (s.markCmd k .running).scrFlip n slot e
    match c.ending with
    | some (st, res) => s.scrubStep k c g st res
    | none =>
      let stop := fun (s : State) (st : Nat) =>
        match s.cmd k with
        | some c => s.finishRun k st (if st = stOK ∨ st = stPartial then ok c else bad c)
        | none => s
      let work := fun (s : State) =>
        match s.cmd k with
        | none => (s, Prog.wait)
        | some c =>
          if c.wbuf.isEmpty then (if fin c then (s, .stop stOK) else f g n slot c s) else s.drain k g n slot c
      match (match s.cmd k with | some c => load g n slot c s | none => (s, .wait)) with
      | (s, .stop st) => stop s st
      | (s, _) =>
        match work s with
        | (s, .stop st) => stop s st
        | (s, .wait) => s.markCmd k .blocked
        | (s, .go) => s

end Sys2Proof.Machine
end

