-- ==== Sys2Proof/Machine/SpireOps.lean ====
section
/-!
DEFINITION. The Spires at work: slots (R192 - R198), the Spire opcodes (R215 - R234), the generator's seed (R209) and
the enable of an accumulate window (R235).
-/
namespace Sys2Proof.Machine

/-! ## Slots and control (R191, R192, R195, R198) -/

/-- A free slot takes the oldest queued operation that is ready: one that waits for no power leave. The slot's written bits
are cleared (R194). -/
def State.slotStart (s : State) (n : Nat) : State :=
  let p := s.spire n
  let ready := p.opq.filterMap fun k => (s.cmd k).bind fun c =>
    if c.eng == .spireQ n && c.st == .queued && (!c.heavy || c.leave) && !s.heldBack c then some (k, c) else none
  match SMap.firstFree p.slots 4, ready with
  | some slot, (k, c) :: _ =>
    let s := s.setSpire n ({ p with slots := SMap.put p.slots slot k }.wipe slot)
    (s.putCmd k { c with eng := .spireSlot n slot, st := .running }).showSpire n
  | _, _ => s

/-- SPIRE_SLOT_START. -/
def execSpireSlotStart (n : Fin 24) (s : State) : Result := run s fun s => s.slotStart n

-- Log entry 78: DEDUCED, unsafe.
/-- A write of SPIRE_CTL: hold is stored; enable = 0 is refused while the queue or a slot holds an operation. -/
def State.spireCtlWrite (s : State) (n : Nat) (v : Word) : State :=
  let p := s.spire n
  let s := s.fFlag F.SPIRE_CTL_hold (F.SPIRE_CTL_hold.on v) n
  (if F.SPIRE_CTL_enable.on v then s.fFlag F.SPIRE_CTL_enable true n
    else if p.opq.isEmpty && p.slots.isEmpty then s.fFlag F.SPIRE_CTL_enable false n
    else s.fFlag F.SPIRE_STATUS_refused true n).showSpire n

/-- SPIRE_CTL_WRITE. -/
def execSpireCtlWrite (n : Fin 24) (v : Word) (s : State) : Result := run s fun s => s.spireCtlWrite n v

-- Log entry 74: DEDUCED, safe.
/-- A write of SPIRE_SR_SEED_HI: the generator takes the 64-bit seed; a seed of 0 reseeds it from the random-number
source. -/
def State.seedLoad (s : State) (n : Nat) (v : Word) : State :=
  let seed : BitVec 64 := v ++ s.rd R.SPIRE_SR_SEED_LO n
  if seed = 0 then
    let (r, s) := s.random64
    s.setSpire n { s.spire n with gen := r, draws := 0 }
  else s.setSpire n { s.spire n with gen := seed, draws := 0 }

/-- SR_SEED_LOAD. -/
def execSrSeedLoad (n : Fin 24) (v : Word) (s : State) : Result := run s fun s => s.seedLoad n v

-- Log entry 78: DEDUCED, unsafe.
/-- Whether window `w` may be enabled with a format (R235). -/
def State.winOk (s : State) (w fmt : Nat) : Bool :=
  let b := s.fN F.SPIRE_WIN_BASE_base_cell 0 w
  let n := s.fN F.SPIRE_WIN_SIZE_cells 0 w
  decide (fmt ≤ 2) && n != 0 && decide (b + n ≤ s.tenantCells) && s.fB F.GLOBAL_IL_STATUS_locked &&
    (List.range 64).all fun x =>
      x == w || !s.fB F.SPIRE_WIN_CTL_enable 0 x ||
        !meet (b, n) (s.fN F.SPIRE_WIN_BASE_base_cell 0 x, s.fN F.SPIRE_WIN_SIZE_cells 0 x)

-- Log entry 78: DEDUCED, unsafe.
/-- A write of SPIRE_WIN_CTLw. -/
def State.winCtlWrite (s : State) (w : Nat) (v : Word) : State :=
  if F.SPIRE_WIN_CTL_enable.on v && !s.winOk w (F.SPIRE_WIN_CTL_fmt.of v) then s.fFlag F.SPIRE_WIN_CTL_refused true 0 w
  else s.wrCodes R.SPIRE_WIN_CTL v 0 w

/-- WINDOW_ENABLE. -/
def execWindowEnable (w : Fin 64) (v : Word) (s : State) : Result := run s fun s => s.winCtlWrite w (v ||| 1)

/-! ## Elements of operands and results -/

/-- An element read: its bits, its block's scale byte, its poison. -/
structure Elem where
  raw : Nat
  scale : Nat
  poison : Bool
  deriving DecidableEq, Repr

inductive Els | ok (xs : List Elem) | wait | fail (st : Nat)
  deriving DecidableEq, Repr

/-- Where elements `i` to `i + n - 1` of an operand lie: PVA and bytes; whole blocks of an MX operand (R201). -/
def span (code base i n : Nat) : Nat × Nat :=
  if isMx code then
    let bb := fmtBytes code 32
    (base + i / 32 * bb, ((i + n + 31) / 32 - i / 32) * bb)
  else (base + i * (fmtBits code / 8), n * (fmtBits code / 8))

/-- The run of elements of a stream in its share. -/
def Lane.elems (l : Lane) (code base i n : Nat) : Run := let p := span code base i n; l.run p.1 p.2

/-- Elements `i` to `i + n - 1` from the bytes of their span and their marks (R199, R201, R212). -/
def elems (code i n : Nat) (b : Nat × Nat) : List Elem :=
  if isMx code then
    let bb := fmtBytes code 32
    (List.range n).map fun j =>
      let q := (i + j) / 32 - i / 32
      ⟨bits b.1 (8 * q * bb + 8 + fmtBits code * ((i + j) % 32)) (fmtBits code), bits b.1 (8 * q * bb) 8, bits b.2 (q * bb) bb != 0⟩
  else
    let z := fmtBits code / 8
    (List.range n).map fun j => ⟨bits b.1 (8 * z * j) (8 * z), 0, bits b.2 (z * j) z != 0⟩

/-- Elements of a stream as its share holds them. -/
def State.laneElems (s : State) (k sp slot : Nat) (l : Lane) (code base i n : Nat) : State × List Elem :=
  let (s, b) := s.getRun k sp slot (l.elems code base i n)
  (s, elems code i n b)

/-- An element widened to FP32; an INT8 element is q x s with one rounding (R205, R221). -/
def Elem.f32 (x : Elem) (code : Nat) (s : Word) : Word :=
  if code = 7 then toF32 (mulV (intV (int8Val x.raw)) (unF s)) else widen code x.scale x.raw

/-- A value to be written: FP32 bits, whether an input was a NaN, poison. -/
structure OutEl where
  w : Word
  nanIn : Bool
  poison : Bool
  deriving DecidableEq, Repr

/-- The roundings of `n` elements. -/
def rndList (sr : Bool) : Nat → Spire → List Rnd × Spire
  | 0, p => ([], p)
  | n + 1, p =>
    let (r, p) := p.rnd sr
    let (rs, p) := rndList sr n p
    (r :: rs, p)

/-- Bits of elements of `w` bits each, packed. -/
def packList (w : Nat) (xs : List Nat) : Nat := xs.foldr (fun x a => x % 2 ^ w + a * 2 ^ w) 0

/-- The marks of elements of `z` bytes each. -/
def markList (z : Nat) (ps : List Bool) : Nat := packList z (ps.map fun b => if b then 2 ^ z - 1 else 0)

/-- Writes out consecutive elements from element `i` of an output on: the run of bytes, the numeric events, the Spire
after its draws (R208 - R212). An MX output takes whole blocks of 32. -/
def outRun (p : Spire) (code : Nat) (sr sat : Bool) (sOut : Word) (base i : Nat) (xs : List OutEl) :
    (Nat × Nat × Nat × Nat) × Exc × Spire :=
  let (rs, p) := rndList (sr && code != 0) xs.length p
  if isMx code then
    let (x, es, ev) := mxQuant code rs (xs.map fun o => (o.w, o.nanIn))
    let bb := fmtBytes code 32
    ((base + i / 32 * bb, bb, x + packList (fmtBits code) es * 256, if xs.any fun o => o.poison then 2 ^ bb - 1 else 0), ev, p)
  else
    let z := fmtBits code / 8
    let ys := (xs.zip rs).map fun (o, r) => if code = 7 then toInt8 sOut r o.w else roundOut code sat r o.nanIn o.w
    ((base + i * z, xs.length * z, packList (8 * z) (ys.map fun y => y.1), markList z (xs.map fun o => o.poison)),
      ys.foldl (fun a y => a.add y.2) Exc.none, p)

/-- Consecutive blocks of 32 of an MX output, or one run. -/
def outRuns (code : Nat) (sr sat : Bool) (sOut : Word) (base : Nat) :
    Nat → Spire → Nat → List OutEl → List (Nat × Nat × Nat × Nat) × Exc × Spire
  | 0, p, _, _ => ([], Exc.none, p)
  | fuel + 1, p, i, xs =>
    let n := if isMx code then 32 else xs.length
    let (r, ev, p) := outRun p code sr sat sOut base i (xs.take n)
    if xs.length ≤ n then ([r], ev, p)
    else
      let (rs, ev2, p) := outRuns code sr sat sOut base fuel p (i + n) (xs.drop n)
      (r :: rs, ev.add ev2, p)

/-- How many elements a unit of work takes from element `i` of `n` on: a block of an MX output, else to the end of the
output's line. -/
def chunk (code base i n : Nat) : Nat :=
  if isMx code then 32
  else let z := fmtBits code / 8; max 1 (min (n - i) ((64 - (base + i * z) % 64) / z))

/-- The runs of results as they lie in their share. -/
def Lane.outs (l : Lane) (rs : List (Nat × Nat × Nat × Nat)) : List (Run × Nat × Nat) := rs.map fun r => (l.run r.1 r.2.1, r.2.2)

/-- Gives a chunk of results for writing. -/
def State.giveOut (s : State) (k sp slot : Nat) (c : Cmd) (l : Lane) (code : Nat) (sOut : Word) (base i : Nat) (xs : List OutEl) :
    State × Prog :=
  let (r, ev, p) := outRun (s.spire sp) code c.sr c.sat sOut base i xs
  (((s.setSpire sp p).addExc sp ev).give k sp slot (l.outs [r]) (xs.length, 0), .go)

/-- Whether the operands of the next unit of work lie in the buffer. -/
def Cmd.fed (c : Cmd) : Bool := decide (c.pos < c.ahead)

def w32 (x : Nat) : Word := BitVec.ofNat 32 x

/-! ## CONVERT (R221) and AXPY (R222) -/

def Cmd.cvIn (c : Cmd) : Lane := lane 2 0 c.fa (c.p 0)
def Cmd.cvOut (c : Cmd) : Lane := lane 2 1 c.fo (c.p 1)
/-- The elements of a unit of work from element `i` on. -/
def Cmd.cvLen (c : Cmd) (i : Nat) : Nat := chunk c.fo (c.p 1) i (c.pb 2 0 40)

def State.convertLoad (k : Nat) (e : Eng) (sp slot : Nat) (c : Cmd) (s : State) : State × Prog :=
  s.stream k e sp slot (c.pb 2 0 40) c fun i => ([c.cvIn.elems c.fa (c.p 0) i (c.cvLen i)], c.cvLen i)

def State.convertUnit (k : Nat) (_ : Eng) (sp slot : Nat) (c : Cmd) (s : State) : State × Prog :=
  if !c.fed then (s, .wait)
  else
    let (s, xs) := s.laneElems k sp slot c.cvIn c.fa (c.p 0) c.pos (c.cvLen c.pos)
    let ys := xs.map fun x => let w := x.f32 c.fa (w32 (c.pb 4 0 32)); (⟨w, fIsNan w, x.poison⟩ : OutEl)
    s.giveOut k sp slot c c.cvOut c.fo (w32 (c.pb 4 32 32)) (c.p 1) c.pos ys

def Cmd.axLanes (c : Cmd) : Nat := if c.readsY then 3 else 2
def Cmd.axX (c : Cmd) : Lane := lane c.axLanes 0 c.fa (c.p 0)
def Cmd.axY (c : Cmd) : Lane := lane c.axLanes 2 c.fb (c.p 1)
def Cmd.axOut (c : Cmd) : Lane := lane c.axLanes 1 c.fo (c.p 3)
def Cmd.axLen (c : Cmd) (i : Nat) : Nat := chunk c.fo (c.p 3) i (c.pb 2 0 40)

def State.axpyLoad (k : Nat) (e : Eng) (sp slot : Nat) (c : Cmd) (s : State) : State × Prog :=
  s.stream k e sp slot (c.pb 2 0 40) c fun i =>
    (c.axX.elems c.fa (c.p 0) i (c.axLen i) :: (if c.readsY then [c.axY.elems c.fb (c.p 1) i (c.axLen i)] else []), c.axLen i)

/-- The elements of y, or none where β is ±0. -/
def State.yElems (s : State) (k sp slot : Nat) (c : Cmd) (n : Nat) : State × List Elem :=
  if c.readsY then s.laneElems k sp slot c.axY c.fb (c.p 1) c.pos n else (s, List.replicate n ⟨0, 0, false⟩)

def State.axpyUnit (k : Nat) (_ : Eng) (sp slot : Nat) (c : Cmd) (s : State) : State × Prog :=
  if !c.fed then (s, .wait)
  else
    let (s, xs) := s.laneElems k sp slot c.axX c.fa (c.p 0) c.pos (c.axLen c.pos)
    let (s, ys) := s.yElems k sp slot c (c.axLen c.pos)
    let a := w32 (c.pb 4 0 32)
    let b := w32 (c.pb 4 32 32)
    let zs := (xs.zip ys).map fun (x, y) =>
      let u := x.f32 c.fa 0
      let v := y.f32 c.fb 0
      let w := if c.readsY then ffma a u (fmul b v) else fmul a u
      (⟨w, fIsNan u || fIsNan a || (c.readsY && (fIsNan v || fIsNan b)), x.poison || (c.readsY && y.poison)⟩ : OutEl)
    s.giveOut k sp slot c c.axOut c.fo 0 (c.p 3) c.pos zs

/-- CONVERT. -/
def execConvert (k : Fin 16385) (e : Scr) (s : State) : Result :=
  run s fun s => s.spireRun k 0x80 e (fun c => c.pb 2 0 40 ≤ c.pos) (fun c => c.pos) (fun c => c.pos) (State.convertLoad k)
    (State.convertUnit k)
/-- AXPY. -/
def execAxpy (k : Fin 16385) (e : Scr) (s : State) : Result :=
  run s fun s => s.spireRun k 0x81 e (fun c => c.pb 2 0 40 ≤ c.pos) (fun c => c.pos) (fun c => c.pos) (State.axpyLoad k)
    (State.axpyUnit k)

/-! ## REDUCE_INTO (R218, R223) -/

/-- Adds elements to a part of a line: the bytes to write and their marks. An element of a poisoned block of the
destination keeps the block's poison. -/
def reduceLine (p : Spire) (c : Cmd) (old : Line) (o : Nat) (xs : List Elem) : (Nat × Nat × Nat × Nat) × Exc × Spire :=
  let z := fmtBits c.fo / 8
  let ys := xs.zipIdx.map fun (x, j) =>
    let d := widen c.fo 0 (bits old.data.toNat (8 * (o + z * j)) (8 * z))
    let u := x.f32 c.fa 0
    (⟨fadd d u, fIsNan d || fIsNan u, x.poison || old.blockPoison ((o + z * j) / 16)⟩ : OutEl)
  outRun p c.fo c.sr c.sat 0 o 0 ys

def Cmd.rdX (c : Cmd) : Lane := lane 2 0 c.fa (c.p 0)
def Cmd.rdOut (c : Cmd) : Lane := lane 2 1 c.fo (c.p 1)

def State.reduceLoad (k : Nat) (e : Eng) (sp slot : Nat) (c : Cmd) (s : State) : State × Prog :=
  s.stream k e sp slot (c.pb 2 0 40) c fun i => ([c.rdX.elems c.fa (c.p 0) i (c.cvLen i)], c.cvLen i)

/-- The part of a destination line through a window, where no lock is taken: it is read, and then written. -/
def State.reduceWin (s : State) (k : Nat) (e : Eng) (sp slot : Nat) (c : Cmd) (d : Nat) : State × Prog :=
  let pva := c.p 1 + c.pos * (fmtBits c.fo / 8)
  let (s, a) := s.acReadAt k c e (d / 64)
  match a with
  | .wait => (s.noteBeat k e pva false (d / 64), .wait)
  | .fail st => (s, .stop st)
  | .ok _ old =>
    let (s, xs) := s.laneElems k sp slot c.rdX c.fa (c.p 0) c.pos (c.cvLen c.pos)
    let (r, ev, p) := reduceLine (s.spire sp) c old (d % 64) xs
    let s := (s.keepBeat k pva false (d / 64)).takeBeats k e false
    (((s.setSpire sp p).addExc sp ev).give k sp slot (c.rdOut.outs [(pva, r.2)]) (c.cvLen c.pos, 0), .go)

-- Log entry 72: DESIGN CHOICE, safe.
/-- One destination line: through a window it is read and written; else it is updated under its lock, filled under the
mask of the updating Dome (R218, R223). -/
def State.reduceUnit (k : Nat) (e : Eng) (sp slot : Nat) (c : Cmd) (s : State) : State × Prog :=
  let pva := c.p 1 + c.pos * (fmtBits c.fo / 8)
  if !c.fed then (s, .wait)
  else match s.engXl k c e pva true true true with
    | (s, .wait) => (s, .wait)
    | (s, .fail st) => (s, .stop st)
    | (s, .dpa d) =>
      let line := d / 64
      if (s.owinFor c.ctx line).isSome then s.reduceWin k e sp slot c d
      else
        let (s, u) := s.engUpdate e.o c.ctx line e.wrCls (s.fN F.COMB_GEN_gen) .engine (some (domeOf c.ctx))
        let s := match u with
          | .held old =>
            let (s, xs) := s.laneElems k sp slot c.rdX c.fa (c.p 0) c.pos (c.cvLen c.pos)
            let (r, ev, p) := reduceLine (s.spire sp) c old (d % 64) xs
            let l : Line := ⟨BitVec.ofNat 512 (r.2.2.1 * 2 ^ (8 * (d % 64))), markPoison (d % 64) r.2.1 r.2.2.2⟩
            (((s.setSpire sp p).addExc sp ev).offChan e line).engFinish e.o line (old.merge l (rangeBe (d % 64) r.2.1))
          | _ => s
        let s := s.noteBeat k e pva true line
        match s.engAns e.o line true fullBe with
        | none => (s, .wait)
        | some a =>
          match a.res with
          | .no r => (s, .stop r.status)
          | .ok _ => ((s.takeBeats k e true).give k sp slot [] (c.cvLen c.pos, 0), .go)

/-- REDUCE_INTO. -/
def execReduceInto (k : Fin 16385) (e : Scr) (s : State) : Result :=
  run s fun s => s.spireRun k 0x82 e (fun c => c.pb 2 0 40 ≤ c.pos) (fun c => c.pos) (fun c => c.pos) (State.reduceLoad k)
    (State.reduceUnit k)

/-! ## GATHER_POOL (R224 - R226)

`part`: phase (0 while the offsets and indices are read first, then 1); the offsets as first read, with their marks; the
indices likewise; the indices of the bag not yet read again; those read and not yet pooled; and of the bag: rows pooled,
what spoils its row (1 poison, 2 a change), the elements that met a NaN, the indices taken up. `aux` counts the bytes first
read, then the bags done; `result` the indices pooled and skipped. -/

def Cmd.gN (c : Cmd) : Nat := c.pb 2 0 32
def Cmd.gBags (c : Cmd) : Nat := c.pb 2 32 32
def Cmd.gDim (c : Cmd) : Nat := c.pb 5 16 16
def Cmd.gIdx (c : Cmd) : Nat := if bit (c.p 6) 42 then 8 else 4
def Cmd.gMode (c : Cmd) : Nat := c.pb 6 40 2
/-- Entry `j` of list `i` of `part`. -/
def Cmd.pt (c : Cmd) (i j : Nat) : Nat := (c.part.getD i []).getD j 0
def Cmd.setPart (c : Cmd) (i : Nat) (l : List Nat) : Cmd := { c with part := c.part.set i l }
def Cmd.gIdxLane (c : Cmd) : Lane := recLane 3 0 c.gIdx
def Cmd.gRowLane (c : Cmd) : Lane := recLane 3 1 (fmtBytes c.fa c.gDim)
def Cmd.gOutLane (c : Cmd) : Lane := lane 3 2 c.fo (c.p 4)

/-- Offset `j` in the array's bytes; that of bag `bags` is n. -/
def offAt (c : Cmd) (v j : Nat) : Nat := if j < c.gBags then bits v (32 * j) 32 else c.gN

/-- The indices of bag `j`, in order. -/
def Cmd.gBag (c : Cmd) (j : Nat) : List Nat :=
  let lo := offAt c (c.pt 1 0) j
  if c.pt 1 1 ≠ 0 ∨ c.gBags ≤ j then [] else (List.range (offAt c (c.pt 1 0) (j + 1) - lo)).map fun i => lo + i

/-- The conditions on the offsets (R225). -/
def Cmd.gFine (c : Cmd) : Bool :=
  offAt c (c.pt 1 0) 0 == 0 && (List.range c.gBags).all fun j => decide (offAt c (c.pt 1 0) j ≤ offAt c (c.pt 1 0) (j + 1))

/-- A row that an index names overlaps the output (R217). -/
def Cmd.gClash (c : Cmd) : Bool :=
  let out := (c.p 4, c.gBags * fmtBytes c.fo c.gDim)
  (List.range c.gN).any fun x =>
    let r := bits (c.pt 2 0) (8 * c.gIdx * x) (8 * c.gIdx)
    bits (c.pt 2 1) (c.gIdx * x) c.gIdx == 0 && decide (r < c.pb 6 0 40) &&
      meet (c.p 0 + r * c.pb 5 32 24, fmtBytes c.fa c.gDim) out

/-- The first reading of the offsets (`i` = 1) or the index list (`i` = 2), a line's share at a time. -/
def State.gatherList (s : State) (k : Nat) (e : Eng) (c : Cmd) (i base at_ n : Nat) : State × Prog :=
  let j := min (n - at_) (64 - (base + at_) % 64)
  match State.getBytes k e true 3 s (base + at_) j with
  | (s, .wait) => (s, .wait)
  | (s, .fail st) => (s, .stop st)
  | (s, .ok v m) =>
    let s := s.takeBeats k e false
    match s.cmd k with
    | some x =>
      let x := x.setPart i [c.pt i 0 + v * 2 ^ (8 * at_), c.pt i 1 + m * 2 ^ at_]
      (s.putCmd k { x with aux := x.aux + j }, .go)
    | none => (s, .wait)

-- Log entry 76: DESIGN CHOICE, unsafe.
/-- Reads the offsets and checks them (R225), then reads the index list and checks that no row overlaps the output
(R217). Poisoned offsets are not checked: every row is then poisoned (R219), and the counts of the result are free. -/
def State.gatherOpen (k : Nat) (e : Eng) (c : Cmd) (s : State) : State × Prog :=
  let c := if c.part = [] then { c with part := [[0], [0, 0], [0, 0], [], [], [0, 0, 0, 0]] } else c
  let s := s.putCmd k c
  if c.aux < 4 * c.gBags then s.gatherList k e c 1 (c.p 3) c.aux (4 * c.gBags)
  else if c.pt 1 1 = 0 ∧ !c.gFine then (s, .stop stFormat)
  else if c.aux < 4 * c.gBags + c.gN * c.gIdx then s.gatherList k e c 2 (c.p 1) (c.aux - 4 * c.gBags) (c.gN * c.gIdx)
  else if c.gClash then (s, .stop stFormat)
  else (s.putCmd k { (c.setPart 0 [1]).setPart 3 (c.gBag 0) with aux := 0 }, .go)

-- Log entry 72: DESIGN CHOICE, safe.
/-- The next index of the bag to be read again: any order is allowed (R207). -/
def Cmd.gPick (c : Cmd) : Nat :=
  let n := (c.part.getD 3 []).length
  if n ≤ 1 then 0 else Config.sumOrder c.seq c.ahead 3 % n

/-- Reads an index again, and the row it names. -/
def State.gatherLoad (k : Nat) (e : Eng) (sp slot : Nat) (c : Cmd) (s : State) : State × Prog :=
  match (c.part.getD 3 [])[c.gPick]? with
  | none => (s, .go)
  | some x =>
    if c.phase = 0 then (s, .go)
    else
      let z := c.gIdx
      let pva := c.p 1 + x * z
      let ri : Run := ⟨c.gIdxLane, recAt z c.ahead pva, pva, z⟩
      let done := c.pt 5 3
      if !ri.room (recAt z done 0) then (s, .go)
      else match State.getBytes k e true 3 s pva z with
        | (s, .wait) => (s, .wait)
        | (s, .fail st) => (s, .stop st)
        | (s, .ok r m) =>
          let row := c.p 0 + r * c.pb 5 32 24
          let nb := fmtBytes c.fa c.gDim
          let rr : Run := ⟨c.gRowLane, recAt nb c.ahead row, row, nb⟩
          let use := m = 0 ∧ bits (c.pt 2 1) (z * x) z = 0 ∧ r < c.pb 6 0 40
          if use ∧ !rr.room (recAt nb done 0) then (s, .go)
          else match s.loadRuns k e sp slot (ri :: if use then [rr] else []) 1 with
            | (s, .go) =>
              (match s.cmd k with
                | some y =>
                  (s.putCmd k ((y.setPart 3 ((c.part.getD 3 []).eraseIdx c.gPick)).setPart 4 (c.part.getD 4 [] ++ [x])), .go)
                | none => (s, .wait))
            | r => r

-- Log entry 75: DEDUCED, unsafe.
/-- The larger of two values; NaN with a NaN (R205). -/
def fmax (a b : Word) : Word :=
  if fIsNan a || fIsNan b then qNaN else if flt a b then b else if flt b a then a else a &&& b

/-- A row is pooled into its bag's accumulators (R226): the value of element j, its poison, and whether it met a NaN. -/
def poolRow (mode : Nat) (first : Bool) (acc row : List Elem) (code : Nat) : List (Nat × Bool × Bool) :=
  (acc.zip row).map fun (a, x) =>
    let v := x.f32 code 0
    let old : Word := if first then (if mode = 2 then fInf true else 0) else w32 a.raw
    ((if mode = 2 then fmax old v else fadd old v).toNat, (!first && a.poison) || x.poison, fIsNan v)

/-- The place of a bag's accumulators in the persistent state: 16 bags have one each (R215, R226). -/
def Cmd.gAcc (c : Cmd) : Nat := c.aux % 16 * (4 * c.gDim)

/-- Reads a bag's accumulators. -/
def State.gatherAcc (s : State) (k : Nat) (e : Eng) (sp slot : Nat) (c : Cmd) : State × List Elem :=
  match State.persGet k e sp slot c (c.gDim / 16 + 2) s c.gAcc (4 * c.gDim) with
  | (s, .ok v m) => (s, elems 0 0 c.gDim (v, m))
  | (s, _) => (s, [])

-- Log entry 76: DESIGN CHOICE, unsafe.
/-- Pools the oldest index read again. -/
def State.gatherIndex (k : Nat) (e : Eng) (sp slot : Nat) (c : Cmd) (x : Nat) (s : State) : State × Prog :=
  let z := c.gIdx
  let done := c.pt 5 3
  let pva := c.p 1 + x * z
  let (s, (r, m)) := s.getRun k sp slot ⟨c.gIdxLane, recAt z done pva, pva, z⟩
  let next := fun (s : State) (pooled spoil nan res : Nat) =>
    match s.cmd k with
    | some y =>
      let y := (y.setPart 4 ((c.part.getD 4 []).drop 1)).setPart 5 [c.pt 5 0 + pooled, max (c.pt 5 1) spoil, nan, done + 1]
      (s.putCmd k { y with result := y.result + res }, Prog.go)
    | none => (s, .wait)
  if m ≠ 0 ∨ bits (c.pt 2 1) (z * x) z ≠ 0 then
    let (b, s) := s.random64
    next s 0 1 (c.pt 5 2) (b.toNat % 2)
  else if r ≠ bits (c.pt 2 0) (8 * z * x) (8 * z) then next s 0 2 (c.pt 5 2) 1
  else if c.pb 6 0 40 ≤ r then next s 0 0 (c.pt 5 2) (2 ^ 32)
  else
    let row := c.p 0 + r * c.pb 5 32 24
    let nb := fmtBytes c.fa c.gDim
    let (s, b) := s.getRun k sp slot ⟨c.gRowLane, recAt nb done row, row, nb⟩
    let (s, acc) := s.gatherAcc k e sp slot c
    let ys := poolRow c.gMode (c.pt 5 0 == 0) acc (elems c.fa 0 c.gDim b) c.fa
    let put := (c.gAcc, 4 * c.gDim, packList 32 (ys.map fun y => y.1), markList 4 (ys.map fun y => y.2.1))
    let nan := ys.zipIdx.foldl (fun a y => if y.1.2.2 && !bit a y.2 then a + 2 ^ y.2 else a) (c.pt 5 2)
    next (s.persPut k e sp slot c [put]).1 1 0 nan 1

-- Log entry 11: DESIGN CHOICE, unsafe.
/-- The row of a bag whose indices changed while the command ran: undefined (R225). -/
def State.undefRow (s : State) (dim : Nat) : State × List OutEl :=
  let (n, s) := s.draw
  (s, (List.range dim).map fun j => ⟨(Config.undefinedData (n * 4096 + j)).word 0, true, false⟩)

/-- The row of a finished bag (R226). -/
def State.gatherRow (s : State) (k : Nat) (e : Eng) (sp slot : Nat) (c : Cmd) : State × List OutEl :=
  if c.pt 1 1 ≠ 0 ∨ c.pt 5 1 = 1 then (s, List.replicate c.gDim ⟨0, false, true⟩)
  else if c.pt 5 1 = 2 then s.undefRow c.gDim
  else if c.pt 5 0 = 0 then (s, List.replicate c.gDim ⟨0, false, false⟩)
  else
    let (s, acc) := s.gatherAcc k e sp slot c
    let recip := sfuRecip (toF32 (intV (c.pt 5 0)))
    (s, acc.zipIdx.map fun a =>
      ⟨if c.gMode = 1 then fmul (w32 a.1.raw) recip else w32 a.1.raw, bit (c.pt 5 2) a.2, a.1.poison⟩)

-- Log entry 76: DESIGN CHOICE, unsafe.
/-- A bag whose indices are pooled: its offsets are read again, and its row is written. A word of them that is poisoned now
poisons this row and the ones after it (R219). -/
def State.gatherClose (k : Nat) (e : Eng) (sp slot : Nat) (c : Cmd) (s : State) : State × Prog :=
  let j := c.aux
  let off := c.pt 1 0
  let nb := if j + 1 < c.gBags then 8 else 4
  match (if c.pt 1 1 ≠ 0 then (s, Bytes.ok (bits off (32 * j) (8 * nb)) 0) else State.getBytes k e true 3 s (c.p 3 + 4 * j) nb) with
  | (s, .wait) => (s, .wait)
  | (s, .fail st) => (s, .stop st)
  | (s, .ok ov om) =>
    let s := s.takeBeats k e false
    let c := if om ≠ 0 then c.setPart 1 [off, 1]
      else if ov ≠ bits off (32 * j) (8 * nb) then c.setPart 5 [c.pt 5 0, max (c.pt 5 1) 2, c.pt 5 2, c.pt 5 3] else c
    let units := offAt c off (j + 1) - offAt c off j
    let (s, xs) := s.gatherRow k e sp slot c
    let (rs, ev, p) := outRuns c.fo c.sr c.sat 0 (c.p 4) (c.gDim / 32 + 1) (s.spire sp) (j * c.gDim) xs
    let (b, s) := s.random64
    match s.cmd k with
    | some y =>
      let y := (((y.setPart 1 [off, c.pt 1 1]).setPart 3 (c.gBag (j + 1))).setPart 4 []).setPart 5 [0, 0, 0, c.ahead]
      let last := c.pt 1 1 ≠ 0 ∧ j + 1 = c.gBags
      let s := s.putCmd k { y with result := if last then b.toNat else y.result }
      (((s.setSpire sp p).addExc sp ev).give k sp slot (c.gOutLane.outs rs)
        (if c.pt 1 1 = 0 then units else if last then c.gN - c.pos else 0, 1), .go)
    | none => (s, .wait)

def State.gatherUnit (k : Nat) (e : Eng) (sp slot : Nat) (c : Cmd) (s : State) : State × Prog :=
  if c.phase = 0 then State.gatherOpen k e c s
  else if c.gBags ≤ c.aux then (s, .stop (if 2 ^ 32 ≤ c.result ∧ !c.poison then stPartial else stOK))
  else match c.part.getD 4 [], c.part.getD 3 [] with
    | x :: _, _ => State.gatherIndex k e sp slot c x s
    | [], [] => State.gatherClose k e sp slot c s
    | [], _ => (s, .wait)

/-- GATHER_POOL. The end's consumed poison comes before a skipped index. -/
def execGatherPool (k : Fin 16385) (e : Scr) (s : State) : Result :=
  run s fun s => s.spireRun k 0x84 e (fun _ => false) (fun c => c.result) (fun c => c.pos) (State.gatherLoad k) (State.gatherUnit k)

/-! ## OPT_STEP (R227 - R229)

`part` holds the hyperparameter block as it stands, `result` counts the non-finite gradients. -/

/-- A hyperparameter by its place in the block. -/
def Cmd.hyp (c : Cmd) (j : Nat) : Word := w32 (bits ((c.part.getD 0 []).getD 0 0) (32 * j) 32)
def Cmd.optCopy (c : Cmd) : Bool := bit (c.p 6) 18
def Cmd.optAlg (c : Cmd) : Nat := c.pb 6 16 2

/-- Reads the hyperparameter block, checks it (R228) and keeps it in the persistent state. -/
def State.optOpen (k : Nat) (e : Eng) (sp slot : Nat) (c : Cmd) (s : State) : State × Prog :=
  match State.getBytes k e true 3 s (c.p 5) 64 with
  | (s, .wait) => (s, .wait)
  | (s, .fail st) => (s, .stop st)
  | (s, .ok v m) =>
    let cp := bits v 256 64
    let range := (cp, fmtBytes c.fo (c.pb 3 0 40))
    let (ins, outs) := c.ranges
    if m ≠ 0 then (s, .stop stPoison)
    else if bits v 320 192 ≠ 0 ∨ (!c.optCopy ∧ cp ≠ 0) then (s, .stop stFormat)
    else if c.optCopy ∧ (pvaTop ≤ cp ∨ cp % fmtAlign c.fo ≠ 0 ∨ (ins ++ outs).any (meet range)) then (s, .stop stFormat)
    else if c.optCopy ∧ pvaTop < cp + range.2 then (s, .stop stLength)
    else
      let s := ((s.takeBeats k e false).persPut k e sp slot c [(0, 64, v, 0)]).1
      match s.cmd k with
      | some c => (s.putCmd k { c with part := [[v]] }, .go)
      | none => (s, .wait)

/-- The sign of a value as 1, -1 or 0; NaN of a NaN. -/
def fsign (x : Word) : Word :=
  match unF x with
  | .nan => qNaN
  | .inf n => if n then 0xBF800000 else 0x3F800000
  | .fin n m _ => if m = 0 then 0 else if n then 0xBF800000 else 0x3F800000

def fOne : Word := 0x3F800000

/-- The step of one element: new w, m, v (R229). -/
def optElem (c : Cmd) (w m v g : Word) : Word × Word × Word :=
  let lr := c.hyp 0
  let b1 := c.hyp 1
  let b2 := c.hyp 2
  let wd := c.hyp 4
  match c.optAlg with
  | 0 =>
    let m := fadd (fmul b1 m) (fmul (fsub fOne b1) g)
    let v := fadd (fmul b2 v) (fmul (fmul (fsub fOne b2) g) g)
    let u := fmul (fmul m (c.hyp 6)) (sfuRecip (fadd (sfuSqrt (fmul v (c.hyp 7))) (c.hyp 3)))
    (fsub w (fmul lr (fadd u (fmul wd w))), m, v)
  | 1 =>
    let u := fsign (fadd (fmul b1 m) (fmul (fsub fOne b1) g))
    (fsub w (fmul lr (fadd u (fmul wd w))), fadd (fmul b2 m) (fmul (fsub fOne b2) g), v)
  | _ =>
    let m := fadd (fadd (fmul b1 m) g) (fmul wd w)
    (fsub w (fmul lr m), m, v)

/-- Bits of elements in an output format with their events. -/
def outEach (p : Spire) (code : Nat) (sr sat : Bool) (xs : List OutEl) : List Nat × Exc × Spire :=
  let (rs, p) := rndList (sr && code != 0) xs.length p
  let ys := (xs.zip rs).map fun (o, r) => roundOut code sat r o.nanIn o.w
  (ys.map fun y => y.1, ys.foldl (fun a y => a.add y.2) Exc.none, p)

/-- An element of OPT_STEP: what it read, and whether it is left as it stands. -/
structure OptEl where
  w : OutEl
  m : OutEl
  v : OutEl
  keep : Bool
  nonfinite : Bool
  deriving DecidableEq, Repr

/-- The hyperparameters an algorithm uses, by their places in the block (R228). -/
def Cmd.optUses (c : Cmd) : List Nat :=
  match c.optAlg with
  | 0 => [0, 1, 2, 3, 4, 5, 6, 7]
  | 1 => [0, 1, 2, 4, 5]
  | _ => [0, 1, 4, 5]

/-- One element; `bad` says that a hyperparameter was lost. A poisoned gradient has no value to be judged. -/
def optOne (c : Cmd) (bad : Bool) (w m v g : Elem) : OptEl :=
  let gs := fmul (c.hyp 5) (g.f32 c.fa 0)
  let nf := !fIsFin gs && !g.poison && !bad
  let pois := bad || w.poison || m.poison || (c.optAlg = 0 && v.poison) || g.poison
  let r := optElem c (w32 w.raw) (w32 m.raw) (w32 v.raw) gs
  let nanIn := fIsNan gs || fIsNan (w32 w.raw) || fIsNan (w32 m.raw) || (c.optAlg = 0 && fIsNan (w32 v.raw)) ||
    c.optUses.any fun j => fIsNan (c.hyp j)
  ⟨⟨r.1, nanIn, pois⟩, ⟨r.2.1, nanIn, pois⟩, ⟨r.2.2, nanIn, pois⟩, nf && bit (c.p 6) 19, nf⟩

/-- The arrays a step reads and writes: w, m, v for AdamW, and g; the new w, m, v; the copy. Each has a share. -/
def Cmd.optLanes (c : Cmd) : Nat := 5 + (if c.optAlg = 0 then 2 else 0) + (if c.optCopy then 1 else 0)
def Cmd.optLane (c : Cmd) (i : Nat) : Lane := lane c.optLanes i (if i = 2 then c.fa else 0) (c.p (if i = 2 then 4 else i))
def Cmd.optV (c : Cmd) : Lane := lane c.optLanes 5 0 (c.p 2)
def Cmd.optCp (c : Cmd) : Nat := bits (c.pt 0 0) 256 64
def Cmd.optLen (c : Cmd) (i : Nat) : Nat := chunk 0 (c.p 0) i (c.pb 3 0 40)

def State.optLoad (k : Nat) (e : Eng) (sp slot : Nat) (c : Cmd) (s : State) : State × Prog :=
  if c.part = [] then (s, .go)
  else s.stream k e sp slot (c.pb 3 0 40) c fun i =>
    let n := c.optLen i
    ([(c.optLane 0).elems 0 (c.p 0) i n, (c.optLane 1).elems 0 (c.p 1) i n, (c.optLane 2).elems c.fa (c.p 4) i n] ++
      (if c.optAlg = 0 then [c.optV.elems 0 (c.p 2) i n] else []), n)

/-- The hyperparameter block as the persistent state holds it, and whether a word of it is lost. -/
def State.optHyp (s : State) (k : Nat) (e : Eng) (sp slot : Nat) (c : Cmd) : State × Cmd × Bool :=
  match State.persGet k e sp slot c 3 s 0 64 with
  | (s, .ok v m) => (s, { c with part := [[v]] }, m != 0)
  | (s, _) => (s, c, true)

/-- The w, m, v and g of a unit's elements. -/
def State.optRead (s : State) (k sp slot : Nat) (c : Cmd) (bad : Bool) (n : Nat) : State × List OptEl :=
  let (s, ws) := s.laneElems k sp slot (c.optLane 0) 0 (c.p 0) c.pos n
  let (s, ms) := s.laneElems k sp slot (c.optLane 1) 0 (c.p 1) c.pos n
  let (s, gs) := s.laneElems k sp slot (c.optLane 2) c.fa (c.p 4) c.pos n
  let (s, vs) := if c.optAlg = 0 then s.laneElems k sp slot c.optV 0 (c.p 2) c.pos n
    else (s, List.replicate n ⟨0, 0, false⟩)
  (s, (ws.zip (ms.zip (vs.zip gs))).map fun (w, m, v, g) => optOne c bad w m v g)

def State.optUnit (k : Nat) (e : Eng) (sp slot : Nat) (c : Cmd) (s : State) : State × Prog :=
  if c.part = [] then State.optOpen k e sp slot c s
  else if !c.fed then (s, .wait)
  else
    let cp := c.optCp
    let (s, c, bad) := s.optHyp k e sp slot c
    let (s, xs) := s.optRead k sp slot c bad (c.optLen c.pos)
    let p := s.spire sp
    let live := xs.filter fun x => !x.keep
    let at_ := (xs.zipIdx.filter fun x => !x.1.keep).map fun x => x.2
    let runs := fun (l : Lane) (z base : Nat) (raws : List Nat) (f : OptEl → OutEl) =>
      l.outs ((at_.zip (raws.zip live)).map fun (j, r, x) =>
        (base + (c.pos + j) * z, z, r, if (f x).poison then 2 ^ z - 1 else 0))
    let out := fun (f : OptEl → OutEl) => outEach p 0 false false (live.map f)
    let (cps, cev, p') := outEach p c.fo c.sr c.sat (live.map fun x => x.w)
    let vOut := lane c.optLanes 6 0 (c.p 2)
    let rs := runs (lane c.optLanes 3 0 (c.p 0)) 4 (c.p 0) (out fun x => x.w).1 (fun x => x.w) ++
      runs (lane c.optLanes 4 0 (c.p 1)) 4 (c.p 1) (out fun x => x.m).1 (fun x => x.m) ++
      (if c.optAlg = 0 then runs vOut 4 (c.p 2) (out fun x => x.v).1 (fun x => x.v) else []) ++
      (if c.optCopy then runs (lane c.optLanes (c.optLanes - 1) c.fo cp) (fmtBits c.fo / 8) cp cps (fun x => x.w) else [])
    let ev := ((out fun x => x.w).2.1.add (out fun x => x.m).2.1).add
      ((if c.optAlg = 0 then (out fun x => x.v).2.1 else Exc.none).add (if c.optCopy then cev else Exc.none))
    match s.cmd k with
    | some y =>
      let s := s.putCmd k { y with result := y.result + (xs.filter fun x => x.nonfinite).length }
      (((if c.optCopy then s.setSpire sp p' else s).addExc sp ev).give k sp slot rs (xs.length, 0), .go)
    | none => (s, .wait)

/-- OPT_STEP. -/
def execOptStep (k : Fin 16385) (e : Scr) (s : State) : Result :=
  run s fun s => s.spireRun k 0x88 e (fun c => c.part != [] && decide (c.pb 3 0 40 ≤ c.pos))
    (fun c => c.pb 3 0 40 + min c.result (2 ^ 24 - 1) * 2 ^ 40) (fun c => c.pos) (State.optLoad k) (State.optUnit k)

/-! ## ATTN_PARTIAL (R230, R231)

`part`: phase (0 while the query rows are read, 1 over the tokens, 2 at the outputs) and the draw that orders tokens and
partial sums, for any order is allowed (R207, R231); the tokens not yet read; those in the buffer; for each query row whether
it met a NaN. `aux` counts the rows done of a token or a phase. The persistent state holds m, l and the accumulator of each
row, then the query rows; a row is poisoned where a word of it is. -/

/-- δ. -/
def Cmd.attDelta (c : Cmd) : Int := let d := c.pb 4 41 23; if d < 2 ^ 22 then (d : Int) else (d : Int) - 2 ^ 23

/-- The bytes of a row's m, l and accumulator, and of a query row. -/
def Cmd.attRowLen (c : Cmd) : Nat := 4 * c.attD + 8
def Cmd.attQLen (c : Cmd) : Nat := c.attD * (fmtBits c.fa / 8)
def Cmd.attQAt (c : Cmd) (r : Nat) : Nat := c.attNq * c.attRowLen + r * c.attQLen
def Cmd.attTok (c : Cmd) : Nat := fmtBytes c.fb c.attD
def Cmd.attK (c : Cmd) : Lane := recLane 4 0 c.attTok
def Cmd.attV (c : Cmd) : Lane := recLane 4 1 c.attTok

/-- Reads a query row into the persistent state: m = -∞, l and the accumulator 0. -/
def State.attOpen (k : Nat) (e : Eng) (sp slot : Nat) (c : Cmd) (s : State) : State × Prog :=
  let c := if c.part = [] then { c with part := [[0, 0], [], [], []] } else c
  let s := s.putCmd k c
  if c.attNq ≤ c.aux then
    let (d, s) := s.draw
    (s.putCmd k { (c.setPart 0 [1, d]).setPart 1 (List.range (c.pb 4 0 16)) with aux := 0 }, .go)
  else
    let n := c.attQLen
    match State.getBytes k e true (n / 64 + 2) s (c.p 0 + c.aux * n) n with
    | (s, .wait) => (s, .wait)
    | (s, .fail st) => (s, .stop st)
    | (s, .ok v m) =>
      let w := c.attRowLen
      match s.persPut k e sp slot c [(c.aux * w, w, (fInf true).toNat, if m = 0 then 0 else 2 ^ w - 1), (c.attQAt c.aux, n, v, 0)] with
      | (s, .wait) => (s, .wait)
      | (s, .fail st) => (s, .stop st)
      | (s, .ok _ _) =>
        let s := s.takeBeats k e false
        let nan := (elems c.fa 0 c.attD (v, 0)).any fun x => fIsNan (x.f32 c.fa 0)
        match s.cmd k with
        | some c => (s.putCmd k { c.setPart 3 (c.part.getD 3 [] ++ [if nan then 1 else 0]) with aux := c.aux + 1 }, .go)
        | none => (s, .wait)

-- Log entry 72: DESIGN CHOICE, safe.
/-- Where the next token to read stands among those not yet read. -/
def Cmd.attPick (c : Cmd) : Nat :=
  let n := (c.part.getD 1 []).length
  if n ≤ 1 then 0 else Config.sumOrder (c.pt 0 1) c.ahead 2 % n

/-- Reads the K and V rows of a token. -/
def State.attLoad (k : Nat) (e : Eng) (sp slot : Nat) (c : Cmd) (s : State) : State × Prog :=
  match (c.part.getD 1 [])[c.attPick]? with
  | none => (s, .go)
  | some t =>
    let n := c.attTok
    let run := fun (l : Lane) (base : Nat) => (⟨l, recAt n c.ahead (base + t * n), base + t * n, n⟩ : Run)
    let rs := [run c.attK (c.p 1), run c.attV (c.p 2)]
    if !(rs.all fun r => r.room (recAt n c.pos 0)) then (s, .go)
    else match s.loadRuns k e sp slot rs 1 with
      | (s, .go) =>
        (match s.cmd k with
          | some y => (s.putCmd k ((y.setPart 1 ((c.part.getD 1 []).eraseIdx c.attPick)).setPart 2 (c.part.getD 2 [] ++ [t])), .go)
          | none => (s, .wait))
      | r => r

/-- A row's running state: m, l, accumulator. -/
structure AttRow where
  m : Word
  l : Word
  acc : List Word
  deriving DecidableEq, Repr

def attRowOf (c : Cmd) (v : Nat) : AttRow :=
  ⟨w32 (bits v 0 32), w32 (bits v 32 32), (List.range c.attD).map fun j => w32 (bits v (64 + 32 * j) 32)⟩

def AttRow.pack (r : AttRow) : Nat := packList 32 (r.m.toNat :: r.l.toNat :: r.acc.map fun w => w.toNat)

/-- A token meets a query row (R231). -/
def attStep (c : Cmd) (t r : Nat) (q kk vv : List Word) (row : AttRow) : AttRow :=
  let sc := fmul (w32 (c.pb 5 32 32)) (sumTerms (c.pt 0 1 * 2 ^ 32 + t * 65536 + r) ((q.zip kk).map fun x => .prod x.1 x.2))
  let up := flt row.m sc
  let f := sfuExp2 (fsub row.m sc)
  let l := if up then fmul row.l f else row.l
  let acc := if up then row.acc.map fun a => fmul a f else row.acc
  let m := if up then sc else row.m
  let ex := sfuExp2 (fsub sc m)
  ⟨m, fadd l ex, (acc.zip vv).map fun (a, v) => fadd a (fmul ex v)⟩

/-- The mask excludes a token from a row. -/
def Cmd.attSkip (c : Cmd) (t r : Nat) : Bool := bit (c.p 4) 40 && decide (c.attDelta + (r / c.attH : Nat) < (t : Int))

/-- The next row after one, and with the last row the next token. -/
def State.attNextRow (s : State) (k : Nat) (c : Cmd) : State × Prog :=
  match s.cmd k with
  | some y =>
    (s.putCmd k (if c.aux + 1 < c.attNq then { y with aux := c.aux + 1 }
      else { y.setPart 2 ((c.part.getD 2 []).drop 1) with aux := 0, pos := y.pos + 1 }), .go)
  | none => (s, .wait)

/-- The oldest token in the buffer meets the next query row. -/
def State.attToken (k : Nat) (e : Eng) (sp slot : Nat) (c : Cmd) (t : Nat) (s : State) : State × Prog :=
  let n := c.attTok
  let r := c.aux
  if c.attSkip t r then s.attNextRow k c
  else
    match State.persGet k e sp slot c (c.attRowLen / 64 + 2) s (r * c.attRowLen) c.attRowLen with
    | (s, .wait) => (s, .wait)
    | (s, .fail st) => (s, .stop st)
    | (s, .ok v m) =>
      match State.persGet k e sp slot c (c.attQLen / 64 + 2) s (c.attQAt r) c.attQLen with
      | (s, .wait) => (s, .wait)
      | (s, .fail st) => (s, .stop st)
      | (s, .ok qv qm) =>
        let (s, kb) := s.getRun k sp slot ⟨c.attK, recAt n c.pos (c.p 1 + t * n), c.p 1 + t * n, n⟩
        let (s, vb) := s.getRun k sp slot ⟨c.attV, recAt n c.pos (c.p 2 + t * n), c.p 2 + t * n, n⟩
        let wide := fun (code : Nat) (b : Nat × Nat) => (elems code 0 c.attD b).map fun x => x.f32 code 0
        let kk := wide c.fb kb
        let vv := wide c.fb vb
        let bad := m != 0 || qm != 0 || kb.2 != 0 || vb.2 != 0
        let w := c.attRowLen
        let row := attStep c t r (wide c.fa (qv, 0)) kk vv (attRowOf c v)
        match s.persPut k e sp slot c [(r * w, w, row.pack, if bad then 2 ^ w - 1 else 0)] with
        | (s, .wait) => (s, .wait)
        | (s, .fail st) => (s, .stop st)
        | (s, .ok _ _) =>
          let nans := c.part.getD 3 []
          let nan := nans.getD r 0 = 1 || kk.any fIsNan || vv.any fIsNan
          match s.cmd k with
          | some y => (s.putCmd k (y.setPart 3 (nans.set r (if nan then 1 else 0)))).attNextRow k c
          | none => (s, .wait)

/-- The outputs of a row: its elements, and its record {m, lse}, where a NaN made without a NaN input is counted (R210). -/
def State.attOut (k : Nat) (e : Eng) (sp slot : Nat) (c : Cmd) (s : State) : State × Prog :=
  let r := c.aux
  match State.persGet k e sp slot c (c.attRowLen / 64 + 2) s (r * c.attRowLen) c.attRowLen with
  | (s, .wait) => (s, .wait)
  | (s, .fail st) => (s, .stop st)
  | (s, .ok v m) =>
    let nan := (c.part.getD 3 []).getD r 0 = 1
    let row := attRowOf c v
    let (o, ev, p) := outRun (s.spire sp) c.fo c.sr c.sat 0 (c.p 3) (r * c.attD) (row.acc.map fun a => ⟨a, nan, m != 0⟩)
    let lse := fadd row.m (sfuLog2 row.l)
    let made := if nan then 0 else (if fIsNan row.m then 1 else 0) + (if fIsNan lse then 1 else 0)
    let lrun := ((lane 4 3 0 (c.p 6)).run (c.p 6 + 8 * r) 8, row.m.toNat + lse.toNat * 2 ^ 32, if m = 0 then 0 else 255)
    (((s.setSpire sp p).addExc sp (ev.add ⟨0, made, 0, 0⟩)).give k sp slot ((lane 4 2 c.fo (c.p 3)).outs [o] ++ [lrun]) (0, 1), .go)

def State.attUnit (k : Nat) (e : Eng) (sp slot : Nat) (c : Cmd) (s : State) : State × Prog :=
  match c.phase with
  | 0 => State.attOpen k e sp slot c s
  | 1 =>
    if c.pb 4 0 16 ≤ c.pos then (s.putCmd k { c.setPart 0 [2, c.pt 0 1] with aux := 0 }, .go)
    else match c.part.getD 2 [] with
      | t :: _ => State.attToken k e sp slot c t s
      | [] => (s, .wait)
  | _ => State.attOut k e sp slot c s

/-- ATTN_PARTIAL. -/
def execAttnPartial (k : Fin 16385) (e : Scr) (s : State) : Result :=
  run s fun s => s.spireRun k 0x8C e (fun c => c.phase == 2 && decide (c.attNq ≤ c.aux)) (fun c => c.pb 4 0 16) (fun _ => 0)
    (State.attLoad k) (State.attUnit k)

/-! ## TOPK (R232)

The persistent state holds the candidates in rank order, 12 bytes each: 4 of value, 8 of index. `part` says whether an input
was poisoned; `aux` counts the elements written. -/

/-- What a candidate keeps of an element: an INT8 as it stands, else its widened value. -/
def topKeep (c : Cmd) (x : Elem) : Nat := if c.fa = 7 then x.raw else (x.f32 c.fa 0).toNat

/-- The place of a kept value in the order. -/
def Cmd.topKey (c : Cmd) (v : Nat) : Nat :=
  if c.fa = 7 then (int8Val v + 128).toNat else if 2 ^ 31 ≤ v then 2 ^ 32 - 1 - v else 2 ^ 31 + v

-- Log entry 75: DEDUCED, unsafe.
/-- What TOPK writes for a kept value: an exact copy, or the FP32 value of an INT8. -/
def Cmd.topOut (c : Cmd) (v : Nat) : Nat :=
  if c.fa = 7 then (if c.fo = 7 then v else (toF32 (mulV (intV (int8Val v)) (unF (w32 (c.pb 6 0 32))))).toNat)
  else (roundOut c.fo false .rne true (w32 v)).1

/-- Puts a candidate behind those that rank above it or equal. -/
def topInsert (smallest : Bool) (key : Nat → Nat) (y : Nat × Nat) : List (Nat × Nat) → List (Nat × Nat)
  | [] => [y]
  | x :: r =>
    if (if smallest then decide (key y.1 < key x.1) else decide (key x.1 < key y.1)) then y :: x :: r
    else x :: topInsert smallest key y r

def Cmd.topN (c : Cmd) : Nat := c.pb 1 0 40
def Cmd.topK (c : Cmd) : Nat := c.pb 2 0 16
def Cmd.topLane (c : Cmd) : Lane := lane 3 0 c.fa (c.p 0)
def Cmd.topLen (c : Cmd) (i : Nat) : Nat := min 32 (c.topN - i)

def State.topLoad (k : Nat) (e : Eng) (sp slot : Nat) (c : Cmd) (s : State) : State × Prog :=
  s.stream k e sp slot c.topN c fun i => ([c.topLane.elems c.fa (c.p 0) i (c.topLen i)], c.topLen i)

/-- Candidates `i` to `i + n - 1` of the persistent state: value and index; and whether a word of them is lost. -/
def State.topGet (s : State) (k : Nat) (e : Eng) (sp slot : Nat) (c : Cmd) (i n : Nat) : State × List (Nat × Nat) × Bool :=
  match State.persGet k e sp slot c (12 * n / 64 + 2) s (12 * i) (12 * n) with
  | (s, .ok v m) => (s, (List.range n).map fun j => (bits v (96 * j) 32, bits v (96 * j + 32) 64), m != 0)
  | (s, _) => (s, [], true)

/-- 32 elements join the candidates. -/
def State.topTake (k : Nat) (e : Eng) (sp slot : Nat) (c : Cmd) (s : State) : State × Prog :=
  let (s, xs) := s.laneElems k sp slot c.topLane c.fa (c.p 0) c.pos (c.topLen c.pos)
  let (s, old, lost) := s.topGet k e sp slot c 0 (min c.topK c.pos)
  let cand := xs.zipIdx.foldl (fun l x => (topInsert (c.pb 2 16 1 == 1) c.topKey (topKeep c x.1, c.pos + x.2) l).take c.topK) old
  let s := (s.persPut k e sp slot c [(0, 12 * cand.length, packList 96 (cand.map fun x => x.1 + x.2 * 2 ^ 32), 0)]).1
  match s.cmd k with
  | some y =>
    let s := if lost || xs.any fun x => x.poison then s.putCmd k { y with part := [[1]] } else s
    (s.give k sp slot [] (xs.length, 0), .go)
  | none => (s, .wait)

/-- Elements of the values and indices, as far as a line of each goes. -/
def State.topGive (k : Nat) (e : Eng) (sp slot : Nat) (c : Cmd) (s : State) : State × Prog :=
  let z := fmtBits c.fo / 8
  let n := min (chunk c.fo (c.p 3) c.aux c.topK) (8 - (c.p 4 + 8 * c.aux) % 64 / 8)
  let (s, cs, lost) := s.topGet k e sp slot c c.aux n
  let mark := fun (w : Nat) => if c.pt 0 0 = 1 || lost then 2 ^ (w * n) - 1 else 0
  let run := fun (l : Lane) (base w : Nat) (xs : List Nat) => (l.run (base + c.aux * w) (n * w), packList (8 * w) xs, mark w)
  (s.give k sp slot [run (lane 3 1 c.fo (c.p 3)) (c.p 3) z (cs.map fun x => c.topOut x.1),
    run (lane 3 2 0 (c.p 4)) (c.p 4) 8 (cs.map fun x => x.2)] (0, n), .go)

def State.topUnit (k : Nat) (e : Eng) (sp slot : Nat) (c : Cmd) (s : State) : State × Prog :=
  if c.topN ≤ c.pos then State.topGive k e sp slot c s
  else if c.fed then State.topTake k e sp slot c s else (s, .wait)

/-- TOPK. -/
def execTopk (k : Fin 16385) (e : Scr) (s : State) : Result :=
  run s fun s => s.spireRun k 0x90 e (fun c => decide (c.topN ≤ c.pos ∧ c.topK ≤ c.aux)) (fun c => c.topN) (fun _ => 0)
    (State.topLoad k) (State.topUnit k)

/-! ## CHECKSUM (R233) -/

-- Log entry 106: PRESUMED, unsafe.
/-- A reflected CRC over one byte. -/
def crcByte (poly r b : Nat) : Nat :=
  (List.range 8).foldl (fun r _ => if r % 2 = 1 then (r / 2) ^^^ poly else r / 2) (r ^^^ b)

def Cmd.crcPoly (c : Cmd) : Nat := if c.pb 2 0 1 = 0 then 0x82F63B78 else 0xC96C5795D7870F42
def Cmd.crcOnes (c : Cmd) : Nat := if c.pb 2 0 1 = 0 then 2 ^ 32 - 1 else 2 ^ 64 - 1
/-- The register: NOT seed before the first byte. -/
def Cmd.crcReg (c : Cmd) : Nat := match c.part with | [[r]] => r | _ => c.crcOnes - c.p 3

def Cmd.crcLane (c : Cmd) : Lane := lane 1 0 0 (c.p 0)
/-- The bytes from byte `i` of the source to the end of its line. -/
def Cmd.crcLen (c : Cmd) (i : Nat) : Nat := min (c.pb 1 0 40 - i) (64 - (c.p 0 + i) % 64)

def State.crcLoad (k : Nat) (e : Eng) (sp slot : Nat) (c : Cmd) (s : State) : State × Prog :=
  s.stream k e sp slot (c.pb 1 0 40) c fun i => ([c.crcLane.run (c.p 0 + i) (c.crcLen i)], c.crcLen i)

def State.crcUnit (k : Nat) (_ : Eng) (sp slot : Nat) (c : Cmd) (s : State) : State × Prog :=
  if !c.fed then (s, .wait)
  else
    let n := c.crcLen c.pos
    let (s, (v, _)) := s.getRun k sp slot (c.crcLane.run (c.p 0 + c.pos) n)
    let r := (List.range n).foldl (fun r j => crcByte c.crcPoly r (bits v (8 * j) 8)) c.crcReg
    match s.cmd k with
    | some x => ((s.putCmd k { x with part := [[r]] }).give k sp slot [] (n, 0), .go)
    | none => (s, .wait)

/-- CHECKSUM. -/
def execChecksum (k : Fin 16385) (e : Scr) (s : State) : Result :=
  run s fun s => s.spireRun k 0x94 e (fun c => c.pb 1 0 40 ≤ c.pos) (fun c => if c.poison then 0 else c.crcOnes - c.crcReg)
    (fun c => c.pos) (State.crcLoad k) (State.crcUnit k)

/-! ## PUBLISH (R168, R169, R234): `aux` is 1 once the claim is made -/

def Cmd.pubSrc (c : Cmd) : Lane := lane 2 0 0 (c.p 1)
def Cmd.pubDst (c : Cmd) : Lane := lane 2 1 0 (c.p 2)
/-- The bytes from byte `i` of the copy to the end of its destination line. -/
def Cmd.pubLen (c : Cmd) (i : Nat) : Nat := min (c.pb 3 0 40 - i) (64 - (c.p 2 + i) % 64)

def State.pubLoad (k : Nat) (e : Eng) (sp slot : Nat) (c : Cmd) (s : State) : State × Prog :=
  if c.aux = 0 then (s, .go)
  else s.stream k e sp slot (c.pb 3 0 40) c fun i => ([c.pubSrc.run (c.p 1 + i) (c.pubLen i)], c.pubLen i)

/-- Claim: the word must equal the expected one, and becomes {1, new}; else the result is the word. -/
def State.pubClaim (s : State) (k : Nat) (c : Cmd) (e : Eng) : State × Prog :=
  match s.update8 k c e (c.p 0) fun old => if old = c.p 4 then some (2 ^ 63 + c.pb 5 0 63) else none with
  | (s, .wait) => (s, .wait)
  | (s, .fail st) => (s, .stop st)
  | (s, .poison) => (s, .stop stPoison)
  | (s, .done old) =>
    match (s.unitEnd k e).cmd k with
    | some x =>
      if old = c.p 4 then ((s.unitEnd k e).putCmd k { x with aux := 1 }, .go)
      else ((s.unitEnd k e).putCmd k { x with result := old }, .stop stStale)
    | none => (s, .wait)

/-- Release: the word becomes {0, new}. A copy that consumed poison counts as failed. -/
def State.pubRelease (s : State) (k : Nat) (c : Cmd) (e : Eng) : State × Prog :=
  if c.poison then (s, .stop stPoison)
  else match s.putBytes k e (c.p 0) 8 (c.pb 5 0 63) 0 with
    | (s, .wait) => (s, .wait)
    | (s, .fail st) => (s, .stop st)
    | (s, .ok _ _) => (s, .stop stOK)

/-- One step: the claim, a destination line's share of the copy, or the release. -/
def State.pubUnit (k : Nat) (e : Eng) (sp slot : Nat) (c : Cmd) (s : State) : State × Prog :=
  if c.aux = 0 then s.pubClaim k c e
  else if c.pb 3 0 40 ≤ c.pos then s.pubRelease k c e
  else if !c.fed then (s, .wait)
  else
    let n := c.pubLen c.pos
    let (s, b) := s.getRun k sp slot (c.pubSrc.run (c.p 1 + c.pos) n)
    (s.give k sp slot [(c.pubDst.run (c.p 2 + c.pos) n, b)] (n, 0), .go)

/-- PUBLISH. -/
def execPublish (k : Fin 16385) (e : Scr) (s : State) : Result :=
  run s fun s => s.spireRun k 0x98 e (fun _ => false) (fun c => c.pos) (fun c => if c.aux = 0 then c.result else c.pos)
    (State.pubLoad k) (State.pubUnit k)

end Sys2Proof.Machine
end

