-- ==== Sys2Proof/Machine/Ry.lean ====
section
/-!
DEFINITION. The Rythar link layer: packets as units (R277), flits (R258) and the codewords that carry them (R257), acceptance
(R261), acknowledgement and replay (R262 - R264), credits (R265), epochs (R267), lane sparing (R268), full resets (R269).
-/
namespace Sys2Proof.Machine

/-! ## Packets as units of 64 bytes (R277) -/

/-- A packet's bits: its header unit, then its data units. -/
def Pkt.encode (p : Pkt) : Nat :=
  p.dst + p.src * 2 ^ 8 + p.kind * 2 ^ 16 + p.units * 2 ^ 24 + p.ctx.toNat * 2 ^ 32 + p.msg * 2 ^ 48 + p.offset * 2 ^ 64 +
    p.length * 2 ^ 128 + p.target.toNat * 2 ^ 160 + p.status * 2 ^ 192 +
    (if p.kind = 3 then bits p.be.toNat 0 56 * 2 ^ 200 else 0) + p.poison.toNat * 2 ^ 256 +
    p.data.toNat % 2 ^ (512 * p.units) * 2 ^ 512

/-- The packet some units spell. -/
def Pkt.decode (n : Nat) : Pkt :=
  let kind := bits n 16 4
  let target := bits n 160 32
  ⟨bits n 0 6, bits n 8 6, kind, bits n 24 7, BitVec.ofNat 16 (bits n 32 16), bits n 48 16, bits n 64 40, bits n 128 17,
    BitVec.ofNat 32 target, bits n 192 8,
    if kind = 3 then BitVec.ofNat 64 (bits n 200 56 + bits target 16 8 * 2 ^ 56) else 0, BitVec.ofNat 256 (bits n 256 256),
    BitVec.ofNat 32768 (bits n 512 32768)⟩

/-! ## Flits as bytes (R258) -/

/-- Header bits [95:0]. -/
def Flit.hdr (f : Flit) : Nat :=
  let b := fun (x : Bool) => if x then 1 else 0
  f.seq + f.ackSeq * 2 ^ 12 + b f.ackValid * 2 ^ 24 + b f.nak * 2 ^ 25 + f.vc * 2 ^ 26 + f.units * 2 ^ 28 +
    f.kind * 2 ^ 32 + f.keyGen * 2 ^ 34 + f.crReq * 2 ^ 36 + f.crRsp * 2 ^ 46 + f.crBulk * 2 ^ 56 + f.crMgt * 2 ^ 66 +
    f.op * 2 ^ 76 + f.arg * 2 ^ 80

/-- CRC-32C over 268 bytes: header bits [95:0] and the payload. -/
def flitCrc (hdr payload : Nat) : Nat :=
  let n := hdr + payload * 2 ^ 96
  ((List.range 268).foldl (fun r k => crcByte 0x82F63B78 r (bits n (8 * k) 8)) (2 ^ 32 - 1)) ^^^ (2 ^ 32 - 1)

-- Log entry 82: PRESUMED, unsafe.
/-- The 272 bytes of a flit. -/
def Flit.image (f : Flit) : Nat := f.hdr + flitCrc f.hdr f.payload.toNat * 2 ^ 96 + f.payload.toNat * 2 ^ 128

-- Log entry 83: DEDUCED, unsafe.
/-- The flit some bytes spell. -/
def flitOf (n : Nat) (head : Option Bool) : Flit :=
  ⟨bits n 0 12, bits n 12 12, bit n 24, bit n 25, bits n 26 2, bits n 28 3, bits n 32 2, bits n 34 1, bits n 36 10,
    bits n 46 10, bits n 56 10, bits n 66 10, bits n 76 4, bits n 80 16, head, BitVec.ofNat 2048 (bits n 128 2048)⟩

/-- A received flit is bad by its CRC, or by a field's value (R257, R258). -/
def flitBad (n : Nat) : Bool :=
  bits n 96 32 != flitCrc (bits n 0 96) (bits n 128 2048) || bits n 32 2 == 3 || decide (5 ≤ bits n 28 3) || decide (6 ≤ bits n 76 4)

/-! ## Codewords and lanes (R256, R257) -/

/-- Lanes with one of them replaced by the spare, in ascending order. -/
def withSpare (lanes : List Nat) (spared : Option Nat) : List Nat :=
  match spared with
  | some k => (lanes.filter fun x => x != k) ++ [8]
  | none => lanes

-- Log entry 108: PRESUMED, unsafe.
/-- A flit's bytes are laid into the message bits of the codeword in progress; a codeword that is full goes out, its symbols
dealt to the active lanes. -/
def State.layFlit (s : State) (p : Nat) (f : Flit) : State :=
  let r := s.ryPort p
  let n := r.txLine.1 + 2176
  let v := r.txLine.2 + f.image * 2 ^ r.txLine.1
  if n < 5140 then s.setRy p { r with txLine := (n, v) }
  else (s.setRy p { r with txLine := (n - 5140, v / 2 ^ 5140) }).emit
    (.lanes p (dealLanes (withSpare r.lanes r.spareTx) (rsEncode (symbols 514 v))))

/-- A flit goes out. -/
def State.sendFlit (s : State) (p : Nat) (f : Flit) : State := (s.emit (.flit p f)).layFlit p f

/-! ## Credits (R265) -/

def RyPort.addCred (r : RyPort) (vc n : Nat) : RyPort :=
  if vc = 0 then { r with credReq := r.credReq + n } else if vc = 1 then { r with credRsp := r.credRsp + n }
  else if vc = 2 then { r with credBulk := r.credBulk + n } else { r with credMgt := r.credMgt + n }

def RyPort.subCred (r : RyPort) (vc n : Nat) : RyPort :=
  if vc = 0 then { r with credReq := r.credReq - n } else if vc = 1 then { r with credRsp := r.credRsp - n }
  else if vc = 2 then { r with credBulk := r.credBulk - n } else { r with credMgt := r.credMgt - n }

/-- Units whose payload has left the input buffer wait to be returned. -/
def RyPort.giveBack (r : RyPort) (vc n : Nat) : RyPort :=
  if vc = 0 then { r with retReq := r.retReq + n } else if vc = 1 then { r with retRsp := r.retRsp + n }
  else if vc = 2 then { r with retBulk := r.retBulk + n } else { r with retMgt := r.retMgt + n }

def State.giveBack (s : State) (p vc n : Nat) : State := s.setRy p ((s.ryPort p).giveBack vc n)

-- Log entry 82: PRESUMED, unsafe.
/-- Whether a link key is LIVE. -/
def RyPort.encrypted (r : RyPort) : Bool := !r.keys.isEmpty

/-- The ack_seq the receiver sends (R262). -/
def RyPort.ackSeq (r : RyPort) : Nat := if r.epochLen = 0 then r.exp else r.epochStart

/-! ## Acknowledgements sent (R261, R262) -/

/-- An IDLE flit with the acknowledgement. -/
def RyPort.idle (r : RyPort) (nak : Bool) : Flit := ⟨0, r.ackSeq, true, nak, 0, 0, 0, r.txGen, 0, 0, 0, 0, 0, 0, some false, 0⟩

-- Log entry 83: DEDUCED, unsafe.
/-- Sends the acknowledgement, as a NAK or not, in an IDLE flit. A paused transmitter sends it once it resumes. -/
def State.sendAck (s : State) (p : Nat) (nak : Bool) : State :=
  let r := s.ryPort p
  if r.paused then s.setRy p { r with ackDue := true, nakDue := r.nakDue || nak }
  else (s.setRy p { r with unacked := 0, ackDue := false, nakDue := false }).sendFlit p (r.idle (nak || r.nakDue))

-- Log entry 83: DEDUCED, unsafe.
/-- A NAK for E, unless one is outstanding (R261). -/
def State.nakE (s : State) (p : Nat) : State :=
  let r := s.ryPort p
  if r.nakAt.isSome then s
  else ((s.setRy p { r with nakAt := some s.pwr.refTime }).bump F.RYP_ERR_CNT0_naks_sent 1 p).sendAck p true

/-! ## Losses (R264, R280) -/

-- Log entry 84: DEDUCED, unsafe.
/-- Reports a lost packet's message to its requester. -/
def State.lostMsg (s : State) (m : Option MsgKey) : State :=
  match m with
  | some k => s.originate (Pkt.bare k.node s.pwr.node kErr k.ctx k.msg 0 0 0 stRemote) 1
  | none => s

/-- The message a packet belongs to; a QUEEN packet belongs to none. -/
def Pkt.msgKey (p : Pkt) : Option MsgKey :=
  if p.kind = kQueen then none
  else some ⟨if p.kind = kPong then p.dst else p.requester, p.msg, p.ctx⟩

-- Log entry 84: DEDUCED, unsafe.
/-- Reports every message of a list once. -/
def State.lostAll (s : State) (ms : List (Option MsgKey)) : State := ms.eraseDups.foldl (fun s m => s.lostMsg m) s

-- Log entry 84: DEDUCED, unsafe.
/-- One flit is lost (R264): its units come back as credit, the loss is counted and raised. -/
def State.loseFlit (s : State) (p : Nat) (x : SentFlit) : State :=
  let r := s.ryPort p
  let s := if x.flit.kind = 1 then s.setRy p (r.addCred x.flit.vc x.flit.units) else s
  (s.bump F.RYP_ERR_CNT2_void_sent 1 p).raise (896 + 16 * p + 2) 0 0 none x.flit.seq

/-! ## States (R259, R269) -/

def State.ryGo (s : State) (p : Nat) (st : RySt) : State :=
  s.setRy p { s.ryPort p with st := st, since := s.pwr.refTime }

/-- Traffic flows: ACTIVE, or SPARE (R259, R268). -/
def State.ryLive (s : State) (p : Nat) : Bool := (s.ryPort p).st == .active || (s.ryPort p).st == .spare

/-- ACTIVE, or SPARE while either direction replaces a lane. -/
def RyPort.traffic (r : RyPort) : RyPort := { r with st := if r.paused || r.moving then .spare else .active }

/-- The power domain of a port (R346). -/
def ryDomain (p : Nat) : Nat := if p < 6 then 19 else 20

/-- Whether the credit sizes fit the input buffer. -/
def State.rxUnits (s : State) (p v : Nat) : Nat := max 4 (s.fN F.RYP_VC_CRED_rx_units p v)
def State.rxFits (s : State) (p : Nat) : Bool := decide (((List.range 4).map fun v => s.rxUnits p v).sum ≤ 8448)

-- Log entry 84: DEDUCED, unsafe.
/-- A reset or a training begins: the caps in force for it, and who began it (R271). -/
def State.ryBegin (s : State) (p : Nat) (st : RySt) (self : Bool) : State :=
  s.setRy p { s.ryPort p with
    st := st, since := s.pwr.refTime, beganAt := s.pwr.refTime, began := self,
    heardAt := if self then none else some s.pwr.refTime,
    capX4 := s.fB F.RYP_CFG_width_cap p, capSlow := s.fB F.RYP_CFG_speed_cap p }

/-- A port that is DOWN leaves for DETECT when it may (R259). -/
def State.ryKick (s : State) (p : Nat) : State :=
  if (s.ryPort p).st = .down && s.fB F.RYP_CFG_enable p && !s.fB F.RYP_LINK_CTL_disable p && s.domainOn (ryDomain p) then
    if s.rxFits p then s.ryBegin p .detect true else s.fFlag F.RYP_LINK_STATUS_cfg_error true p
  else s

-- Log entry 84: DEDUCED, unsafe.
/-- What a full reset does to a port: the flits of an epoch not verified are discarded, operations not sent are dropped, all
else is kept (R267, R268, R269). -/
def RyPort.cut (r : RyPort) : RyPort :=
  { r with exp := r.ackSeq, epochLen := 0, tagFails := 0, inbuf := [], nakAt := none, nakDue := false, paused := false,
           sparing := none, moving := false, spareTx := none, replayFrom := none, rounds := 0, ackDue := false, unacked := 0,
           ctrl := [], txLine := (0, 0), rxLine := (0, 0, false) }

/-- A full reset begins: by this end itself, or at the partner's request. -/
def State.ryReset (s : State) (p : Nat) (self : Bool) : State :=
  ((s.setRy p (s.ryPort p).cut).ryBegin p .reset self).bump F.RYP_ERR_CNT2_resets 1 p

/-! ## Epochs sent (R267) -/

-- Log entry 82: PRESUMED, unsafe.
/-- The additional data of an epoch: its headers and the payloads of its CTRL flits but the MAC. -/
def epochAad (fs : List Flit) : List Nat :=
  fs.flatMap fun f => bytesOf 12 f.hdr ++ (if f.kind = 2 ∧ f.op ≠ 1 then bytesOf 256 f.payload.toNat else [])

-- Log entry 82: PRESUMED, unsafe.
/-- The ciphertext of an epoch: the payloads of its DATA flits. -/
def epochCt (fs : List Flit) : List Nat := (fs.filter fun f => f.kind == 1).flatMap fun f => bytesOf 256 f.payload.toNat

/-- The tag of an epoch, its MAC flit the last of the list. -/
def epochTag (key : BitVec 256) (iv : BitVec 96) (fs : List Flit) : BitVec 128 := gcmTag key iv (epochAad fs) (epochCt fs)

/-- The flits of the open transmit epoch. -/
def RyPort.openFlits (r : RyPort) : List Flit := (r.sent.drop (r.sent.length - r.txEpoch)).map fun x => x.flit

def RyPort.txKey (r : RyPort) : BitVec 256 := SMap.findD r.keys r.txGen 0

/-- The CTRL operation's flit, with the next sequence number. -/
def RyPort.ctrlFlit (r : RyPort) (op arg : Nat) : Flit :=
  ⟨r.nextSeq, r.ackSeq, true, r.nakDue, 0, 0, 2, r.txGen, min 1023 r.retReq, min 1023 r.retRsp, min 1023 r.retBulk,
    min 1023 r.retMgt, op, arg, some false, 0⟩

-- Log entry 82: PRESUMED, unsafe.
/-- The first flit of an epoch draws its initialisation vector. -/
def State.openEpoch (s : State) (p : Nat) : State :=
  let r := s.ryPort p
  if r.encrypted && r.txEpoch == 0 then
    let (n, s) := s.draw
    s.setRy p { s.ryPort p with txIv := (Config.random n).setWidth 96 }
  else s

-- Log entry 82: PRESUMED, unsafe.
/-- Sends a sequenced flit: the payload of a DATA flit is encrypted while the port holds a key; the flit enters the replay
buffer, carries the acknowledgement and takes the credit returns. -/
def State.sendSeq (s : State) (p : Nat) (f : Flit) (m : Option MsgKey) : State :=
  let s := s.openEpoch p
  let r := s.ryPort p
  let n := (r.openFlits.filter fun x => x.kind == 1).length
  let f := if r.encrypted && f.kind == 1 then { f with payload := gcmPayload r.txKey r.txIv n f.payload } else f
  let r := { r with
    nextSeq := (r.nextSeq + 1) % 4096, sent := r.sent ++ [⟨f, false, m⟩], unacked := 0, ackDue := false, nakDue := false,
    retReq := r.retReq - f.crReq, retRsp := r.retRsp - f.crRsp, retBulk := r.retBulk - f.crBulk,
    retMgt := r.retMgt - f.crMgt, ackAt := if r.sent.isEmpty then s.pwr.refTime else r.ackAt,
    txEpoch := if r.encrypted then (if f.op = 1 then 0 else r.txEpoch + 1) else 0 }
  (s.setRy p r).sendFlit p f

-- Log entry 82: PRESUMED, unsafe.
/-- Sends the CTRL MAC flit that closes the open epoch. The transmitter changes generation here where it is to (R314). -/
def State.sendMac (s : State) (p : Nat) : State :=
  let r := s.ryPort p
  let f := r.ctrlFlit 1 0
  let tag := epochTag r.txKey r.txIv (r.openFlits ++ [f])
  let s := s.sendSeq p { f with payload := tag.setWidth 2048 } none
  let r := s.ryPort p
  let other := 1 - r.txGen
  if r.switchReq && (SMap.find r.keys other).isSome then s.setRy p { r with txGen := other, switchReq := false }
  else s.setRy p { r with switchReq := false }

/-! ## The spill ring (R264) -/

/-- The class of a port's accesses. -/
def ryClass (p : Nat) : Nat := 16 + p

/-- Writes a flit into its ring slot; false while its lines are not all written. -/
def State.spillOut (s : State) (p : Nat) (f : Flit) : State × Bool :=
  let img := f.image
  let base := s.ryRingAddr p f.seq / 64
  let o := Origin.rythar p 64 f.seq
  let (s, ok) := (List.range 5).foldl (fun (acc : State × Bool) i =>
    let w : EngWr := ⟨0, base + i, ⟨BitVec.ofNat 512 (bits img (512 * i) 512), 0⟩, fullBe, ryClass p, .other, .none, none⟩
    match acc.1.engWrite o 0 w with
    | (s, some _) => (s, acc.2)
    | (s, none) => (s, false)) (s, true)
  if ok then (s.dropAns o, true) else (s, false)

/-- What a spilled flit reads back as: it waits, is lost, or its bytes. -/
inductive Back | wait | lost | image (n : Nat)
  deriving DecidableEq, Repr

def Back.and : Back → Back → Back
  | .wait, _ => .wait
  | _, .wait => .wait
  | .image a, .image b => .image (a + b)
  | _, _ => .lost

def State.spillIn (s : State) (p seq : Nat) : State × Back :=
  let base := s.ryRingAddr p seq / 64
  let o := Origin.rythar p 64 seq
  let (s, b) := (List.range 5).foldl (fun (acc : State × Back) i =>
    match acc.1.engRead o 0 (base + i) (ryClass p) 0 .none none with
    | (s, none) => (s, .wait)
    | (s, some (.ok l)) => (s, acc.2.and (if l.anyPoison then .lost else .image (l.data.toNat * 2 ^ (512 * i))))
    | (s, some (.no _)) => (s, acc.2.and .lost)) (s, .image 0)
  if b = .wait then (s, b) else (s.dropAns o, b)

/-- Room for one more flit on the die: the oldest there moves to the ring. False where it waits or must not spill. -/
def State.makeRoom (s : State) (p : Nat) : State × Bool :=
  let r := s.ryPort p
  let die := r.sent.filter fun x => !x.spilled
  if die.length < 512 then (s, true)
  else if !s.fB F.RYP_REPLAY_CTL_spill p then (s, false)
  else match die with
    | [] => (s, true)
    | x :: _ =>
      match s.spillOut p x.flit with
      | (s, false) => (s, false)
      | (s, true) =>
        let r := s.ryPort p
        (s.setRy p { r with sent := r.sent.map fun y =>
          if y.flit.seq = x.flit.seq then { y with spilled := true, flit := { y.flit with payload := 0 } } else y }, true)

/-- A spilled flit that cannot be read back whole goes out as a VOID. -/
def State.voidFlit (s : State) (p : Nat) (x : SentFlit) : State :=
  let f : Flit := { x.flit with kind := 2, op := 2, vc := 0, units := 0, head := some false, payload := 0 }
  let s := s.loseFlit p x
  let r := s.ryPort p
  let s := s.setRy p { r with sent := r.sent.map fun y => if y.flit.seq = x.flit.seq then ⟨f, false, none⟩ else y }
  (s.lostMsg x.msg).sendFlit p f

/-! ## FLIT_TRANSMIT -/

/-- The next flit of a replay goes out. -/
def State.replayNext (s : State) (p seq : Nat) : State :=
  let r := s.ryPort p
  match r.sent.findIdx? fun x => x.flit.seq == seq with
  | none => s.setRy p { r with replayFrom := none }
  | some i =>
    let next := (r.sent[i + 1]?).map fun x => x.flit.seq
    let step := fun (s : State) => s.setRy p { s.ryPort p with replayFrom := next }
    match r.sent[i]? with
    | none => s
    | some x =>
      if !x.spilled then (step s).sendFlit p x.flit
      else match s.spillIn p seq with
        | (s, .wait) => s
        | (s, .image n) => (step s).sendFlit p (flitOf n x.flit.head)
        | (s, .lost) => (step s).voidFlit p x

/-- The first packet, in the order egress handed them over, whose virtual channel has credit for its next flit; packets of
one virtual channel keep their order (R266). -/
def RyPort.nextOut (r : RyPort) : Option OutPkt :=
  (r.outq.foldl (fun (acc : List Nat × Option OutPkt) x =>
    if acc.2.isSome || acc.1.contains x.vc then acc
    else if min 4 x.left ≤ r.cred x.vc then (acc.1, some x)
    else (x.vc :: acc.1, none)) ([], none)).2

/-- Sends the next flit of a packet. -/
def State.sendUnits (s : State) (p : Nat) (x : OutPkt) : State :=
  let r := s.ryPort p
  let n := min 4 x.left
  let f := { r.ctrlFlit 0 0 with kind := 1, vc := x.vc, units := n, head := some (x.left == x.pkt.wire),
                                 payload := BitVec.ofNat 2048 (bits x.pkt.encode (512 * (x.pkt.wire - x.left)) (512 * n)) }
  let i := (r.outq.findIdx? fun y => y.vc == x.vc).getD 0
  let outq := r.outq.take i ++ (if x.left = n then [] else [{ x with left := x.left - n }]) ++ r.outq.drop (i + 1)
  (s.setRy p { r.subCred x.vc n with outq := outq }).sendSeq p f x.pkt.msgKey

-- Log entry 83: DEDUCED, unsafe.
/-- What follows a SPARE_GO, or a RESET_REQ, once its epoch is closed: the sender pauses and the lane's symbols move to the
spare, or the reset begins. -/
def State.ctrlDone (s : State) (p op arg : Nat) : State :=
  if op = 14 then s.setRy p { s.ryPort p with paused := true, spareTx := some arg }.traffic
  else s.ryReset p true

-- Log entry 83: DEDUCED, unsafe.
/-- The sender sends its next flit: of a replay; the MAC of an epoch that must be closed; a CTRL operation; a DATA flit; the
credit returns. With 2,047 flits unacknowledged it sends IDLE flits (R261). -/
def State.flitTransmit (s : State) (p : Nat) : State :=
  let r := s.ryPort p
  if !s.ryLive p || r.paused then s
  else match r.replayFrom, r.ctrl with
    | some q, _ => s.replayNext p q
    | none, ctrl =>
      let head := (ctrl.headD (0, 0))
      let closing := decide (14 ≤ head.1)
      if closing && r.txEpoch == 0 then (s.setRy p { r with ctrl := ctrl.drop 1 }).ctrlDone p head.1 head.2
      else if 2047 ≤ r.sent.length then s.sendAck p false
      else
        let owes := r.retReq + r.retRsp + r.retBulk + r.retMgt != 0
        let idle := ctrl.isEmpty && r.nextOut.isNone
        let mac := r.encrypted && 0 < r.txEpoch && (31 ≤ r.txEpoch || closing || (idle && !owes))
        if idle && !owes && !mac then s
        else match s.makeRoom p with
          | (s, false) => s
          | (s, true) =>
            let r := s.ryPort p
            if mac then s.sendMac p
            else match ctrl with
              | (op, arg) :: rest =>
                let s := (s.setRy p { r with ctrl := rest }).sendSeq p (r.ctrlFlit op arg) none
                if op ≠ 4 ∧ op ≠ 5 then s
                else if r.encrypted then
                  s.setRy p { s.ryPort p with ctrl := (op + 10, arg) :: (s.ryPort p).ctrl }
                else s.ctrlDone p (op + 10) arg
              | [] =>
                match r.nextOut with
                | some x => s.sendUnits p x
                | none => s.sendSeq p (r.ctrlFlit 0 0) none

def execFlitTransmit (p : Fin 12) (s : State) : Result := run s fun s => s.flitTransmit p.val

/-! ## Resets this end begins, and FAILED (R260, R269) -/

/-- The width and speed this end proposes, as RESET_REQ has them. -/
def State.proposal (s : State) (p : Nat) : Nat :=
  (if s.fB F.RYP_CFG_width_cap p then 1 else 0) + (if s.fB F.RYP_CFG_speed_cap p then 2 else 0)

/-- Whether a RESET_REQ of this end is on its way. -/
def RyPort.resetPending (r : RyPort) : Bool := r.ctrl.any fun c => c.1 == 5 || c.1 == 15

-- Log entry 84: DEDUCED, unsafe.
/-- A reset this end starts from ACTIVE is announced first with a RESET_REQ (R269). Where that cannot go out at once, for a
replay, a full window or want of room, it goes before anything else; a further reason for a reset does not wait for it. -/
def State.ryResetSelf (s : State) (p : Nat) : State :=
  let r := s.ryPort p
  if r.st = .active ∧ !r.resetPending then
    (s.setRy p { r with ctrl := (5, s.proposal p) :: r.ctrl }).flitTransmit p
  else s.ryReset p true

-- Log entry 84: DEDUCED, unsafe.
/-- Entering FAILED: unacknowledged flits are lost, the link-down source is raised (R260). Packets not begun wait to be
forwarded again. -/
def State.ryFail (s : State) (p : Nat) : State :=
  let r := (s.ryPort p).cut
  let begun := r.outq.filter fun x => x.left != x.pkt.wire
  let lost := (r.sent.map fun x => x.msg) ++ begun.map fun x => x.pkt.msgKey
  let again := (r.outq.filter fun x => x.left == x.pkt.wire).map fun x =>
    (⟨x.pkt, x.inPort, false, x.cls, s.pwr.refTime⟩ : FwdPkt)
  let back := (s.eg.items.filter fun i => i.port == p + 16).filterMap fun i =>
    match i.body with | .ry _ k q => some (⟨k, q, false, i.cls, s.pwr.refTime⟩ : FwdPkt) | _ => none
  let s := s.setRy p { r with st := .failed, since := s.pwr.refTime, attempts := 0, sent := [], outq := [], txEpoch := 0 }
  let s := ({ s with eg := { s.eg with items := s.eg.items.filter fun i => i.port != p + 16 },
                     fab := { s.fab with fwd := s.fab.fwd ++ again ++ back } } : State).egTidy
  ((r.sent.foldl (fun s x => s.loseFlit p x) s).lostAll lost).raise (896 + 16 * p) 0 0 none p

/-- A failed attempt: RESET, or FAILED after the retries (R259). -/
def State.ryAttempt (s : State) (p : Nat) : State :=
  let r := s.ryPort p
  let n := r.attempts + 1
  if max 1 (s.fN F.RYP_LINK_CTL_train_retries p) ≤ n then s.ryFail p
  else (s.setRy p { r with attempts := n }).ryReset p true

/-! ## Acknowledgements received (R261 - R263) -/

-- Log entry 83: DEDUCED, unsafe.
/-- A replay round starts from a flit; beyond the limit the port resets. -/
def State.round (s : State) (p seq : Nat) : State :=
  let r := s.ryPort p
  if max 1 (s.fN F.RYP_REPLAY_CTL_replay_limit p) ≤ r.rounds then s.ryResetSelf p
  else
    (s.setRy p { r with replayFrom := some seq, rounds := r.rounds + 1, ackAt := s.pwr.refTime }).bump
      F.RYP_ERR_CNT1_replays 1 p

-- Log entry 83: DEDUCED, unsafe.
/-- Delivers the acknowledgement a flit carries; a NAK starts a replay and ends a pause. -/
def State.ackIn (s : State) (p ack : Nat) (valid nak : Bool) : State :=
  let r := s.ryPort p
  let i := if ack = r.nextSeq then some r.sent.length else r.sent.findIdx? fun x => x.flit.seq == ack
  match (if valid then i else none) with
  | none => s
  | some i =>
    let gone := (r.sent.take i).map fun x => x.flit.seq
    let rep := match r.replayFrom with
      | some q => if gone.contains q then (r.sent[i]?).map fun x => x.flit.seq else some q
      | none => none
    let r := if i = 0 then r else { r with sent := r.sent.drop i, rounds := 0, ackAt := s.pwr.refTime, replayFrom := rep }
    let s := s.setRy p r
    if nak && !r.sent.isEmpty then
      let s := if r.paused then s.setRy p { r with paused := false }.traffic else s
      s.round p ack
    else s

/-! ## Payload received -/

/-- A whole packet arrives on a port (R274, R276, R278); one of a Dome whose discard is armed is discarded (R316). -/
def State.pktIn (s : State) (p vc : Nat) (k : Pkt) : State :=
  if s.sec.armed.contains (domeOf k.ctx) then (s.tdDiscard (domeOf k.ctx)).giveBack p vc k.wire
  else if 10 ≤ k.kind ∨ 64 < k.units then (s.bump F.RYP_FAB_CNT_unroutable).giveBack p vc k.wire
  else if k.dst = s.pwr.node then
    s.setRy p { s.ryPort p with ready := (s.ryPort p).ready ++ [⟨vc, k, .fresh, none, 0, 0⟩] }
  else { s with fab := { s.fab with fwd := s.fab.fwd ++
           [⟨k, some p, true, pktClass k.kind (k.kind == 4 && k.length == 64), s.pwr.refTime⟩] } }

/-- The units of a DATA flit join the packet of their virtual channel. -/
def State.units (s : State) (p : Nat) (f : Flit) : State :=
  let r := s.ryPort p
  let n := f.payload.toNat % 2 ^ (512 * f.units)
  let old := SMap.find r.heads f.vc
  let head := f.head.getD old.isNone
  let s := if head then (match old with | some a => s.giveBack p f.vc a.got | none => s) else s
  let a : Option Asm := if head then some ⟨bits n 24 7 + 1, f.units, n⟩
    else old.map fun a => { a with got := a.got + f.units, data := a.data + n * 2 ^ (512 * a.got) }
  let r := s.ryPort p
  match a with
  | none => s.giveBack p f.vc f.units
  | some a =>
    if a.got < a.need then s.setRy p { r with heads := SMap.put r.heads f.vc a }
    else
      let s := s.setRy p { r with heads := SMap.del r.heads f.vc }
      s.pktIn p f.vc (Pkt.decode (a.data % 2 ^ (512 * a.need)))

/-! ## Lane sparing (R268) -/

-- Log entry 85: DEDUCED, unsafe.
/-- A SPARE_REQ: the sender sends SPARE_GO before anything else and pauses, unless a reset is pending. -/
def State.spareReq (s : State) (p lane : Nat) : State :=
  let r := s.ryPort p
  if r.resetPending then s else (s.setRy p { r with ctrl := (4, lane) :: r.ctrl }).flitTransmit p

-- Log entry 85: DEDUCED, unsafe.
/-- A SPARE_GO: the failing lane's symbols move to the spare. -/
def State.spareGo (s : State) (p : Nat) : State :=
  let r := s.ryPort p
  if r.sparing.isSome then s.setRy p { r with moving := true, since := s.pwr.refTime }.traffic else s

/-! ## Flits accepted (R261, R265, R267) -/

-- Log entry 83: DEDUCED, unsafe.
/-- An accepted flit, of a verified epoch where there are epochs: its credit returns are applied, its units delivered, its
operation acts. -/
def State.release (s : State) (p : Nat) (f : Flit) : State :=
  let r := s.ryPort p
  let r := (((r.addCred 0 f.crReq).addCred 1 f.crRsp).addCred 2 f.crBulk).addCred 3 f.crMgt
  let s := s.setRy p r
  if f.kind = 1 then s.units p f
  else if f.op = 3 then s.spareReq p f.arg
  else if f.op = 4 then s.spareGo p
  else if f.op = 5 then s.ryReset p false
  else s

-- Log entry 82: PRESUMED, unsafe.
/-- An epoch's tag verifies: its flits are decrypted and released, and a transmitter on the other generation follows (R314). -/
def State.epochGood (s : State) (p gen : Nat) : State :=
  let r := s.ryPort p
  let key := SMap.findD r.keys gen 0
  let sw := r.switchReq || (gen != r.txGen && (SMap.find r.keys gen).isSome)
  let fs := (r.inbuf.foldl (fun (acc : List Flit × Nat) f =>
    if f.kind = 1 then (acc.1 ++ [{ f with payload := gcmPayload key r.rxIv acc.2 f.payload }], acc.2 + 1)
    else (acc.1 ++ [f], acc.2)) ([], 0)).1
  fs.foldl (fun s f => s.release p f) (s.setRy p { r with inbuf := [], epochLen := 0, tagFails := 0, switchReq := sw })

-- Log entry 82: PRESUMED, unsafe.
/-- An epoch's tag fails: the epoch is discarded and NAKed; a second failure resets the port (R267). -/
def State.epochBad (s : State) (p : Nat) : State :=
  let r := s.ryPort p
  let n := r.tagFails + 1
  let s := s.setRy p { r with exp := r.epochStart, epochLen := 0, inbuf := [], tagFails := n, nakAt := none }
  if 2 ≤ n then (s.ryResetSelf p).raise (896 + 16 * p + 3) 0 0 none p else s.nakE p

-- Log entry 82: PRESUMED, unsafe.
/-- Whether the tag of the epoch in the input buffer verifies, under the generation its MAC flit names. -/
def RyPort.tagOk (r : RyPort) (f : Flit) : Bool :=
  match SMap.find r.keys f.keyGen with
  | some key => f.payload.extractLsb' 0 128 == epochTag key r.rxIv r.inbuf
  | none => false

/-- An accepted flit: released at once, or kept until its epoch is verified, which a MAC flit closes. -/
def State.keepFlit (s : State) (p : Nat) (f : Flit) : State :=
  if !(s.ryPort p).encrypted then s.release p f
  else
    let s := if (s.ryPort p).epochLen = 0 ∧ (s.ryPort p).tagFails = 0 then
        (let (n, s) := s.draw; s.setRy p { s.ryPort p with rxIv := (Config.random n).setWidth 96 })
      else s
    let r := s.ryPort p
    let s := s.setRy p { r with inbuf := r.inbuf ++ [f], epochStart := if r.epochLen = 0 then f.seq else r.epochStart,
                                epochLen := r.epochLen + 1 }
    if f.kind = 2 ∧ f.op = 1 then (if (s.ryPort p).tagOk f then s.epochGood p f.keyGen else s.epochBad p) else s

/-- What becomes of a good sequenced flit (R261). -/
def State.recvSeq (s : State) (p : Nat) (f : Flit) : State :=
  if !s.ryLive p then s
  else
    let s := s.ackIn p f.ackSeq f.ackValid f.nak
    let r := s.ryPort p
    if !s.ryLive p then s
    else
      let back := (r.exp + 4096 - f.seq) % 4096
      if back = 0 then
        let s := s.setRy p { r with exp := (r.exp + 1) % 4096, nakAt := none, nakDue := false, unacked := r.unacked + 1 }
        let s := s.keepFlit p f
        let due := decide (max 1 (s.fN F.RYP_ACK_CTL_ack_count p) ≤ (s.ryPort p).unacked)
        if due && s.ryLive p then s.sendAck p false else s
      else if back ≤ 2047 then
        (s.setRy p { r with ackDue := true }).bump F.RYP_ERR_CNT1_dup_discard 1 p
      else s.nakE p

/-- An IDLE flit delivers its acknowledgement. -/
def State.recvIdle (s : State) (p ack : Nat) (valid nak : Bool) : State := if s.ryLive p then s.ackIn p ack valid nak else s

/-- A bad flit is discarded, counted and NAKed. -/
def State.recvBad (s : State) (p : Nat) : State :=
  if s.ryLive p then (s.bump F.RYP_ERR_CNT0_bad_flits 1 p).nakE p else s

/-! ## Flits as they come from the lanes (R257, R258) -/

/-- The 272 bytes of a flit arrive; `bad` where a codeword that carries bits of it is uncorrectable. -/
def State.recvImage (s : State) (p n : Nat) (bad : Bool) : State :=
  if bad || flitBad n then s.recvBad p
  else
    let f := flitOf n none
    if f.kind = 0 then s.recvIdle p f.ackSeq f.ackValid f.nak else s.recvSeq p f

/-- Symbols corrected on lanes are counted, for 1 ms (R268). -/
def State.countSymbols (s : State) (p : Nat) (at_ : List Nat) : State :=
  let r := s.ryPort p
  let lanes := withSpare r.lanes (if s.fB F.RYP_LINK_STATUS_spare_used p then some (s.fN F.RYP_LINK_STATUS_spared_lane p) else none)
  let now := s.pwr.refTime
  let old := r.corrs.filter fun c => decide (now < c.1 + us 1000)
  s.setRy p { r with corrs := old ++ (lanes.zipIdx.map fun l =>
    (now, l.1, (at_.filter fun k => k % lanes.length == l.2).length)).filter fun c => c.2.2 != 0 }

-- Log entry 108: PRESUMED, unsafe.
/-- A codeword arrives: decoded, its message bits joined to those of a flit that is not whole, and the flits that are whole
now received in order. -/
def State.recvCodeword (s : State) (p : Nat) (w : BitVec 5440) : State :=
  if !s.ryLive p then s
  else
    let ws := symbols 544 w.toNat
    let d := rsDecode ws
    let s := s.countSymbols p ((d.map fun x => x.2).getD [])
    let r := s.ryPort p
    let n := r.rxLine.1 + 5140
    let v := r.rxLine.2.1 + ofSymbols ((d.map fun x => x.1).getD (ws.take 514)) * 2 ^ r.rxLine.1
    let whole := n / 2176
    let s := s.setRy p { r with rxLine := (n - 2176 * whole, v / 2 ^ (2176 * whole), d.isNone) }
    (List.range whole).foldl (fun s i => s.recvImage p (bits v (2176 * i) 2176) (d.isNone || (i == 0 && r.rxLine.2.2))) s

/-! ## The rows -/

/-- The flit a header spells. -/
def FlitHdr.flit (h : FlitHdr) (kind op arg : Nat) : Flit :=
  ⟨h.seq.toNat, h.ackSeq.toNat, h.ackValid, h.nak, 0, 0, kind, h.keyGen.val, h.crReq.toNat, h.crRsp.toNat,
    h.crBulk.toNat, h.crMgt.toNat, op, arg, some false, 0⟩

/-- DATA_FLIT: a good DATA flit. -/
def execDataFlit (p : Fin 12) (h : FlitHdr) (d : FlitData) (s : State) : Result := run s fun s =>
  s.recvSeq p.val { h.flit 1 0 0 with vc := d.vc.val, units := d.units1.val + 1, head := some d.head, payload := d.payload }

/-- IDLE_FLIT: its acknowledgement. -/
def execIdleFlit (p : Fin 12) (ack : BitVec 12) (valid nak : Bool) (s : State) : Result :=
  run s fun s => s.recvIdle p.val ack.toNat valid nak

-- Log entry 107: DESIGN CHOICE, safe.
/-- BAD_FLIT: what the lanes bring, checked; a flit that turns out good is received as such. -/
def execBadFlit (w : PortWire) (s : State) : Result := run s fun s =>
  match w.wire with
  | .codeword c => s.recvCodeword w.port.val c
  | .flit n => if s.ryLive w.port.val then s.recvImage w.port.val n.toNat false else s

/-- CTRL_CREDIT: a CTRL flit with op 0. -/
def execCtrlCredit (p : Fin 12) (h : FlitHdr) (s : State) : Result := run s fun s => s.recvSeq p.val (h.flit 2 0 0)

/-- MAC: the CTRL flit that closes an epoch, with its tag. -/
def execMac (p : Fin 12) (h : FlitHdr) (tag : BitVec 128) (s : State) : Result := run s fun s =>
  s.recvSeq p.val { h.flit 2 1 0 with payload := tag.setWidth 2048 }

/-- VOID: accepted, and nothing allocated. -/
def execVoid (p : Fin 12) (h : FlitHdr) (s : State) : Result := run s fun s => s.recvSeq p.val (h.flit 2 2 0)

/-- SPARE_REQ. -/
def execSpareReq (p : Fin 12) (h : FlitHdr) (lane : Fin 9) (s : State) : Result :=
  run s fun s => s.recvSeq p.val (h.flit 2 3 lane.val)

/-- SPARE_GO. -/
def execSpareGo (p : Fin 12) (h : FlitHdr) (s : State) : Result := run s fun s => s.recvSeq p.val (h.flit 2 4 0)

-- Log entry 84: DEDUCED, unsafe.
/-- RESET_REQ: the partner's request, with its proposed width and speed. One that crosses a reset of this end is heard, for
the choice of the leader (R271). -/
def execResetReq (p : Fin 12) (h : FlitHdr) (x4 slow : Bool) (s : State) : Result := run s fun s =>
  let r := s.ryPort p.val
  if r.st = .reset then s.setRy p.val { r with heardAt := some s.pwr.refTime }
  else s.recvSeq p.val (h.flit 2 5 ((if x4 then 1 else 0) + (if slow then 2 else 0)))

-- Log entry 85: DEDUCED, unsafe.
/-- The symbols corrected on a lane in the last 1 ms. -/
def State.corrected (s : State) (p lane : Nat) : Nat :=
  (((s.ryPort p).corrs.filter fun c => c.2.1 == lane && decide (s.pwr.refTime < c.1 + us 1000)).map fun c => c.2.2).sum

-- Log entry 85: DEDUCED, unsafe.
/-- LANE_FAILING: a lane of the receiving direction has reached the threshold, or loses lock. The spare while it is not in
use, and a lane it has replaced, carry no traffic: the spare only loses its lock. -/
def State.laneFailing (s : State) (p lane : Nat) (lock : Bool) : State :=
  let r := s.ryPort p
  let thr := s.fN F.RYP_SPARE_CTL_threshold p
  if !s.ryLive p || (!lock && (thr == 0 || decide (s.corrected p lane < thr))) || r.sparing == some lane then s
  else if s.fB F.RYP_LINK_STATUS_spare_used p && s.fN F.RYP_LINK_STATUS_spared_lane p == lane then s
  else if lane = 8 ∧ s.fB F.RYP_LINK_STATUS_spare_used p = false then
    (if lock then s.setRy p { r with spareLocked := false } else s)
  else if s.fB F.RYP_LINK_STATUS_spare_used p || !r.spareLocked || r.sparing.isSome then s.ryResetSelf p
  else s.setRy p { r with sparing := some lane, ctrl := r.ctrl ++ [(3, lane)] }

-- Log entry 107: DESIGN CHOICE, safe.
def execLaneFailing (p : Fin 12) (lane : Fin 9) (lock : Bool) (s : State) : Result :=
  run s fun s => s.laneFailing p.val lane.val lock

-- Log entry 85: DEDUCED, unsafe.
/-- SPARE_DONE of the receiving direction: it has lock on the spare and NAKs the first flit it did not receive whole. -/
def State.spareRx (s : State) (p : Nat) : State :=
  let r := s.ryPort p
  match r.sparing, r.moving with
  | some lane, true =>
    let s := s.setRy p { r with sparing := none, moving := false, nakAt := none }.traffic
    let s := (s.fFlag F.RYP_LINK_STATUS_spare_used true p).fSet F.RYP_LINK_STATUS_spared_lane lane p
    (s.bump F.RYP_ERR_CNT2_spares 1 p).nakE p
  | _, _ => s

-- Log entry 85: DEDUCED, unsafe.
/-- SPARE_DONE of the sending direction: the paused sender resumes with the replay. -/
def State.spareTxDone (s : State) (p : Nat) : State :=
  let r := s.ryPort p
  let first := r.sent.head?.map fun x => x.flit.seq
  if r.paused then s.setRy p { r with paused := false, replayFrom := first }.traffic else s

def execSpareDone (e : LinkEnd) (s : State) : Result :=
  run s fun s => if e.rx then s.spareRx e.port.val else s.spareTxDone e.port.val

/-! ## Timers -/

/-- ACK_TIMER: the acknowledgement of what was accepted, or seen again, goes out. -/
def execAckTimer (p : Fin 12) (s : State) : Result := run s fun s =>
  let r := s.ryPort p.val
  if s.ryLive p.val && (r.unacked != 0 || r.ackDue) then s.sendAck p.val false else s

/-- ACK_REPEAT: the latest acknowledgement is repeated, and another NAK for E may follow. -/
def execAckRepeat (p : Fin 12) (s : State) : Result := run s fun s =>
  let r := s.ryPort p.val
  if s.ryLive p.val && r.unacked == 0 then (s.setRy p.val { r with nakAt := none }).sendAck p.val false else s

/-- REPLAY_TIMEOUT: no acknowledgement has advanced; a replay from the oldest flit. -/
def execReplayTimeout (p : Fin 12) (s : State) : Result := run s fun s =>
  match (s.ryPort p.val).sent with
  | x :: _ => if s.ryLive p.val then s.round p.val x.flit.seq else s
  | [] => s

end Sys2Proof.Machine
end

