-- ==== Sys2Proof/Machine/RyTrain.lean ====
section
/-!
DEFINITION. Rythar link training and resets (R259, R260, R269 - R271, R273, R292).
-/
namespace Sys2Proof.Machine

/-! ## Registers -/

-- Log entry 84: DEDUCED, unsafe.
/-- The port goes DOWN, or stays FAILED: its replay buffer and receiver state are kept, operations of a lane replacement or
a reset in progress end (R259, R260). -/
def State.ryDown (s : State) (p : Nat) : State :=
  let r := s.ryPort p
  if r.st = .failed then s
  else s.setRy p { r with st := .down, since := s.pwr.refTime, ctrl := [], paused := false, sparing := none, moving := false,
                          spareTx := none, txLine := (0, 0), rxLine := (0, 0, false) }

/-- A write of RYP_CFG: enable = 0 takes the port DOWN; the caps act at the next reset. -/
def State.rypCfgWrite (s : State) (p : Nat) (v : Word) : State :=
  let s := s.wrCodes R.RYP_CFG v p
  if F.RYP_CFG_enable.on v then s.ryKick p else s.ryDown p

/-- RYP_CFG_WRITE. -/
def execRypCfgWrite (p : Fin 12) (v : Word) (s : State) : Result := run s fun s => s.rypCfgWrite p.val v

/-- A write of RYP_LINK_CTL.reset: a full reset, from a state in which the link is in use. -/
def State.ryResetWrite (s : State) (p : Nat) : State :=
  match (s.ryPort p).st with
  | .down => s
  | .failed => s
  | .reset => s
  | _ => s.ryResetSelf p

/-- A write of RYP_LINK_CTL. -/
def State.rypLinkCtlWrite (s : State) (p : Nat) (v : Word) : State :=
  let s := s.wrCodes R.RYP_LINK_CTL v p
  if F.RYP_LINK_CTL_disable.on v then s.ryDown p
  else
    let s := s.ryKick p
    if F.RYP_LINK_CTL_reset.on v then s.ryResetWrite p else s

/-- RYP_DISABLE: a write of disable, 1 or 0. -/
def execRypDisable (p : Fin 12) (on : Bool) (s : State) : Result := run s fun s =>
  s.rypLinkCtlWrite p.val ((s.rd R.RYP_LINK_CTL p.val &&& ~~~2#32) ||| (if on then 2#32 else 0#32))

/-- LINK_RESET: a write of 1 to reset. -/
def execLinkReset (p : Fin 12) (s : State) : Result := run s fun s =>
  s.rypLinkCtlWrite p.val ((s.rd R.RYP_LINK_CTL p.val) ||| 1#32)

/-! ## Training -/

/-- PARTNER_DETECTED: the partner is seen on some lanes; four or more move the port to TRAIN. -/
def execPartnerDetected (p : Fin 12) (lanes : Fin 10) (s : State) : Result := run s fun s =>
  let r := s.ryPort p.val
  if r.st == .detect && 4 ≤ lanes.val then
    s.setRy p.val { r with st := .train, since := s.pwr.refTime,
                           heardAt := if r.heardAt.isSome then r.heardAt else some s.pwr.refTime }
  else s

/-- EQUALISATION_DONE. -/
def execEqualisationDone (p : Fin 12) (s : State) : Result := run s fun s =>
  if (s.ryPort p.val).st == .train then s.ryGo p.val .align else s

/-- The units of a port's input buffer that hold accepted payload of a virtual channel. -/
def State.heldUnits (s : State) (p v : Nat) : Nat :=
  let r := s.ryPort p
  (r.inbuf.map fun f => if f.kind = 1 ∧ f.vc = v then f.units else 0).sum +
    ((SMap.find r.heads v).map fun a => a.got).getD 0 +
    (r.ready.map fun x => if x.vc = v then x.pkt.wire else 0).sum +
    (s.fab.fwd.map fun x => if x.held ∧ x.inPort = some p ∧ vcOf x.pkt.kind = v then x.pkt.wire else 0).sum

/-- What this end announces in PARAM (R270, R271): its node ID, the width and speed it proposes, the first sequence number it
will resend, its E, and the free units of its input buffer. -/
def State.announce (s : State) (p : Nat) : State :=
  let r := s.ryPort p
  let first := match r.sent with | x :: _ => x.flit.seq | [] => r.nextSeq
  let r' := { r with retReq := 0, retRsp := 0, retBulk := 0, retMgt := 0 }
  (s.setRy p r').emit (.announce p s.pwr.node (r.capX4 || r.x4) r.capSlow first r.exp ((List.range 4).map fun v => s.rxUnits p v - s.heldUnits p v))

/-- FEC_LOCK: deskew and lock on some lanes. With eight or more the link runs at x8, a ninth being the spare; with four or
more at x4; failed lanes are excluded (R256, R259). -/
def State.fecLock (s : State) (p : Nat) (lock : BitVec 9) : State :=
  let r := s.ryPort p
  let good := (List.range 9).filter fun k => lock.getLsbD k
  if r.st ≠ .align ∨ good.length < 4 then s
  else
    let x4 := decide (good.length < 8) || r.capX4
    let s := s.setRy p { r with st := .param, since := s.pwr.refTime, x4 := x4, lanes := good.take (if x4 then 4 else 8),
                                spareTx := none, spareLocked := good.length == 9, corrs := [],
                                txLine := (0, 0), rxLine := (0, 0, false) }
    (s.fFlag F.RYP_LINK_STATUS_spare_used false p).announce p

/-- FEC_LOCK: lock on lanes 0 to 7 and on the spare. -/
def execFecLock (p : Fin 12) (lanes : BitVec 8) (spare : Bool) (s : State) : Result :=
  run s fun s => s.fecLock p.val (BitVec.ofBool spare ++ lanes)

/-- Whether a partner's node ID fits the ring of a port (R273): it shares the coordinates of the other dimensions and
differs in the ring's. -/
def wiringOk (self peer p : Nat) : Bool :=
  let d := p / 4
  (List.range 3).all fun k => if k = d then bits self (2 * k) 2 != bits peer (2 * k) 2 else bits self (2 * k) 2 == bits peer (2 * k) 2

/-- The wiring check as the port leaves PARAM. -/
def State.wiringCheck (s : State) (p peer : Nat) : State :=
  if wiringOk s.pwr.node peer p then s.fFlag F.RYP_ROUTE_STATUS_wiring_error false p
  else (s.fFlag F.RYP_ROUTE_STATUS_wiring_error true p).raise (896 + 16 * p + 1) 0 0 none p

/-- Whether this end leads the training (R271): an end that only followed the partner's request does not; where both began
within 10 microseconds the lower node ID does, else the end that began first. The second part says that it was settled by
node ID. -/
def State.leads (s : State) (p peer : Nat) : Bool × Bool :=
  let r := s.ryPort p
  match r.began, r.heardAt with
  | false, _ => (false, false)
  | true, none => (true, false)
  | true, some h =>
    if r.beganAt ≤ h + us 10 ∧ h ≤ r.beganAt + us 10 then (decide (s.pwr.node < peer), true)
    else (decide (r.beganAt < h), false)

-- Log entry 83: DEDUCED, unsafe.
/-- The credits of one virtual channel: the partner's free units less what will be resent on it. -/
def RyPort.credAfter (r : RyPort) (v free : Nat) : Nat :=
  free - (r.sent.map fun x => if x.flit.kind = 1 ∧ x.flit.vc = v then x.flit.units else 0).sum

def RyPort.setCreds (r : RyPort) (a : Announce) : RyPort :=
  { r with credReq := r.credAfter 0 a.freeReq.toNat, credRsp := r.credAfter 1 a.freeRsp.toNat,
           credBulk := r.credAfter 2 a.freeBulk.toNat, credMgt := r.credAfter 3 a.freeMgt.toNat }

-- Log entry 83: DEDUCED, unsafe.
/-- R270: flits before the partner's E are discarded, and an E behind what the partner will still resend moves up. -/
def RyPort.meet (r : RyPort) (a : Announce) : RyPort :=
  let i := if a.exp.toNat = r.nextSeq then r.sent.length
    else ((r.sent.findIdx? fun x => x.flit.seq == a.exp.toNat).getD 0)
  let ahead := (a.first.toNat + 4096 - r.exp) % 4096
  { r with sent := r.sent.drop i, exp := if 0 < ahead ∧ ahead ≤ 2047 then a.first.toNat else r.exp }

/-- PARAM_DONE: the exchange is done. -/
def State.paramDone (s : State) (p : Nat) (a : Announce) : State :=
  let r := s.ryPort p
  let n := a.node.val
  if r.st != .param then s
  else if n = s.pwr.node then (s.fFlag F.RYP_LINK_STATUS_id_clash true p).ryFail p
  else if s.fB F.RYP_CFG_enc_required p && !r.encrypted then s
  else
    let other := s.fB F.RYP_LINK_STATUS_peer_valid p && s.fN F.RYP_LINK_STATUS_peer_node p != n
    let s := if other then (s.lostAll (r.sent.map fun x => x.msg)).bump F.RYP_ERR_CNT2_void_sent r.sent.length p else s
    let r := if other then { r with sent := [], nextSeq := 0, exp := a.first.toNat, heads := [], txEpoch := 0, epochLen := 0, inbuf := [] } else r.meet a
    let r := r.setCreds a
    let lead := s.leads p n
    let r := { r with lanes := if a.x4 then r.lanes.take 4 else r.lanes }
    let r := { r with st := .active, since := s.pwr.refTime, attempts := 0, heardAt := none, ackAt := s.pwr.refTime,
                      replayFrom := r.sent.head?.map fun x => x.flit.seq }
    let s := s.setRy p r
    let s := (s.fSet F.RYP_LINK_STATUS_peer_node n p).fFlag F.RYP_LINK_STATUS_peer_valid true p
    let s := s.fFlag F.RYP_LINK_STATUS_leader lead.1 p
    let s := if lead.2 && !lead.1 then s.fFlag F.RYP_LINK_STATUS_req_dropped true p else s
    let s := s.fFlag F.RYP_LINK_STATUS_width (r.x4 || a.x4) p
    let s := s.fFlag F.RYP_LINK_STATUS_speed (!(a.slow || r.capSlow)) p
    s.wiringCheck p n

def execParamDone (p : Fin 12) (a : Announce) (s : State) : Result := run s fun s => s.paramDone p.val a

/-- TRAIN_TIMEOUT: a training attempt runs longer than train_timeout. -/
def execTrainTimeout (p : Fin 12) (s : State) : Result := run s fun s =>
  match (s.ryPort p.val).st with
  | .detect => s.ryAttempt p.val
  | .train => s.ryAttempt p.val
  | .align => s.ryAttempt p.val
  | .param => s.ryAttempt p.val
  | _ => s

/-- RESET_IDLE_END: 1 microsecond of idle ends RESET. -/
def execResetIdleEnd (p : Fin 12) (s : State) : Result := run s fun s =>
  if (s.ryPort p.val).st == .reset then s.ryGo p.val .detect else s

/-- FAILED_RETRY: 100 ms after FAILED, unless disable holds it (R259). -/
def State.failedRetry (s : State) (p : Nat) : State :=
  if (s.ryPort p).st == .failed && !s.fB F.RYP_LINK_CTL_disable p then s.ryBegin p .detect true else s

def execFailedRetry (p : Fin 12) (s : State) : Result := run s fun s => s.failedRetry p.val

end Sys2Proof.Machine
end

