-- ==== Sys2Proof/Machine/Fabric.lean ====
section
/-!
DEFINITION. The Rythar fabric above its links: inbound packets (R278 - R285, R301, R330), forwarding (R274 - R276),
messages and window requests that end (R279, R280, R284), windows and the handle table (R281, R284, R285).
-/
namespace Sys2Proof.Machine

/-! ## Packets that wait at this node: ports 0 to 11, and 12 for packets this node sent to itself -/

-- Log entry 86: DEDUCED, unsafe.
def State.waitingPkts (s : State) (p : Nat) : List InPkt := if p = 12 then s.fab.here else (s.ryPort p).ready

def State.setWaiting (s : State) (p : Nat) (l : List InPkt) : State :=
  if p = 12 then { s with fab := { s.fab with here := l } } else s.setRy p { s.ryPort p with ready := l }

/-- The position of the oldest packet of a kind that is not held by a policer. -/
def State.pktAt (s : State) (p kind : Nat) : Option Nat :=
  (s.waitingPkts p).findIdx? fun x => x.pkt.kind == kind && x.gate != .held

/-- A packet is served: it leaves the input buffer. -/
def State.pktGone (s : State) (p i : Nat) : State :=
  let l := s.waitingPkts p
  match l[i]? with
  | some x =>
    let s := s.setWaiting p (l.eraseIdx i)
    if p = 12 then s else s.giveBack p x.vc x.pkt.wire
  | none => s

def State.putPkt (s : State) (p i : Nat) (x : InPkt) : State := s.setWaiting p ((s.waitingPkts p).set i x)

/-- The class of an inbound packet's accesses: its port's, or the movers' for one this node sent. -/
def inClass (p : Nat) : Nat := if p = 12 then 28 else 16 + p

-- Log entry 86: DEDUCED, unsafe.
/-- Ingress policing of an inbound request (R301). -/
def State.policePkt (s : State) (p i : Nat) (x : InPkt) (wr : Bool) : State × InPkt :=
  if p = 12 || x.gate != .fresh then (s, x)
  else
    let k := (p + 16) * 4096 + domeOf x.pkt.ctx
    let b := s.bucket .pol k
    let pay := fun (s : State) => s.setBucket .pol k ((s.bucket .pol k).debit (s.polCost (p + 16) x.pkt.lineCount))
    let mine := (s.ryPort p).ready.filter fun y => y.gate == .held && domeOf y.pkt.ctx == domeOf x.pkt.ctx
    if b.passable then
      let x := { x with gate := .passed }
      ((pay s).putPkt p i x, x)
    else if !b.action && !wr && mine.length < max 1 b.holdMax then
      let x := { x with gate := .held }
      ((s.bump F.SHAPER_POL_CNT_held).putPkt p i x, x)
    else
      let x := { x with gate := .demoted }
      (((pay s).bump F.SHAPER_POL_CNT_demoted).putPkt p i x, x)

/-- Answers a request with an ERR, and the request is served. -/
def State.pktErr (s : State) (p i : Nat) (x : InPkt) (st : Nat) : State :=
  (s.sendErr x.pkt st (x.gate == .demoted)).pktGone p i

/-! ## Serving handles and windows at the owning node -/

/-- A packet's check: the first DPA it reaches, the status that answers it, that it is discarded under R316, or that it
waits for the handle table's line. -/
inductive Chk | dpa (a : Nat) | err (st : Nat) | discard (d : Nat) | wait
  deriving DecidableEq, Repr

/-- An inbound packet as a requester of the home. -/
def pktOrigin (p : Nat) (k : Pkt) : Origin := .rythar p k.src k.msg

-- Log entry 86: DEDUCED, unsafe.
/-- The checks of an H_RD or H_WR (R282), and step 1 and step 3 of R316. The entry is read through the home. -/
def State.handleCheck (s : State) (p : Nat) (k : Pkt) (wr : Bool) : State × Chk :=
  let h := k.target.toNat
  if !s.fB F.RYP_HANDLE_CTL_enable || h % 65536 = 0 then (s, .err stDenied)
  else match s.handleEntry (pktOrigin p k) (h % 65536) with
    | (s, .wait) => (s, .wait)
    | (s, .ok e) =>
      let d := heDome e
      let dome := domeOf k.ctx
      if !heValid e || heGen e != h / 65536 then (s, .err stDenied)
      else if s.sec.armed.contains d then (s, .discard d)
      else if s.domeSt d = .teardown then (s, .err stTeardown)
      else if !(dome == d || (bit e 3 && s.member (bits e 16 8) dome)) then (s, .err stDenied)
      else if !bit e (if wr then 2 else 1) then (s, .err stDenied)
      else if bits e 96 32 * 65536 < k.offset + k.length then (s, .err stLength)
      else (s, .dpa (bits e 64 29 * 65536 + k.offset))
    | (s, .fail _) => (s, .err stDenied)

/-- The checks of a W_RD or W_WR (R285). -/
def State.winCheck (s : State) (_ : Nat) (k : Pkt) (wr : Bool) : State × Chk :=
  let w := k.target.toNat % 64
  let d := s.fN F.RYP_IWIN_CTL_dome 0 w
  if !s.fB F.RYP_IWIN_CTL_enable 0 w then (s, .err stDenied)
  else if s.sec.armed.contains d then (s, .discard d)
  else if s.domeSt d = .teardown then (s, .err stTeardown)
  else if (s.fN F.RYP_IWIN_CTL_src_node 0 w == k.src || s.fB F.RYP_IWIN_CTL_any_src 0 w) && domeOf k.ctx == d &&
      s.fB (if wr then F.RYP_IWIN_CTL_w else F.RYP_IWIN_CTL_r) 0 w &&
      decide (k.offset + 64 ≤ s.fN F.RYP_IWIN_SIZE_cells 0 w * 65536) then
    (s, .dpa (s.fN F.RYP_IWIN_BASE_base_cell 0 w * 65536 + k.offset))
  else (s, .err stDenied)

/-- The status of a refused access of an inbound packet. -/
def inStatus (r : Refuse) : Nat := match r with | .unbacked => stDenied | _ => r.status

/-- What serving a request comes to: bytes and poison marks per byte, a wait, or a refusal. -/
inductive InRd | ok (v m : Nat) | wait | fail (st : Nat)
  deriving DecidableEq, Repr

/-- The read of a line for an inbound packet: a demoted packet's has target and floor 0 (R302). -/
def inTxRd (p : Nat) (x : InPkt) (line : Nat) : Tx :=
  { newTx .rdCur (pktOrigin p x.pkt) x.pkt.ctx line (inClass p) with
    heat := .remote, fill := some (domeOf x.pkt.ctx), demoted := x.gate == .demoted }

def inTxWr (p : Nat) (x : InPkt) (line : Nat) (l : Line) (be : BitVec 64) : Tx :=
  { newTx .plainWr (pktOrigin p x.pkt) x.pkt.ctx line (inClass p) with
    heat := .remote, fill := some (domeOf x.pkt.ctx), demoted := x.gate == .demoted, wdata := l, be := be, wk := .remote }

/-- Reads bytes of the node's memory for a packet, line by line; poison is carried and not consumed. -/
def State.inRead (p : Nat) (x : InPkt) : Nat → State → Nat → Nat → State × InRd
  | 0, s, _, _ => (s, .ok 0 0)
  | fuel + 1, s, dpa, n =>
    if n = 0 then (s, .ok 0 0)
    else
      let b := dpa % 64
      let j := min n (64 - b)
      match s.engAccess (inTxRd p x (dpa / 64)) with
      | (s, none) => (s, .wait)
      | (s, some (.no r)) => (s, .fail (inStatus r))
      | (s, some (.ok l)) =>
        match State.inRead p x fuel s (dpa + j) (n - j) with
        | (s, .ok v m) =>
          (s, .ok (bits l.data.toNat (8 * b) (8 * j) + v * 2 ^ (8 * j)) (bits (lineMarks l).toNat b j + m * 2 ^ j))
        | r => r

/-- The poison field of data from its byte marks (R277). -/
def pktPoison (m : Nat) : BitVec 256 :=
  (List.range 256).foldl (fun (a : BitVec 256) b => if bits m (16 * b) 16 ≠ 0 then a ||| (1#256 <<< b) else a) 0

/-- The RD_DATA that answers `len` bytes of a request from offset `off` on. -/
def State.sendData (s : State) (x : InPkt) (off len v m : Nat) (win : Bool) : State :=
  let k := x.pkt
  let p : Pkt := { Pkt.bare k.src s.pwr.node kRdData k.ctx k.msg off len 0 0 with
    units := (len + 63) / 64, poison := pktPoison m, data := BitVec.ofNat 32768 v }
  s.originate p (if x.gate = .demoted then 7 else pktClass kRdData win)

/-- One RD_DATA of an H_RD, split at 4 KiB boundaries of the offset; false while it waits. -/
def State.rdPiece (s : State) (p i : Nat) (x : InPkt) (dpa : Nat) : State × Bool :=
  let k := x.pkt
  let off := k.offset + x.done
  let len := min (k.length - x.done) (4096 - off % 4096)
  match State.inRead p x 66 s (dpa + x.done) len with
  | (s, .wait) => (s, false)
  | (s, .fail st) =>
    let s := (s.dropAns (pktOrigin p k)).originate (Pkt.bare k.src s.pwr.node kErr k.ctx k.msg off len 0 st) (if x.gate = .demoted then 7 else 1)
    (s.putPkt p i { x with done := x.done + len }, true)
  | (s, .ok v m) =>
    (((s.dropAns (pktOrigin p k)).sendData x off len v m false).putPkt p i { x with done := x.done + len }, true)

/-- An H_RD, until all of it is answered or it waits. -/
def State.rdLoop (p i dpa : Nat) : Nat → State → State
  | 0, s => s
  | fuel + 1, s =>
    match (s.waitingPkts p)[i]? with
    | none => s
    | some x =>
      if x.pkt.length ≤ x.done then s.pktGone p i
      else match s.rdPiece p i x dpa with
        | (s, true) => State.rdLoop p i dpa fuel s
        | (s, false) => s

-- Log entry 86: DEDUCED, unsafe.
/-- Takes up the oldest waiting request of a kind: refused in the device fault state (R330), policed, checked, served. One
that has passed its check is served whatever changes after it (R281, R285). -/
def State.inbound (s : State) (p kind : Nat) (wr : Bool) (chk : State → Nat → Pkt → Bool → State × Chk)
    (serve : State → Nat → InPkt → Nat → State) : State :=
  match s.pktAt p kind with
  | none => s
  | some i =>
    match (s.waitingPkts p)[i]? with
    | none => s
    | some x =>
      match x.base with
      | some a => serve s i x a
      | none =>
        if s.bel.active then s.pktErr p i x stFault
        else
          let (s, x) := s.policePkt p i x wr
          if x.gate = .held then s
          else match chk s p x.pkt wr with
            | (s, .wait) => s
            | (s, .err st) => (s.dropAns (pktOrigin p x.pkt)).pktErr p i x st
            | (s, .discard d) => ((s.dropAns (pktOrigin p x.pkt)).tdDiscard d).pktGone p i
            | (s, .dpa a) =>
              let x := { x with base := some a }
              serve ((s.dropAns (pktOrigin p x.pkt)).putPkt p i x) i x a

/-- H_RD. -/
def execHRd (p : Fin 13) (s : State) : Result := run s fun s =>
  s.inbound p.val kHRd false State.handleCheck fun s i _ a => State.rdLoop p.val i a 20 s

/-- One line of an H_WR; false while it waits. -/
def State.wrPiece (s : State) (p i : Nat) (x : InPkt) (dpa : Nat) : State × Bool :=
  let k := x.pkt
  let a := dpa + x.done
  let n := min (k.length - x.done) (64 - a % 64)
  match s.engAccess (inTxWr p x (a / 64) (k.lineAt x.done (a % 64) n) (rangeBe (a % 64) n)) with
  | (s, none) => (s, false)
  | (s, some r) =>
    let st := match r with | .no r => inStatus r | .ok _ => 0
    ((s.dropAns (pktOrigin p k)).putPkt p i { x with done := x.done + n, fail := if x.fail = 0 then st else x.fail }, true)

/-- The answer to a write that is done: WR_ACK of its length, or an ERR where an access of it was refused. -/
def State.wrAnswer (s : State) (p i : Nat) (x : InPkt) : State :=
  let k := x.pkt
  if x.fail ≠ 0 then s.pktErr p i x x.fail
  else (s.originate (Pkt.bare k.src s.pwr.node kWrAck k.ctx k.msg k.offset k.length 0 0)
    (if x.gate = .demoted then 7 else 1)).pktGone p i

/-- An H_WR, until all of it is written or it waits. -/
def State.wrLoop (p i dpa : Nat) : Nat → State → State
  | 0, s => s
  | fuel + 1, s =>
    match (s.waitingPkts p)[i]? with
    | none => s
    | some x =>
      if x.pkt.length ≤ x.done then s.wrAnswer p i x
      else match s.wrPiece p i x dpa with
        | (s, true) => State.wrLoop p i dpa fuel s
        | (s, false) => s

/-- H_WR. -/
def execHWr (p : Fin 13) (s : State) : Result := run s fun s =>
  s.inbound p.val kHWr true State.handleCheck fun s i _ a => State.wrLoop p.val i a 68 s

/-- W_RD: one line. -/
def State.wRead (s : State) (p i : Nat) (x : InPkt) (dpa : Nat) : State :=
  let k := x.pkt
  match State.inRead p x 2 s dpa 64 with
  | (s, .wait) => s
  | (s, .fail st) => (s.dropAns (pktOrigin p k)).pktErr p i x st
  | (s, .ok v m) => ((s.dropAns (pktOrigin p k)).sendData x k.offset 64 v m true).pktGone p i

def execWRd (p : Fin 13) (s : State) : Result := run s fun s =>
  s.inbound p.val kWRd false State.winCheck fun s i x a => s.wRead p.val i x a

/-- W_WR: the enabled bytes of one line. -/
def State.wWrite (s : State) (p i : Nat) (x : InPkt) (dpa : Nat) : State :=
  let k := x.pkt
  match s.engAccess (inTxWr p x (dpa / 64) (k.lineAt 0 0 64) k.be) with
  | (s, none) => s
  | (s, some r) =>
    let st := match r with | .no r => inStatus r | .ok _ => 0
    (s.dropAns (pktOrigin p k)).wrAnswer p i { x with fail := st }

def execWWr (p : Fin 13) (s : State) : Result := run s fun s =>
  s.inbound p.val kWWr true State.winCheck fun s i x a => s.wWrite p.val i x a

/-! ## Answers at the requester (R279, R280) -/

/-- A packet for a message that is no longer held (R280). -/
def State.late (s : State) (p i : Nat) : State := (s.bump F.RYP_FAB_CNT_late_discard).pktGone p i

/-- The oldest waiting packet of a kind with the message it belongs to. -/
def State.answerPkt (s : State) (p kind : Nat) (f : State → Nat → InPkt → Msg → State) : State :=
  match s.pktAt p kind with
  | none => s
  | some i =>
    match (s.waitingPkts p)[i]? with
    | none => s
    | some x =>
      if s.sec.armed.contains (domeOf x.pkt.ctx) then (s.tdDiscard (domeOf x.pkt.ctx)).pktGone p i
      else match SMap.find s.fab.msgs x.pkt.msg with
        | none => s.late p i
        | some m => f s i x m

/-- Bytes of a message have come or been acknowledged; with all of them the message ends. -/
def State.msgGot (s : State) (n : Nat) (m : Msg) (off len : Nat) : State :=
  let m := { m with count := m.count + len, progress := s.pwr.refTime, pieces := m.pieces ++ [(off - m.offset, len)] }
  let s := { s with fab := { s.fab with msgs := SMap.put s.fab.msgs n m } }
  if m.length ≤ m.count then (s.endMsg n).fabEnd m.cmd else s

/-- The answer to a window request. -/
def State.owinAnswer (s : State) (p i n : Nat) (a : Option Line) : State :=
  match s.fab.owin.find? fun r => r.msg == n with
  | some r => (s.owinDone r a).pktGone p i
  | none => s.pktGone p i

/-- Places the data of an RD_DATA for a GET. Where it fails, the bytes it has placed count (R187). -/
def State.placeData (s : State) (p i : Nat) (x : InPkt) (m : Msg) : State :=
  let k := x.pkt
  match s.cmd m.cmd with
  | none => s.pktGone p i
  | some c =>
    let n := match c.eng with | .mover n => n | _ => 0
    let marks := (List.range k.length).foldl (fun a j => if k.poison.getLsbD (j / 16) then a + 2 ^ j else a) 0
    let step := fun (s : State) (done : Nat) =>
      let pva := c.p 2 + (k.offset - c.p 1) + done
      let j := min (k.length - done) (64 - pva % 64)
      (s.putBytes m.cmd (moverOf n m.cmd) pva j (k.bytesAt done j) (bits marks done j), j)
    let r := (List.range 66).foldl (fun (acc : State × Nat × Option (Option Nat)) _ =>
      let (s, done, stop) := acc
      if stop.isSome || k.length ≤ done then acc
      else match step s done with
        | ((s, .ok _ _), j) => (s, done + j, none)
        | ((s, .wait), _) => (s, done, some none)
        | ((s, .fail st), _) => (s, done, some (some st))) (s, x.done, none)
    match r with
    | (s, done, some none) => s.putPkt p i { x with done := done }
    | (s, done, some (some st)) =>
      let m := { m with pieces := m.pieces ++ [(k.offset - m.offset, done)] }
      let s := { s with fab := { s.fab with msgs := SMap.put s.fab.msgs k.msg m } }
      (((s.unitEnd m.cmd (moverOf n m.cmd)).msgFail k.msg st)).pktGone p i
    | (s, _, none) => ((s.unitEnd m.cmd (moverOf n m.cmd)).msgGot k.msg m k.offset k.length).pktGone p i

/-- RD_DATA. -/
def execRdData (p : Fin 13) (s : State) : Result := run s fun s =>
  s.answerPkt p.val kRdData fun s i x m =>
    match m.kind with
    | .get => s.placeData p.val i x m
    | .wrd _ => s.owinAnswer p.val i x.pkt.msg (some (x.pkt.lineAt 0 0 64))
    | _ => s.late p.val i

/-- WR_ACK. -/
def execWrAck (p : Fin 13) (s : State) : Result := run s fun s =>
  s.answerPkt p.val kWrAck fun s i x m =>
    match m.kind with
    | .put => (s.msgGot x.pkt.msg m x.pkt.offset x.pkt.length).pktGone p.val i
    | .wwr _ => s.owinAnswer p.val i x.pkt.msg (some Line.zero)
    | .mig k line _ => ((s.endMsg x.pkt.msg).mirrored k line).pktGone p.val i
    | _ => s.late p.val i

-- Log entry 86: DEDUCED, unsafe.
/-- A queen told of a higher term becomes an ordinary node (R290). -/
def State.staleErr (s : State) (p : Nat) : Option State :=
  match s.pktAt p kErr with
  | none => none
  | some i =>
    match (s.waitingPkts p)[i]? with
    | some x =>
      if x.pkt.status = stStale ∧ s.fB F.RYP_FAB_STATUS_is_queen = true then
        some (((s.fFlag F.RYP_FAB_STATUS_is_queen false).fFlag F.RYP_FAB_STATUS_queen_valid false).pktGone p i)
      else none
    | none => none

/-- An ERR fails its message with the status it carries. -/
def State.errIn (s : State) (p : Nat) : State :=
  match s.staleErr p with
  | some s => s
  | none =>
    s.answerPkt p kErr fun s i x m =>
      match m.kind with
      | .wrd _ => s.owinAnswer p i x.pkt.msg none
      | .wwr _ => s.owinAnswer p i x.pkt.msg none
      | .mig k _ _ => ((s.endMsg x.pkt.msg).migLost k).pktGone p i
      | _ => (s.msgFail x.pkt.msg x.pkt.status).pktGone p i

/-- ERR. -/
def execErr (p : Fin 13) (s : State) : Result := run s fun s => s.errIn p.val

/-- PONG: the PING completes with the elapsed time in nanoseconds. -/
def execPong (p : Fin 13) (s : State) : Result := run s fun s =>
  s.answerPkt p.val kPong fun s i x m =>
    match m.kind with
    | .ping =>
      let s := (s.endMsg x.pkt.msg).pktGone p.val i
      s.stopCmd m.cmd stOK ((s.pwr.refTime - m.progress) / 3)
    | _ => s.late p.val i

/-- PING_PACKET: answered with a PONG. -/
def State.pingIn (s : State) (p : Nat) : State :=
  match s.pktAt p kPing with
  | none => s
  | some i =>
    match (s.waitingPkts p)[i]? with
    | none => s
    | some x => (s.originate (Pkt.bare x.pkt.src s.pwr.node kPong x.pkt.ctx x.pkt.msg 0 0 0 0) 6).pktGone p i

def execPingPacket (p : Fin 13) (s : State) : Result := run s fun s => s.pingIn p.val

/-! ## Forwarding (R274 - R276) -/

/-- The usable output ports of a packet. -/
def State.usable (s : State) (x : FwdPkt) : List Nat :=
  let m := match x.inPort with
    | some p => s.fN F.RYP_ROUTE_mask p x.pkt.dst
    | none => s.fN F.RYP_ORIGIN_ROUTE_mask 0 x.pkt.dst
  (List.range 12).filter fun n => bit m n && (s.ryPort n).st == .active && !s.fB F.RYP_ROUTE_STATUS_wiring_error n

/-- The credit of a port that is not yet promised to a packet. -/
def State.freeCred (s : State) (n vc : Nat) : Nat :=
  let r := s.ryPort n
  let queued := (s.eg.items.map fun i => match i.body with
    | .ry v k _ => if i.port = n + 16 ∧ v = vc then k.wire else 0
    | _ => 0).sum
  r.cred vc - r.owed vc - queued

/-- The usable port with the most credit, the lowest of equals. -/
def State.bestPort (s : State) (x : FwdPkt) : Option Nat :=
  (s.usable x).foldl (fun (a : Option Nat) n =>
    match a with
    | none => some n
    | some b => if s.freeCred b (vcOf x.pkt.kind) < s.freeCred n (vcOf x.pkt.kind) then some n else some b) none

/-- Whether the packet enters a ring on a port: it is originated here, or changes dimension. -/
def FwdPkt.enters (x : FwdPkt) (n : Nat) : Bool := match x.inPort with | some p => p / 4 != n / 4 | none => true

/-- The port a packet may leave on now. -/
def State.route (s : State) (x : FwdPkt) : Option Nat :=
  (s.bestPort x).filter fun n =>
    decide (x.pkt.wire + (if x.enters n then 130 else 0) ≤ s.freeCred n (vcOf x.pkt.kind))

/-- A packet leaves the input buffer it holds. -/
def State.unhold (s : State) (x : FwdPkt) : State :=
  match x.inPort with
  | some p => if x.held then s.giveBack p (vcOf x.pkt.kind) x.pkt.wire else s
  | none => s

/-- PACKET_FORWARD: the first packet that can leave. -/
def State.packetForward (s : State) : State :=
  match s.fab.fwd.findIdx? fun x => (s.route x).isSome with
  | none => s
  | some i =>
    match s.fab.fwd[i]? with
    | none => s
    | some x =>
      match s.route x with
      | none => s
      | some n =>
        let s := { s with fab := { s.fab with fwd := s.fab.fwd.eraseIdx i } }
        let vc := vcOf x.pkt.kind
        let dome := if x.inPort.isSome then 0 else domeOf x.pkt.ctx
        let s := s.egPut (16 + n) 0 x.cls dome (64 * x.pkt.wire) false (.ry vc x.pkt x.inPort)
        s.unhold x

def execPacketForward (s : State) : Result := run s fun s => s.packetForward

/-- ROUTE_HOLD_EXPIRY: the first packet without a usable port is dropped, counted, and its message's requester told. -/
def State.routeHold (s : State) : State :=
  match s.fab.fwd.findIdx? fun x => (s.usable x).isEmpty with
  | none => s
  | some i =>
    match s.fab.fwd[i]? with
    | none => s
    | some x =>
      let s := ({ s with fab := { s.fab with fwd := s.fab.fwd.eraseIdx i } }).bump F.RYP_FAB_CNT_unroutable
      (s.lostMsg x.pkt.msgKey).unhold x

def execRouteHoldExpiry (s : State) : Result := run s fun s => s.routeHold

/-! ## Messages that end by time -/

/-- Whether a packet from this node to a node has a usable port now. -/
def State.reachable (s : State) (node : Nat) : Bool :=
  node == s.pwr.node || !(s.usable ⟨Pkt.bare node s.pwr.node kPing 0 0 0 0 0 0, none, false, 6, 0⟩).isEmpty

/-- MSG_TIMEOUT: a message has made no progress for msg_timeout. -/
def State.msgTimeout (s : State) (n : Nat) : State :=
  match SMap.find s.fab.msgs n with
  | some m =>
    (match m.kind with
      | .get => s.msgFail n stRemote
      | .put => s.msgFail n stRemote
      | .ping => s.msgFail n (if s.reachable m.node then stTimeout else stRemote)
      | .mig k _ _ => (s.endMsg n).migLost k
      | _ => s)
  | none => s

def execMsgTimeout (n : BitVec 16) (s : State) : Result := run s fun s => s.msgTimeout n.toNat

/-- MSG_NUMBER_RETURN: a number's time out of the pool has passed; an access of a core that waits for one takes it. -/
def execMsgNumberReturn (n : BitVec 16) (s : State) : Result := run s fun s =>
  ({ s with fab := { s.fab with retired := SMap.del s.fab.retired n.toNat } }).retryWindow

/-- OWIN_TIMEOUT: a window request has had no answer within its window's timeout. -/
def State.owinTimeout (s : State) (n : Nat) : State :=
  match s.fab.owin.find? fun r => r.msg == n && r.ans.isNone with
  | some r => s.owinDone r none
  | none => s

def execOwinTimeout (n : BitVec 16) (s : State) : Result := run s fun s => s.owinTimeout n.toNat

/-! ## Windows and the handle table -/

/-- A write of RYP_OWINw_CTL (R284); a refused one sets refused alone. -/
def State.owinCtlWrite (s : State) (w : Nat) (v : Word) : State :=
  let s := if F.RYP_OWIN_CTL_refused.on v then s.fFlag F.RYP_OWIN_CTL_refused false 0 w else s
  let b := s.fN F.RYP_OWIN_BASE_base_cell 0 w
  let n := s.fN F.RYP_OWIN_SIZE_cells 0 w
  let bad := decide (b * 65536 < apertureBase) || decide (dpaTop < (b + n) * 65536) || n == 0 ||
    F.RYP_OWIN_CTL_node.of v == s.pwr.node ||
    (List.range 64).any fun x => x != w && s.fB F.RYP_OWIN_CTL_enable 0 x &&
      (let c := s.fN F.RYP_OWIN_BASE_base_cell 0 x
       decide (b < c + s.fN F.RYP_OWIN_SIZE_cells 0 x ∧ c < b + n))
  if F.RYP_OWIN_CTL_enable.on v && bad then s.fFlag F.RYP_OWIN_CTL_refused true 0 w
  else s.wrCodes R.RYP_OWIN_CTL (v &&& ~~~2#32) 0 w

/-- OWIN_ENABLE. -/
def execOwinEnable (w : Fin 64) (v : Word) (s : State) : Result := run s fun s => s.owinCtlWrite w.val v

/-- A write of RYP_IWINw_CTL (R285); a refused one sets refused alone. -/
def State.iwinCtlWrite (s : State) (w : Nat) (v : Word) : State :=
  let s := if F.RYP_IWIN_CTL_refused.on v then s.fFlag F.RYP_IWIN_CTL_refused false 0 w else s
  let n := s.fN F.RYP_IWIN_SIZE_cells 0 w
  let bad := F.RYP_IWIN_CTL_dome.of v == 0 || n == 0 ||
    decide (s.hiveBase < (s.fN F.RYP_IWIN_BASE_base_cell 0 w + n) * 65536)
  if F.RYP_IWIN_CTL_enable.on v && bad then s.fFlag F.RYP_IWIN_CTL_refused true 0 w
  else s.wrCodes R.RYP_IWIN_CTL (v &&& ~~~0x80000000#32) 0 w

/-- IWIN_ENABLE. -/
def execIwinEnable (w : Fin 64) (v : Word) (s : State) : Result := run s fun s => s.iwinCtlWrite w.val v

/-- A write of RYP_HANDLE_CTL: enable is set only while the table lies in 16 allocated Dome-0 cells (R281). -/
def State.handleCtlWrite (s : State) (v : Word) : State :=
  let s := if F.RYP_HANDLE_CTL_refused.on v then s.fFlag F.RYP_HANDLE_CTL_refused false else s
  if s.fB F.RYP_HANDLE_CTL_enable || !F.RYP_HANDLE_CTL_enable.on v then s
  else if (List.range 16).all fun k =>
      decide (s.handleBase + k * 65536 < s.memTop) && s.dome0Cell (s.handleBase + k * 65536) then
    s.fFlag F.RYP_HANDLE_CTL_enable true
  else s.fFlag F.RYP_HANDLE_CTL_refused true

/-- HANDLE_TABLE_ENABLE. -/
def execHandleTableEnable (s : State) : Result := run s fun s => s.handleCtlWrite 1

/-- BYPASS_RELEASE: a write of RYP_BYP_CTL drives BYP_HOLD low where release is 1 (R291). -/
def State.bypWrite (s : State) (v : Word) : State :=
  let r := F.RYP_BYP_CTL_release.of v
  (s.fSet F.RYP_BYP_CTL_release r).fSet F.RYP_BYP_CTL_hold_state (63 - r)

def execBypassRelease (r : BitVec 6) (s : State) : Result := run s fun s => s.bypWrite (r.setWidth 32)

end Sys2Proof.Machine
end

