-- ==== Sys2Proof/Machine/Teardown.lean ====
section
/-!
DEFINITION. The teardown of a Dome (R315 - R318): DOME_TEARDOWN and the ends of its drain, recall and overwrite steps at
this node.
-/
namespace Sys2Proof.Machine

def State.putTd (s : State) (d : Nat) (t : Teardown) : State :=
  { s with sec := { s.sec with teardowns := SMap.put s.sec.teardowns d t } }

/-! ## Step 1 -/

/-- A fetched command of the Dome that has not started completes with DOME_TEARDOWN. -/
def State.tdStop (s : State) (k : Nat) (c : Cmd) : State :=
  match c.eng with
  | .fwArea _ _ => if (SMap.find s.q.tcmReply k).isSome then s else s.fwReply k stTeardown 0
  | _ =>
    let s := { s with q := { s.q with fwBuf := s.q.fwBuf.filter fun x => x != k } }
    (s.pguReturn (.cmd k)).endCmd k { c with eng := if c.eng = .fwBuffer then .none else c.eng } stTeardown 0

/-- The Dome's commands, the teardown's own apart. -/
def State.tdCmds (s : State) (d : Nat) (own : Option Nat) : List (Nat × Cmd) :=
  s.q.cmds.filter fun e => e.2.dome == d && some e.1 != own

-- Log entry 92: DEDUCED, unsafe.
/-- Requests of the Dome that wait at a CXL port are refused as misses (R17). -/
def State.tdRefuse (s : State) (d : Nat) : State :=
  let (mine, rest) := s.home.held.partition fun h => domeOf h.tx.ctx == d
  mine.foldl (fun s h => match h.tx.origin with
    | .cxl c =>
      let a : Ask := if h.tx.kind = .hint then .hint else if h.tx.kind.isRead then .read else .state
      ((s.bump F.CXLP_CTXT_MISS_CNT_miss_count 1 c.port).raise (640 + 16 * c.port) 0 0 none c.src).portAnswer c a 0 h.tx.line
    | _ => s) { s with home := { s.home with held := rest } }

/-- The Dome's migrations end, each once no access holds its cell-table line; one whose command has not completed completes
with DOME_TEARDOWN, as does the migration-end command of one that mirrors (R124, R125). -/
def State.tdMigs (s : State) (d : Nat) : State :=
  (s.honey.mig.filter fun e => e.2.dome == d).foldl (fun s e =>
    if !s.entryFree e.2.cell then s
    else
      let s := (s.dropMig e.1 e.2).fwReply e.2.cmd stTeardown 0
      if e.2.cmd ≠ 20000 then s
      else { s with honey := { s.honey with migAborted := s.honey.migAborted ++ [(e.2.cell, stTeardown)] } }) s

-- Log entry 92: DEDUCED, unsafe.
/-- The Dome's vectors are masked and have nothing pending (R340). -/
def State.tdVecs (s : State) (d : Nat) : State :=
  (List.range 16).foldl (fun s v => s.setVec d v { s.vec d v with mask := true, pending := false }) s

-- Log entry 92: DEDUCED, unsafe.
/-- Step 1 of R316: the Dome is in TEARDOWN, its queues FROZEN, nothing more of it starts. -/
def State.tdStart (s : State) (d us : Nat) (overwrite : Bool) (cmd : Option Nat) : State :=
  let s := s.setDome d .teardown
  let qs := s.q.desc.filter fun e => e.2.dome == d
  let s := qs.foldl (fun s e => (s.setDesc e.1 { e.2 with state := .frozen }).dropOrigin (.queue e.1)) s
  let s := (s.tdCmds d cmd).foldl (fun s e => if e.2.unstarted then s.tdStop e.1 e.2 else s) s
  let s := ((s.tdRefuse d).tdMigs d).tdVecs d
  s.putTd d ⟨cmd, if us = 0 then 10000 else us, overwrite, s.pwr.refTime, 1, 0, 0, false, [], 0⟩

/-- DOME_TEARDOWN (R315). Its reply comes with the last step. -/
def State.teardownCmd (s : State) (k : Nat) (a : QAns) (c : Cmd) : State × Ctl :=
  let d := c.subject
  if c.pos = 1 then (s, .wait)
  else if d = 0 || s.domeSt d == .free then (s, .done stFormat 0)
  else if s.domeSt d == .teardown then (s, .done stBusy 0)
  else match s.queenAsk a with
    | (s, some st) => (s, .done st 0)
    | (s, none) => ((s.putCmd k { c with pos := 1 }).tdStart d (c.pb 1 0 32) (c.pb 2 0 1 != 0) (some k), .wait)

/-- DOME_TEARDOWN. -/
def execDomeTeardown (k : Fin 16385) (a : QAns) (s : State) : Result :=
  run s fun s => s.control k 0x09 false fun s c => s.teardownCmd k a c

/-! ## Steps 2 to 4 -/

/-- An inbound request of the Dome, or to its cells, that the node has taken up. -/
def State.tdInbound (s : State) (d : Nat) : Bool :=
  (s.ry.toList.flatMap (fun p => p.ready) ++ s.fab.here).any fun x =>
    match x.base with
    | some a => domeOf x.pkt.ctx == d || (match s.cellEntry (a / 65536) with | some e => ownedBy e d || s.anchorOf e d | none => false)
    | none => false

-- Log entry 92: DEDUCED, unsafe.
/-- Whether the Dome's commands, requests and migrations at this node have ended. After the drain timeout its requests are
not waited for: they complete by themselves (R317). -/
def State.tdDrained (s : State) (d : Nat) (t : Teardown) : Bool :=
  (s.tdCmds d t.cmd).isEmpty && (s.honey.mig.all fun e => e.2.dome != d) &&
    (t.timedOut || (!s.tdInbound d && (s.home.txs.all fun x => domeOf x.ctx != d) && (s.fab.owin.all fun r => domeOf r.tx.ctx != d) &&
      !(s.sec.rekeyRun.any fun r => r.1 == d)))

/-- The Dome owns the cell or anchors the group that does: the cells a teardown releases. -/
def State.tdOwns (s : State) (e : Word) (d : Nat) : Bool := ownedBy e d || s.anchorOf e d

/-- The agents and lines of cells to be released, from the snoop filter. -/
def State.tdHeld (s : State) (d : Nat) : List (Nat × Nat) :=
  s.home.filter.filterMap fun e =>
    (filterDecode e.2).bind fun x =>
      let line := filterLine (e.1 / 16 % 32768) x.1
      match s.cellEntry (line / 1024) with
      | some c => if x.2 ≠ 0 ∧ s.tdOwns c d then some (e.1 / 524288, line) else none
      | none => none

-- Log entry 92: DEDUCED, unsafe.
def State.tdSnoops (s : State) (d : Nat) : List Snoop := s.home.snoops.filter fun n => n.tx.isNone && n.dome == d

/-- Recalls held lines while the back-invalidate tracker has room: BISnpInv to each holder, under the line's lock, which the
recall takes where no access has it. An agent that is down is not asked. -/
def State.tdRecall (s : State) (d : Nat) : State :=
  (s.tdHeld d).foldl (fun s x =>
    if s.agentDown x.1 then s.setAgent x.1 x.2 0
    else if biRoom s 1 && s.snpsRoom [x.1] && (s.lockTx x.2).isNone &&
        !(s.home.snoops.any fun n => n.evict && n.line == x.2) && !((s.tdSnoops d).any fun n => n.agent == x.1 && n.line == x.2) then
      s.sendSnoop none x.1 x.2 .inv d false
    else s) s

/-- The drain has ended: discard is armed (step 3) and the recall begins (step 4). -/
def State.tdDrainDone (s : State) (d : Nat) : State :=
  let s := if (SMap.find s.sec.teardowns d).any fun t => t.step == 1 then s.tdMigs d else s
  match SMap.find s.sec.teardowns d with
  | some t =>
    if t.step = 1 && s.tdDrained d t then
      (({ s with sec := { s.sec with armed := s.sec.armed ++ [d] } }).putTd d { t with step := 3 }).tdRecall d
    else s
  | none => s

/-- TEARDOWN_DRAIN_DONE. -/
def execTeardownDrainDone (d : Fin 4096) (s : State) : Result := run s fun s => s.tdDrainDone d.val

-- Log entry 92: DEDUCED, unsafe.
/-- The units a command that ran has done: none where its outputs are written last, the bytes below its first failure for
GET and PUT. -/
def Cmd.unitsDone (c : Cmd) : Nat :=
  if c.opcode = 0x8C ∨ c.opcode = 0x90 then 0
  else if (c.opcode = 0xC0 ∨ c.opcode = 0xC1) ∧ c.aux = 1 then min c.result c.pos
  else c.pos

-- Log entry 92: DEDUCED, unsafe.
/-- An abandoned command: no further beat, its messages ended, DOME_TEARDOWN with the units done (R317). -/
def State.tdAbandon (s : State) (k : Nat) : State :=
  let s := s.dropBeats k
  let s := (s.fab.msgs.filter fun m => m.2.cmd == k && (m.2.kind == .get || m.2.kind == .put || m.2.kind == .ping)).foldl
    (fun s m => s.msgFail m.1 stTeardown) s
  match s.cmd k with
  | none => s
  | some c =>
    if c.st = .done then s
    else match c.eng with
      | .fwArea _ _ => if (SMap.find s.q.tcmReply k).isSome then s else s.fwReply k stTeardown c.pos
      | _ => (s.pguReturn (.cmd k)).finishRun k stTeardown c.unitsDone

/-- Sweeps of the Dome are given up. -/
def State.tdSweeps (s : State) (d : Nat) : State :=
  let (mine, rest) := s.sec.sweeps.partition fun w => w.dome == d
  let s := { s with sec := { s.sec with sweeps := rest, rekeyRun := s.sec.rekeyRun.filter fun r => r.1 != d } }
  mine.foldl (fun s w => (s.dropOrigin (.sweep w.cell)).pguReturn (.sweep w.cell)) s

-- Log entry 92: DEDUCED, unsafe.
/-- The drain timeout expires (R317). -/
def State.tdTimeout (s : State) (d : Nat) : State :=
  match SMap.find s.sec.teardowns d with
  | some t =>
    if t.step ≠ 1 || t.timedOut then s
    else
      let cs := (s.tdCmds d t.cmd).filter fun e => e.2.st != .done
      let s := (cs.foldl (fun s e => s.tdAbandon e.1) s).tdSweeps d
      let s := (s.bump F.SEC_TD_CNT_aborted cs.length).raise 14 0 d none d
      (s.putTd d { t with timedOut := true, aborted := t.aborted + cs.length }).tdDrainDone d
  | none => s

/-- DRAIN_TIMEOUT. -/
def execDrainTimeout (d : Fin 4096) (s : State) : Result := run s fun s => s.tdTimeout d.val

/-! ## Steps 5 to 7 -/

/-- Ends the handles a Dome created, from index `i` on; false where a line of the table makes it wait. -/
def State.tdHandles (d : Nat) : Nat → State → Nat → State × Bool
  | 0, s, _ => (s, true)
  | fuel + 1, s, i =>
    match s.handleEntry (.teardown d) i with
    | (s, .wait) => (s, false)
    | (s, .ok e) =>
      if heValid e && heDome e == d then
        (match s.endHandle (.teardown d) i e with
          | (s, .wait) => (s, false)
          | (s, _) => State.tdHandles d fuel (s.forgetHandle i) (i + 1))
      else State.tdHandles d fuel s (i + 1)
    | (s, .fail _) => State.tdHandles d fuel s (i + 1)

/-- The cells to be released. -/
def State.tdCells (s : State) (d : Nat) : List Nat :=
  s.ownedCells.filter fun c => match s.cellEntry c with | some e => s.tdOwns e d | none => false

-- Log entry 92: DEDUCED, unsafe.
/-- Step 5: the cells are released, each under the lock of its cell-table line. -/
def State.tdRelease (s : State) (cells : List Nat) : State :=
  cells.foldl (fun s c =>
    if !s.entryFree c then s else match s.cellEntry c with | some e => s.releaseCell c e | none => s) s

/-- Step 5: groups, memberships and the doorbell page. -/
def State.tdGroups (s : State) (d : Nat) : State :=
  let s := s.domes.groups.foldl (fun s g =>
    if g.2.anchor == d then s.setGroup g.1 none
    else if g.2.members.contains d then s.setGroup g.1 (some { g.2 with members := g.2.members.filter fun m => m != d })
    else s) s
  { s with domes := { s.domes with pages := SMap.del s.domes.pages d } }

/-- Step 6: both slots are zeroised. -/
def State.tdKeys (s : State) (d : Nat) : State :=
  let s := (s.clearSlot d 0).clearSlot d 1
  { s with sec := { s.sec with old := SMap.del s.sec.old d } }

/-- Step 7: the state of R318 that stands in the chip. -/
def State.tdChip (s : State) (d : Nat) : State :=
  let s := s.fwInval 2 (BitVec.ofNat 16 (d * 16)) 0 0 none
  let s := { s with eg := { s.eg with items := s.eg.items.filter (fun x => x.dome != d), resetDomes := s.eg.resetDomes ++ [d] } }.egTidy
  let s := (List.range 16).foldl (fun s p =>
    let x := s.cxlPort p
    let off := fun (e : CtxtEnt) => { e with valid := false }
    let t := (x.ctxt.filter fun e => domeOf e.2.ctx == d).foldl (fun m e => SMap.store m ⟨false, 0, 0⟩ e.1 (off e.2)) x.ctxt
    s.setCxlPort p { x with ctxt := t }) s
  (List.range 64).foldl (fun s w => if s.fN F.RYP_IWIN_CTL_dome 0 w = d then s.fFlag F.RYP_IWIN_CTL_enable false 0 w else s) s

/-! ## Steps 8 and 9 -/

/-- A Dome's number is free at this node: it has no queues (R40), no key at the broker, and its binding and its record of
discarding end. -/
def State.domeFreed (s : State) (d : Nat) : State :=
  let s := { s with domes := { s.domes with st := SMap.store s.domes.st .free d .free } }
  let s := { s with fab := { s.fab with broker := SMap.del (SMap.del s.fab.broker (d * 2)) (d * 2 + 1) } }
  let s := (s.q.desc.filter fun e => e.2.dome == d).foldl (fun s e => s.freeDesc e.1) s
  { s with sec := { s.sec with bind := SMap.del s.sec.bind d, armed := s.sec.armed.filter fun x => x != d } }

-- Log entry 92: DEDUCED, unsafe.
/-- Step 9. Where a node could not be reached the Dome stays in TEARDOWN. On the node that runs the command it completes;
the queen's registry learns that the Dome is free. -/
def State.tdFinish (s : State) (d : Nat) (t : Teardown) (o : TdRest) : State :=
  let s := { s with sec := { s.sec with teardowns := SMap.del s.sec.teardowns d } }
  let s := if o.unreachable then s else (s.domeFreed d).report (.dome (Fin.ofNat 4096 d) 0)
  match t.cmd with
  | none => s
  | some k =>
    let sat := fun n => min n (2 ^ 32 - 1)
    let st := if o.unreachable then stRemote else if t.timedOut || o.timedOut then stTimeout else stOK
    s.fwReply k st (sat (t.aborted + o.aborted) + sat (t.discarded + o.discarded) * 2 ^ 32)

-- Log entry 92: DEDUCED, unsafe.
/-- Steps 4 to 7, one at a time: true where a step has ended and the next may begin. `step` is 3 in the recall, 4 in the
release, 5 while accesses accepted before it have yet to be checked (R43, R46), 6 before and 7 during the invalidation, and
8 once the chip holds nothing more of the Dome. -/
def State.tdNext (s : State) (d : Nat) (t : Teardown) : State × Bool :=
  match t.step with
  | 3 =>
    if !(s.tdSnoops d).isEmpty || !(s.tdHeld d).isEmpty then (s.tdRecall d, false)
    else (s.putTd d { t with step := 4, cells := s.tdCells d }, true)
  | 4 =>
    let s := s.tdRelease (s.tdCells d)
    if !(s.tdCells d).isEmpty || s.copying then (s, false)
    else ((s.tdGroups d).putTd d { t with step := 5, mark := s.home.nextId }, true)
  | 5 => if s.drainedTo t.mark then ((s.tdKeys d).putTd d { t with step := 6 }, true) else (s, false)
  | 6 =>
    if s.comb.inval.isSome then (s, false)
    else match (if s.fB F.RYP_HANDLE_CTL_enable then State.tdHandles d 65535 s 1 else (s, true)) with
      | (s, false) => (s, false)
      | (s, true) => (((s.dropAns (.teardown d)).tdChip d).putTd d { t with step := 7 }, true)
  | 7 => if s.comb.inval.isSome then (s, false) else (s.putTd d { t with step := 8 }, true)
  | _ => (s, false)

/-- Goes on with a teardown from its recall on, as far as it comes. -/
def State.tdGo (d : Nat) : Nat → State → State
  | 0, s => s
  | fuel + 1, s =>
    match SMap.find s.sec.teardowns d with
    | none => s
    | some t =>
      match s.tdNext d t with
      | (s, true) => State.tdGo d fuel s
      | (s, false) => s

/-- The recall goes on, then steps 5 to 7; after them the overwrite pass begins or the teardown ends. -/
def State.tdRecallDone (s : State) (d : Nat) (o : TdRest) : State :=
  let s := State.tdGo d 6 s
  match SMap.find s.sec.teardowns d with
  | none => s
  | some t =>
    if t.step ≠ 8 then s
    else if t.overwrite then
      (({ s with sec := { s.sec with overwrite := s.sec.overwrite ++ [(d, t.cells)] } }).putTd d { t with step := 9 }).pguAsk 8 (.overwrite d)
    else s.tdFinish d t o

/-- TEARDOWN_RECALL_DONE. -/
def execTeardownRecallDone (d : Fin 4096) (o : TdRest) (s : State) : Result := run s fun s => s.tdRecallDone d.val o

/-- The overwrite pass: each line of each released cell gets zeros with their check bits, unencrypted. -/
def State.tdOverwrite (s : State) (cells : List Nat) : State :=
  cells.foldl (fun s c => (cellLines c).foldl (fun s line =>
    match s.locate (line * 64) with
    | some (ch, loc) => (s.flushWr ch loc).storedPut ch loc (encodeLine Line.zero)
    | none => s) s) s

def State.tdOverwritten (s : State) (d : Nat) (o : TdRest) : State :=
  match SMap.find s.sec.teardowns d with
  | none => s
  | some t =>
    if t.step ≠ 9 || !s.hasLeave (.overwrite d) then s
    else
      let s := (s.tdOverwrite t.cells).pguReturn (.overwrite d)
      let s := { s with sec := { s.sec with overwrite := s.sec.overwrite.filter fun x => x.1 != d } }
      s.tdFinish d t o

/-- OVERWRITE_PASS_DONE. -/
def execOverwritePassDone (d : Fin 4096) (o : TdRest) (s : State) : Result := run s fun s => s.tdOverwritten d.val o

end Sys2Proof.Machine
end

