-- ==== Sys2Proof/Machine/Queen.lean ====
section
/-!
DEFINITION. The queen node (R286 - R290). What a QUEEN packet says is the operand of its command, since the manual numbers
no subkinds; the packet itself waits at a port as any packet for this node.
-/
namespace Sys2Proof.Machine

/-- Every other node with a usable route. -/
def State.others (s : State) : List Nat := (List.range 64).filter fun d => d != s.pwr.node && s.reachable d

-- Log entry 14: DESIGN CHOICE, safe.
/-- A QUEEN packet to every reachable node. -/
def State.queenAll (s : State) (type_ : Nat) : State := s.others.foldl (fun s d => s.sendQueen d type_) s

-- Log entry 87: DEDUCED, unsafe.
/-- A node that claims the queen's or the successor's role tells each node it has not told yet, once that can be reached
(R286). -/
def State.announceRole (s : State) : State :=
  if !s.fB F.RYP_FAB_STATUS_is_queen && !s.fB F.RYP_FAB_STATUS_is_succ then s
  else (s.others.filter fun d => !s.fab.told.contains d).foldl (fun s d =>
    { s.sendQueen d 2 with fab := { (s.sendQueen d 2).fab with told := s.fab.told ++ [d] } }) s

/-- The successor this node has heard of; a name firmware has set stands before it. -/
def State.learnSucc (s : State) (n : Option Nat) : State :=
  let s := { s with fab := { s.fab with succ := n } }
  s.fSet F.RYP_FAB_STATUS_succ_node (s.successor.getD 0)

/-- The queen this node records, with its term (R286). -/
def State.recordQueen (s : State) (q term : Nat) : State :=
  let s := (s.fSet F.RYP_FAB_STATUS_queen_node q).fSet F.RYP_FAB_STATUS_term term
  let s := { s with fab := { s.fab with missed := 0, votes := [], told := if q = s.pwr.node then s.fab.told else [] } }
  ((s.fFlag F.RYP_FAB_STATUS_queen_valid true).fFlag F.RYP_FAB_STATUS_is_queen (q == s.pwr.node)).fFlag
    F.RYP_FAB_STATUS_is_succ (q != s.pwr.node && s.fB F.RYP_FAB_STATUS_is_succ)

/-- An ERR with STALE_VERSION to a queen of a lower term (R290). -/
def State.staleQueen (s : State) (node : Nat) : State :=
  s.originate (Pkt.bare node s.pwr.node kErr 0 0 0 0 0 stStale) 1

-- Log entry 14: DESIGN CHOICE, safe.
/-- The oldest QUEEN packet at a port is taken; `f` gets its source. -/
def State.takeQueen (s : State) (p : Nat) (f : State → Nat → State) : State :=
  match s.pktAt p kQueen with
  | none => s
  | some i =>
    match (s.waitingPkts p)[i]? with
    | none => s
    | some x => f (s.pktGone p i) x.pkt.src

def State.term (s : State) : Nat := s.fN F.RYP_FAB_STATUS_term
def State.isQueen (s : State) : Bool := s.fB F.RYP_FAB_STATUS_is_queen

-- Log entry 87: DEDUCED, unsafe.
/-- A claim from another node (R286): the lower ID is queen; the other raises queen-clash. -/
def State.claimFrom (s : State) (q term : Nat) : State :=
  if term < s.term then s.staleQueen q
  else if s.isQueen && term == s.term then
    if q < s.pwr.node then (s.raise 15).recordQueen q term else s
  else if s.fB F.RYP_FAB_STATUS_queen_valid && term == s.term then
    (if q < s.fN F.RYP_FAB_STATUS_queen_node then s.recordQueen q term else s)
  else s.recordQueen q term

-- Log entry 87: DEDUCED, unsafe.
/-- A node announces that it is the successor; after a takeover only firmware names one (R286, R290). -/
def State.succFrom (s : State) (q : Nat) : State := if 1 < s.term then s else s.learnSucc (some q)

/-- QUEEN_CLAIM: a claim arrives, of the queen's role or of the successor's. -/
def execQueenClaim (p : Fin 13) (c : RoleClaim) (s : State) : Result :=
  run s fun s => s.takeQueen p.val fun s q => if c.succ then s.succFrom q else s.claimFrom q c.term.toNat

-- Log entry 87: DEDUCED, unsafe.
/-- The updates a node holds go to the queen, a message each (R288, R289). -/
def State.tellReports (s : State) (q : Nat) : State :=
  s.fab.reports.foldl (fun s _ => s.sendQueen q 0) { s with fab := { s.fab with reports := [] } }

-- Log entry 87: DEDUCED, unsafe.
/-- A heartbeat from a queen, with its term, whether she accepts no updates, and her successor (R286, R288, R290). -/
def State.heartbeatFrom (s : State) (q term : Nat) (stopped : Bool) (succ : Option Nat) : State :=
  if term < s.term then s.staleQueen q
  else
    let s := if term == s.term && q == s.fN F.RYP_FAB_STATUS_queen_node then s.fFlag F.RYP_FAB_STATUS_queen_valid true
      else if s.term < term then s.recordQueen q term else s
    let s := { s with fab := { s.fab with missed := 0 } }
    if q == s.fN F.RYP_FAB_STATUS_queen_node then
      let s := s.fFlag F.RYP_FAB_STATUS_alloc_stopped stopped
      let s := match succ with
        | some n => (s.learnSucc (some n)).fFlag F.RYP_FAB_STATUS_is_succ (s.successor.getD n == s.pwr.node)
        | none => s
      (if stopped then s else s.tellReports q).announceRole
    else s

-- Log entry 87: DEDUCED, unsafe.
/-- The queen's heartbeat goes to every node. While her successor answers she accepts updates: those she holds take effect,
each mirrored to the successor; while it does not, or there is none, she accepts none (R287). -/
def State.sendBeat (s : State) (lost : Bool) : State :=
  let s := s.announceRole
  let s := if s.fB F.RYP_QUEEN_CTL_solo then s
    else match lost, s.successor with
      | false, some n =>
        s.fab.reports.foldl (fun s u => (s.sendQueen n 0).applyUpd u)
          ({ s with fab := { s.fab with reports := [] } }.fFlag F.RYP_FAB_STATUS_alloc_stopped false)
      | _, _ => s.fFlag F.RYP_FAB_STATUS_alloc_stopped true
  s.queenAll 3

/-- HEARTBEAT: the queen sends one to every node, `stopped` where her successor does not answer; another node takes the one
that waits at a port, `stopped` where the queen accepts no updates. -/
def execHeartbeat (p : Fin 13) (term : BitVec 16) (b : Beat) (s : State) : Result :=
  run s fun s =>
    if s.isQueen then s.sendBeat b.stopped
    else s.takeQueen p.val fun s q => s.heartbeatFrom q term.toNat b.stopped (b.succ.map fun n => n.val)

-- Log entry 87: DEDUCED, unsafe.
/-- The successor takes over (R290): term one higher, TAKEOVER to every reachable node, no update until it has a
successor. -/
def State.takeOver (s : State) : State :=
  let s := s.recordQueen s.pwr.node (s.term + 1)
  let s := (s.fFlag F.RYP_FAB_STATUS_is_succ false).fFlag F.RYP_FAB_STATUS_alloc_stopped (!s.fB F.RYP_QUEEN_CTL_solo)
  let s := s.learnSucc none
  ({ s with fab := { s.fab with told := s.others } }).queenAll 5

-- Log entry 87: DEDUCED, unsafe.
/-- The votes the successor needs: three, its own included, or in a pool of four or fewer those of every other surviving
node. -/
def State.enoughVotes (s : State) : Bool :=
  if s.fab.pool ≠ 0 ∧ s.fab.pool ≤ 4 then
    s.others.all fun d => d == s.fN F.RYP_FAB_STATUS_queen_node || s.fab.votes.contains d
  else decide (3 ≤ s.fab.votes.length) && s.fab.votes.contains s.pwr.node

-- Log entry 87: DEDUCED, unsafe.
/-- A vote counts at the successor once it holds the queen lost or hears of it. -/
def State.vote (s : State) (node : Nat) : State :=
  if !s.fB F.RYP_FAB_STATUS_is_succ then s
  else
    let vs := if s.fab.votes.contains node then s.fab.votes else s.fab.votes ++ [node]
    let s := { s with fab := { s.fab with votes := vs } }
    if s.enoughVotes then s.takeOver else s

/-- HEARTBEAT_MISS: a heartbeat is missed; the hb_miss-th in a row declares the queen lost and sends the vote. -/
def State.heartbeatMiss (s : State) : State :=
  if s.isQueen || !s.fB F.RYP_FAB_STATUS_queen_valid then s
  else
    let n := s.fab.missed + 1
    let s := { s with fab := { s.fab with missed := n } }
    if n < max 1 (s.fN F.RYP_QUEEN_CTL_hb_miss) then s
    else
      let s := s.fFlag F.RYP_FAB_STATUS_queen_valid false
      if s.fB F.RYP_FAB_STATUS_is_succ then s.vote s.pwr.node
      else match s.successor with
        | some n => s.sendQueen n 4
        | none => s

def execHeartbeatMiss (s : State) : Result := run s fun s => s.heartbeatMiss

/-- LOSS_VOTE: a vote arrives at the successor. -/
def execLossVote (p : Fin 13) (s : State) : Result := run s fun s => s.takeQueen p.val fun s q => s.vote q

/-- A TAKEOVER: accepted with a higher term, else answered STALE_VERSION. -/
def State.takeoverFrom (s : State) (q term : Nat) : State :=
  if term ≤ s.term then s.staleQueen q
  else
    (((s.recordQueen q term).fFlag F.RYP_FAB_STATUS_is_succ false).learnSucc none).fFlag F.RYP_FAB_STATUS_alloc_stopped true

/-- TAKEOVER. -/
def execTakeover (p : Fin 13) (term : BitVec 16) (s : State) : Result :=
  run s fun s => s.takeQueen p.val fun s q => s.takeoverFrom q term.toNat

-- Log entry 88: DEDUCED, unsafe.
/-- What an update does at a node beside the queen's records: a Dome's state changes here, a key is installed, a teardown
starts (R310, R316). -/
def State.localUpd (s : State) (u : QUpd) : State :=
  match u with
  | .dome d st =>
    if d.val = 0 then s
    else if st.val = 1 then (if s.domeSt d = .free then s.setDome d .active else s)
    else if st.val = 0 then (if (SMap.find s.sec.teardowns d).isNone then s.domeFreed d else s)
    else s
  | .key d g k => if d.val = 0 || (s.keySlot d g).st != .empty || s.domeSt d != .active then s else s.installKey d g k
  | .teardown d us ow => if s.domeSt d = .active ∧ d.val ≠ 0 then s.tdStart d us.toNat ow none else s
  | _ => s

-- Log entry 88: DEDUCED, unsafe.
/-- An update arrives. The queen mirrors it to its successor and acknowledges it once the successor has, whose answer is
`a`; alone, it acknowledges at once. The successor keeps a mirrored update; any other node takes what concerns it; both
acknowledge it. -/
def State.queenUpdate (s : State) (src : Nat) (u : QUpd) (a : QAns) : State :=
  if s.isQueen then
    if s.fB F.RYP_QUEEN_CTL_solo then ((s.applyUpd u).localUpd u).sendQueen src 1
    else if s.fB F.RYP_FAB_STATUS_alloc_stopped then s
    else match s.successor with
      | none => s.fFlag F.RYP_FAB_STATUS_alloc_stopped true
      | some n =>
        let s := s.sendQueen n 0
        if a = .ok then ((s.applyUpd u).localUpd u).sendQueen src 1 else s.fFlag F.RYP_FAB_STATUS_alloc_stopped true
  else if src ≠ s.fN F.RYP_FAB_STATUS_queen_node then s
  else if s.fB F.RYP_FAB_STATUS_is_succ then ((s.applyUpd u).localUpd u).sendQueen src 1
  else (s.localUpd u).sendQueen src 1

/-- QUEEN_UPDATE. -/
def execQueenUpdate (p : Fin 13) (u : QUpd) (a : QAns) (s : State) : Result :=
  run s fun s => s.takeQueen p.val fun s q => s.queenUpdate q u a

/-- A write of RYP_QUEEN_CTL (R287, R290): solo only where QUEEN_SEL is asserted; a successor named by firmware gets the
queen's state, and updates resume. -/
def State.queenCtlWrite (s : State) (v : Word) : State :=
  let solo := s.fB F.RYP_QUEEN_CTL_solo
  let s := s.wrCodes R.RYP_QUEEN_CTL v
  let s := s.fFlag F.RYP_QUEEN_CTL_solo (if s.pwr.queenSel then F.RYP_QUEEN_CTL_solo.on v else solo)
  let named := s.fB F.RYP_QUEEN_CTL_succ_override
  let n := s.fN F.RYP_QUEEN_CTL_succ_node
  let s := s.fSet F.RYP_FAB_STATUS_succ_node (s.successor.getD 0)
  let s := s.fFlag F.RYP_FAB_STATUS_is_succ (!s.isQueen && (if named then n == s.pwr.node else s.pwr.succSel))
  if !s.isQueen then s
  else if s.fB F.RYP_QUEEN_CTL_solo then s.fFlag F.RYP_FAB_STATUS_alloc_stopped false
  else if named && n != s.pwr.node then (s.sendQueen n 6).fFlag F.RYP_FAB_STATUS_alloc_stopped false
  else s

/-- QUEEN_CTL_WRITE. -/
def execQueenCtlWrite (v : Word) (s : State) : Result := run s fun s => s.queenCtlWrite v

-- Log entry 99: DEDUCED, unsafe.
/-- A node whose QUEEN_SEL strap is asserted claims the role at start-up, with term 1 (R286). -/
def State.claimQueen (s : State) : State :=
  let s := s.fFlag F.RYP_FAB_STATUS_is_succ s.pwr.succSel
  let s := if s.pwr.succSel then s.learnSucc (some s.pwr.node) else s
  (if s.pwr.queenSel then s.recordQueen s.pwr.node 1 else s).announceRole

end Sys2Proof.Machine
end

