-- ==== Sys2Proof/Machine/Security.lean ====
section
/-!
DEFINITION. The security root (chapter 15): KEY_DELIVER (R307, R308), the SPDM responder (R303, R304), bindings (R305), the
switch of a link's generation (R314), the sweep of one cell (R312).
-/
namespace Sys2Proof.Machine

/-! ## SPDM (R303, R304) -/

-- Log entry 90: PRESUMED, unsafe.
/-- A response leaves the responder. -/
def State.reply (x : State × Resp) : State := x.1.emit (.spdm x.2.code x.2.status x.2.payload)

-- Log entry 90: PRESUMED, unsafe.
/-- GET_VERSION lists 1.2. -/
def State.getVersion (s : State) : State × Resp := (s, ⟨0x04, 0, [0x12]⟩)

def execGetVersion (s : State) : Result := run1 s fun s => State.reply s.getVersion

-- Log entry 13: DESIGN CHOICE, safe.
/-- GET_CERTIFICATE: the chain of slot 0, or none where the leaf's key is not the device's. -/
def State.getCertificate (s : State) : State × Resp :=
  (s, ⟨0x02, 0, if s.fB F.SEC_STATUS_chain_mismatch then [] else s.sec.chain⟩)

def execGetCertificate (s : State) : Result := run1 s fun s => State.reply s.getCertificate

-- Log entry 90: PRESUMED, unsafe.
/-- KEY_EXCHANGE: a session, or ERROR Busy where 256 are open. -/
def State.keyExchange (s : State) (mutualAuth : Bool) (digest : BitVec 384) : State × Resp :=
  match SMap.firstFree s.sec.sessions 256 with
  | some k => ({ s with sec := { s.sec with sessions := SMap.put s.sec.sessions k ⟨mutualAuth, digest⟩ } }, ⟨0x64, 0, [k]⟩)
  | none => (s, ⟨0x7F, 0x03, []⟩)

-- Log entry 107: DESIGN CHOICE, safe.
def execKeyExchange (mutualAuth : Bool) (digest : BitVec 384) (s : State) : Result :=
  run1 s fun s => State.reply (s.keyExchange mutualAuth digest)

-- Log entry 90: PRESUMED, unsafe.
/-- Any other SPDM request. -/
def State.spdmRequest (s : State) (r : SpdmReq) : State × Resp :=
  match r with
  | .endSession k =>
    if (SMap.find s.sec.sessions k).isSome then
      ({ s with sec := { s.sec with sessions := SMap.del s.sec.sessions k } }, ⟨0x6C, 0, []⟩)
    else (s, ⟨0x7F, 0x01, []⟩)
  | .measurement i =>
    match SMap.find s.cores.meas i.toNat with
    | some d => (s, ⟨0x60, 0, (List.range 48).map fun j => bits d.toNat (8 * j) 8⟩)
    | none => (s, ⟨0x7F, 0x01, []⟩)
  | .supported c => let (f, s) := s.draw; (s, ⟨0x60, c.toNat, Config.standardReply 5 c.toNat f⟩)
  | .unsupported _ => (s, ⟨0x7F, 0x07, []⟩)

def execSpdmRequest (r : SpdmReq) (s : State) : Result := run1 s fun s => State.reply (s.spdmRequest r)

/-! ## Key slots (R306 - R310, R314) -/

def SlotSt.code : SlotSt → Nat
  | .empty => 0
  | .staged => 1
  | .current => 2
  | .draining => 3

/-- A field of the KEY_DELIVER payload: bytes `lo` on. -/
def kdBytes (m : BitVec 640) (lo n : Nat) : Nat := bits m.toNat (8 * lo) (8 * n)

/-- The second row of R308. -/
def kdFormatBad (m : BitVec 640) : Bool :=
  let kind := kdBytes m 4 1
  let a := kdBytes m 8 32
  let b := kdBytes m 40 32
  bits m.toNat 28 4 != 0 || bits m.toNat 41 7 != 0 || bits m.toNat 52 4 != 0 || kdBytes m 7 1 != 0 || kdBytes m 72 8 != 0 ||
    decide (1 < kind) || decide (11 < bits m.toNat 48 4) || a == 0 ||
    (if kind = 0 then bits m.toNat 16 12 == 0 || a == b || bits m.toNat 48 4 != 0 else bits m.toNat 16 12 != 0 || b != 0)

/-- Whether R314 refuses a link key: its generation is transmitted under, or an unacknowledged flit carries it. -/
def State.linkKeyBusy (s : State) (p gen : Nat) : Bool :=
  let r := s.ryPort p
  ((SMap.find r.keys gen).isSome && r.txGen == gen) || r.sent.any fun x => x.flit.keyGen == gen && r.encrypted

-- Log entry 91: DEDUCED, unsafe.
/-- Installs a link key: its generation is LIVE, and the port transmits under it where no other is. -/
def State.putLinkKey (s : State) (p gen : Nat) (k : BitVec 256) : State :=
  let r := s.ryPort p
  s.setRy p { r with keys := SMap.put r.keys gen k, txGen := if r.keys.isEmpty then gen else r.txGen }

-- Log entry 91: DEDUCED, unsafe.
/-- KEY_DELIVER: the checks of R308 in order; gives the status. -/
def State.keyDeliverSt (s : State) (sess : Nat) (m : BitVec 640) (a : QAns) : State × Nat :=
  let d := bits m.toNat 16 12
  let kind := kdBytes m 4 1
  let gen := bits m.toNat 40 1
  let p := bits m.toNat 48 4
  if !s.sessBound sess (if kind = 1 then 0 else d) then (s, stDenied)
  else if kdFormatBad m then (s, stFormat)
  else if kind = 1 then
    if s.linkKeyBusy p gen then (s, stBusy) else (s.putLinkKey p gen (BitVec.ofNat 256 (kdBytes m 8 32)), stOK)
  else match s.domeSt d with
    | .free => (s, stDenied)
    | .teardown => (s, stTeardown)
    | .active =>
      if (s.keySlot d gen).st ≠ .empty then (s, stBusy)
      else match s.queenAsk a with
        | (s, some _) => (s, stRemote)
        | (s, none) => (s.putKey d gen (BitVec.ofNat 512 (kdBytes m 8 64)), stOK)

/-- The state of the slot a KEY_DELIVER names, as its response gives it. -/
def State.kdSlot (s : State) (m : BitVec 640) : Nat :=
  let gen := bits m.toNat 40 1
  if kdBytes m 4 1 = 1 then (if (SMap.find (s.ryPort (bits m.toNat 48 4)).keys gen).isSome then 1 else 0)
  else (s.keySlot (bits m.toNat 16 12) gen).st.code

/-- KEY_DELIVER: its response carries the Dome, the status and the slot's state (R307). A frozen device installs nothing
(R360). -/
def State.keyDeliver (s : State) (sess : Nat) (m : BitVec 640) (a : QAns) : State × Resp :=
  let (s, st) := if s.pwr.frozen then (s, stBusy) else s.keyDeliverSt sess m a
  (s, ⟨0x4B81, st, [bits m.toNat 16 12, s.kdSlot m]⟩)

def execKeyDeliver (sess : Fin 256) (m : BitVec 640) (a : QAns) (s : State) : Result :=
  run1 s fun s => State.reply (s.keyDeliver sess.val m a)

/-! ## Bindings and link generations (R305, R314) -/

/-- The digest staged in SEC_BIND_HASH0 to SEC_BIND_HASH11. -/
def State.bindStaged (s : State) : BitVec 384 :=
  BitVec.ofNat 384 ((List.range 12).foldl (fun a j => a + (s.rd R.SEC_BIND_HASH 0 j).toNat * 2 ^ (32 * j)) 0)

/-- A write of SEC_BIND_CTL. -/
def State.bindCtlWrite (s : State) (v : Word) : State :=
  let s := s.wrCodes R.SEC_BIND_CTL v
  if !F.SEC_BIND_CTL_commit.on v then s
  else
    let d := s.fN F.SEC_DOME_IDX_dome
    if d = 0 || s.domeSt d != .free then s.fFlag F.SEC_BIND_CTL_refused true
    else
      { s with sec := { s.sec with bind := SMap.put s.sec.bind d s.bindStaged } }.fFlag F.SEC_BIND_CTL_refused false

/-- BIND_COMMIT: a write of SEC_BIND_CTL with commit = 1. -/
def execBindCommit (s : State) : Result := run s fun s => s.bindCtlWrite 1

/-- A write of SEC_LINK_n. -/
def State.secLinkWrite (s : State) (p : Nat) (v : Word) : State :=
  let r := s.ryPort p
  let other := 1 - r.txGen
  if !F.SEC_LINK_switch.on v || (SMap.find r.keys other).isNone then s
  else if r.txEpoch = 0 then s.setRy p { r with txGen := other, switchReq := false }
  else s.setRy p { r with switchReq := true }

/-- LINK_KEY_SWITCH: a write of SEC_LINK_n with switch = 1. -/
def execLinkKeySwitch (p : Fin 12) (s : State) : Result := run s fun s => s.secLinkWrite p.val 0x10

/-! ## The rekey sweep (R312) -/

def State.putSweep (s : State) (w : Sweep) : State :=
  { s with sec := { s.sec with sweeps := s.sec.sweeps.map fun x => if x.cell == w.cell then w else x } }

/-- The sweep's pointer moves past a line. -/
def State.sweepSkip (s : State) (w : Sweep) : State := s.putSweep { w with ptr := w.ptr + 1 }

/-- Re-encrypts one line whose lock the sweep holds: its data, read from its cached copy or under the old generation, are
written under the new one and the cached copy is marked clean. -/
def State.sweepStore (s : State) (w : Sweep) (t : Tx) (l : Line) (ch loc : Nat) : State :=
  let s := (s.sweepSkip w).chStore ch loc t.line l t.pri 0 true
  (match s.honey.lookup t.line with
    | some (k, x) => { s with honey := { s.honey with lines := SMap.put s.honey.lines k { x with dirty := false } } }
    | none => s).dropTx t

-- Log entry 91: DEDUCED, unsafe.
/-- One line of a sweep: skipped where its valid bit is 0 or its channel has failed, else read through the home as RdCur,
its lock held, and stored (R145, R312). False where it waits. -/
def State.sweepLine (s : State) (w : Sweep) : State × Bool :=
  let line := w.cell * 1024 + w.ptr
  let o := Origin.sweep w.cell
  match s.locate (line * 64) with
  | none => (s.sweepSkip w, true)
  | some (ch, loc) =>
    match s.engAns o line false fullBe with
    | some _ => ((s.dropAns o).sweepSkip w, true)
    | none =>
      match s.engTx o line false fullBe, s.chSt ch with
      | some t, .ok => (match t.stage, t.got with
        | .engine, some (.ok l) => (s.sweepStore w t l ch loc, true)
        | _, _ => (s, false))
      | some _, .maint => (s, false)
      | some t, .failed => (if t.stage = .engine then ((s.dropTx t).sweepSkip w, true) else (s, false))
      | none, .maint => (s, false)
      | none, .failed => (s.sweepSkip w, true)
      | none, .ok =>
        match s.loadValid line (.of 35) with
        | (s, some false) => (s.sweepSkip w, true)
        | (s, _) =>
          let s := s.engEnter { newTx .rdCur o 0 line 35 with maint := true, upd := true }
          (s, (s.engAns o line false fullBe).isSome || (s.engTx o line false fullBe).any fun t => t.stage == .engine)

-- Log entry 91: DEDUCED, unsafe.
/-- The sweep goes on from its pointer: true once it has passed its cell's last line. -/
def State.sweepFrom (cell : Nat) : Nat → State → State × Bool
  | 0, s => (s, false)
  | fuel + 1, s =>
    match s.sec.sweeps.find? fun w => w.cell == cell with
    | none => (s, false)
    | some w =>
      if 1024 ≤ w.ptr then (s, true)
      else match s.sweepLine w with
        | (s, true) => State.sweepFrom cell fuel s
        | (s, false) => (s, false)

-- Log entry 91: DEDUCED, unsafe.
/-- A sweep with leave takes a cell that does not migrate, under the lock of its cell-table line: key_gen is inverted and
the pointer set to 0. -/
def State.sweepStart (s : State) (w : Sweep) : State :=
  if !s.entryFree w.cell then s
  else match s.loadEntry w.cell (.of 35) with
    | (s, some (some e)) => (s.putEntry w.cell (e ^^^ 0x2000) (.of 35)).putSweep { w with ptr := 0 }
    | (s, _) => s

/-- A sweep has passed its cell's last line. -/
def State.sweepEnded (s : State) (w : Sweep) : State :=
  let s := { s with sec := { s.sec with sweeps := s.sec.sweeps.filter fun x => x.cell != w.cell } }
  let s := (s.pguReturn (.sweep w.cell)).decOld w.dome
  match s.cmd w.cmd with
  | some c => s.putCmd w.cmd { c with aux := c.aux + 1 }
  | none => s

-- Log entry 91: DEDUCED, unsafe.
/-- A sweep engine works on its cell. `ptr` is 1,024 while it has not begun. -/
def State.sweepCell (s : State) (cell : Nat) : State :=
  match s.sec.sweeps.find? fun w => w.cell == cell with
  | none => s
  | some w =>
    if !s.hasLeave (.sweep cell) || (s.slotOf cell).isSome then s
    else
      let s := if w.ptr = 1024 then s.sweepStart w else s
      match s.sec.sweeps.find? fun w => w.cell == cell with
      | none => s
      | some w1 =>
        if 1024 ≤ w1.ptr then s
        else match State.sweepFrom cell 2100 s with
          | (s, true) => s.sweepEnded w1
          | (s, false) => s

/-- SWEEP_CELL. -/
def execSweepCell (cell : Fin 536870912) (s : State) : Result := run s fun s => s.sweepCell cell.val

end Sys2Proof.Machine
end

