-- ==== Sys2Proof/Machine/Belfry.lean ====
section
/-!
DEFINITION. The Belfry (R319 - R332): deliveries, effective actions, records and merging, the archive ring, overflow
summaries, Dome stop, the device fault state.
-/
namespace Sys2Proof.Machine

/-! ## Sources and their domains (R319, R320) -/

/-- The power domain a source lies in. -/
def srcDomain (n : Nat) : Nat :=
  if n < 16 then 4
  else if n < 24 then 2
  else if n < 64 then 3
  else if n < 448 then 7 + (n - 64) / 64
  else if n < 640 then 13 + (n - 448) / 48
  else if n < 896 then 17 + (n - 640) / 128
  else 19 + (n - 896) / 96

/-- A source's pair is driven: the source exists and its domain is on. -/
def State.srcDriven (s : State) (n : Nat) : Bool := (srcInfo n).isSome && s.domainOn (srcDomain n)

def State.setPair (s : State) (n : Nat) (p : PairSt) : State :=
  { s with bel := { s.bel with pairs := SMap.store s.bel.pairs ⟨false, false⟩ n p } }

/-- The sources whose address is a DPA. -/
def addrIsDpa (n : Nat) : Bool := n == 1 || (3 ≤ n && n ≤ 8) || (11 ≤ n && n ≤ 13)

/-! ## Dome stop (R329) -/

-- Log entry 93: DEDUCED, unsafe.
def State.domeStop (s : State) (d : Nat) : State :=
  let qs := s.q.desc.filter fun e => e.2.dome == d && e.2.state == .active
  let s := qs.foldl (fun s e => s.haltQueue e.1 e.2) s
  let s := { s with bel := { s.bel with stops := SMap.put s.bel.stops d (SMap.findD s.bel.stops d 0 + 1) } }
  s.vecRaise d 15

/-! ## The device fault state (R330 - R332) -/

/-- The next entry is latched. -/
def State.dfsLatches (s : State) : Bool :=
  s.fN F.BELFRY_DFS_CTL_limit != 0 && decide (s.fN F.BELFRY_DFS_CTL_limit ≤ s.bel.recoveries)

-- Log entry 93: DEDUCED, unsafe.
/-- Action F: the device enters the state. A fault in it restarts the quiet period, which is time alone. -/
def State.dfsFault (s : State) : State :=
  if s.bel.active then s
  else
    let l := s.dfsLatches
    let s := { s with bel := { s.bel with active := true, latched := l } }
    let s := s.q.desc.foldl (fun s e => s.dropOrigin (.queue e.1)) s
    let s := (s.wagEvent 6).addEvent 3 7 0
    if l then s.wagEvent 7 else s

/-- The quiet timer runs. -/
def State.quietRuns (s : State) : Bool :=
  s.bel.active && !s.bel.latched && !s.fB F.GLOBAL_VMAP_STATUS_recovery && !s.fB F.BELFRY_DFS_CTL_hold

/-- The quiet timer expires: the state is left, and what waited goes on. -/
def State.quietExpiry (s : State) : State :=
  if s.quietRuns then
    let s := { s with bel := { s.bel with active := false, recoveries := min 0xFFFF (s.bel.recoveries + 1) } }
    (s.wagEvent 7).redispatch
  else s

/-- QUIET_EXPIRY. -/
def execQuietExpiry (s : State) : Result := run s fun s => s.quietExpiry

/-- A write of BELFRY_DFS_CTL. -/
def State.dfsCtlWrite (s : State) (v : Word) : State :=
  let s := s.wrCodes R.BELFRY_DFS_CTL v
  if F.BELFRY_DFS_CTL_clr_count.on v then { s with bel := { s.bel with recoveries := 0 } } else s

/-- CLR_COUNT: clr_count written with the other fields as they stand. -/
def execClrCount (s : State) : Result := run s fun s => s.dfsCtlWrite (s.rd R.BELFRY_DFS_CTL ||| 0x02000000)

/-! ## Records (R324 - R328) -/

/-- A closed record's slot is freed once its archive write has left the home. -/
def State.archived (s : State) (r : FaultRec) : Bool :=
  match r.arch with
  | none => false
  | some a => let mine := fun (t : Tx) => t.origin == .device && t.line == s.archiveAddr a / 64
    !(s.home.txs.any mine || s.home.held.any fun h => mine h.tx)

def State.recTidy (s : State) : State :=
  { s with bel := { s.bel with recs := s.bel.recs.filter fun e => !s.archived e.2 } }

/-- The oldest of some records. -/
def oldestRec (l : List (Nat × FaultRec)) : Option (Nat × FaultRec) :=
  l.foldl (fun (acc : Option (Nat × FaultRec)) e =>
    match acc with
    | none => some e
    | some b => if e.2.seq < b.2.seq then some e else some b) none

/-- Whether an open record takes a fault (R325). -/
def merges (r : FaultRec) (cls : Nat) (distinct : Bool) (e : FaultEvt) : Bool :=
  r.arch.isNone && r.cls == cls && r.dome == e.dome &&
    ((r.src == e.src && (!distinct || r.addr == e.addr)) || (cls == 1 && e.dome != 0))

def State.mergeRec (s : State) (cls : Nat) (distinct : Bool) (e : FaultEvt) : Option (Nat × FaultRec) :=
  oldestRec (s.bel.recs.filter fun r => merges r.2 cls distinct e)

/-- A merged record. -/
def FaultRec.merge (r : FaultRec) (e : FaultEvt) : FaultRec :=
  { r with merges := min 0xFFFF (r.merges + e.count),
           multi := r.multi || r.src != e.src || r.addr != e.addr || r.ctx != e.ctx }

def State.putRec (s : State) (k : Nat) (r : FaultRec) : State := { s with bel := { s.bel with recs := SMap.put s.bel.recs k r } }

/-- The log of a fault that merges with no record: a new record in the lowest free slot, or the overflow summary. -/
def State.newRec (s : State) (cls : Nat) (e : FaultEvt) (acts : Nat) : State :=
  match SMap.firstFree s.bel.recs 512 with
  | some k =>
    let r : FaultRec := ⟨e.src, cls, e.addr, false, e.dome, e.ctx, e.count - 1, acts, e.detail, s.bel.seq, s.refCount, none, false⟩
    let s := s.putRec k r
    { s with bel := { s.bel with seq := s.bel.seq + 1 } }
  | none => s.overflowRec cls e.src e.count

/-! ## Actions (R322, R323) -/

-- Log entry 93: DEDUCED, unsafe.
/-- Action P: a tenant line at the fault's own address is written poisoned where the charged Dome reaches it or none is
charged. Gives whether it was. -/
def State.poisonAct (s : State) (e : FaultEvt) : State × Bool :=
  match e.addr with
  | none => (s, false)
  | some a =>
    if !addrIsDpa e.src || s.area (a / 64 * 64) != .tenant then (s, false)
    else
      let own := match s.cellEntry (a / 65536) with
        | some c => e.dome == 0 || (!ceCorrupt c && s.ownerCheck (BitVec.ofNat 16 (e.dome * 16)) (a / 64) c)
        | none => e.dome == 0
      if own then (s.deviceWrite (a / 64) Line.zero 33 true, true) else (s, false)

-- Log entry 93: DEDUCED, unsafe.
/-- The class and effective actions of a fault: its source's actions under its class's mask, with the class's forced
ones; a wire fault has its class mask alone. -/
def State.faultActs (s : State) (e : FaultEvt) : Nat × Nat :=
  let cls := if e.wire then 3 else bits (s.srcCfg e.src).toNat 1 3
  let c := s.rd R.BELFRY_CLASS_ACT 0 cls
  let mask := c &&& 0x1F
  let forced := (c >>> 8) &&& 0x1F
  let own := (s.srcCfg e.src >>> 7) &&& 0x1F
  (cls, (if e.wire then mask else (own &&& mask) ||| forced).toNat)

/-- A fault that the Belfry takes: its actions in the order P, S, F, L, I. I and S are not taken again on a record that
has them. -/
def State.faultIn (s : State) (e : FaultEvt) : State :=
  let (cls, acts) := s.faultActs e
  let distinct := !e.wire && (match srcInfo e.src with | some (_, _, d) => d | none => false)
  let s := s.recTidy
  let hit := if bit acts 0 then s.mergeRec cls distinct e else none
  let had := match hit with | some (_, r) => r.actions | none => 0
  let (s, p) := if bit acts 2 then s.poisonAct e else (s, false)
  let doS := bit acts 3 && e.dome != 0 && !bit had 3
  let s := if doS then s.domeStop e.dome else s
  let s := if bit acts 4 then s.dfsFault else s
  let doI := bit acts 1 && !bit had 1
  let one := fun (b : Bool) (i : Nat) => if b then 2 ^ i else 0
  let taken := one (bit acts 0) 0 + one doI 1 + one p 2 + one doS 3 + one (bit acts 4) 4
  let s := if !bit acts 0 then s
    else match hit with
      | some (k, _) =>
        (match SMap.find s.bel.recs k with
          | some r => s.putRec k { r.merge e with actions := r.actions ||| taken }
          | none => s)
      | none => s.newRec cls e taken
  if doI then
    let s := s.wagEvent cls
    if e.dome != 0 && !doS then s.vecRaise e.dome 15 else s
  else s

/-! ## Deliveries (R321, R326) -/

/-- The oldest event of each source that can deliver, in ascending source number. -/
def State.dueEvts (s : State) : List FaultEvt :=
  let ok := s.bel.evts.filter fun e => s.srcDriven e.src && !s.srcBroken e.src
  let one := ok.foldl (fun (l : List FaultEvt) e => if l.any fun x => x.src == e.src then l else l ++ [e]) []
  one.mergeSort fun a b => decide (a.src ≤ b.src)

/-- The deliveries of one reference cycle. -/
def State.deliverEvts (s : State) : State :=
  let due := s.dueEvts
  let s := { s with bel := { s.bel with evts := due.foldl (fun l e => l.erase e) s.bel.evts } }
  due.foldl (fun s e => s.faultIn e) s

/-- FAULT_EVENT. -/
def execFaultEvent (s : State) : Result := run s fun s => s.deliverEvts

-- Log entry 93: DEDUCED, unsafe.
/-- A wire fault: the pair is invalid in two samples; `stays` says that it remains so. -/
def State.wireFault (s : State) (n : Nat) (stays : Bool) : State :=
  if !s.srcDriven n then s
  else if s.srcBroken n then s.setPair n ⟨stays, true⟩
  else (s.setPair n ⟨stays, true⟩).faultIn ⟨n, 0, 0, none, 0, 1, true⟩

/-- WIRE_FAULT. -/
def execWireFault (n : Fin 1536) (stays : Bool) (s : State) : Result := run s fun s => s.wireFault n.val stays

/-! ## The Belfry's registers (R320, R322, R327, R328) -/

-- Log entry 93: DEDUCED, unsafe.
/-- A write of BELFRY_SRC_CFG. Of a reserved source nothing can be set. -/
def State.srcCfgWrite (s : State) (v : Word) : State :=
  let n := s.fN F.BELFRY_SRC_IDX_source
  match srcInfo n with
  | none => s
  | some (c, _, _) =>
    let old := s.srcCfg n
    let en : Word := if c = 2 then 1 else v &&& 1
    let new := (old &&& ~~~0xF81#32) ||| (v &&& 0xF80) ||| en
    let s := { s with bel := { s.bel with cfg := SMap.store s.bel.cfg (srcCfgReset n) n new } }
    let pair := SMap.findD s.bel.pairs n ⟨false, false⟩
    let s := if F.BELFRY_SRC_CFG_broken.on v && !pair.invalid then s.setPair n ⟨false, false⟩ else s
    if F.BELFRY_SRC_CFG_inject.on v then s.raise n else s

/-- FAULT_INJECT: inject written with the other fields as they stand. -/
def execFaultInject (s : State) : Result :=
  run s fun s => s.srcCfgWrite (s.srcCfg (s.fN F.BELFRY_SRC_IDX_source) ||| 0x40000000)

/-- BROKEN_CLEAR: 1 written to broken with the other fields as they stand; `invalid` says whether the pair still is. -/
def execBrokenClear (invalid : Bool) (s : State) : Result :=
  run s fun s =>
    let n := s.fN F.BELFRY_SRC_IDX_source
    let s := if s.srcBroken n then s.setPair n ⟨invalid, true⟩ else s
    s.srcCfgWrite (s.srcCfg n ||| 0x80000000)

/-- The actions a class never permits read 0 in its mask. -/
def classPermits (c : Nat) : Word := ([0x07, 0x0F, 0x1F, 0x13, 0x13] : List Word).getD c 0

/-- A write of BELFRY_CLASS_ACTc. -/
def State.classActWrite (s : State) (c : Nat) (v : Word) : State := s.wrCodes R.BELFRY_CLASS_ACT (v &&& classPermits c) 0 c

/-- A read of BELFRY_REC_NEXT: the oldest unread record, now read. -/
def State.recNext (s : State) : State × Word :=
  let s := s.recTidy
  match oldestRec (s.bel.recs.filter fun e => !e.2.read) with
  | some (k, r) => (s.putRec k { r with read := true }, BitVec.ofNat 32 (2 ^ 31 + k))
  | none => (s, 0)

/-- REC_NEXT. -/
def execRecNext (s : State) : Result :=
  run s fun s => let (s, v) := s.recNext; s.emit (.csr (R.BELFRY_REC_NEXT.addr 0 0) v)

/-- A word of a record (R324). -/
def FaultRec.word (r : FaultRec) (n : Nat) : Word :=
  let a := r.addr.getD 0
  let v : Nat := match n with
    | 0 => r.src + r.cls * 2 ^ 11 + (if r.addr.isSome then 2 ^ 14 else 0) + (if r.multi then 2 ^ 15 else 0) + r.dome * 2 ^ 16
    | 1 => r.ctx.toNat + r.merges * 2 ^ 16
    | 2 => a % 2 ^ 32
    | 3 => bits a 32 13 + r.actions * 2 ^ 16
    | 4 => r.detail % 2 ^ 32
    | 5 => r.seq % 2 ^ 32
    | 6 => r.time % 2 ^ 32
    | _ => bits r.time 32 16
  BitVec.ofNat 32 v

/-- A record's 32 bytes. -/
def FaultRec.image (r : FaultRec) : Nat := (List.range 8).foldl (fun a n => a + (r.word n).toNat * 2 ^ (32 * n)) 0

/-- A write of BELFRY_REC_CLOSE: the record is closed and appended to the archive ring. -/
def State.recClose (s : State) (k : Nat) : State :=
  let s := s.recTidy
  match SMap.find s.bel.recs k with
  | none => s
  | some r =>
    if r.arch.isSome then s
    else
      let a := s.bel.archNext
      let n := (a + 1) % 2 ^ 21
      let s := s.putRec k { r with arch := some a }
      let s := { s with bel := { s.bel with archNext := n, archWrapped := s.bel.archWrapped || n == 0 } }
      let half := a % 2
      let data : Line := ⟨BitVec.ofNat 512 (r.image * 2 ^ (256 * half)), 0⟩
      (s.deviceTx { newTx .plainWr .device 0 (s.archiveAddr a / 64) 33 with
        wdata := data, be := rangeBe (32 * half) 32, fill := some 0, maint := true }).recTidy

/-- REC_CLOSE. -/
def execRecClose (k : Fin 512) (s : State) : Result := run s fun s => s.recClose k.val

/-- A read of BELFRY_OVF_CNTc. -/
def State.ovfRead (s : State) (c : Nat) : State × Word :=
  let o := SMap.findD s.bel.ovf c ⟨0, false, 0, 0⟩
  ({ s with bel := { s.bel with ovf := SMap.del s.bel.ovf c } }, BitVec.ofNat 32 o.lost)

/-- OVF_CNT_READ. -/
def execOvfCntRead (c : Fin 5) (s : State) : Result :=
  run s fun s => let (s, v) := s.ovfRead c; s.emit (.csr (R.BELFRY_OVF_CNT.addr 0 c) v)

/-! ### Registers that show the Belfry's state -/

def State.recStatus (s : State) : Word :=
  let s := s.recTidy
  BitVec.ofNat 32 (s.bel.recs.length + ((s.bel.recs.filter fun e => !e.2.read).length) * 2 ^ 16)

def State.recShown (s : State) (n : Nat) : Word :=
  match SMap.find s.recTidy.bel.recs (s.fN F.BELFRY_REC_IDX_slot) with
  | some r => r.word n
  | none => 0

def State.srcCfgShown (s : State) : Word :=
  let n := s.fN F.BELFRY_SRC_IDX_source
  s.srcCfg n ||| (if s.srcBroken n then 0x80000000 else 0)

def State.ovfSrcShown (s : State) (c : Nat) : Word :=
  let o := SMap.findD s.bel.ovf c ⟨0, false, 0, 0⟩
  BitVec.ofNat 32 ((if o.valid then 2 ^ 31 else 0) + o.last * 2 ^ 16 + o.first)

def State.dfsStatus (s : State) : Word :=
  let one := fun (b : Bool) (i : Nat) => if b then 2 ^ i else 0
  let wait := s.bel.active && !s.bel.latched && !s.quietRuns
  BitVec.ofNat 32 (s.bel.recoveries * 2 ^ 16 + one s.bel.latched 3 + one wait 2 + one s.quietRuns 1 + one s.bel.active 0)

def State.archStatus (s : State) : Word := BitVec.ofNat 32 ((if s.bel.archWrapped then 2 ^ 31 else 0) + s.bel.archNext)

end Sys2Proof.Machine
end

