-- ==== Sys2Proof/Machine/DramCmds.lean ====
section
/-!
DEFINITION. The DRAM channels' commands (R54 - R98): scheduling, data, refresh, calibration, temperature, command and
address errors, training, raw test operations, remap operations, the Forager, the valid map and the layout lock.
-/
namespace Sys2Proof.Machine

/-! ## The scheduler's commands (R58 - R69) -/

/-- A request of urgency 7 that goes before a refresh that is due and could issue postpones it (R63). -/
def State.overtake (s : State) (ch sc : Nat) (c : Cand) : State :=
  match (if c.eff = 7 then s.refRank ch sc else none) with
  | some r => s.postpone ch sc r
  | none => s

/-- DRAM_COMMAND_ISSUE: the next command of the request the scheduler chooses. Accesses the home keeps for want of a queue
entry then try again (R54). -/
def State.dramIssue (s : State) (ch sc : Nat) : State :=
  match s.schedule ch sc with
  | .req c => ((s.overtake ch sc c).issue ch sc c).retryKept
  | _ => s

def execDramCommandIssue (ch : Fin 24) (sc : Fin 2) (s : State) : Result := run s fun s => s.dramIssue ch sc

/-- Refreshes the debt DCH_STATUS shows: the largest over the ranks, in tREFI units (R63). -/
def State.showDebt (s : State) (ch : Nat) : State :=
  let c := s.chan ch
  s.fSet F.DCH_STATUS_ref_debt (max c.sub0.debt c.sub1.debt / 4) ch

/-- REFSB_ISSUE: the next command of a due or forced REFsb, where the scheduler chooses refresh. -/
def State.refsbIssue (s : State) (ch sc : Nat) : State :=
  match s.schedule ch sc with
  | .refresh => (s.issueRef ch sc).showDebt ch
  | _ => s

def execRefsbIssue (ch : Fin 24) (sc : Fin 2) (s : State) : Result := run s fun s => s.refsbIssue ch sc

/-- Whether tREFI is halved: force_2x, or temp_auto above temperature (R64). -/
def State.halfRefi (s : State) (ch : Nat) : Bool :=
  s.fB F.DCH_REF_CTL_force_2x ch || (s.fB F.DCH_REF_CTL_temp_auto ch && (s.chan ch).hot)

/-- Ticks between two REFsb of a rank: tREFI / 4 controller cycles (R62). -/
def State.refInterval (s : State) (ch : Nat) : Nat :=
  s.fN F.DCH_REF_CTL_trefi ch * s.ctlTicks / (if s.halfRefi ch then 8 else 4)

/-- Whether a subchannel has a ready request of urgency 7 (R63). -/
def State.ready7 (s : State) (ch sc : Nat) : Bool := (s.cands ch sc).any fun c => c.eff == 7

/-- The first time after `last` at which a rank's REFsb becomes due: the ranks are staggered evenly across the interval
(R62). -/
def State.refPhase (s : State) (ch rank last : Nat) : Nat :=
  let i := max 1 (s.refInterval ch)
  let ph := rank * i / s.rankCount ch
  if last < ph then ph else ph + ((last - ph) / i + 1) * i

/-- REFRESH_DUE: a rank's next REFsb has become due; it is counted as postponed where a ready urgency-7 request holds it off
and the limit is not reached (R63). -/
def State.refreshDue (s : State) (ch sc rank : Nat) : State :=
  let x := s.sub ch sc
  let t := s.refPhase ch rank (SMap.findD x.refAt rank 0)
  if !(s.fB F.DCH_CFG_enable ch && (s.chan ch).trained && !(s.chan ch).selfRefresh) || s.rankCount ch ≤ rank || s.pwr.rootTime < t
  then s
  else
    let x := { x with refDue := SMap.put x.refDue rank (SMap.findD x.refDue rank 0 + 1), refAt := SMap.put x.refAt rank t }
    let put := s.ready7 ch sc && decide (x.debt ≤ s.postponeLimit ch)
    let s := (s.setSub ch sc x).showDebt ch
    if put then s.postpone ch sc rank else s

def execRefreshDue (ch : Fin 24) (sc : Fin 2) (rank : Fin 16) (s : State) : Result :=
  run s fun s => s.refreshDue ch sc rank

/-- RFM_ISSUE: the next command of a due or forced RFM, where the scheduler chooses it (R68). -/
def State.rfmIssue (s : State) (ch sc : Nat) : State :=
  match s.schedule ch sc with
  | .rfm k => s.issueRfm ch sc k
  | _ => s

def execRfmIssue (ch : Fin 24) (sc : Fin 2) (s : State) : Result := run s fun s => s.rfmIssue ch sc

/-- NEIGHBOUR_SET: the next ACTIVATE or PRECHARGE of a neighbour set, where the scheduler chooses it (R66). -/
def State.neighbourSet (s : State) (ch sc : Nat) : State :=
  match s.schedule ch sc with
  | .neighbour => s.issueNbr ch sc
  | _ => s

def execNeighbourSet (ch : Fin 24) (sc : Fin 2) (s : State) : Result := run s fun s => s.neighbourSet ch sc

/-- ZQ_CALIBRATION: every 128 ms for the devices of each package rank on each subchannel. -/
def State.zqCal (s : State) (ch sc prank : Nat) : State :=
  let x := s.sub ch sc
  if s.calOk ch sc prank x.zqAt (ms 128) then
    (s.setSub ch sc { x with zqAt := SMap.put x.zqAt prank s.pwr.rootTime }).noteStep ch sc .zq prank 0 0 0
  else s

def execZqCalibration (ch : Fin 24) (sc : Fin 2) (prank : Fin 4) (s : State) : Result :=
  run s fun s => s.zqCal ch sc prank

/-- DQS_OSC_READ: every 32 ms for the devices of each package rank on each subchannel. -/
def State.dqsOsc (s : State) (ch sc prank : Nat) : State :=
  let x := s.sub ch sc
  if s.calOk ch sc prank x.oscAt (ms 32) then
    (s.setSub ch sc { x with oscAt := SMap.put x.oscAt prank s.pwr.rootTime }).noteStep ch sc .osc prank 0 0 0
  else s

def execDqsOscRead (ch : Fin 24) (sc : Fin 2) (prank : Fin 4) (s : State) : Result := run s fun s => s.dqsOsc ch sc prank

/-- ROW_CLOSE_IDLE: a row with no column command for row_close_idle cycles and no pending request is closed; 0 and
4,095 close none (R59). -/
def State.rowCloseIdle (s : State) (ch sc key : Nat) : State :=
  let x := s.sub ch sc
  let n := s.fN F.DCH_SCHED_CTL_row_close_idle ch
  match SMap.find x.rows key with
  | none => s
  | some row =>
    let hit := fun loc => let c := s.coord ch loc; c.key == key && c.row == row
    let wanted := x.rq.any (fun r => hit r.loc) || x.wq.any fun w => hit w.loc
    let idle := decide (SMap.findD x.lastCol key 0 + n * s.ctlTicks ≤ s.pwr.rootTime)
    if n ≠ 0 ∧ n ≠ 4095 ∧ !wanted ∧ idle ∧ s.schedOn ch sc ∧ x.nbr.isNone ∧ x.started.isNone ∧ x.rfmOn.isNone ∧
        s.cmdOk ch sc .pre (key / 32) (key / 4 % 8) (key % 4) then
      s.issuePre ch sc (key / 32) (key / 4 % 8) (key % 4)
    else s

def execRowCloseIdle (ch : Fin 24) (sc : Fin 2) (rank : Fin 16) (bg : Fin 8) (bank : Fin 4) (s : State) : Result :=
  run s fun s => s.rowCloseIdle ch sc (bankKey rank bg bank)

/-! ## Read data (R82 - R91) -/

-- Log entry 31: DESIGN CHOICE, safe.
/-- DRAM_READ_DATA: the oldest read whose burst is due returns with `flips`, the bits that changed in the arrays or on
the way. A hint's data is filled as R108 says. -/
def State.readData (s : State) (ch sc : Nat) (flips : Stored) : State :=
  let x := s.sub ch sc
  match x.flight with
  | [] => s
  | f :: rest =>
    if s.pwr.rootTime < f.due || x.alert then s
    else
      let s := s.setSub ch sc { x with flight := rest }
      let v := f.beats ^^^ flips
      let ds := decodeWords v
      let u := ueMask ds
      let s := (s.logCes ch f.ent.loc ds).countUe ch u
      let l := s.decodeFor f.ent.line v
      let p : Pri := ⟨f.ent.cls, f.ent.target0, some f.ent.entry⟩
      let (s, l, dirty) := s.metaUe (f.ent.line * 64) ch f.ent.loc l u true
      let s := if dirty then s.chStore ch f.ent.loc f.ent.line l p 0 true else s
      match f.ent.tx with
      | some id =>
        (match s.tx id with
          | some t => (if t.rewrites then s.rmwUe ch f.ent.loc u else s).dramArrive t p l
          | none => s)
      | none =>
        if (s.honey.lookup f.ent.line).isSome || s.lineKey f.ent.line = .retired || s.fillWaits f.ent.line (some (domeOf f.ent.ctx)) p
        then s
        else s.hFill f.ent.line l false (domeOf f.ent.ctx) p

def execDramReadData (ch : Fin 24) (sc : Fin 2) (flips : Stored) (s : State) : Result :=
  run s fun s => s.readData ch sc flips

/-! ## Temperature (R64) -/

-- Log entry 31: DESIGN CHOICE, safe.
/-- THERMAL_READ: each module found reads its sensor while the channel's DRAM group is powered. -/
def State.thermalRead (s : State) (ch : Nat) (temps : List Nat) : State :=
  let c := s.chan ch
  let pairs := c.mods.zip temps
  let hot := pairs.any (fun p => decide (85 < p.2)) || (c.hot && pairs.any fun p => decide (82 < p.2))
  let hots := (pairs.filter fun p => decide (95 < p.2) && (match p.1 with | some t => decide (t ≤ 95) | none => true)).length
  let s := s.setChan ch { c with mods := pairs.map (fun p => some p.2) ++ c.mods.drop pairs.length, hot := hot }
  (List.range hots).foldl (fun s _ => (s.raise (64 + 16 * ch + 3)).addEvent 1 3 ch) s

/-- Two modules at most lie on a channel; the second reading counts where a second module is. -/
def execThermalRead (ch : Fin 24) (t0 t1 : Fin 256) (s : State) : Result :=
  .next (if s.pwr.pwrok && s.domainOn (7 + ch.val / 4) then s.thermalRead ch [t0, t1] else s)

/-! ## Command and address errors (R71 - R74) -/

/-- Whether an entry's class is a maintenance engine's: migration, sweep and teardown release, or the device's own. -/
def maintClass (cls : Nat) : Bool := cls == 34 || cls == 35

-- Log entry 34: DEDUCED, unsafe.
/-- The channel declares itself failed: queued reads receive the error response, queued writes are discarded (R74). -/
def State.failChannel (s : State) (ch : Nat) : State :=
  let c := s.chan ch
  let txs := (c.sub0.rq ++ c.sub1.rq).map (fun r => r.tx) ++ (c.sub0.flight ++ c.sub1.flight).map fun f => f.ent.tx
  let clear := fun (x : Subch) => { x with rq := [], wq := [], flight := [], retry := [], drain := false }
  let s := s.setChan ch { c with failed := true, sub0 := clear c.sub0, sub1 := clear c.sub1 }
  let s := ((s.fFlag F.DCH_STATUS_failed true ch).raise (64 + 16 * ch + 7)).addEvent 3 6 ch
  txs.foldl (fun s t => s.errorTx t) s

/-- Counts a final failure and fails the channel at fail_limit within 1 ms (R74). -/
def State.finalFailure (s : State) (ch : Nat) : State :=
  let s := s.bump F.DCH_CA_FAIL_CNT_final 1 ch
  let c := s.chan ch
  let now := s.pwr.rootTime
  let times := now :: c.failTimes.filter fun t => decide (now < t + ms 1)
  let s := s.setChan ch { c with failTimes := times }
  let lim := s.fN F.DCH_CA_CTL_fail_limit ch
  if lim ≠ 0 ∧ lim ≤ times.length ∧ !c.failed then s.failChannel ch else s

/-- Logs the latest final failure (R72). -/
def State.caLog (s : State) (ch loc kind : Nat) (ctx : Ctx) : State :=
  let s := s.fSet F.DCH_CA_LOG_LO_line_lo (bits loc 6 32) ch
  let s := (s.fSet F.DCH_CA_LOG_HI_ctx ctx.toNat ch).fFlag F.DCH_CA_LOG_HI_valid true ch
  let s := (s.fSet F.DCH_CA_LOG_HI_kind kind ch).fSet F.DCH_CA_LOG_HI_subchannel (bits loc 6 1) ch
  (s.fSet F.DCH_CA_LOG_HI_line_hi (bits loc 38 2) ch).addEvent 2 5 ((s.dpaOf ch loc).getD 0)

/-- The UE-Dome fault of a final failure, charged to the requesting Dome (R72, R73). -/
def State.caRaise (s : State) (ch loc : Nat) (ctx : Ctx) : State :=
  s.raise (64 + 16 * ch + 5) ctx (domeOf ctx) (some loc)

-- Log entry 32: DEDUCED, unsafe.
/-- A write that fails finally: poisoned in place, poisoned in a spare, or lost (R73). A line left poisoned is listed (R252). -/
def State.writeFail (s : State) (ch : Nat) (w : WrEnt) (a : Alert) : State :=
  let maint := w.maint || maintClass w.cls
  let ctx : Ctx := if maint then 0 else w.ctx
  let pois := (s.encodeFor w.line Line.poisoned).getD (encodeLine Line.poisoned)
  let charge := fun (s : State) => (if maint then s else s.caRaise ch w.loc ctx).addPoisonList w.line
  if a.poisonOk then
    charge ((s.storedPut ch w.loc pois).caLog ch w.loc (if a.crc then 4 else 3) ctx)
  else match (s.chan ch).freeSpare with
    | some k => charge (((s.remapPut ch k ⟨w.loc / 64 * 64, true, pois⟩).addEvent 1 1 w.loc).caLog ch w.loc 5 ctx)
    | none =>
      let (n, s) := s.draw
      let s := (s.storedPut ch w.loc (Config.undefinedLine ch (2 ^ 32 + n) (w.loc / 64))).addEvent 1 2 w.loc
      (s.caLog ch w.loc 6 ctx).raise (64 + 16 * ch + 6) 0 0 (some w.loc)

-- Log entry 32: DEDUCED, unsafe.
/-- A read that fails finally: the error response (R72). -/
def State.readFail (s : State) (ch : Nat) (f : Flight) (a : Alert) : State :=
  let ctx : Ctx := if maintClass f.ent.cls then 0 else f.ent.ctx
  let s := (s.caLog ch f.ent.loc (if a.crc then 2 else 1) ctx).caRaise ch f.ent.loc ctx
  s.errorTx f.ent.tx

/-- A neighbour set whose open row has been closed under it: the row is activated again. -/
def NbrSet.again (n : NbrSet) : NbrSet := { n with isOpen := false }

-- Log entry 32: DEDUCED, unsafe.
/-- The neighbour set an alert leaves to do: the one in progress from its current row on, or the last row of one whose
commands are not known to have completed. -/
def Subch.nbrAgain (x : Subch) (live : List RetryEnt) : Option NbrSet :=
  match x.nbr with
  | some n => some n.again
  | none => live.findSome? fun e => match e with
    | .cmd c => if c.kind = .act then some ⟨c.rank, c.bg, c.bank, [c.row], false⟩ else none
    | .wr _ _ => none

-- Log entry 32: DEDUCED, unsafe.
/-- The recovery of a subchannel: every bank precharged, then what the retry buffer holds issued again in order: reads and
writes, refresh, RFM and calibration commands, and the neighbour set in progress (R71). Steps that have started stay so. -/
def State.reissue (s : State) (ch sc : Nat) : State :=
  let x := s.sub ch sc
  let now := s.pwr.rootTime
  let pre := s.nckTicks (s.fN F.DCH_TIMING0_trp ch)
  let due := now + pre + s.nckTicks (s.fN F.DCH_TIMING0_trcd ch + s.fN F.DCH_TIMING0_cl ch + 8)
  let again := x.flight.map fun f => if f.spare then f else { f with beats := s.storedGet ch f.ent.loc, due := max f.due due }
  let live := x.retry.filter fun e => decide (now < e.time + s.busyTicks ch e)
  let isStep := fun (c : DCmd) => c.kind == .refsb || c.kind == .rfm || c.kind == .zq || c.kind == .osc
  let cmds := live.filterMap fun e => match e with
    | .cmd c => if isStep c then some { c with at_ := now + pre } else none
    | .wr _ _ => none
  let retry := live.filterMap fun e => match e with
    | .cmd c => if isStep c then some (.cmd { c with at_ := now + pre }) else none
    | .wr w _ => some (.wr w due)
  let x := { x with rows := [], lastCol := [], nbr := x.nbrAgain live, flight := again, retry := retry }
  let x := x.noteAt now ⟨.prea, 0, 0, 0, 0, now⟩
  s.setSub ch sc (cmds.foldl (fun x c => x.noteAt now c) x)

-- Log entries 31: DESIGN CHOICE, safe; 32: DEDUCED, unsafe.
/-- CA_ALERT: retries up to retry_limit; a command that still fails is final. The failing command is the oldest of its
kind in the retry buffer. -/
def State.caAlert (s : State) (ch sc : Nat) (a : Alert) : State :=
  if !(s.fB F.DCH_CFG_enable ch && (s.chan ch).trained) || (s.chan ch).failed || a.fails.val = 0 then s
  else
    let s := s.reissue ch sc
    if a.fails.val ≤ s.fN F.DCH_CA_CTL_retry_limit ch then s.bump F.DCH_CA_FAIL_CNT_retry_ok 1 ch
    else
      let x := s.sub ch sc
      if a.wr then
        match x.retry.findSome? fun e => match e with | .wr w t => some (w, RetryEnt.wr w t) | .cmd _ => none with
        | some (w, e) => ((s.setSub ch sc { x with retry := x.retry.erase e }).writeFail ch w a).finalFailure ch
        | none => s
      else match x.flight.find? fun f => !f.spare with
        | some f => ((s.setSub ch sc { x with flight := x.flight.erase f }).readFail ch f a).finalFailure ch
        | none => s

def execCaAlert (ch : Fin 24) (sc : Fin 2) (a : Alert) (s : State) : Result := run s fun s => s.caAlert ch sc a

/-! ## DCH_CFG and maintenance (R55, R76) -/

/-- Every field of the timing table is nonzero (R55). -/
def State.timingOk (s : State) (ch : Nat) : Bool :=
  [F.DCH_TIMING0_trp, F.DCH_TIMING0_trcd, F.DCH_TIMING0_cwl, F.DCH_TIMING0_cl, F.DCH_TIMING1_trtp, F.DCH_TIMING1_trc,
    F.DCH_TIMING1_tras, F.DCH_TIMING2_tfaw, F.DCH_TIMING2_trrd_l, F.DCH_TIMING2_trrd_s, F.DCH_TIMING2_twr,
    F.DCH_TIMING3_twtr_s, F.DCH_TIMING3_tccd_l_wr, F.DCH_TIMING3_tccd_l, F.DCH_TIMING3_tccd_s,
    F.DCH_TIMING4_trefsbrd, F.DCH_TIMING4_trtrs, F.DCH_TIMING4_trtw, F.DCH_TIMING4_twtr_l, F.DCH_TIMING5_trfc1,
    F.DCH_TIMING5_trfcsb, F.DCH_REF_CTL_trefi].all fun f => s.fN f ch != 0

/-- Whether an enable write with value `v` is accepted. -/
def State.dchEnableOk (s : State) (ch : Nat) (v : Word) : Bool :=
  let rb := F.DCH_CFG_row_bits.of v
  (rb == 16 || rb == 17) && decide (F.DCH_CFG_lrank_log2.of v ≤ 4) &&
    !(F.DCH_CFG_speed.on v && s.fB F.DCH_CFG_dpc ch) && s.timingOk ch &&
    decide (s.fN F.DCH_SCHED_CTL_wq_low ch < s.fN F.DCH_SCHED_CTL_wq_high ch)

/-- Refreshes DCH_STATUS.in_service: enabled, trained and its DRAM group powered. -/
def State.showService (s : State) (ch : Nat) : State :=
  s.fFlag F.DCH_STATUS_in_service
    (s.fB F.DCH_CFG_enable ch && (s.chan ch).trained && s.domainOn (7 + ch / 4)) ch

/-- Refresh begins with no debt: every rank's next REFsb is due at its next phase (R62, R78). -/
def State.refStart (s : State) (ch : Nat) : State :=
  let x := fun (x : Subch) => { x with refDue := [], putOff := [], refAt := (List.range 16).map fun r => (r, s.pwr.rootTime) }
  let c := s.chan ch
  (s.setChan ch { c with sub0 := x c.sub0, sub1 := x c.sub1 }).showDebt ch

/-- The write-drain mode follows the queue and its levels (R60). -/
def State.drainEval (s : State) (ch : Nat) : State :=
  let c := s.chan ch
  s.setChan ch { c with sub0 := s.drainMode ch c.sub0, sub1 := s.drainMode ch c.sub1 }

/-- A write of DCH_SCHED_CTL. -/
def State.schedCtlWrite (s : State) (ch : Nat) (v : Word) : State := (s.wrCodes R.DCH_SCHED_CTL v ch).drainEval ch

/-- DCH_CFG_WRITE: a refused enable leaves enable as it was and sets cfg_error; the other fields are stored. -/
def State.dchCfgWrite (s : State) (ch : Nat) (v : Word) : State :=
  let old := s.fB F.DCH_CFG_enable ch
  let s := s.wrCodes R.DCH_CFG v ch
  let s := if F.DCH_CFG_enable.on v && !s.dchEnableOk ch v then
      (s.fFlag F.DCH_CFG_enable old ch).fFlag F.DCH_STATUS_cfg_error true ch
    else s
  let s := if F.DCH_CFG_maint.on v then s else s.fFlag F.DCH_STATUS_maint_active false ch
  (if !old && s.fB F.DCH_CFG_enable ch then s.refStart ch else s).showService ch

def execDchCfgWrite (ch : Fin 24) (v : Word) (s : State) : Result := run s fun s => s.dchCfgWrite ch v

/-- Whether a channel holds no request. -/
def State.drained (s : State) (ch : Nat) : Bool :=
  let c := s.chan ch
  c.sub0.rq.isEmpty && c.sub0.wq.isEmpty && c.sub0.flight.isEmpty && c.sub1.rq.isEmpty && c.sub1.wq.isEmpty &&
    c.sub1.flight.isEmpty

/-- MAINT_ACTIVE: under maint every request in the channel is of before the setting; the last has completed. -/
def State.maintActive (s : State) (ch : Nat) : State :=
  if s.fB F.DCH_CFG_maint ch && s.drained ch then s.fFlag F.DCH_STATUS_maint_active true ch else s

def execMaintActive (ch : Fin 24) (s : State) : Result := run s fun s => s.maintActive ch

/-! ## Training (R75, R77) -/

-- Log entry 35: DEDUCED, unsafe.
/-- A write of DCH_TRAIN_CTL. Full training reads the modules' SPD first; their sensors are read from then on (R64). -/
def State.trainCtlWrite (s : State) (ch : Nat) (v : Word) : State :=
  if !F.DCH_TRAIN_CTL_start.on v then s
  else
    let full := F.DCH_TRAIN_CTL_full.on v
    let bad := s.fB F.DCH_TRAIN_STATUS_busy ch || s.fB F.DCH_CFG_speed ch != s.fB F.CLK_CTL_fast_dram ||
      (if full then s.fB F.GLOBAL_IL_STATUS_locked else !s.fB F.DCH_CFG_maint ch)
    if bad then s.fFlag F.DCH_TRAIN_STATUS_refused true ch
    else
      let c := s.chan ch
      let mods := if full then List.replicate (if s.fB F.DCH_CFG_dpc ch then 2 else 1) none else c.mods
      let s := { s.setChan ch { c with train := some (if full then .full else .maint), mods := mods, hot := !full && c.hot } with
        pwr := { s.pwr with trainStarted := true } }
      let s := s.fFlag F.DCH_TRAIN_STATUS_busy true ch
      if full then s else s.pguAsk 3 (.train ch)

/-- FULL_TRAINING: a start with full = 1. -/
def execFullTraining (ch : Fin 24) (s : State) : Result := run s fun s => s.trainCtlWrite ch 3

/-- MAINT_TRAINING: a start with full = 0. -/
def execMaintTraining (ch : Fin 24) (s : State) : Result := run s fun s => s.trainCtlWrite ch 1

-- Log entry 35: DEDUCED, unsafe.
/-- The configuration in flash caps the speed at DDR5-6000 (R51, R374). -/
def State.speedCapped (s : State) : Bool :=
  match s.cfgRec 1 with
  | some (o, n) => s.flashLe o n == 1
  | none => false

-- Log entry 35: DEDUCED, unsafe.
/-- A module outside the table of R50, a speed bin R51 does not allow, or modules whose capacity is not what their geometry
gives, fail training: 1 or 2 ranks a module, planar or stacked 2-high or 4-high. -/
def State.modulesOk (s : State) (ch : Nat) (r : TrainRes) : Bool :=
  let dpc2 := s.fB F.DCH_CFG_dpc ch
  let ranks := r.lrankLog2.val - r.stackLog2.val - (if dpc2 then 1 else 0)
  (r.rowBits.val == 16 || r.rowBits.val == 17) && decide (r.lrankLog2.val ≤ 4) && !(r.mrdimm && dpc2) &&
    decide (r.stackLog2.val ≤ 2 ∧ r.stackLog2.val + (if dpc2 then 1 else 0) ≤ r.lrankLog2.val ∧ ranks ≤ 1) &&
    r.dimms.val == (if dpc2 then 2 else 1) && decide (2 ^ (19 + r.rowBits.val + r.lrankLog2.val) = r.cap16g.val * 2 ^ 34) &&
    !(s.fB F.DCH_CFG_speed ch && (!r.bin8000 || s.speedCapped))

-- Log entry 31: DESIGN CHOICE, safe.
/-- TRAINING_DONE: full training leaves the arrays undefined; maintenance training runs with empty queues and leave
and keeps the earlier values where it fails. -/
def State.trainingDone (s : State) (ch : Nat) (r : TrainRes) : State :=
  let c := s.chan ch
  match c.train with
  | none => s
  | some .full =>
    let ok := r.pass && s.modulesOk ch r
    let s := s.setChan ch { c with train := none, trained := ok, array := [], metaInit := false, epoch := c.epoch + 1,
                                   mods := c.mods.take r.dimms.val ++ List.replicate (r.dimms.val - c.mods.length) none, stackLog2 := r.stackLog2,
                                   rfmInit := r.rfmInit, rfmMax := r.rfmMax }
    let s := ((s.fFlag F.DCH_TRAIN_STATUS_busy false ch).fFlag F.DCH_TRAIN_STATUS_pass ok ch).fFlag
      F.DCH_TRAIN_STATUS_fail (!ok) ch
    let s := (s.fFlag F.DCH_TRAIN_STATUS_slot1_ignored (r.slot1 && !s.fB F.DCH_CFG_dpc ch) ch).fSet F.DCH_TRAIN_STATUS_cap_16g r.cap16g ch
    let s := (s.fSet F.DCH_TRAIN_STATUS_lrank_log2 r.lrankLog2 ch).fSet F.DCH_TRAIN_STATUS_row_bits r.rowBits ch
    let s := (s.fFlag F.DCH_TRAIN_STATUS_bin_8000 r.bin8000 ch).fFlag F.DCH_TRAIN_STATUS_mrdimm r.mrdimm ch
    ((s.fSet F.DCH_TRAIN_STATUS_dimms r.dimms ch).refStart ch).showService ch
  | some .maint =>
    if !(s.drained ch && s.hasLeave (.train ch)) then s
    else
      let s := (s.setChan ch { c with train := none }).pguReturn (.train ch)
      ((s.fFlag F.DCH_TRAIN_STATUS_busy false ch).fFlag F.DCH_TRAIN_STATUS_pass r.pass ch).fFlag
        F.DCH_TRAIN_STATUS_fail (!r.pass) ch

def execTrainingDone (ch : Fin 24) (r : TrainRes) (s : State) : Result := run s fun s => s.trainingDone ch r

/-! ## Raw test operations (R93) -/

/-- A write of DCH_RAW_CTL. -/
def State.rawCtlWrite (s : State) (ch : Nat) (v : Word) : State :=
  let s := s.wrCodes R.DCH_RAW_CTL v ch
  let op := F.DCH_RAW_CTL_op.of v
  let loc := (s.fN F.DCH_RAW_CTL_addr_hi ch * 2 ^ 32 + s.fN F.DCH_RAW_ADDR_addr_lo ch) * 64
  let word := fun j => s.rd R.DCH_RAW_D ch j
  let m := fun j => s.fN F.DCH_RAW_M_check ch j + s.fN F.DCH_RAW_M_poison ch j * 128
  if op = 0 ∨ 4 < op then s
  else if !(s.fB F.DCH_CFG_maint ch && s.fB F.DCH_STATUS_maint_active ch) || s.chanCap ch ≤ loc then
    s.fFlag F.DCH_RAW_CTL_refused true ch
  else
    let v := s.arrayGet ch loc
    let ds := decodeWords v
    let rd := fun (s : State) (j : Nat) =>
      let b := beat v j
      (s.wr R.DCH_RAW_D (b.setWidth 32) ch j).wr R.DCH_RAW_M
        ((s.rd R.DCH_RAW_M ch j &&& 0xFFFFFF00) ||| (b.extractLsb' 32 8).setWidth 32) ch j
    let chk := fun (s : State) (x : Dec × Nat) =>
      let b := beat v x.2
      (s.wr R.DCH_RAW_D x.1.data ch x.2).wr R.DCH_RAW_M (BitVec.ofNat 32
        (bits b.toNat 32 7 + (if x.1.p then 128 else 0) + x.1.syn.toNat * 256 + x.1.action * 65536)) ch x.2
    let put := fun (f : Nat → BitVec 40) => s.arrayPut ch loc ((List.range 16).foldl (fun a j => setBeat a j (f j)) 0)
    if op = 1 then (List.range 16).foldl rd s
    else if op = 2 then put fun j => BitVec.ofNat 40 ((word j).toNat + m j * 2 ^ 32)
    else if op = 3 then put fun j =>
      encodeBeat (word j) (bit (m j) 7) ^^^ BitVec.ofNat 40 (m j % 128 * 2 ^ 32)
    else ds.zipIdx.foldl chk s

/-- RAW_READ: a write of DCH_RAW_CTL whose op is 1. -/
def execRawRead (ch : Fin 24) (v : Word) (s : State) : Result :=
  run s fun s => s.rawCtlWrite ch (BitVec.ofNat 32 (setBits v.toNat 24 3 1))

/-- RAW_WRITE: op 2. -/
def execRawWrite (ch : Fin 24) (v : Word) (s : State) : Result :=
  run s fun s => s.rawCtlWrite ch (BitVec.ofNat 32 (setBits v.toNat 24 3 2))

/-- INJECT_WRITE: op 3. -/
def execInjectWrite (ch : Fin 24) (v : Word) (s : State) : Result :=
  run s fun s => s.rawCtlWrite ch (BitVec.ofNat 32 (setBits v.toNat 24 3 3))

/-- CHECKED_READ: op 4. -/
def execCheckedRead (ch : Fin 24) (v : Word) (s : State) : Result :=
  run s fun s => s.rawCtlWrite ch (BitVec.ofNat 32 (setBits v.toNat 24 3 4))

/-! ## Remap operations (R86 - R88) -/

-- Log entry 40: DESIGN CHOICE, unsafe.
/-- A write of DCH_REMAP_HI. -/
def State.remapHiWrite (s : State) (ch : Nat) (v : Word) : State :=
  let op := F.DCH_REMAP_HI_op.of v
  let busy := s.fB F.DCH_REMAP_HI_busy ch
  let s := s.wrCodes R.DCH_REMAP_HI v ch
  let c := s.chan ch
  let k := s.fN F.DCH_REMAP_IDX_entry ch
  let loc := (s.fN F.DCH_REMAP_HI_line_hi ch * 2 ^ 32 + s.fN F.DCH_REMAP_LO_line_lo ch) * 64
  let refuse := s.fFlag F.DCH_REMAP_HI_refused true ch
  let free := if (c.remapOf loc).isSome || s.chanCap ch ≤ loc then none else SMap.firstFree c.remap 16
  if 4 ≤ op then s
  else if busy then refuse
  else if op = 0 then
    let (l, a, ok) := match SMap.find c.remap k with
      | some e => (e.loc / 64, e.auto, true)
      | none => (0, false, false)
    let s := (s.fSet F.DCH_REMAP_LO_line_lo (l % 2 ^ 32) ch).fSet F.DCH_REMAP_HI_line_hi (l / 2 ^ 32) ch
    (s.fFlag F.DCH_REMAP_HI_auto a ch).fFlag F.DCH_REMAP_HI_valid ok ch
  else if op = 1 then
    match free with
    | some k => (s.setChan ch { c with install := some ⟨k, loc, false⟩ }).fFlag F.DCH_REMAP_HI_busy true ch
    | none => refuse
  else if op = 2 then
    match (if !s.fB F.DCH_CFG_enable ch || s.fB F.DCH_CFG_maint ch then free else none) with
    | some k => (s.remapPut ch k ⟨loc, false, encodeLine Line.zero⟩).addEvent 1 1 loc
    | none => refuse
  else
    match (if s.fB F.DCH_CFG_maint ch then SMap.find c.remap k else none) with
    | some e =>
      let (n, s) := (s.setChan ch { c with remap := SMap.del c.remap k }).draw
      (s.arrayPut ch e.loc (Config.undefinedLine ch (2 ^ 32 + n) (e.loc / 64))).remapFree ch
    | none => refuse

/-- REMAP_READ: a write of DCH_REMAP_HI whose op is 0. -/
def execRemapRead (ch : Fin 24) (v : Word) (s : State) : Result :=
  run s fun s => s.remapHiWrite ch (BitVec.ofNat 32 (setBits v.toNat 28 3 0))

/-- REMAP_INSTALL: op 1. -/
def execRemapInstall (ch : Fin 24) (v : Word) (s : State) : Result :=
  run s fun s => s.remapHiWrite ch (BitVec.ofNat 32 (setBits v.toNat 28 3 1))

-- Log entry 37: DESIGN CHOICE, safe.
/-- REMAP_INSTALL_DONE: the pending write issues, the line is copied into the spare, the entry becomes valid (R87). -/
def State.installDone (s : State) (ch : Nat) : State :=
  match (s.chan ch).install with
  | some i =>
    let s := s.setChan ch { s.chan ch with install := none }
    (s.installCopy ch i.entry i.loc i.auto).fFlag F.DCH_REMAP_HI_busy false ch
  | none => s

def execRemapInstallDone (ch : Fin 24) (s : State) : Result := run s fun s => s.installDone ch

/-- INSTALL_BLANK: op 2. -/
def execInstallBlank (ch : Fin 24) (v : Word) (s : State) : Result :=
  run s fun s => s.remapHiWrite ch (BitVec.ofNat 32 (setBits v.toNat 28 3 2))

/-- REMAP_REMOVE: op 3. -/
def execRemapRemove (ch : Fin 24) (v : Word) (s : State) : Result :=
  run s fun s => s.remapHiWrite ch (BitVec.ofNat 32 (setBits v.toNat 28 3 3))

/-! ## The Forager (R94 - R98, R112) -/

/-- The next line the Forager visits: remapped lines are skipped. -/
def Channel.frgNext (c : Channel) : Nat → Nat → Nat
  | 0, p => p
  | n + 1, p => if (c.remapOf (p * 64)).isSome then c.frgNext n (p + 1) else p

/-- Shows the walk's position. -/
def State.showPos (s : State) (ch : Nat) : State :=
  let p := (s.chan ch).frgPos
  (s.fSet F.DCH_FRG_POS_LO_pos_lo (p % 2 ^ 32) ch).fSet F.DCH_FRG_POS_HI_pos_hi (p / 2 ^ 32) ch

/-- Whether the Forager runs accelerated: accel set and leave given (R97). -/
def State.frgAccel (s : State) (ch : Nat) : Bool := s.fB F.DCH_FRG_CTL_accel ch && s.hasLeave (.forager ch)

/-- Whether the Forager may read now: running, the subchannel idle, its interval elapsed. -/
def State.frgReady (s : State) (ch p : Nat) : Bool :=
  let c := s.chan ch
  let gap := max 1 (s.fN F.DCH_FRG_CTL_interval ch) * 16 * s.ctlTicks
  s.fB F.DCH_FRG_CTL_enable ch && decide (p * 64 < s.chanCap ch) && s.idleCycle ch (p % 2) &&
    (s.frgAccel ch || decide (c.frgLast + gap ≤ s.pwr.rootTime))

-- Log entry 36: DEDUCED, unsafe.
/-- A dirty copy in the cache stays the line's data: the Forager writes nothing (R112). -/
def State.frgDirty (s : State) (dpa : Option Nat) : Bool :=
  match dpa.bind fun d => s.honey.lookup (d / 64) with
  | some (_, x) => x.dirty
  | none => false

-- Log entry 36: DEDUCED, unsafe.
/-- The second read on a UE, under the line's lock (R96). By its area a metadata line is handled as R91 fixes. A line written
back poisoned is listed (R252). -/
def State.frgUe (s : State) (ch loc : Nat) (dpa : Option Nat) (again : Stored) : State :=
  let v := s.storedGet ch loc ^^^ again
  let ds := decodeWords v
  let u := ueMask ds
  let s := s.logCes ch loc ds
  if u = 0 then s
  else
    let a := match dpa with | some d => s.area d | none => .pad
    match a, dpa with
    | .validMap, some d => (s.mapUe d u).addEvent 2 4 d
    | .cellTable, some d => (s.raise 1 0 0 (some d)).addEvent 2 4 d
    | _, _ =>
      let fixed := if a = .heat then
          let l : Line := ⟨decData ds, badMask ds⟩
          encodeLine ((List.range 16).foldl (fun (x : Line) j =>
            if u.getLsbD j then ⟨(x.setWord j 0).data, x.poison &&& ~~~(1#16 <<< j)⟩ else x) l)
        else correctedStored v (s.blockUnit ch loc)
      let s := if s.frgDirty dpa then s else s.storedPut ch loc fixed
      let s := (s.raise (64 + 16 * ch + (if a = .heat then 9 else 2)) 0 0 (some loc)).addEvent 2 4 (dpa.getD 0)
      match a, dpa with
      | .tenant, some d => s.addPoisonList (d / 64)
      | _, _ => s

-- Log entry 36: DEDUCED, unsafe.
/-- The second read on a CE, under the line's lock: written back corrected where it remains, and read once more; an
error in the same word then is a hard fault and is remapped (R95). A UE that this read finds is handled as one (R96). -/
def State.frgCe (s : State) (ch loc : Nat) (dpa : Option Nat) (f : FrgFlips) : State :=
  let v := s.storedGet ch loc ^^^ f.second
  let ds := decodeWords v
  let s := s.logCes ch loc ds
  let u := ueMask ds
  if u ≠ 0 then (s.countUe ch u).frgUe ch loc dpa f.third
  else if !(ds.any fun d => d.action == 1) || s.frgDirty dpa then s
  else
    let s := s.storedPut ch loc (correctedStored v (s.blockUnit ch loc))
    let ds3 := decodeWords (s.storedGet ch loc ^^^ f.third)
    let s := s.logCes ch loc ds3
    let hard := (ds.zip ds3).any fun p => p.1.action == 1 && p.2.action != 0
    if hard && ((s.chan ch).remapOf loc).isNone then s.autoRemap ch loc else s

-- Log entry 36: DEDUCED, unsafe.
/-- FORAGER_READ: the next line in an idle cycle; a line that holds an error and is locked is awaited. -/
def State.foragerRead (s : State) (ch : Nat) (f : FrgFlips) : State :=
  let c := s.chan ch
  let p := c.frgNext 16 c.frgPos
  if !s.frgReady ch p then s
  else
    let loc := p * 64
    let dpa := s.dpaOf ch loc
    let v := s.storedGet ch loc ^^^ f.first
    let ds := decodeWords v
    let u := ueMask ds
    let err := ds.any fun d => d.action != 0
    if err && (match dpa with | some d => s.locked (d / 64) | none => false) then s
    else
      let s := s.setChan ch { c with frgPos := p + 1, frgLast := s.pwr.rootTime }
      let s := (s.showPos ch).logCes ch loc ds
      if u ≠ 0 then (s.countUe ch u).frgUe ch loc dpa f.second
      else if err then s.frgCe ch loc dpa f else s

def execForagerRead (ch : Fin 24) (f : FrgFlips) (s : State) : Result := run s fun s => s.foragerRead ch f

-- Log entry 43: DEDUCED, safe.
/-- Ticks spent on the current lap. -/
def State.lapTicks (s : State) (ch : Nat) : Nat :=
  let c := s.chan ch
  c.frgLapTicks + (if s.fB F.DCH_FRG_CTL_enable ch then s.pwr.rootTime - c.frgSince else 0)

-- Log entry 43: DEDUCED, safe.
/-- A write of DCH_FRG_CTL: enable stops and resumes the walk and its clock (R98); accel set abandons the lap and asks
for leave, accel cleared ends the acceleration (R97). -/
def State.frgCtlWrite (s : State) (ch : Nat) (v : Word) : State :=
  let was := s.fB F.DCH_FRG_CTL_accel ch
  let on := s.fB F.DCH_FRG_CTL_enable ch
  let t := s.lapTicks ch
  let s := s.wrCodes R.DCH_FRG_CTL v ch
  let c := s.chan ch
  let s := if on == F.DCH_FRG_CTL_enable.on v then s
    else s.setChan ch { c with frgLapTicks := t, frgSince := s.pwr.rootTime }
  if F.DCH_FRG_CTL_accel.on v then
    if was then s
    else
      let c := s.chan ch
      let s := (s.setChan ch { c with frgPos := 0, frgLapTicks := 0, frgSince := s.pwr.rootTime }).showPos ch
      let s := s.pguAsk 2 (.forager ch)
      s.fFlag F.DCH_FRG_CTL_grant_wait (!s.hasLeave (.forager ch)) ch
  else (s.pguReturn (.forager ch)).fFlag F.DCH_FRG_CTL_grant_wait false ch

/-- FORAGER_ACCEL: a write of DCH_FRG_CTL that sets accel. -/
def execForagerAccel (ch : Fin 24) (v : Word) (s : State) : Result :=
  run s fun s => s.frgCtlWrite ch (BitVec.ofNat 32 (setBits v.toNat 1 1 1))

-- Log entry 43: DEDUCED, safe.
/-- FORAGER_LAP_END: the walk has passed the last line. -/
def State.lapEnd (s : State) (ch : Nat) : State :=
  let c := s.chan ch
  if c.frgNext 16 c.frgPos * 64 < s.chanCap ch then s
  else
    let s := s.fSet F.DCH_FRG_LAP_last_lap_ms (min (2 ^ 32 - 1) (s.lapTicks ch / ms 1)) ch
    let s := s.setChan ch { c with frgPos := 0, frgLapTicks := 0, frgSince := s.pwr.rootTime }
    let s := (s.showPos ch).bump F.DCH_FRG_POS_HI_laps 1 ch
    ((s.fFlag F.DCH_FRG_CTL_accel false ch).fFlag F.DCH_FRG_CTL_grant_wait false ch).pguReturn (.forager ch)

def execForagerLapEnd (ch : Fin 24) (s : State) : Result := run s fun s => s.lapEnd ch

/-! ## The valid map (R103) and the layout lock (R32) -/

/-- A write of GLOBAL_VMAP_CTL. -/
def State.vmapCtlWrite (s : State) (v : Word) : State :=
  let refuse := fun (s : State) => s.fFlag F.GLOBAL_VMAP_STATUS_refused true
  let s := if !F.GLOBAL_VMAP_CTL_zero.on v then s
    else if !s.fB F.GLOBAL_IL_STATUS_locked || s.fB F.GLOBAL_VMAP_STATUS_zero_busy || s.fB F.GLOBAL_VMAP_STATUS_zero_done then
      refuse s
    else s.fFlag F.GLOBAL_VMAP_STATUS_zero_busy true
  if !F.GLOBAL_VMAP_CTL_on.on v then s
  else if s.fB F.GLOBAL_VMAP_STATUS_zero_done || s.fB F.GLOBAL_VMAP_STATUS_recovery then
    ((s.fFlag F.GLOBAL_VMAP_CTL_on true).fFlag F.GLOBAL_VMAP_STATUS_on true).fFlag F.GLOBAL_VMAP_STATUS_recovery false
  else refuse s

/-- VMAP_ZERO: a write of GLOBAL_VMAP_CTL with zero = 1. -/
def execVmapZero (s : State) : Result := run s fun s => s.vmapCtlWrite 4

-- Log entry 41: DEDUCED, safe.
/-- Initialises a channel's metadata lines: what the arrays, the spares and the write queues hold of them gives way to
the initial contents. -/
def State.metaZero (s : State) (ch : Nat) : State :=
  let c := s.chan ch
  let init := fun loc => (s.dpaOf ch loc).bind s.metaDefault
  let keep := fun (x : Subch) => { x with wq := x.wq.filter fun w => (init w.loc).isNone }
  s.setChan ch { c with metaInit := true, array := c.array.filter (fun e => (init (e.1 * 64)).isNone),
                        remap := c.remap.map (fun e => (e.1, { e.2 with spare := (init e.2.loc).getD e.2.spare })),
                        sub0 := keep c.sub0, sub1 := keep c.sub1 }

-- Log entry 41: DEDUCED, safe.
/-- VMAP_ZERO_DONE: the valid map, the cell table and the heat counters hold their initial contents. -/
def State.vmapZeroDone (s : State) : State :=
  if !s.fB F.GLOBAL_VMAP_STATUS_zero_busy then s
  else
    let isMeta := fun line => (s.metaDefault (line * 64)).isSome
    let lines := s.honey.lines.filter fun e => !isMeta (lineOf (e.1 / 16) e.2.tag)
    let s := { s with honey := { s.honey with lines := lines } }
    let s := s.chanList.foldl (fun s ch => s.metaZero ch) s
    (s.fFlag F.GLOBAL_VMAP_STATUS_zero_busy false).fFlag F.GLOBAL_VMAP_STATUS_zero_done true

def execVmapZeroDone (s : State) : Result := run s fun s => s.vmapZeroDone

/-- VMAP_ON: a write of GLOBAL_VMAP_CTL with on = 1. -/
def execVmapOn (s : State) : Result := run s fun s => s.vmapCtlWrite 2

/-- A write of GLOBAL_IL_LOCK: a layout that fails R32 sets layout_error and, during start-up, error code 4. -/
def State.ilLockWrite (s : State) (v : Word) : State :=
  if !F.GLOBAL_IL_LOCK_lock.on v || s.fB F.GLOBAL_IL_STATUS_locked then s
  else
    let ok := match s.layoutRegs with
      | some rs => layoutOk s.memTop s.chanList.length s.hiveBase rs
      | none => false
    if ok then (s.fFlag F.GLOBAL_IL_STATUS_locked true).fFlag F.GLOBAL_IL_STATUS_layout_error false
    else
      let s := s.fFlag F.GLOBAL_IL_STATUS_layout_error true
      if s.pwr.ready then s else s.fSet F.START_STATUS_error 4

/-- IL_LOCK: a write of GLOBAL_IL_LOCK with lock = 1. -/
def execIlLock (s : State) : Result := run s fun s => s.ilLockWrite 1

end Sys2Proof.Machine
end

