-- ==== Sys2Proof/Machine/HoneyRows.lean ====
section
/-!
DEFINITION. The honey cache's commands: its halves and its enable (HONEY_CTL), page heat (R117, R118), the hot-list
extractor (R119 - R121), and the power grant unit's grants (R350 - R352).
-/
namespace Sys2Proof.Machine

/-! ## Halves -/

def Honey.halfOf (h : Honey) (b : Nat) : Half := if b = 0 then h.halfA else h.halfB
def State.setHalf (s : State) (b : Nat) (x : Half) : State :=
  { s with honey := if b = 0 then { s.honey with halfA := x } else { s.honey with halfB := x } }
def halfCtl (b : Nat) : Fld := if b = 0 then F.HONEY_CTL_half_a else F.HONEY_CTL_half_b

/-- A half is on or off, not on its way. -/
def Half.still : Half → Bool
  | .off => true
  | .on => true
  | _ => false

/-- A change of either half is in progress. -/
def State.halfBusy (s : State) : Bool := !s.honey.halfA.still || !s.honey.halfB.still

-- Log entry 52: DEDUCED, safe.
def State.showHalves (s : State) : State :=
  ((s.fFlag F.HONEY_STATUS_change_busy s.halfBusy).fFlag F.HONEY_STATUS_a_on (s.honey.halfA == .on)).fFlag
    F.HONEY_STATUS_b_on (s.honey.halfB == .on)

/-- The keys of a half's cached lines. -/
def State.halfKeys (s : State) (b : Nat) : List Nat :=
  (s.honey.lines.filter fun e => bit (e.1 / 16) 18 == (b == 1)).map fun e => e.1

/-- A half's bit written 0: it begins to power down, or the write is refused. -/
def State.halfDown (s : State) (b : Nat) : State :=
  let pinned := (s.halfKeys b).any fun k => (SMap.find s.honey.lines k).any fun x => x.pinned
  if s.honey.halfOf b = .off then s
  else if s.honey.halfOf (1 - b) = .off || pinned || s.halfBusy then s.fFlag F.HONEY_CTL_refused true
  else
    let s := ((s.setHalf b .flushWait).fFlag (halfCtl b) false).pguAsk 5 (.flush b)
    (if s.hasLeave (.flush b) then s.setHalf b .flushing else s).showHalves

/-- A half's bit written 1: it begins to power up, or the write is refused. -/
def State.halfUp (s : State) (b : Nat) : State :=
  if s.honey.halfOf b = .on then s
  else if s.honey.halfOf (1 - b) = .off || s.halfBusy then s.fFlag F.HONEY_CTL_refused true
  else
    let s := ((s.setHalf b .rising).fFlag (halfCtl b) true).showHalves
    { s with pwr := { s.pwr with domains := s.pwr.domains ||| (1#20 <<< (4 + b)) } }

-- Log entry 57: DEDUCED, unsafe.
/-- The flush of a half: dirty lines are written back, each once its lock is free, and every line is invalidated. -/
def State.flushLines (s : State) (b : Nat) : State :=
  (s.halfKeys b).foldl (fun s k =>
    match SMap.find s.honey.lines k with
    | some x => if s.locked (lineOf (k / 16) x.tag) then s else s.hDrop k true (.of 34)
    | none => s) s

/-- The end of a half's flush: when no line is left, its domain is off. -/
def State.halfDownDone (s : State) (b : Nat) : State :=
  if s.honey.halfOf b = .flushing then
    let s := s.flushLines b
    if !(s.halfKeys b).isEmpty then s
    else
      let s := ((s.setHalf b .off).pguReturn (.flush b)).showHalves
      { s with pwr := { s.pwr with domains := s.pwr.domains &&& ~~~(1#20 <<< (4 + b)) } }
  else s

/-- A half's array is cleared and in use. -/
def State.halfUpDone (s : State) (b : Nat) : State :=
  if s.honey.halfOf b = .rising then (s.setHalf b .on).showHalves else s

-- Log entry 48: DEDUCED, safe.
/-- A write of enable. -/
def State.cacheEnable (s : State) (on : Bool) : State :=
  if on == s.fB F.HONEY_CTL_enable then s
  else if on then ({ s with honey := { s.honey with lines := [] } }).fFlag F.HONEY_CTL_enable true
  else if s.honey.lines.any fun e => e.2.dirty || e.2.pinned then s.fFlag F.HONEY_CTL_refused true
  else ({ s with honey := { s.honey with lines := [] } }).fFlag F.HONEY_CTL_enable false

-- Log entry 48: DEDUCED, safe.
/-- A half's bit as it is written; a bit written as it stands requests nothing. -/
def State.halfWrite (s : State) (b : Nat) (v : Word) : State :=
  let want := (halfCtl b).on v
  if want == s.fB (halfCtl b) then s else if want then s.halfUp b else s.halfDown b

-- Log entry 48: DEDUCED, safe.
/-- A write of HONEY_CTL. -/
def State.honeyCtlWrite (s : State) (v : Word) : State :=
  let s := if F.HONEY_CTL_refused.on v then s.fFlag F.HONEY_CTL_refused false else s
  ((s.cacheEnable (F.HONEY_CTL_enable.on v)).halfWrite 0 v).halfWrite 1 v

/-- HALF_POWER_DOWN. -/
def execHalfPowerDown (b : Fin 2) (s : State) : Result := run s fun s => s.halfDown b
/-- HALF_POWER_DOWN_DONE. -/
def execHalfPowerDownDone (b : Fin 2) (s : State) : Result := run s fun s => s.halfDownDone b
/-- HALF_POWER_UP. -/
def execHalfPowerUp (b : Fin 2) (s : State) : Result := run s fun s => s.halfUp b
/-- HALF_POWER_UP_DONE. -/
def execHalfPowerUpDone (b : Fin 2) (s : State) : Result := run s fun s => s.halfUpDone b
/-- CACHE_DISABLE. -/
def execCacheDisable (s : State) : Result := run s fun s => s.cacheEnable false
/-- CACHE_ENABLE. -/
def execCacheEnable (s : State) : Result := run s fun s => s.cacheEnable true

/-! ## Page heat (R117, R118) -/

-- Log entry 46: DESIGN CHOICE, safe.
/-- The sweep halves the counters of the next cells, `n` at most, each under its counter line's lock: it waits at a line
that is locked. -/
def State.halveOn : Nat → State → State
  | 0, s => s
  | n + 1, s =>
    match s.honey.sweep with
    | none => s
    | some c =>
      if s.tenantCells ≤ c || s.locked (s.heatAddr c / 64) then s
      else
        let (s, h) := s.heatOf c
        let s := if h = 0 then s else s.putHeat c (h / 2)
        State.halveOn n { s with honey := { s.honey with sweep := some (c + 1) } }

-- Log entry 46: DESIGN CHOICE, safe.
/-- A sweep that runs goes on by a number of cells that nothing fixes. -/
def State.sweepOn (s : State) : State :=
  if s.honey.sweep.isNone then s
  else
    let (r, s) := s.random64
    State.halveOn (r.toNat % (s.tenantCells + 1)) s

-- Log entry 45: DEDUCED, unsafe.
/-- A fold of one cell's entry; while its counter's line is locked, or a sweep has not reached the cell, it stays. -/
def State.foldCell (s : State) (cell : Nat) : State :=
  let s := s.sweepOn
  if s.foldable cell then s.heatFold cell else s

/-- HEAT_FOLD. -/
def execHeatFold (cell : Fin 536870912) (s : State) : Result := run s fun s => s.foldCell cell

-- Log entry 46: DESIGN CHOICE, safe.
/-- An epoch boundary: the buffer is folded whole and the sweep starts; while a sweep runs the boundary waits for it. -/
def State.epochEnd (s : State) : State :=
  if s.fN F.HONEY_HEAT_EPOCH_length = 0 then s
  else if s.honey.sweep.isSome then
    ({ s with honey := { s.honey with lateEpoch := true, epochAt := s.pwr.rootTime } }).fFlag F.HONEY_HEAT_STATUS_late true
  else
    let s := (s.honey.heat.map fun e => e.1).foldl (fun s c => if s.foldable c then s.heatFold c else s) s
    ({ s with honey := { s.honey with sweep := some 0, epochAt := s.pwr.rootTime } }).fFlag F.HONEY_HEAT_STATUS_sweep_busy true

/-- HEAT_EPOCH_END. -/
def execHeatEpochEnd (s : State) : Result := run s fun s => s.epochEnd

-- Log entry 46: DESIGN CHOICE, safe.
/-- The sweep ends, once every counter is halved in ascending order of cells; a boundary that waited is taken. -/
def State.sweepEnd (s : State) : State :=
  let s := State.halveOn s.tenantCells s
  match s.honey.sweep with
  | none => s
  | some p =>
    if p < s.tenantCells then s
    else
      let late := s.honey.lateEpoch
      let s := ({ s with honey := { s.honey with sweep := none, lateEpoch := false } }).fFlag F.HONEY_HEAT_STATUS_sweep_busy false
      if late then s.epochEnd else s

/-- HEAT_SWEEP_DONE. -/
def execHeatSweepDone (s : State) : Result := run s fun s => s.sweepEnd

/-! ## The hot-list extractor (R119 - R121) -/

/-- The bytes of a destination range lie in cells allocated to Dome 0. -/
def State.dome0Range (s : State) (dst n : Nat) : Bool :=
  (List.range ((dst + n - 1) / 65536 - dst / 65536 + 1)).all fun j =>
    let a := (dst / 65536 + j) * 65536
    decide (a < s.memTop) && s.dome0Cell a

-- Log entry 47: DEDUCED, safe.
/-- A write of HONEY_HOT_CTL. -/
def State.hotCtlWrite (s : State) (v : Word) : State :=
  let busy := s.honey.hot.isSome
  let s := s.wrCodes R.HONEY_HOT_CTL v
  if !F.HONEY_HOT_CTL_start.on v then s
  else
    let n := F.HONEY_HOT_CTL_n.of v
    let kind := F.HONEY_HOT_CTL_target_kind.of v
    let target := F.HONEY_HOT_CTL_target.of v
    let dst := s.fN F.HONEY_HOT_DST_LO_addr_lo * 64 + s.fN F.HONEY_HOT_DST_HI_addr_hi * 2 ^ 32
    if busy then s.fFlag F.HONEY_HOT_CTL_refused true
    else if n = 0 then (s.fFlag F.HONEY_HOT_STATUS_done true).fSet F.HONEY_HOT_STATUS_count 0
    else if 4096 < n || (kind == 1 && decide (255 < target)) || !s.dome0Range dst (8 * n) then
      s.fFlag F.HONEY_HOT_CTL_refused true
    else
      let s := (s.fFlag F.HONEY_HOT_CTL_busy true).fFlag F.HONEY_HOT_STATUS_done false
      let job : HotJob := ⟨kind, target, n, s.fN F.HONEY_HOT_MIN_min_heat, dst, false⟩
      ({ s with honey := { s.honey with hot := some job } }).pguAsk 6 .hot

/-- HOT_LIST_START. -/
def execHotListStart (v : Word) (s : State) : Result := run s fun s => s.hotCtlWrite (v ||| 0x40000000)

/-- A cell the extractor may select: its index, heat and entry. -/
structure HotCell where
  cell : Nat
  heat : Nat
  entry : Word
  deriving DecidableEq, Repr

/-- The cells of a job's target hot enough, in ascending order, from cell `c` on. -/
def State.hotCells (j : HotJob) : Nat → State → Nat → State × List HotCell
  | 0, s, _ => (s, [])
  | n + 1, s, c =>
    match s.loadEntry c (.of 34) with
    | (s, some (some e)) =>
      if ceAllocated e && ceGroup e == (j.kind == 1) && ceOwner e == j.target then
        let (s, h) := s.heatOf c
        let (s, r) := State.hotCells j n s (c + 1)
        (s, if j.minHeat ≤ h then ⟨c, h, e⟩ :: r else r)
      else State.hotCells j n s (c + 1)
    | (s, _) => State.hotCells j n s (c + 1)

/-- A record (R120). -/
def HotCell.record (h : HotCell) : Nat :=
  h.cell + h.heat * 2 ^ 32 + (if cePinned h.entry then 2 ^ 48 else 0) + (if ceMigrating h.entry then 2 ^ 49 else 0)

/-- Writes records from a line-aligned address on, eight to a line. -/
def State.putRecords : Nat → State → Nat → List Nat → State
  | 0, s, _, _ => s
  | fuel + 1, s, dst, rs =>
    if rs = [] then s
    else
      let xs := rs.take 8
      let l : Line := ⟨BitVec.ofNat 512 ((xs.zipIdx.map fun x => x.1 * 2 ^ (64 * x.2)).sum), 0⟩
      let t : Tx := { newTx .plainWr .device 0 (dst / 64) 34 with
        wdata := l, be := rangeBe 0 (8 * xs.length), fill := some 0, maint := true }
      State.putRecords fuel (s.enter t) (dst + 64) (rs.drop 8)

/-- The extractor finishes: the hottest cells, ties by ascending cell. -/
def State.hotDone (s : State) : State :=
  match s.honey.hot with
  | none => s
  | some j =>
    if !s.hasLeave .hot then s
    else
      let (s, cs) := State.hotCells j s.tenantCells s 0
      let top := (cs.mergeSort fun a b => decide (b.heat ≤ a.heat)).take j.n
      let s := State.putRecords (top.length + 1) s j.dst (top.map fun h => h.record)
      let s := ({ s with honey := { s.honey with hot := none } }).pguReturn .hot
      ((s.fFlag F.HONEY_HOT_CTL_busy false).fFlag F.HONEY_HOT_STATUS_done true).fSet F.HONEY_HOT_STATUS_count top.length

/-- HOT_LIST_DONE. -/
def execHotListDone (s : State) : Result := run s fun s => s.hotDone

/-! ## The power grant unit (R350 - R352) -/

/-- An owner goes on with the leave it was given. -/
def State.leaveGiven (s : State) (o : PguOwner) : State :=
  match o with
  | .cmd k =>
    (match s.cmd k with
      | some c => (s.putCmd k { c with st := .queued, leave := true }).present c.eng
      | none => s)
  | .mig k => s.migPass k
  | .flush b => if s.honey.halfOf b = .flushWait then s.setHalf b .flushing else s
  | .forager ch => s.fFlag F.DCH_FRG_CTL_grant_wait false ch
  | _ => s

/-- The request at the head of the queue is granted when it fits the limit or nothing is granted. -/
def State.pguGrant (s : State) : State :=
  match s.pwr.queue with
  | [] => s
  | r :: rest =>
    let c := s.pguCost r.kind
    if !s.pguFits c then s
    else
      let solo := decide (s.pguLimit < s.fN F.PGU_BASE_base + s.granted + c)
      let s := { s with pwr := { s.pwr with queue := rest, granted := s.pwr.granted ++ [(r, c)] } }
      (if solo then s.bump F.PGU_CNT_solo_grants else s).leaveGiven r.owner

/-- PGU_GRANT. -/
def execPguGrant (s : State) : Result := run s fun s => s.pguGrant

/-- THROTTLE_CHANGE: the level of THROTTLE_N seen in two consecutive samples; `low` says that the pin is asserted. While
the device is frozen it waits for the thaw (R360). -/
def execThrottleChange (low : Bool) (s : State) : Result :=
  .next { s with pwr := { s.pwr with throttleIn := low, throttlePin := if s.pwr.frozen then s.pwr.throttlePin else low } }

end Sys2Proof.Machine
end

