-- ==== Sys2Proof/Machine/Waggle.lean ====
section
/-!
DEFINITION. The Waggle (R333 - R341): pending sources, claims, groups and hold-offs, MSI-X vectors, general timers.
-/
namespace Sys2Proof.Machine

/-! ## Pending and priority (R333, R334) -/

def wsrcReserved (n : Nat) : Bool := (10 ≤ n && n < 16) || (32 ≤ n && n < 64)

def WGroup.reset : WGroup := ⟨0, 0, none, false⟩
def State.wgroup (s : State) (g : Nat) : WGroup := SMap.findD s.wag.groups g WGroup.reset
def State.setWgroup (s : State) (g : Nat) (x : WGroup) : State :=
  { s with wag := { s.wag with groups := SMap.store s.wag.groups WGroup.reset g x } }

/-- The level input: source 8 is high while the Comb miss queue holds a record. -/
def State.wsrcHigh (s : State) (n : Nat) : Bool := n == 8 && s.nextMiss.isSome

def State.inServ (s : State) (n : Nat) : Bool := s.wag.service.any fun e => e.2 == n

/-- Whether a source is pending. -/
def State.wPending (s : State) (n : Nat) : Bool :=
  let w := s.wsrc n
  !wsrcReserved n && w.enable && w.level != 0 && (if n = 8 then s.wsrcHigh n else decide (0 < w.count)) &&
    (s.wgroup w.group).heldSince.isNone && (w.shared || !s.inServ n)

/-- The highest level in service at a core. -/
def State.runLevel (s : State) (k : Nat) : Nat :=
  ((s.wag.service.filter fun e => e.1 == k).map fun e => (s.wsrc e.2).level).foldl max 0

def State.corePrio (s : State) (k : Nat) : Nat := max (s.fN F.WAGGLE_CORE_THRESH_threshold 0 k) (s.runLevel k)

/-- The sources that can be pending: source 8 and those that have counted an event. -/
def State.wCands (s : State) : List Nat := 8 :: (s.wag.srcs.map fun e => e.1)

/-- The source a claim by a core returns: highest level above its effective priority, then lowest number. -/
def State.claimPick (s : State) (k : Nat) : Option Nat :=
  (s.wCands.filter fun n => s.wPending n && (s.wsrc n).targets.getLsbD k && decide (s.corePrio k < (s.wsrc n).level)).foldl
    (fun (acc : Option Nat) n =>
      match acc with
      | none => some n
      | some b =>
        if (s.wsrc b).level < (s.wsrc n).level ∨ ((s.wsrc b).level = (s.wsrc n).level ∧ n < b) then some n else some b) none

def Timer.reset : Timer := ⟨0, false, false, false, 0, 0, 0⟩
def State.timer (s : State) (t : Nat) : Timer := SMap.findD s.wag.timers t Timer.reset
def State.setTimer (s : State) (t : Nat) (x : Timer) : State :=
  { s with wag := { s.wag with timers := SMap.store s.wag.timers Timer.reset t x } }

/-! ## Claim, end of interrupt, software trigger (R335 - R338) -/

/-- A group's hold-off begins; the timer it names carries the count (R338). -/
def State.holdoffBegin (s : State) (g : Nat) : State :=
  let x := s.wgroup g
  if x.holdoff = 0 then s
  else (s.setWgroup g { x with heldSince := some s.pwr.refTime }).setTimer x.timer
    { s.timer x.timer with run := true, left := x.holdoff, since := s.pwr.refTime }

/-- A read of WAGGLE_COREk_CLAIM. -/
def State.claim (s : State) (k : Nat) : State × Word :=
  match s.claimPick k with
  | none => (s, 0)
  | some n =>
    let w := s.wsrc n
    let cnt := if n = 8 then 1 else w.count
    let s := s.setWsrc n { w with count := 0, lastCore := k }
    let s := { s with wag := { s.wag with service := s.wag.service ++ [(k, n)] } }
    (s.holdoffBegin w.group, BitVec.ofNat 32 (2 ^ 31 + w.level * 2 ^ 26 + cnt * 2 ^ 18 + n))

/-- CLAIM. -/
def execClaim (k : Fin 24) (s : State) : Result :=
  run s fun s => let (s, v) := s.claim k; s.emit (.csr (R.WAGGLE_CORE_CLAIM.addr 0 k) v)

/-- A write of WAGGLE_COREk_EOI. -/
def State.eoi (s : State) (k n : Nat) : State :=
  if s.wag.service.contains (k, n) then { s with wag := { s.wag with service := s.wag.service.filter fun e => e != (k, n) } }
  else s.fFlag F.WAGGLE_CORE_THRESH_eoi_error true 0 k

/-- EOI. -/
def execEoi (k : Fin 24) (n : BitVec 12) (s : State) : Result := run s fun s => s.eoi k.val n.toNat

/-- A write of WAGGLE_SWTRIG. -/
def State.swtrig (s : State) (n : Nat) : State := if 128 ≤ n ∧ n < 4096 then s.wagEvent n else s

/-- SWTRIG. -/
def execSwtrig (n : BitVec 12) (s : State) : Result := run s fun s => s.swtrig n.toNat

-- Log entry 94: DEDUCED, unsafe.
/-- A write of WAGGLE_GRP_CFG: a hold-off other than 0 needs a timer reserved to the group. -/
def State.grpCfgWrite (s : State) (v : Word) : State :=
  let g := s.fN F.WAGGLE_GRP_IDX_group
  let x := s.wgroup g
  let h := F.WAGGLE_GRP_CFG_holdoff.of v
  let t := F.WAGGLE_GRP_CFG_timer.of v
  let owner := (SMap.findD s.wag.timers t ⟨0, false, false, false, 0, 0, 0⟩).owner
  if h ≠ 0 ∧ owner ≠ 0x1000 + g then s.setWgroup g { x with refused := true }
  else s.setWgroup g { x with holdoff := h, timer := t, refused := false }

/-- GRP_CFG_WRITE. -/
def execGrpCfgWrite (v : Word) (s : State) : Result := run s fun s => s.grpCfgWrite v

-- Log entry 94: DEDUCED, unsafe.
/-- A group's hold-off ends: its timer has reached 0, which raises the timer's own source (R338, R341). -/
def State.holdoffEnd (s : State) (g : Nat) : State :=
  let x := s.wgroup g
  if x.heldSince.isNone then s
  else ((s.setWgroup g { x with heldSince := none }).setTimer x.timer
    { s.timer x.timer with run := false, left := 0 }).wagEvent (64 + x.timer)

/-- HOLDOFF_EXPIRY. -/
def execHoldoffExpiry (g : Fin 128) (s : State) : Result := run s fun s => s.holdoffEnd g.val

/-! ## MSI-X vectors (R339) -/

def State.vecIdx (s : State) : Nat × Nat := (s.fN F.WAGGLE_MSIX_IDX_dome, s.fN F.WAGGLE_MSIX_IDX_vector)

/-- A write of WAGGLE_MSIX_CTL; unmasking a pending vector sends its message. -/
def State.msixCtlWrite (s : State) (v : Word) : State :=
  let (d, n) := s.vecIdx
  let x := s.vec d n
  let m := F.WAGGLE_MSIX_CTL_mask.on v
  let s := s.setVec d n { x with mask := m, port := F.WAGGLE_MSIX_CTL_port.of v, link := F.WAGGLE_MSIX_CTL_link.of v,
                                 ldKind := F.WAGGLE_MSIX_CTL_src_kind.on v, dest := F.WAGGLE_MSIX_CTL_dest_id.of v }
  if x.pending && !m then s.vecSend d n else s

/-- The value WAGGLE_MSIX_CTL shows. -/
def Vec.ctl (x : Vec) : Word :=
  BitVec.ofNat 32 ((if x.pending then 2 ^ 31 else 0) + (if x.mask then 2 ^ 30 else 0) + x.port * 2 ^ 14 + x.link * 2 ^ 13 +
    (if x.ldKind then 2 ^ 12 else 0) + x.dest)

/-- MSIX_UNMASK: mask written 0 with the other fields as they stand. -/
def execMsixUnmask (s : State) : Result :=
  run s fun s => s.msixCtlWrite ((s.vec s.vecIdx.1 s.vecIdx.2).ctl &&& ~~~0x40000000#32)

/-! ## General timers (R341) -/

/-- The count a timer is loaded with. -/
def Timer.start (x : Timer) (now : Nat) : Timer := { x with run := true, left := max 1 x.load, since := now }

/-- A running timer reaches 0. -/
def State.timerExpiry (s : State) (t : Nat) : State :=
  let x := s.timer t
  if !x.run then s
  else (s.setTimer t (if x.periodic then x.start s.pwr.refTime else { x with run := false, left := 0 })).wagEvent (64 + t)

/-- TIMER_EXPIRY. -/
def execTimerExpiry (t : Fin 64) (s : State) : Result := run s fun s => s.timerExpiry t.val

/-- A timer named by a group's hold-off. -/
def State.timerHeld (s : State) (t : Nat) : Bool := s.wag.groups.any fun g => g.2.holdoff != 0 && g.2.timer == t

-- Log entry 94: DEDUCED, unsafe.
/-- A write of WAGGLE_TMR_OWNER. -/
def State.tmrOwnerWrite (s : State) (v : Word) : State :=
  let t := s.fN F.WAGGLE_TMR_IDX_timer
  let x := s.timer t
  let o := F.WAGGLE_TMR_OWNER_owner.of v
  let ok := o == x.owner || x.owner == 0 || (o == 0 && !s.timerHeld t)
  if ok then s.setTimer t { x with owner := o, refused := false } else s.setTimer t { x with refused := true }

/-- TMR_OWNER_WRITE. -/
def execTmrOwnerWrite (v : Word) (s : State) : Result := run s fun s => s.tmrOwnerWrite v

/-- A write of WAGGLE_TMR_CTL: the count is loaded when run is set. -/
def State.tmrCtlWrite (s : State) (v : Word) : State :=
  let t := s.fN F.WAGGLE_TMR_IDX_timer
  let x := { s.timer t with periodic := F.WAGGLE_TMR_CTL_periodic.on v }
  let on := F.WAGGLE_TMR_CTL_run.on v
  s.setTimer t (if on && !x.run then x.start s.pwr.refTime else { x with run := on })

/-! ### Registers that show the Waggle's state -/

def State.srcIdx (s : State) : Nat := s.fN F.WAGGLE_SRC_IDX_source

def State.wsrcCfgShown (s : State) : Word :=
  let n := s.srcIdx
  let w := s.wsrc n
  BitVec.ofNat 32 ((if w.enable then 2 ^ 31 else 0) + (if w.shared then 2 ^ 30 else 0) + (if n = 8 then 2 ^ 29 else 0) +
    w.group * 2 ^ 16 + w.level)

-- Log entry 94: DEDUCED, unsafe.
/-- A write of WAGGLE_SRC_CFG. -/
def State.wsrcCfgWrite (s : State) (v : Word) : State :=
  let n := s.srcIdx
  s.setWsrc n { s.wsrc n with enable := F.WAGGLE_SRC_CFG_enable.on v, shared := F.WAGGLE_SRC_CFG_shared.on v,
                              group := F.WAGGLE_SRC_CFG_group.of v, level := F.WAGGLE_SRC_CFG_level.of v }

def State.wsrcStatus (s : State) : Word :=
  let n := s.srcIdx
  let w := s.wsrc n
  BitVec.ofNat 32 ((if s.wPending n then 2 ^ 31 else 0) + (if s.inServ n then 2 ^ 30 else 0) + w.lastCore * 2 ^ 25 + w.count)

def State.grpCfgShown (s : State) : Word :=
  let x := s.wgroup (s.fN F.WAGGLE_GRP_IDX_group)
  BitVec.ofNat 32 ((if x.refused then 2 ^ 31 else 0) + (if x.heldSince.isSome then 2 ^ 30 else 0) + x.timer * 2 ^ 16 + x.holdoff)

def State.threshShown (s : State) (k : Nat) : Word :=
  BitVec.ofNat 32 (setBits (s.rd R.WAGGLE_CORE_THRESH 0 k).toNat 8 5 (s.runLevel k))

def State.tmrOwnerShown (s : State) : Word :=
  let x := s.timer (s.fN F.WAGGLE_TMR_IDX_timer)
  BitVec.ofNat 32 ((if x.refused then 2 ^ 31 else 0) + x.owner)

def State.tmrCtlShown (s : State) : Word :=
  let x := s.timer (s.fN F.WAGGLE_TMR_IDX_timer)
  BitVec.ofNat 32 ((if x.periodic then 2 else 0) + (if x.run then 1 else 0))

end Sys2Proof.Machine
end

