-- ==== Sys2Proof/Machine/Power.lean ====
section
/-!
DEFINITION. Power domains (R346 - R348), reset (R356, R397), the SPI flash (R372 - R375), start-up (R353 - R355), the
population and layout (R33, R52), freeze and thaw (R358 - R363), the reference count (R343).
-/
namespace Sys2Proof.Machine

/-! ## Images and the layout header (R372, R375) -/

-- Log entry 106: PRESUMED, unsafe.
/-- CRC-32C of a byte list. -/
def crc32c (bs : List Nat) : Nat := 0xFFFFFFFF - bs.foldl (fun r b => crcByte 0x82F63B78 r b) 0xFFFFFFFF

-- Log entry 96: DESIGN CHOICE, unsafe.
/-- The layout header is valid. -/
def State.headerOk (s : State) : Bool :=
  s.flashLe 0 4 == 0x36394D5A && s.flashByte 4 == 1 && s.flashLe 6 2 == 0 && s.flashLe 8 4 == crc32c (s.flashBytes 0 8)

/-- Offset and size of an image's slots: 0 always-on, 1 firmware-core, 2 application-core. -/
def slotBase (kind : Nat) : Nat := if kind = 0 then 0x20000 else if kind = 1 then 0x100000 else 0x500000
def slotSize (kind : Nat) : Nat := if kind = 0 then 0x40000 else if kind = 1 then 0x200000 else 0x300000
def bodyMax (kind : Nat) : Nat := if kind = 0 then 261632 else if kind = 1 then 1046528 else 2097152

-- Log entry 96: DESIGN CHOICE, unsafe.
/-- The offset of an image's active slot. -/
def State.activeSlot (s : State) (kind : Nat) : Nat := slotBase kind + (if bit (s.flashByte 5) kind then slotSize kind else 0)

-- Log entry 96: DESIGN CHOICE, unsafe.
/-- An image passes its check (R375). -/
def State.imageOk (s : State) (kind : Nat) (c : ImgChk) : Bool :=
  let o := s.activeSlot kind
  s.flashLe o 4 == 0x474D495A && s.flashByte (o + 4) == kind && decide (s.flashLe (o + 8) 4 ≤ bodyMax kind) && c.key && c.sig &&
    c.body

/-! ## Reset (R356) -/

/-- What every reset keeps beside what its own rule names: the flash, what the DRAM trainings so far left undefined, pin
levels, and the model's own fields. -/
def State.base (s : State) : State :=
  let old := s.chans
  { State.reset with
    chans := Vector.ofFn fun i => { Channel.reset with epoch := (old.get i).epoch },
    cores := { Cores.reset with flash := s.cores.flash },
    pwr := { Power.reset with perstN := s.pwr.perstN, throttleIn := s.pwr.throttleIn, throttlePin := s.pwr.throttleIn,
                              freezePin := s.pwr.freezePin },
    free := s.free, out := s.out, pending := s.pending }

/-- DCH_CFG.dpc shows the strap. -/
def State.showDpc (s : State) : State := (List.range 24).foldl (fun s ch => s.fFlag F.DCH_CFG_dpc s.pwr.dpcSel ch) s

/-- The state in which PERST_N or an internal reset holds the device: of domain 1 the identity key and the latched straps
are kept, and the count since PWROK goes on. -/
def State.held (s : State) : State :=
  let b := s.base
  let p := { b.pwr with refTime := s.pwr.refTime, pwrok := true, tapFreeze := s.pwr.tapFreeze, inReset := true, node := s.pwr.node,
                        queenSel := s.pwr.queenSel, succSel := s.pwr.succSel, dpcSel := s.pwr.dpcSel, domains := 1 }
  (({ b with pwr := p } : State).fFlag F.SEC_STATUS_id_ready true).showDpc

/-! ## Start-up, steps 0 to 2 (R353 - R355) -/

def State.setStep (s : State) (n : Nat) : State := { s with pwr := { s.pwr with step := n } }
def State.startError (s : State) (n : Nat) : State := s.fSet F.START_STATUS_error n

/-- BYP_HOLD is driven high for the rings that are not released, or low for all. -/
def State.bypHold (s : State) (on : Bool) : State :=
  s.fSet F.RYP_BYP_CTL_hold_state (if on then 63 - s.fN F.RYP_BYP_CTL_release else 0)

-- Log entries 12: DESIGN CHOICE, safe; 96: DESIGN CHOICE, unsafe.
/-- The digest an image states of its body. -/
def State.imageDigest (s : State) (kind : Nat) : BitVec 384 := BitVec.ofNat 384 (s.flashLe (s.activeSlot kind + 24) 48)

/-- The version an image states (R373). -/
def State.imageVersion (s : State) (kind : Nat) : BitVec 64 := BitVec.ofNat 64 (s.flashLe (s.activeSlot kind + 16) 8)

/-- The firmware image of a version runs. -/
def State.runVersion (s : State) (v : BitVec 64) : State := { s with cores := { s.cores with version := v } }

-- Log entry 12: DESIGN CHOICE, safe.
def State.setMeas (s : State) (i : Nat) (d : BitVec 384) : State :=
  { s with cores := { s.cores with meas := SMap.put s.cores.meas i d } }

def State.setChain (s : State) (l : List Nat) : State := { s with sec := { s.sec with chain := l } }

/-- The certificate chain of slot 0, and whether its leaf is the device's. -/
def State.loadChain (s : State) (leaf : Bool) : State :=
  ((s.setChain (s.flashBytes 0x10000 65536)).fFlag F.SEC_STATUS_chain_ok leaf).fFlag F.SEC_STATUS_chain_mismatch (!leaf)

-- Log entry 95: PRESUMED, unsafe.
/-- Step 2 of R354 once the images have passed: measurements, and the records the security root and domain 1 take. -/
def State.configure (s : State) : State :=
  let s := ((s.setMeas 2 (s.imageDigest 1)).setMeas 3 (s.imageDigest 2)).setMeas 4 (Config.sha384 (s.flashBytes 0x1000 0xF000))
  match s.cfgRec 3 with
  | some (o, 48) => { s with sec := { s.sec with bind := SMap.put s.sec.bind 0 (BitVec.ofNat 384 (s.flashLe o 48)) } }
  | _ => s

-- Log entry 74: DEDUCED, safe.
/-- A reset seeds every Spire's generator from the random-number source (R209). -/
def State.seedSpires (s : State) : State :=
  (List.range 24).foldl (fun s n => let (r, s) := s.random64; s.setSpire n { s.spire n with gen := r, draws := 0 }) s

-- Log entries 74: DEDUCED, safe; 100: DEDUCED, unsafe.
/-- The end of a reset: Dome 0's key and the generators' seeds are drawn. -/
def State.endReset (s : State) : State :=
  let (k, s) := s.draw
  ({ s with sec := { s.sec with dome0Key := k }, pwr := { s.pwr with inReset := false } } : State).seedSpires

-- Log entry 96: DESIGN CHOICE, unsafe.
/-- Steps 1 and 2 of R354, with the failures of R355. -/
def State.boot (s : State) (c : BootChk) : State :=
  let s := s.endReset
  if !s.headerOk || s.cfgRecs.isNone then (s.setStep 1).startError 5
  else
    let s := s.loadChain c.leaf
    if !s.imageOk 0 c.aon then (s.setStep 0).startError 1
    else
      let s := (s.setMeas 1 (s.imageDigest 0)).setStep 1
      if !(s.imageOk 1 c.fw && s.imageOk 2 c.app) then s.startError 1
      else ((s.configure.runVersion (s.imageVersion 1)).setStep 2).bypHold true

-- Log entry 97: DEDUCED, unsafe.
/-- PWROK_RISE: the straps are latched, the identity key derived, and start-up begins unless PERST_N is asserted. `fl` is
what the board has programmed into the flash while the device was off. -/
def State.pwrokRise (s : State) (t : Straps) (perst : Bool) (fl : List (Nat × Byte)) (c : BootChk) : State :=
  if s.pwr.pwrok then s
  else
    let b := s.base
    let flash := fl.foldl (fun m e => SMap.store m 0xFF e.1 e.2) b.cores.flash
    let p := { b.pwr with pwrok := true, perstN := !perst, node := t.node.val, queenSel := t.queen, succSel := t.succ,
                          dpcSel := t.dpc, domains := 1 }
    let s := (({ b with pwr := p, cores := { b.cores with flash := flash } } : State).fFlag F.SEC_STATUS_id_ready true).showDpc
    let s := s.fFlag F.CLK_STATUS_ref_ok true
    if perst then s else (s.fFlag F.GLOBAL_RST_CAUSE_power_on true).boot c

/-- PWROK_RISE. -/
def execPwrokRise (t : Straps) (perst : Bool) (fl : List (Nat × Byte)) (c : BootChk) (s : State) : Result :=
  .next (s.pwrokRise t perst fl c)

-- Log entry 97: DEDUCED, unsafe.
/-- PWROK_FALL: every domain goes off at once; the flash alone keeps its contents. -/
def State.pwrokFall (s : State) : State := s.base

def execPwrokFall (s : State) : Result := .next s.pwrokFall

/-! ## Freeze and thaw (R358 - R363) -/

-- Log entry 98: DEDUCED, unsafe.
/-- A subchannel enters self-refresh at a time (R65, R78): every bank is precharged, every logical rank gets a REFab, queues
are held. A neighbour set in progress goes on after exit. -/
def Subch.selfRefresh (x : Subch) (now ranks : Nat) : Subch :=
  let x := { x with rows := [], lastCol := [], started := none, rfmOn := none, nbr := x.nbr.map NbrSet.again }
  (List.range ranks).foldl (fun x r => x.noteAt now ⟨.refab, r, 0, 0, 0, now⟩) (x.noteAt now ⟨.prea, 0, 0, 0, 0, now⟩)

-- Log entry 98: DEDUCED, unsafe.
def State.enterSr (s : State) (ch : Nat) : State :=
  let c := s.chan ch
  let sub := fun (x : Subch) => x.selfRefresh s.pwr.rootTime (2 ^ s.fN F.DCH_CFG_lrank_log2 ch)
  s.setChan ch { c with selfRefresh := true, sub0 := sub c.sub0, sub1 := sub c.sub1 }

-- Log entry 98: DEDUCED, unsafe.
/-- A channel leaves self-refresh: its first command waits tRFC1 + 10 ns, and refresh begins with no debt. -/
def State.leaveSr (s : State) (ch : Nat) : State :=
  let c := s.chan ch
  let now := s.pwr.rootTime
  let sub := fun (x : Subch) => x.noteAt now ⟨.srx, 0, 0, 0, 0, now⟩
  (s.setChan ch { c with selfRefresh := false, sub0 := sub c.sub0, sub1 := sub c.sub1 }).refStart ch

-- Log entry 98: DEDUCED, unsafe.
/-- A channel that a freeze acts on: trained, powered, not failed, not in self-refresh. -/
def State.srActs (s : State) (ch : Nat) : Bool :=
  (s.chan ch).trained && !(s.chan ch).failed && !(s.chan ch).selfRefresh && s.domainOn (7 + ch / 4)

-- Log entry 98: DEDUCED, unsafe.
/-- The device freezes; `miss` names the channels that do not complete self-refresh entry in time. -/
def State.freeze (s : State) (miss : BitVec 24) : State :=
  if s.pwr.frozen || s.pwr.step < 3 then s
  else
    let act := (List.range 24).filter fun ch => s.srActs ch
    let bad := act.filter fun ch => miss.getLsbD ch
    let s := (act.filter fun ch => !miss.getLsbD ch).foldl (fun s ch => s.enterSr ch) s
    let s := s.fSet F.FRZ_STATUS_sr_fail (bad.foldl (fun a ch => a + 2 ^ ch) 0)
    { s with pwr := { s.pwr with frozen := true } }

/-- FREEZE: FREEZE_N is asserted. -/
def execFreeze (miss : BitVec 24) (s : State) : Result :=
  .next (let t : State := { s with pwr := { s.pwr with freezePin := true } }; if s.up1 then (t.freeze miss).keep t else t)

/-- ZM_FREEZE. -/
def execZmFreeze (miss : BitVec 24) (s : State) : Result :=
  run1 s fun s => { s with pwr := { s.pwr with tapFreeze := true } }.freeze miss

-- Log entry 98: DEDUCED, unsafe.
/-- The device thaws once neither the pin nor the TAP freezes it (R362). -/
def State.thaw (s : State) : State :=
  if !s.pwr.frozen || s.pwr.freezePin || s.pwr.tapFreeze then s
  else
    let s := { s with pwr := { s.pwr with frozen := false, throttlePin := s.pwr.throttleIn } }
    let bad := fun ch => bit (s.fN F.FRZ_STATUS_sr_fail) ch
    let s := (List.range 24).foldl (fun s ch =>
      if bad ch then s.failChannel ch
      else if (s.chan ch).selfRefresh && s.domainOn (7 + ch / 4) then s.leaveSr ch else s) s
    let s := (List.range 16).foldl (fun s p => (s.linkDown p 0).linkDown p 1) s
    (List.range 12).foldl (fun s p =>
      match (s.ryPort p).st with
      | .down => s
      | .failed => s
      | _ => s.ryResetSelf p) s

/-- THAW: FREEZE_N is released. -/
def execThaw (s : State) : Result :=
  .next (let t : State := { s with pwr := { s.pwr with freezePin := false } }; if s.up1 then t.thaw.keep t else t)

/-- ZM_THAW. -/
def execZmThaw (s : State) : Result := run1 s fun s => { s with pwr := { s.pwr with tapFreeze := false } }.thaw

/-- TAP_RESET ends ZM_FREEZE. -/
def State.tapReset (s : State) : State := { s with pwr := { s.pwr with tapFreeze := false } }.thaw

def execTapReset (s : State) : Result := run1 s fun s => s.tapReset

/-! ## Start-up, steps 3 to 8 -/

/-- Records that firmware takes when it starts: the grant unit's limits and base, the pool's size, solo on a pool of one. -/
def State.firmwareConfig (s : State) : State :=
  let s := match s.cfgRec 5 with
    | some (o, n) => if 8 ≤ n then
        (s.wrCodes R.PGU_LIMIT (BitVec.ofNat 32 (s.flashLe o 4))).wrCodes R.PGU_BASE (BitVec.ofNat 32 (s.flashLe (o + 4) 4))
      else s
    | none => s
  match s.cfgRec 6 with
  | some (o, n) =>
    let pool := s.flashLe o n
    let s := { s with fab := { s.fab with pool := pool } }
    if pool = 1 ∧ s.pwr.queenSel then s.fFlag F.RYP_QUEEN_CTL_solo true else s
  | none => s

-- Log entry 67: DESIGN CHOICE, unsafe.
/-- The firmware-core body is copied to a core's TCM; the command areas are never loaded (R373). -/
def State.loadTcm (s : State) (n : Nat) : State :=
  let o := s.activeSlot 1
  let len := min (s.flashLe (o + 8) 4) 0xFF800
  let lo := n * 2 ^ 20
  let body := ((List.range len).map fun i => (lo + i, BitVec.ofNat 8 (s.flashByte (o + 512 + i)))).filter fun e => e.2 != 0
  let m := s.cores.tcm
  let m := m.filter (fun e => decide (e.1 < lo)) ++ body ++ m.filter (fun e => decide (lo + len ≤ e.1))
  { s with cores := { s.cores with tcm := m } }

/-- A core starts unless GLOBAL_CORE_RST holds it. -/
def State.startCore (s : State) (k : Nat) : State :=
  if bit (s.fN F.GLOBAL_CORE_RST_hold) k then s
  else
    let s := if k < 8 then s.loadTcm k else s
    { s with cores := { s.cores with running := s.cores.running ||| (1#24 <<< k),
                                     kicked := SMap.put s.cores.kicked k s.pwr.refTime } }

-- Log entry 99: DEDUCED, unsafe.
/-- Cores `l` start. -/
def State.startCores (s : State) (l : List Nat) : State := l.foldl (fun s k => s.startCore k) s

-- Log entries 52: DEDUCED, safe; 99: DEDUCED, unsafe.
/-- ROOT_PLL_LOCK: every domain is on and clocked; the firmware cores, the Spire self-tests and the links start. A freeze
asserted earlier takes effect. -/
def State.pllLock (s : State) : State :=
  if s.pwr.step ≠ 2 || s.fN F.START_STATUS_error != 0 then s
  else
    let s := { s with pwr := { s.pwr with domains := 0xFFFFF, step := 3 } }
    let s := ((s.fFlag F.CLK_STATUS_root_lock true).fFlag F.CLK_STATUS_ddr_lock true).fFlag F.CLK_STATUS_serdes_lock true
    let s := ({ s with honey := { s.honey with halfA := .on, halfB := .on } }.showHalves).fFlag F.HONEY_STATUS_clear_done true
    let s := (List.range 24).foldl (fun s n => s.setSpire n { s.spire n with selfTest := true }) s
    let s := ((s.startCores (List.range 8)).firmwareConfig).claimQueen
    let s := (List.range 12).foldl (fun s p => s.ryKick p) s
    if s.pwr.freezePin || s.pwr.tapFreeze then s.freeze 0 else s

def execRootPllLock (s : State) : Result := run s fun s => s.pllLock

/-- ROOT_PLL_LOCK_TIMEOUT. -/
def State.pllTimeout (s : State) : State :=
  if s.pwr.step ≠ 2 || s.fN F.START_STATUS_error != 0 then s
  else ({ s with pwr := { s.pwr with domains := 1 } }.startError 2).bypHold false

def execRootPllLockTimeout (s : State) : Result := run s fun s => s.pllTimeout

/-! ### Population and layout (R33, R52) -/

/-- The capacity of a group's channels in 16 GiB, where all four passed with equal capacity; else 0. -/
def State.groupCap (s : State) (g : Nat) : Nat :=
  let caps := (List.range 4).map fun i =>
    if (s.chan (4 * g + i)).trained then s.fN F.DCH_TRAIN_STATUS_cap_16g (4 * g + i) else 0
  let c := caps.headD 0
  if caps.all fun x => x == c then c else 0

/-- The capacity kept: the one whose groups hold most in all, and among equals that of the lowest-numbered group. -/
def State.keptCap (s : State) : Nat :=
  let total := fun c => ((List.range 6).filter fun g => s.groupCap g == c).length * c
  (List.range 6).foldl (fun a g => if total a < total (s.groupCap g) then s.groupCap g else a) 0

-- Log entry 95: PRESUMED, unsafe.
/-- The regions of configuration record type 2 as (base, size, affinity) in 64 MiB; none where the record is malformed. -/
def State.cfgRegions (s : State) : Option (List (Nat × Nat × Bool)) :=
  match s.cfgRec 2 with
  | none => some []
  | some (o, n) =>
    let k := n / 12
    let at_ := fun i f => s.flashLe (o + 12 * i + 4 * f) 4
    if n % 12 ≠ 0 || k = 0 || 8 < k || (List.range k).any fun i =>
        decide (2 ^ 19 ≤ at_ i 0) || decide (2 ^ 19 ≤ at_ i 1) || decide (1 < at_ i 2) then none
    else some ((List.range k).map fun i => (at_ i 0, at_ i 1, at_ i 2 == 1))

/-- Regions laid end to end from 0, the last extended to the top. -/
def layEnd (m : Nat) : List (Nat × Bool) → Nat → List (Nat × Nat × Bool)
  | [], _ => []
  | [(_, a)], b => [(b, m - b, a)]
  | (n, a) :: r, b => (b, n, a) :: layEnd m r (b + n)

/-- The layout derived from a record for M and C, in 64 MiB. -/
def fitRegions (m c : Nat) (rs : List (Nat × Nat × Bool)) : List (Nat × Nat × Bool) :=
  match rs.getLast? with
  | none => [(0, m, false)]
  | some l =>
    let mc := l.1 + l.2.1
    if mc = m then rs
    else layEnd m ((rs.map fun r => (r.2.1 * m / mc / c * c, r.2.2)).filter fun r => r.1 != 0) 0

/-- Firmware writes the layout's registers. -/
def State.writeLayout (s : State) (m c : Nat) (rs : List (Nat × Nat × Bool)) : State :=
  let s := rs.zipIdx.foldl (fun s (x : (Nat × Nat × Bool) × Nat) =>
    let k := x.2
    let s := (s.fSet F.GLOBAL_ILR_BASE_base_64m x.1.1 0 k).fSet F.GLOBAL_ILR_SIZE_size_64m x.1.2.1 0 k
    (s.fFlag F.GLOBAL_ILR_CTL_affinity x.1.2.2 0 k).fFlag F.GLOBAL_ILR_CTL_enable true 0 k) s
  s.fSet F.GLOBAL_HIVE_BASE_base_64m (m - hiveSize (m * mib64) c / mib64)

/-- The derived layout, or one striped region where it fails R32. -/
def State.deriveLayout (s : State) (m c : Nat) : State :=
  let hive := m * mib64 - hiveSize (m * mib64) c
  let bytes := fun (rs : List (Nat × Nat × Bool)) => rs.map fun r => (r.1 * mib64, r.2.1 * mib64, r.2.2)
  match s.cfgRegions with
  | some rs =>
    let fit := fitRegions m c rs
    if fit.length ≤ 8 ∧ layoutOk (m * mib64) c hive (bytes fit) then s.writeLayout m c fit
    else (s.writeLayout m c [(0, m, false)]).fFlag F.GLOBAL_IL_STATUS_layout_fallback true
  | none => (s.writeLayout m c [(0, m, false)]).fFlag F.GLOBAL_IL_STATUS_layout_fallback true

-- Log entry 99: DEDUCED, unsafe.
/-- DRAM_GROUP_SELECT: after training. An excluded group's domain is switched off. -/
def State.groupSelect (s : State) : State :=
  if s.pwr.step ≠ 3 || ((List.range 24).any fun ch => (s.chan ch).train.isSome) then s
  else
    let cap := s.keptCap
    let pop := (List.range 6).filter fun g => cap != 0 && s.groupCap g == cap
    let mask := pop.foldl (fun a g => a + 2 ^ g) 0
    let c := 4 * pop.length
    let m := c * cap * 256
    let off := BitVec.ofNat 20 ((63 - mask) * 2 ^ 6)
    let s := { s with pwr := { s.pwr with step := 4, domains := s.pwr.domains &&& ~~~off } }
    let s := s.fSet F.PWR_DOM_CTL_on_7_20 (s.fN F.PWR_DOM_CTL_on_7_20 - (63 - mask))
    let s := (s.fSet F.GLOBAL_POP_dram_groups mask).fSet F.GLOBAL_IL_STATUS_chan_groups pop.length
    let s := s.fSet F.GLOBAL_IL_STATUS_mem_top_64m m
    let s := (List.range 24).foldl (fun s ch => s.showService ch) s
    if pop.isEmpty then s.startError 3 else s.deriveLayout m c

def execDramGroupSelect (s : State) : Result := run s fun s => s.groupSelect

/-- The last step of R354 completed. -/
def State.startStep (s : State) : Nat :=
  if s.pwr.step ≠ 4 then s.pwr.step
  else if !s.fB F.GLOBAL_IL_STATUS_locked then 4
  else if !(s.fB F.GLOBAL_VMAP_STATUS_zero_done && s.fB F.GLOBAL_VMAP_STATUS_on) then 5
  else if s.fB F.QCTL_CTL_enable && s.fB F.COMB_CTL_enable && s.fB F.RYP_HANDLE_CTL_enable then 7 else 6

-- Log entry 99: DEDUCED, unsafe.
/-- READY_RISE: the Dome-0 tables are enabled. The grant unit counts from here on; the application cores that
GLOBAL_CORE_RST does not hold run. -/
def State.readyRise (s : State) : State :=
  if s.startStep ≠ 7 || s.fN F.START_STATUS_error != 0 then s
  else
    let s := ({ s with pwr := { s.pwr with step := 8, ready := true } } : State).buildCdat
    (s.fSet F.START_STATUS_ready_ms (min 0xFFFF (s.pwr.refTime / ms 1))).startCores ((List.range 16).map fun k => 8 + k)

def execReadyRise (s : State) : Result := run s fun s => s.readyRise

/-- The level of READY (R357). -/
def State.readyPin (s : State) : Bool := s.pwr.ready && !s.pwr.frozen && !s.bel.latched

/-- The value START_STATUS shows. -/
def State.startStatus (s : State) : Word :=
  BitVec.ofNat 32 ((if s.readyPin then 2 ^ 31 else 0) + s.fN F.START_STATUS_error * 2 ^ 20 + s.startStep * 2 ^ 16 +
    s.fN F.START_STATUS_ready_ms)

/-- SPIRE_SELF_TEST_DONE (R191). -/
def State.selfTestDone (s : State) (n : Nat) (pass : Bool) : State :=
  if !(s.spire n).selfTest then s
  else
    let s := s.setSpire n { s.spire n with selfTest := false }
    let s := ((s.fFlag F.SPIRE_STATUS_st_done true n).fFlag F.SPIRE_STATUS_st_pass pass n).showSpire n
    if pass then s else s.raise (448 + 8 * n)

def execSpireSelfTestDone (n : Fin 24) (pass : Bool) (s : State) : Result := run s fun s => s.selfTestDone n.val pass

/-! ## PERST_N and the software reset (R356, R397) -/

-- Log entry 97: DEDUCED, unsafe.
/-- PERST_N_ASSERT: a pending software reset is dropped. -/
def State.perstAssert (s : State) : State :=
  if !s.pwr.pwrok then { s with pwr := { s.pwr with perstN := false } }
  else ({ s with pwr := { s.pwr with perstN := false } } : State).held

def execPerstNAssert (s : State) : Result := .next s.perstAssert

/-- PERST_N_DEASSERT: start-up runs from step 1. -/
def State.perstDeassert (s : State) (c : BootChk) : State :=
  let was := s.pwr.perstN
  let s := { s with pwr := { s.pwr with perstN := true } }
  if !s.pwr.pwrok || was then s else ((s.fFlag F.CLK_STATUS_ref_ok true).fFlag F.GLOBAL_RST_CAUSE_perst true).boot c

def execPerstNDeassert (c : BootChk) (s : State) : Result := .next (s.perstDeassert c)

/-- A write of GLOBAL_SW_RST. -/
def State.swRstWrite (s : State) (v : Word) : State :=
  if F.GLOBAL_SW_RST_key.of v = 0xD0A5 ∧ !s.fB F.GLOBAL_SW_RST_pending then s.fFlag F.GLOBAL_SW_RST_pending true else s

/-- SOFTWARE_RESET. -/
def execSoftwareReset (s : State) : Result := run s fun s => s.swRstWrite 0xD0A5

/-- SOFTWARE_RESET_BEGIN: 100 µs after the key the internal reset begins. -/
def State.swRstBegin (s : State) : State :=
  if !s.fB F.GLOBAL_SW_RST_pending then s
  else
    let s := s.held
    { s with pwr := { s.pwr with swResetAt := some s.pwr.refTime } }

def execSoftwareResetBegin (s : State) : Result := run1 s fun s => s.swRstBegin

/-- INTERNAL_RESET_END: after 1 ms start-up runs from step 1. -/
def State.swRstEnd (s : State) (c : BootChk) : State :=
  if s.pwr.swResetAt.isNone || !s.pwr.pwrok then s
  else
    let s := { s with pwr := { s.pwr with swResetAt := none } }
    ((s.fFlag F.CLK_STATUS_ref_ok true).fFlag F.GLOBAL_RST_CAUSE_software true).boot c

def execInternalResetEnd (c : BootChk) (s : State) : Result := .next (s.swRstEnd c)

/-! ## Power domains (R346 - R348) -/

/-- Whether a domain may be switched off. -/
def State.offOk (s : State) (d : Nat) : Bool :=
  if d ≤ 12 then (List.range 4).all fun i => s.fB F.DCH_STATUS_maint_active (4 * (d - 7) + i)
  else if d ≤ 16 then (List.range 6).all fun i => !s.fB F.SPIRE_CTL_enable (6 * (d - 13) + i)
  else if d ≤ 18 then (List.range 8).all fun i => !s.fB F.CXLP_CFG_enable (8 * (d - 17) + i)
  else
    let lo := 6 * (d - 19)
    ((List.range 6).all fun i => !s.fB F.RYP_CFG_enable (lo + i) && (s.ryPort (lo + i)).sent.isEmpty) &&
      decide (bits (s.fN F.RYP_BYP_CTL_release) (3 * (d - 19)) 3 = 7)

/-- Whether a domain may be switched on: a DRAM group must be populated. -/
def State.onOk (s : State) (d : Nat) : Bool := if d ≤ 12 then bit (s.fN F.GLOBAL_POP_dram_groups) (d - 7) else true

/-- One switch request. -/
def State.domRequest (s : State) (d : Nat) (on : Bool) : State :=
  if s.pwr.switching.isSome || !(if on then s.onOk d else s.offOk d) then s.fFlag F.PWR_DOM_STATUS_refused true
  else
    let ctl := s.fN F.PWR_DOM_CTL_on_7_20
    let s := s.fSet F.PWR_DOM_CTL_on_7_20 (setBits ctl (d - 7) 1 (if on then 1 else 0))
    let s := if d ≤ 12 ∧ !on then (List.range 4).foldl (fun s i => s.enterSr (4 * (d - 7) + i)) s else s
    { s with pwr := { s.pwr with switching := some (d, on) } }

/-- A write of PWR_DOM_CTL: every bit that changes is a request, in ascending order. -/
def State.domCtlWrite (s : State) (v : Word) : State :=
  let old := s.fN F.PWR_DOM_CTL_on_7_20
  let new := F.PWR_DOM_CTL_on_7_20.of v
  (List.range 14).foldl (fun s i => if bit old i == bit new i then s else s.domRequest (7 + i) (bit new i)) s

/-- A write that changes one domain's bit alone. -/
def State.domWord (s : State) (d : Nat) (on : Bool) : Word :=
  BitVec.ofNat 32 (setBits (s.rd R.PWR_DOM_CTL).toNat (d - 1) 1 (if on then 1 else 0))

/-- POWER_DOMAIN_OFF: domain 7 + `d`. -/
def execPowerDomainOff (d : Fin 14) (s : State) : Result := run s fun s => s.domCtlWrite (s.domWord (7 + d.val) false)

/-- POWER_DOMAIN_ON: domain 7 + `d`. -/
def execPowerDomainOn (d : Fin 14) (s : State) : Result := run s fun s => s.domCtlWrite (s.domWord (7 + d.val) true)

-- Log entry 100: DEDUCED, unsafe.
/-- The registers of a block at `base` that `keep` does not name return to reset. -/
def State.resetBlock (s : State) (base : Nat) (keep : Nat → Bool) : State :=
  { s with csr := s.csr.filter fun e => !(decide (base ≤ e.1 ∧ e.1 < base + 0x10000)) || keep (e.1 - base) }

-- Log entry 100: DEDUCED, unsafe.
/-- The registers a DRAM group keeps while it is off (R348). -/
def dchKept (o : Nat) : Bool :=
  o == 0 || (0x10 ≤ o && o ≤ 0x34) || o == 0x40 || o == 0x44 || o == 0x60 || o == 0x84 || o == 0x100 || o == 0x140

-- Log entry 100: DEDUCED, unsafe.
/-- A channel loses what R348 does not keep. A failed channel stays failed (R74). -/
def State.chanOff (s : State) (ch : Nat) : State :=
  let s := s.resetBlock (0x01000000 + ch * 0x10000) dchKept
  let c := s.chan ch
  let sub := fun (x : Subch) => { Subch.reset with raa := x.raa }
  let s := s.setChan ch { c with cel := [], members := [], sub0 := sub c.sub0, sub1 := sub c.sub1, frgPos := 0, frgLast := 0, frgLapTicks := 0,
                                 failTimes := [] }
  ((s.fFlag F.DCH_STATUS_failed (s.chan ch).failed ch).showService ch).remapFree ch

-- Log entry 100: DEDUCED, unsafe.
/-- What a domain that has gone off has lost. -/
def State.domainLost (s : State) (d : Nat) : State :=
  if d ≤ 12 then (List.range 4).foldl (fun s i => s.chanOff (4 * (d - 7) + i)) s
  else if d ≤ 16 then
    (List.range 6).foldl (fun s i =>
      let n := 6 * (d - 13) + i
      (s.resetBlock (0x03000000 + n * 0x10000) (fun _ => false)).setSpire n Spire.reset) s
  else if d ≤ 18 then
    (List.range 8).foldl (fun s i =>
      let p := 8 * (d - 17) + i
      let s := (s.linkDown p 0).linkDown p 1
      (s.resetBlock (0x04000000 + p * 0x10000) (fun o => 0x1000 ≤ o)).setCxlPort p (CxlPort.reset (s.cxlPort p).fmFunc)) s
  else
    (List.range 6).foldl (fun s i =>
      let p := 6 * (d - 19) + i
      (s.resetBlock (0x05000000 + p * 0x10000) (fun o => 0x400 ≤ o)).setRy p RyPort.reset) s

/-- A channel whose group is on again has its membership table copied from firmware's and is in service as its enable and
training say (R43, R347). -/
def State.groupBack (s : State) (ch : Nat) : State :=
  (s.setChan ch { s.chan ch with members := s.domes.groups }).showService ch

-- Log entries 74: DEDUCED, safe; 100: DEDUCED, unsafe.
/-- POWER_SWITCH_DONE: the switch in progress completes. Events of a domain's sources that are not delivered go with it. -/
def State.switchDone (s : State) : State :=
  match s.pwr.switching with
  | none => s
  | some (d, on) =>
    let s := { s with pwr := { s.pwr with switching := none } }
    let m : BitVec 20 := 1#20 <<< (d - 1)
    if on then
      let s := { s with pwr := { s.pwr with domains := s.pwr.domains ||| m } }
      if d ≤ 12 then (List.range 4).foldl (fun s i => (s.leaveSr (4 * (d - 7) + i)).groupBack (4 * (d - 7) + i)) s
      else if d ≤ 16 then
        (List.range 6).foldl (fun s i => let (r, s) := s.random64
          s.setSpire (6 * (d - 13) + i) { s.spire (6 * (d - 13) + i) with selfTest := true, gen := r, draws := 0 }) s
      else if d ≤ 18 then s
      else (List.range 6).foldl (fun s i => s.ryKick (6 * (d - 19) + i)) s
    else
      let s := s.domainLost d
      { s with pwr := { s.pwr with domains := s.pwr.domains &&& ~~~m },
               bel := { s.bel with evts := s.bel.evts.filter fun e => srcDomain e.src != d } }

/-- POWER_SWITCH_DONE: a switch in progress completes while the device is frozen too (R360). -/
def execPowerSwitchDone (s : State) : Result := run1 s fun s => s.switchDone

/-- The value PWR_DOM_STATUS shows. -/
def State.domStatus (s : State) : Word :=
  BitVec.ofNat 32 ((if s.fB F.PWR_DOM_STATUS_refused then 2 ^ 31 else 0) + (if s.pwr.switching.isSome then 2 ^ 30 else 0) +
    s.pwr.domains.toNat)

/-- The value PWR_DOM_CTL shows: the honey halves as HONEY_CTL sets them. -/
def State.domCtlShown (s : State) : Word :=
  BitVec.ofNat 32 (setBits (setBits (s.rd R.PWR_DOM_CTL).toNat 4 1 (s.fN F.HONEY_CTL_half_a)) 5 1 (s.fN F.HONEY_CTL_half_b))

/-- The value FRZ_STATUS shows. -/
def State.frzStatus (s : State) : Word :=
  let one := fun (b : Bool) (i : Nat) => if b then 2 ^ i else 0
  BitVec.ofNat 32 (one s.pwr.frozen 31 + one s.pwr.tapFreeze 30 + one s.pwr.freezePin 29 + s.fN F.FRZ_STATUS_sr_fail)

/-! ## The reference count (R343) and the clock control (R345) -/

/-- A read of CLK_REFCNT_LO latches the high bits. -/
def State.refcntRead (s : State) : State × Word :=
  ({ s with pwr := { s.pwr with refHi := BitVec.ofNat 16 (bits s.refCount 32 16) } }, BitVec.ofNat 32 s.refCount)

/-- REFCNT_READ. -/
def execRefcntRead (s : State) : Result :=
  run s fun s => let (s, v) := s.refcntRead; s.emit (.csr (R.CLK_REFCNT_LO.addr 0 0) v)

/-- A write of CLK_CTL: read-only after the first training start. -/
def State.clkCtlWrite (s : State) (v : Word) : State := if s.pwr.trainStarted then s else s.wrCodes R.CLK_CTL v

-- Log entry 2: DESIGN CHOICE, unsafe.
/-- One tick of a third of a nanosecond: the reference runs while power is good, the root-derived clocks from step 3 on
and while the device is not frozen. -/
def State.tick (s : State) : State :=
  if !s.pwr.pwrok then s
  else
    let root := !s.pwr.frozen && !s.pwr.inReset && 3 ≤ s.pwr.step
    { s with pwr := { s.pwr with refTime := s.pwr.refTime + 1, rootTime := s.pwr.rootTime + (if root then 1 else 0) } }

end Sys2Proof.Machine
end

