-- ==== Sys2Proof/Machine/Cores.lean ====
section
/-!
DEFINITION. The control cores' watchdogs and reset (R370, R371).
-/
namespace Sys2Proof.Machine

/-! ## Watchdogs (R370) -/

-- Log entry 101: DEDUCED, unsafe.
/-- A write of GLOBAL_CORE_WDTk: kick, and a timeout where none ran, start the count anew. -/
def State.wdtWrite (s : State) (k : Nat) (v : Word) : State :=
  let idle := s.fN F.GLOBAL_CORE_WDT_timeout_ms 0 k == 0
  let s := s.wrCodes R.GLOBAL_CORE_WDT v 0 k
  if F.GLOBAL_CORE_WDT_kick.on v || idle then
    { s with cores := { s.cores with kicked := SMap.put s.cores.kicked k s.pwr.refTime } }
  else s

/-- WATCHDOG_KICK: kick written 1 with timeout_ms as it stands. -/
def execWatchdogKick (k : Fin 24) (s : State) : Result :=
  run s fun s => s.wdtWrite k.val ((s.rd R.GLOBAL_CORE_WDT 0 k.val &&& 0xFFFF#32) ||| 0x40000000#32)

-- Log entry 101: DEDUCED, unsafe.
/-- WATCHDOG_EXPIRY: the count of a core that is not held in reset reaches zero. -/
def State.wdtExpiry (s : State) (k : Nat) : State :=
  if s.fN F.GLOBAL_CORE_WDT_timeout_ms 0 k = 0 || bit (s.fN F.GLOBAL_CORE_RST_hold) k then s
  else
    let s := { s with cores := { s.cores with kicked := SMap.put s.cores.kicked k s.pwr.refTime } }
    (s.fFlag F.GLOBAL_CORE_WDT_expired true 0 k).raise (16 + k)

def execWatchdogExpiry (k : Fin 24) (s : State) : Result := run s fun s => s.wdtExpiry k.val

/-! ## Core reset (R371) -/

-- Log entry 66: DESIGN CHOICE, unsafe.
/-- The commands in a firmware core's areas complete with INTERNAL_FAULT. -/
def State.areasFail (s : State) (n : Nat) : State :=
  let mine := s.q.areas.filter fun e => e.1 / 16 == n
  let s := mine.foldl (fun s e =>
    match s.cmd e.2 with
    | some c =>
      ((s.orphan e.2).dropOrigin (.fw e.2)).putCmd e.2 { c with st := .done, eng := .none, status := stFault, result := 0, pos := 0, aux := 0 }
    | none => s) s
  let reply := s.q.tcmReply.filter fun r => !(mine.any fun e => e.2 == r.1)
  { s with q := { s.q with areas := s.q.areas.filter (fun e => e.1 / 16 != n), tcmReply := reply } }

-- Log entry 101: DEDUCED, unsafe.
/-- A core is held in reset. -/
def State.coreHold (s : State) (k : Nat) : State :=
  let s := { s with cores := { s.cores with running := s.cores.running &&& ~~~(1#24 <<< k) } }
  if k < 8 then s.areasFail k else s

-- Log entry 101: DEDUCED, unsafe.
/-- A write of GLOBAL_CORE_RST: refused where it would hold every firmware core. A core newly held stops; an application
core newly released starts, a firmware core once its TCM is reloaded. -/
def State.coreRstWrite (s : State) (v : Word) : State :=
  let s := if F.GLOBAL_CORE_RST_refused.on v then s.fFlag F.GLOBAL_CORE_RST_refused false else s
  let new := F.GLOBAL_CORE_RST_hold.of v
  if new % 256 = 255 then s.fFlag F.GLOBAL_CORE_RST_refused true
  else
    let old := s.fN F.GLOBAL_CORE_RST_hold
    let s := s.fSet F.GLOBAL_CORE_RST_hold new
    (List.range 24).foldl (fun s k =>
      if bit new k && !bit old k then s.coreHold k
      else if bit old k && !bit new k && decide (8 ≤ k) then s.startCores [k]
      else s) s

/-- CORE_RESET. -/
def execCoreReset (v : Word) (s : State) : Result := run s fun s => s.coreRstWrite v

/-- CORE_START: a released firmware core's TCM is reloaded, and the core starts if the image passes its check. -/
def State.coreStart (s : State) (k : Nat) (c : ImgChk) : State :=
  if bit (s.fN F.GLOBAL_CORE_RST_hold) k || s.cores.running.getLsbD k || s.pwr.step < 3 || !s.imageOk 1 c then s
  else s.startCores [k]

def execCoreStart (k : Fin 8) (c : ImgChk) (s : State) : Result := run s fun s => s.coreStart k.val c

end Sys2Proof.Machine
end

