-- ==== Sys2Proof/Machine/HomeRows.lean ====
section
/-!
DEFINITION. The home's commands: lock grants (R138), snoop timeouts (R141), agent registration (R130), SNOOP_CTL, and the
sweep of a lost agent (R143, R144, R170).
-/
namespace Sys2Proof.Machine

-- Log entry 3: DESIGN CHOICE, safe.
/-- LOCK_GRANT. -/
def execLockGrant (s : State) : Result := run s fun s => s.lockGrant

/-- The oldest snoop's timeout expires before its answer. -/
def State.biTimeout (s : State) : State :=
  match s.home.snoops with
  | n :: _ => (s.snoopLost n).snoopGone n
  | [] => s

/-- BI_TIMEOUT. -/
def execBiTimeout (s : State) : Result := run s fun s => s.biTimeout

/-- The valid entries of an agent's array: key, tag and state, in order of set and way. -/
def State.agentEntries (s : State) (a : Nat) : SMap (BitVec 32) := s.home.filter.filter fun e => e.1 / 524288 == a

/-- The fields of SNOOP_AGENT_CFG that software writes. -/
def agentMask : Word := 0x803E1FFF

/-- A write of SNOOP_AGENT_CFG for a slot (R130). -/
def State.agentCfgWrite (s : State) (a : Nat) (v : Word) : State :=
  let x := v &&& agentMask
  let set := fun (s : State) => { s with home := { s.home with agents := SMap.store s.home.agents 0 a x } }
  if x.getLsbD 31 then
    if s.sweepBusy a || (List.range 32).any fun b => b != a && s.agentOn b && s.agentCfg b == x then
      s.fFlag F.SNOOP_STATUS_refused true
    else
      let s := set s
      { s with home := { s.home with down := s.home.down.filter fun b => b != a } }
  else if (s.agentEntries a).isEmpty then set s
  else s.fFlag F.SNOOP_STATUS_refused true

/-- AGENT_REGISTER: a write of SNOOP_AGENT_CFG for the slot that SNOOP_AGENT_IDX names. -/
def execAgentRegister (v : Word) (s : State) : Result := run s fun s => s.agentCfgWrite (s.fN F.SNOOP_AGENT_IDX_agent) v

/-- A write of SNOOP_CTL: bi_timeout is stored; enable does not change while an array holds an entry. -/
def State.snoopCtlWrite (s : State) (v : Word) : State :=
  let s := s.fSet F.SNOOP_CTL_bi_timeout (F.SNOOP_CTL_bi_timeout.of v)
  let en := F.SNOOP_CTL_enable.on v
  if en == s.fB F.SNOOP_CTL_enable then s
  else if s.home.filter.isEmpty then s.fFlag F.SNOOP_CTL_enable en
  else s.fFlag F.SNOOP_STATUS_refused true

/-- SNOOP_CTL_WRITE. -/
def execSnoopCtlWrite (v : Word) (s : State) : Result := run s fun s => s.snoopCtlWrite v

/-! ## The sweep of a slot that is down (R143, R144) -/

/-- A line the sweep finds in E/M: line, the Dome whose policy applies, poisoned or kept. -/
structure Lost where
  line : Nat
  dome : Nat
  poisoned : Bool
  deriving DecidableEq, Repr

/-- The E/M lines of a slot in sweep order. -/
def State.lostLines (s : State) (a : Nat) : List Lost :=
  (s.agentEntries a).filterMap fun e =>
    match filterDecode e.2 with
    | some (t, st) =>
      if st = 2 then
        let line := filterLine (e.1 / 16 % 32768) t
        some ⟨line, s.lineDome line, !s.keepOnDown line⟩
      else none
    | none => none

/-- An AGENT_DOWN record (R170). -/
def Lost.record (l : Lost) : Nat := l.line + l.dome * 2 ^ 39 + (if l.poisoned then 2 ^ 51 else 0)

-- Log entry 56: DEDUCED, unsafe.
/-- The records that fit, as bytes. -/
def reportBytes (n : Nat) (ls : List Lost) : Nat × Nat :=
  let r := ls.take n
  (8 * r.length, (r.zipIdx.map fun x => x.1.record * 2 ^ (64 * x.2)).sum)

-- Log entry 56: DEDUCED, unsafe.
/-- Writes the report of the AGENT_DOWN in a context: its status, or none while a write waits. -/
def State.agentReport (s : State) (k : Nat) (c : Cmd) (ls : List Lost) : State × Option Nat :=
  if pvaTop < c.p 2 + c.p 3 then (s, some stLength)
  else
    let (n, v) := reportBytes (c.p 3 / 8) ls
    match State.fwPut (.fw k) c.ctx (n / 64 + 2) s (c.p 2) n v with
    | (s, .wait) => (s, none)
    | (s, .fail st) => (s, some st)
    | (s, .ok _) => (s, some (if c.p 3 < 8 * ls.length then stPartial else stOK))

-- Log entry 57: DEDUCED, unsafe.
/-- The sweep clears the slot's array, poisons what its Domes' policies poison, and raises one event for each Dome. -/
def State.sweepArray (s : State) (a : Nat) (ls : List Lost) : State :=
  let s := { s with home := { s.home with filter := s.home.filter.filter fun e => e.1 / 524288 != a,
                                          sweeps := s.home.sweeps.filter fun w => w.slot != a } }
  let s := ls.foldl (fun s l => if l.poisoned then s.poisonLine l.line 35 else s) s
  let domes := (ls.map fun l => l.dome).eraseDups
  domes.foldl (fun s d =>
    let mine := ls.filter fun l => l.dome == d
    s.raise 8 (BitVec.ofNat 16 (d * 16)) d (mine.head?.map fun l => l.line * 64) mine.length) s

-- Log entry 56: DEDUCED, unsafe.
/-- The sweep of the first slot that waits for one ends: it takes the lock of each E/M line, so that while one is locked it
waits. -/
def State.sweepDone (s : State) : State :=
  match s.home.sweeps with
  | [] => s
  | w :: _ =>
    let ls := s.lostLines w.slot
    if ls.any fun l => s.locked l.line then s
    else match w.cmd.bind fun k => (s.cmd k).map fun c => (k, c) with
      | none => s.sweepArray w.slot ls
      | some (k, c) =>
        match s.agentReport k c ls with
        | (s, none) => s
        | (s, some st) => ((((s.sweepArray w.slot ls).clearAns (.fw k)).dropOrigin (.fw k)).fwReply k st ls.length)

/-- AGENT_DOWN_SWEEP_DONE. -/
def execAgentDownSweepDone (s : State) : Result := run s fun s => s.sweepDone

end Sys2Proof.Machine
end

