-- ==== Sys2Proof/Machine/Csr.lean ====
section
/-!
DEFINITION. The register space (chapter 20, R5 - R9): where a register lies, the power domain a block needs, what a read
shows, what a write does, and the cases of R395.
-/
namespace Sys2Proof.Machine

/-! ## Addresses (R392, R394) -/

/-- The register address of a window offset. -/
def winToReg (w : Nat) : Nat := bits w 15 11 * 2 ^ 16 + w % 2 ^ 15

/-- The window offset of a register address. -/
def regToWin (a : Nat) : Nat := bits a 16 11 * 2 ^ 15 + a % 2 ^ 15

/-- The power domain of the block copy that holds an address; none outside every block. -/
def blockDomain (a : Nat) : Option Nat :=
  let copy := fun (base n : Nat) => if base ≤ a ∧ a < base + n * 0x10000 then some ((a - base) / 0x10000) else none
  if (copy 0 1).isSome || (copy 0x100000 1).isSome || (copy 0x200000 1).isSome || (copy 0x300000 1).isSome ||
      (copy 0x07C00000 1).isSome then some 1
  else match copy 0x01000000 24 with
  | some n => some (7 + n / 4)
  | none => match copy 0x03000000 24 with
  | some n => some (13 + n / 6)
  | none => match copy 0x04000000 16 with
  | some n => some (if n = 0 ∧ 0x1000 ≤ a % 0x10000 ∧ a % 0x10000 < 0x1400 then 4 else 17 + n / 8)
  | none => match copy 0x05000000 12 with
  | some n =>
    some (if n = 0 ∧ a % 0x10000 / 4 = 0x403 then 1
      else if n = 0 ∧ 0x400 ≤ a % 0x10000 ∧ a % 0x10000 < 0x1900 then 4 else 19 + n / 6)
  | none =>
    if (copy 0x02000000 1).isSome || (copy 0x02100000 1).isSome || (copy 0x03180000 1).isSome ||
        (copy 0x06000000 1).isSome || (copy 0x07000000 1).isSome || (copy 0x07800000 1).isSome then some 4
    else none

/-! Every register, in the order of the chapters. -/

def regs0 : List Reg :=
  [R.GLOBAL_ILR_BASE, R.GLOBAL_ILR_SIZE, R.GLOBAL_ILR_CTL, R.GLOBAL_HIVE_BASE, R.GLOBAL_IL_STATUS, R.GLOBAL_IL_LOCK,
    R.CXLP_CTXT_KEY, R.CXLP_CTXT_VAL, R.CXLP_CTXT_CMD, R.CXLP_CTXT_STATUS, R.CXLP_CTXT_MISS_CNT, R.DCH_CFG,
    R.DCH_STATUS, R.DCH_TIMING0, R.DCH_TIMING1, R.DCH_TIMING2, R.DCH_TIMING3, R.DCH_TIMING4, R.DCH_TIMING5,
    R.DCH_REF_CTL, R.DCH_NBR_CTL, R.DCH_SCHED_CTL, R.DCH_AGE_CAP, R.DCH_QOS_IDX, R.DCH_QOS_VAL, R.DCH_CA_CTL,
    R.DCH_CA_LOG_LO, R.DCH_CA_LOG_HI, R.DCH_CA_FAIL_CNT, R.DCH_TRAIN_CTL, R.DCH_TRAIN_STATUS, R.DCH_EVT_CNT0]

def regs1 : List Reg :=
  [R.DCH_EVT_CNT1, R.DCH_ECC_CTL, R.DCH_ERR_CNT0, R.DCH_ERR_CNT1, R.DCH_CEL_IDX, R.DCH_CEL_LO, R.DCH_CEL_HI,
    R.DCH_REMAP_IDX, R.DCH_REMAP_LO, R.DCH_REMAP_HI, R.DCH_FRG_CTL, R.DCH_FRG_POS_LO, R.DCH_FRG_POS_HI, R.DCH_FRG_LAP,
    R.DCH_FRG_ELAPSED, R.DCH_RAW_CTL, R.DCH_RAW_ADDR, R.DCH_RAW_D, R.DCH_RAW_M, R.GLOBAL_VMAP_CTL,
    R.GLOBAL_VMAP_STATUS, R.GLOBAL_VMAP_BAD, R.HONEY_CTL, R.HONEY_STATUS, R.HONEY_WAY_IDX, R.HONEY_WAY_VAL,
    R.HONEY_PIN_CTL, R.HONEY_HEAT_CTL, R.HONEY_HEAT_EPOCH, R.HONEY_HEAT_STATUS, R.HONEY_HOT_CTL, R.HONEY_HOT_MIN]

def regs2 : List Reg :=
  [R.HONEY_HOT_DST_LO, R.HONEY_HOT_DST_HI, R.HONEY_HOT_STATUS, R.HONEY_MIG_CTL, R.HONEY_MIG_STATUS, R.HONEY_HIT_CNT,
    R.HONEY_MISS_CNT, R.SNOOP_CTL, R.SNOOP_STATUS, R.SNOOP_AGENT_IDX, R.SNOOP_AGENT_CFG, R.SNOOP_AGENT_OCC,
    R.SNOOP_AGENT_EM, R.SNOOP_EVT_CNT0, R.SNOOP_EVT_CNT1, R.SNOOP_EVT_CNT2, R.SNOOP_POL_IDX, R.SNOOP_POL_VAL,
    R.SNOOP_TO_LOG_LO, R.SNOOP_TO_LOG_HI, R.QCTL_CTL, R.QCTL_STATUS, R.QCTL_DESC_BASE_LO, R.QCTL_DESC_BASE_HI,
    R.QCTL_QIDX, R.QCTL_QINFO, R.QCTL_QPTR, R.QCTL_QCPTR, R.QCTL_DB_REJ_CNT, R.QCTL_TABLE_REJ_CNT, R.QCTL_MBX_PKT,
    R.QCTL_MBX_CMD]

def regs3 : List Reg :=
  [R.QCTL_MBX_RPL, R.COMB_CTL, R.COMB_STATUS, R.COMB_ROOTDIR_LO, R.COMB_ROOTDIR_HI, R.COMB_GEN, R.COMB_MISS_CNT,
    R.COMB_STALL_CNT, R.COMB_EVT_CNT, R.COMB_INV_CTX, R.COMB_INV_START_LO, R.COMB_INV_START_HI, R.COMB_INV_PAGES_LO,
    R.COMB_INV_PAGES_HI, R.COMB_INV_CMD, R.COMB_FW_REC0, R.COMB_FW_REC1, R.COMB_FW_REC2, R.COMB_FW_REC3,
    R.COMB_FW_FILL0, R.COMB_FW_FILL1, R.COMB_FW_FILL2, R.SPIRE_CTL, R.SPIRE_STATUS, R.SPIRE_SR_SEED_LO,
    R.SPIRE_SR_SEED_HI, R.SPIRE_EXC_CNT0, R.SPIRE_EXC_CNT1, R.SPIRE_OPS_CNT, R.SPIRE_SPILL_CNT, R.SPIRE_SCR_ERR,
    R.SPIRE_OFFCH_CNT]

def regs4 : List Reg :=
  [R.SPIRE_WIN_BASE, R.SPIRE_WIN_SIZE, R.SPIRE_WIN_CTL, R.SPIRE_WIN_ADD_CNT, R.SPIRE_WIN_EVT_CNT, R.CXLP_CFG,
    R.CXLP_LINK_STATUS, R.CXLP_LINK_CTL, R.CXLP_ERR_CNT, R.CXLP_HDM_BASE_LO, R.CXLP_HDM_BASE_HI, R.CXLP_HDM_SIZE,
    R.CXLP_HDM_DPA, R.CXLP_HDM_SRC, R.CXLP_HDM_CTL, R.RYP_CFG, R.RYP_LINK_STATUS, R.RYP_LINK_CTL, R.RYP_ACK_CTL,
    R.RYP_REPLAY_CTL, R.RYP_VC_CRED, R.RYP_SPARE_CTL, R.RYP_ERR_CNT0, R.RYP_ERR_CNT1, R.RYP_ERR_CNT2,
    R.RYP_REPLAY_STATUS, R.RYP_ROUTE, R.RYP_ROUTE_STATUS, R.RYP_ORIGIN_ROUTE, R.RYP_FAB_CTL, R.RYP_FAB_STATUS,
    R.RYP_QUEEN_CTL]

def regs5 : List Reg :=
  [R.RYP_BYP_CTL, R.RYP_HANDLE_CTL, R.RYP_HANDLE_BASE_LO, R.RYP_HANDLE_BASE_HI, R.RYP_DOME_MODE_IDX,
    R.RYP_DOME_MODE_VAL, R.RYP_FAB_CNT, R.RYP_OWIN_BASE, R.RYP_OWIN_SIZE, R.RYP_OWIN_CTL, R.RYP_IWIN_BASE,
    R.RYP_IWIN_SIZE, R.RYP_IWIN_CTL, R.SHAPER_IDX, R.SHAPER_RATE, R.SHAPER_DEPTH, R.SHAPER_CTL, R.SHAPER_TOKENS,
    R.SHAPER_PORT_CFG, R.SHAPER_CLASS_CFG, R.SHAPER_DOME_WT, R.SHAPER_PERIOD, R.SHAPER_POL_CNT, R.SEC_STATUS,
    R.SEC_ID_HASH, R.SEC_DOME_IDX, R.SEC_DOME_KEYS, R.SEC_DOME_OLDCELLS, R.SEC_BIND_HASH, R.SEC_BIND_CTL, R.SEC_LINK,
    R.SEC_TD_CNT]

def regs6 : List Reg :=
  [R.BELFRY_SRC_IDX, R.BELFRY_SRC_CFG, R.BELFRY_CLASS_ACT, R.BELFRY_REC_STATUS, R.BELFRY_REC_NEXT, R.BELFRY_REC_IDX,
    R.BELFRY_REC_CLOSE, R.BELFRY_REC_W, R.BELFRY_OVF_CNT, R.BELFRY_OVF_SRC, R.BELFRY_DFS_CTL, R.BELFRY_DFS_STATUS,
    R.BELFRY_ARCH_STATUS, R.WAGGLE_SRC_IDX, R.WAGGLE_SRC_CFG, R.WAGGLE_SRC_TGT, R.WAGGLE_SRC_STATUS, R.WAGGLE_GRP_IDX,
    R.WAGGLE_GRP_CFG, R.WAGGLE_CORE_THRESH, R.WAGGLE_CORE_CLAIM, R.WAGGLE_CORE_EOI, R.WAGGLE_SWTRIG, R.WAGGLE_MSIX_IDX,
    R.WAGGLE_MSIX_ADDR_LO, R.WAGGLE_MSIX_ADDR_HI, R.WAGGLE_MSIX_DATA, R.WAGGLE_MSIX_CTL, R.WAGGLE_TMR_IDX,
    R.WAGGLE_TMR_OWNER, R.WAGGLE_TMR_CTL, R.WAGGLE_TMR_LOAD]

def regs7 : List Reg :=
  [R.CLK_STATUS, R.CLK_CTL, R.CLK_REFCNT_LO, R.CLK_REFCNT_HI, R.PWR_DOM_CTL, R.PWR_DOM_STATUS, R.PGU_LIMIT, R.PGU_BASE,
    R.PGU_COST_IDX, R.PGU_COST_VAL, R.PGU_STATUS, R.PGU_CNT, R.START_STATUS, R.FRZ_STATUS, R.GLOBAL_CORE_WDT,
    R.GLOBAL_CORE_RST, R.GLOBAL_FWCMD_TAKE, R.GLOBAL_FWCMD_DONE, R.GLOBAL_MGMT_CTL, R.GLOBAL_MGMT_STATUS, R.GLOBAL_ID,
    R.GLOBAL_NODE, R.GLOBAL_CAP0, R.GLOBAL_CAP1, R.GLOBAL_POP, R.GLOBAL_RST_CAUSE, R.GLOBAL_SW_RST, R.GLOBAL_CSR_ERR,
    R.GLOBAL_CSR_ERR_ADDR]

/-- Every register table of the manual. -/
def allRegs : List Reg :=
  regs0 ++ regs1 ++ regs2 ++ regs3 ++ regs4 ++ regs5 ++ regs6 ++ regs7

/-- The copy and index under which a table's register lies at an address. The decoders of CX0 and the registers of RY0 alone
exist in copy 0 only. -/
def Reg.at? (r : Reg) (a : Nat) : Option (Nat × Nat) :=
  if a < r.base + r.off then none
  else
    let d := a - r.base
    let i := if r.blockStep = 0 then 0 else d / r.blockStep
    let o := d - i * r.blockStep
    let k := if r.stride = 0 then 0 else (o - r.off) / r.stride
    let lone := (r.base == 0x04000000 && decide (0x1000 ≤ r.off)) || (r.base == 0x05000000 && decide (0x400 ≤ r.off))
    if r.off ≤ o ∧ i < r.blocks ∧ k < r.count ∧ r.off + k * r.stride = o ∧ (i = 0 ∨ lone = false) then some (i, k) else none

/-- The register at an address. -/
def regAt (a : Nat) : Option (Reg × Nat × Nat) :=
  allRegs.findSome? fun r => (r.at? a).map fun x => (r, x.1, x.2)

/-! ## What a read shows -/

def QState.code : QState → Nat
  | .active => 1
  | .halted => 2
  | .frozen => 3

def RySt.code : RySt → Nat
  | .down => 0
  | .detect => 1
  | .train => 2
  | .align => 3
  | .param => 4
  | .active => 5
  | .spare => 6
  | .reset => 7
  | .failed => 8

def flag (b : Bool) (i : Nat) : Nat := if b then 2 ^ i else 0

/-- GLOBAL_NODE: the straps as latched. -/
def State.nodeShown (s : State) : Word :=
  BitVec.ofNat 32 (s.pwr.node + flag s.pwr.queenSel 8 + flag s.pwr.succSel 9 + flag s.pwr.dpcSel 10)

/-- GLOBAL_POP. -/
def State.popShown (s : State) : Word :=
  BitVec.ofNat 32 (s.fN F.GLOBAL_POP_dram_groups +
    (List.range 24).foldl (fun a n => a + flag (s.fB F.SPIRE_STATUS_in_service n) (6 + n)) 0)

/-- The CE log entry DCH_CEL_IDX selects. -/
def State.celShown (s : State) (ch : Nat) : Option CelEnt := SMap.find (s.chan ch).cel (s.fN F.DCH_CEL_IDX_entry ch)

def State.celLo (s : State) (ch : Nat) : Word :=
  match s.celShown ch with
  | some e => BitVec.ofNat 32 (e.loc / 64)
  | none => 0

def State.celHi (s : State) (ch : Nat) : Word :=
  match s.celShown ch with
  | some e =>
    BitVec.ofNat 32 (2 ^ 31 + flag ((s.chan ch).remapOf e.loc).isSome 30 + min 255 e.count * 2 ^ 22 + e.syn * 2 ^ 15 +
      e.word * 2 ^ 11 + bits (e.loc / 64) 32 2)
  | none => 0

/-- SNOOP_AGENT_CFG of the selected slot. -/
def State.agentShown (s : State) : Word :=
  let a := s.fN F.SNOOP_AGENT_IDX_agent
  s.agentCfg a ||| BitVec.ofNat 32 (flag (s.agentDown a) 30 + flag (s.sweepBusy a) 29)

/-- The entries of the selected slot's array, or those of them in E/M. -/
def State.agentCount (s : State) (em : Bool) : Word :=
  let l := s.agentEntries (s.fN F.SNOOP_AGENT_IDX_agent)
  BitVec.ofNat 32 (l.filter fun e => !em || (filterDecode e.2).any fun x => x.2 == 2).length

def State.qShown (s : State) : Option QDesc := SMap.find s.q.desc (s.fN F.QCTL_QIDX_queue)

def State.qInfo (s : State) : Word :=
  match s.qShown with
  | some d =>
    let n := (s.q.cmds.filter fun e => e.2.src == .queue (s.fN F.QCTL_QIDX_queue)).length
    BitVec.ofNat 32 (d.state.code * 2 ^ 30 + flag d.phase 29 + d.dome * 2 ^ 17 + n)
  | none => 0

def State.qPtr (s : State) : Word := match s.qShown with | some d => BitVec.ofNat 32 (d.tail * 2 ^ 16 + d.head) | none => 0
def State.qcPtr (s : State) : Word := match s.qShown with | some d => BitVec.ofNat 32 (d.chead * 2 ^ 16 + d.ctail) | none => 0

def State.combStatus (s : State) : Word :=
  BitVec.ofNat 32 (flag (s.fB F.COMB_STATUS_refused) 31 + flag s.comb.inval.isSome 30 +
    s.comb.miss.length)

def State.ryShown (s : State) (p : Nat) : Word :=
  BitVec.ofNat 32 (setBits (s.rd R.RYP_LINK_STATUS p).toNat 0 4 (s.ryPort p).st.code)

def State.credShown (s : State) (p v : Nat) : Word :=
  BitVec.ofNat 32 (setBits (s.rd R.RYP_VC_CRED p v).toNat 16 14 ((s.ryPort p).cred v))

def State.replayShown (s : State) (p : Nat) : Word :=
  let l := (s.ryPort p).sent
  BitVec.ofNat 32 ((l.filter fun x => x.spilled).length * 2 ^ 16 + l.length)

/-- The class-table entry DCH_QOS_IDX selects. -/
def State.qosShown (s : State) (ch : Nat) : Word :=
  let cls := s.fN F.DCH_QOS_IDX_class ch
  let q := s.qos ch cls
  if 36 ≤ cls then 0 else BitVec.ofNat 32 (q.2 * 2 ^ 16 + q.1)

def State.shownBucket (s : State) (f : Bucket → Word) : Word :=
  match s.shaperSel with
  | some (l, k) => f (s.bucket l k)
  | none => 0

def Bucket.ctl (b : Bucket) : Word :=
  BitVec.ofNat 32 (flag b.refused 31 + b.holdMax * 2 ^ 4 + flag b.action 1 + flag b.newEnable 0)

/-- The port SHAPER_IDX selects, where there is one. -/
def State.shaperPort (s : State) : Option Nat := if s.fN F.SHAPER_IDX_port < 28 then some (s.fN F.SHAPER_IDX_port) else none

def State.domeKeys (s : State) : Word :=
  let d := s.fN F.SEC_DOME_IDX_dome
  let st := fun g => if d = 0 then (if g = 0 then 2 else 0) else (s.keySlot d g).st.code
  BitVec.ofNat 32 (flag (s.sec.rekeyRun.any fun r => r.1 == d) 31 + flag (SMap.find s.sec.bind d).isSome 5 +
    flag (d != 0 && (s.keySlot d 1).st == .current) 4 + st 1 * 4 + st 0)

def State.linkKeys (s : State) (p : Nat) : Word :=
  let r := s.ryPort p
  BitVec.ofNat 32 (r.txGen * 2 ^ 5 + flag (SMap.find r.keys 1).isSome 2 + flag (SMap.find r.keys 0).isSome 0)

def State.pguShown (s : State) : Word :=
  BitVec.ofNat 32 (flag s.pwr.throttlePin 31 + min 4095 s.granted * 2 ^ 16 + s.pwr.queue.length)

/-! Registers whose value stands elsewhere in the state, by block. -/

def shown0 : List (Nat × (State → Nat → Nat → Word)) :=
  [(R.GLOBAL_NODE.id, fun s _ _ => s.nodeShown), (R.GLOBAL_POP.id, fun s _ _ => s.popShown),
   (R.DCH_STATUS.id, fun s i _ => s.rd R.DCH_STATUS i ||| (if (s.chan i).selfRefresh then 2#32 else 0#32)),
   (R.DCH_QOS_VAL.id, fun s i _ => s.qosShown i),
   (R.DCH_CEL_LO.id, fun s i _ => s.celLo i), (R.DCH_CEL_HI.id, fun s i _ => s.celHi i),
   (R.DCH_FRG_ELAPSED.id, fun s i _ => BitVec.ofNat 32 (min (2 ^ 32 - 1) (s.lapTicks i / ms 1))),
   (R.HONEY_WAY_VAL.id, fun s _ _ => s.way (s.fN F.HONEY_WAY_IDX_dome)),
   (R.SNOOP_AGENT_CFG.id, fun s _ _ => s.agentShown), (R.SNOOP_AGENT_OCC.id, fun s _ _ => s.agentCount false),
   (R.SNOOP_AGENT_EM.id, fun s _ _ => s.agentCount true),
   (R.SPIRE_SR_SEED_LO.id, fun _ _ _ => 0),
   (R.SNOOP_POL_VAL.id, fun s _ _ => if SMap.findD s.home.keep (s.fN F.SNOOP_POL_IDX_dome) false then 1 else 0)]

def shown1 : List (Nat × (State → Nat → Nat → Word)) :=
  [(R.QCTL_QINFO.id, fun s _ _ => s.qInfo), (R.QCTL_QPTR.id, fun s _ _ => s.qPtr), (R.QCTL_QCPTR.id, fun s _ _ => s.qcPtr),
   (R.COMB_STATUS.id, fun s _ _ => s.combStatus), (R.CXLP_LINK_STATUS.id, fun s i _ => s.linkStatus i),
   (R.RYP_LINK_STATUS.id, fun s i _ => s.ryShown i), (R.RYP_VC_CRED.id, fun s i k => s.credShown i k),
   (R.RYP_REPLAY_STATUS.id, fun s i _ => s.replayShown i),
   (R.RYP_DOME_MODE_VAL.id, fun s _ _ => s.domeMode (s.fN F.RYP_DOME_MODE_IDX_dome)),
   (R.SHAPER_RATE.id, fun s _ _ => s.shownBucket fun b => BitVec.ofNat 32 b.newRate),
   (R.SHAPER_DEPTH.id, fun s _ _ => s.shownBucket fun b => BitVec.ofNat 32 b.newDepth),
   (R.SHAPER_CTL.id, fun s _ _ => s.shownBucket Bucket.ctl),
   (R.SHAPER_TOKENS.id, fun s _ _ => s.shownBucket fun b => (BitVec.ofInt 26 b.tokens).setWidth 32),
   (R.SHAPER_PORT_CFG.id, fun s _ _ => match s.shaperPort with | some p => s.portCfg p | none => 0),
   (R.SHAPER_CLASS_CFG.id, fun s _ k => match s.shaperPort with | some p => s.classCfg p k | none => 0),
   (R.SHAPER_DOME_WT.id, fun s _ _ =>
      let d := s.fN F.SHAPER_IDX_index
      if s.shaperPort.isNone then 0 else SMap.findD s.eg.weights d (domeWeightReset d))]

def shown2 : List (Nat × (State → Nat → Nat → Word)) :=
  [(R.SEC_STATUS.id, fun s _ _ => s.rd R.SEC_STATUS ||| BitVec.ofNat 32 (s.sec.sessions.length * 2 ^ 16)),
   (R.SEC_ID_HASH.id, fun s _ k => if s.fB F.SEC_STATUS_id_ready then Config.idDigest.extractLsb' (32 * k) 32 else 0),
   (R.SEC_DOME_KEYS.id, fun s _ _ => s.domeKeys),
   (R.SEC_DOME_OLDCELLS.id, fun s _ _ => BitVec.ofNat 32 (SMap.findD s.sec.old (s.fN F.SEC_DOME_IDX_dome) 0)),
   (R.SEC_BIND_HASH.id, fun s _ k => (SMap.findD s.sec.bind (s.fN F.SEC_DOME_IDX_dome) 0).extractLsb' (32 * k) 32),
   (R.SEC_LINK.id, fun s _ k => s.linkKeys k), (R.BELFRY_SRC_CFG.id, fun s _ _ => s.srcCfgShown),
   (R.BELFRY_REC_STATUS.id, fun s _ _ => s.recStatus), (R.BELFRY_REC_W.id, fun s _ k => s.recShown k),
   (R.BELFRY_OVF_SRC.id, fun s _ k => s.ovfSrcShown k), (R.BELFRY_DFS_STATUS.id, fun s _ _ => s.dfsStatus),
   (R.BELFRY_ARCH_STATUS.id, fun s _ _ => s.archStatus)]

def shown3 : List (Nat × (State → Nat → Nat → Word)) :=
  [(R.WAGGLE_SRC_CFG.id, fun s _ _ => s.wsrcCfgShown),
   (R.WAGGLE_SRC_TGT.id, fun s _ _ => (s.wsrc s.srcIdx).targets.setWidth 32), (R.WAGGLE_SRC_STATUS.id, fun s _ _ => s.wsrcStatus),
   (R.WAGGLE_GRP_CFG.id, fun s _ _ => s.grpCfgShown), (R.WAGGLE_CORE_THRESH.id, fun s _ k => s.threshShown k),
   (R.WAGGLE_MSIX_ADDR_LO.id, fun s _ _ => BitVec.ofNat 32 (s.vec s.vecIdx.1 s.vecIdx.2).addr),
   (R.WAGGLE_MSIX_ADDR_HI.id, fun s _ _ => BitVec.ofNat 32 ((s.vec s.vecIdx.1 s.vecIdx.2).addr / 2 ^ 32)),
   (R.WAGGLE_MSIX_DATA.id, fun s _ _ => BitVec.ofNat 32 (s.vec s.vecIdx.1 s.vecIdx.2).data),
   (R.WAGGLE_MSIX_CTL.id, fun s _ _ => (s.vec s.vecIdx.1 s.vecIdx.2).ctl),
   (R.WAGGLE_TMR_OWNER.id, fun s _ _ => s.tmrOwnerShown), (R.WAGGLE_TMR_CTL.id, fun s _ _ => s.tmrCtlShown),
   (R.WAGGLE_TMR_LOAD.id, fun s _ _ => BitVec.ofNat 32 (s.timer (s.fN F.WAGGLE_TMR_IDX_timer)).load)]

def shown4 : List (Nat × (State → Nat → Nat → Word)) :=
  [(R.CLK_REFCNT_HI.id, fun s _ _ => s.pwr.refHi.setWidth 32), (R.PWR_DOM_CTL.id, fun s _ _ => s.domCtlShown),
   (R.PWR_DOM_STATUS.id, fun s _ _ => s.domStatus),
   (R.PGU_COST_VAL.id, fun s _ _ => BitVec.ofNat 32 (s.pguCost (s.fN F.PGU_COST_IDX_kind))),
   (R.PGU_STATUS.id, fun s _ _ => s.pguShown), (R.START_STATUS.id, fun s _ _ => s.startStatus),
   (R.FRZ_STATUS.id, fun s _ _ => s.frzStatus)]

/-- Registers whose value stands elsewhere in the state than under their address. -/
def shownTable : List (Nat × (State → Nat → Nat → Word)) :=
  shown0 ++ shown1 ++ shown2 ++ shown3 ++ shown4

-- Log entry 5: DESIGN CHOICE, safe.
/-- The value a register shows. -/
def State.shown (s : State) (r : Reg) (i k : Nat) : Word :=
  match shownTable.find? fun e => e.1 == r.id with
  | some e => e.2 s i k
  | none => s.rd r i k

/-- Registers whose read does more than show and clear. -/
def takeTable : List (Nat × (State → Nat → State × Word)) :=
  [(R.COMB_FW_REC0.id, fun s k => s.recTake k), (R.GLOBAL_FWCMD_TAKE.id, fun s k => s.fwTake k),
   (R.BELFRY_REC_NEXT.id, fun s _ => s.recNext), (R.BELFRY_OVF_CNT.id, fun s k => s.ovfRead k),
   (R.WAGGLE_CORE_CLAIM.id, fun s k => s.claim k), (R.CLK_REFCNT_LO.id, fun s _ => s.refcntRead)]

-- Log entry 18: DEDUCED, safe.
/-- A read of a register (R5, R8). -/
def State.regRead (s : State) (r : Reg) (i k : Nat) : State × Word :=
  match takeTable.find? fun e => e.1 == r.id with
  | some e => e.2 s k
  | none => (if r.rc = 0 then s else s.wr r (codeReadClear r (s.rd r i k)) i k, s.shown r i k)

/-! ## What a write does -/

/-- Registers that take no write as the state stands: locked by an enable, a commit or the layout's lock, or busy. -/
def State.writeLocked (s : State) (r : Reg) (k : Nat) : Bool :=
  let among := fun (l : List Reg) => l.any fun x => x.id == r.id
  (among [R.GLOBAL_ILR_BASE, R.GLOBAL_ILR_SIZE, R.GLOBAL_ILR_CTL, R.GLOBAL_HIVE_BASE] && s.fB F.GLOBAL_IL_STATUS_locked) ||
  (among [R.QCTL_DESC_BASE_LO, R.QCTL_DESC_BASE_HI] && s.fB F.QCTL_CTL_enable) ||
  (among [R.COMB_ROOTDIR_LO, R.COMB_ROOTDIR_HI] && s.fB F.COMB_CTL_enable) ||
  (among [R.RYP_HANDLE_BASE_LO, R.RYP_HANDLE_BASE_HI] && s.fB F.RYP_HANDLE_CTL_enable) ||
  (among [R.SPIRE_WIN_BASE, R.SPIRE_WIN_SIZE] && s.fB F.SPIRE_WIN_CTL_enable 0 k) ||
  (among [R.RYP_OWIN_BASE, R.RYP_OWIN_SIZE] && s.fB F.RYP_OWIN_CTL_enable 0 k) ||
  (among [R.RYP_IWIN_BASE, R.RYP_IWIN_SIZE] && s.fB F.RYP_IWIN_CTL_enable 0 k) ||
  (among [R.CXLP_HDM_BASE_LO, R.CXLP_HDM_BASE_HI, R.CXLP_HDM_SIZE, R.CXLP_HDM_DPA, R.CXLP_HDM_SRC] &&
    s.fB F.CXLP_HDM_CTL_committed 0 k) ||
  (among [R.QCTL_MBX_PKT] && s.fB F.QCTL_MBX_CMD_busy)

/-- Classes 36 to 63 read as 0 and ignore writes (R57). -/
def State.qosWrite (s : State) (ch : Nat) (v : Word) : State :=
  let c := s.chan ch
  let cls := s.fN F.DCH_QOS_IDX_class ch
  if 36 ≤ cls then s
  else s.setChan ch { c with qos := SMap.store c.qos (qosReset cls) cls (F.DCH_QOS_VAL_target.of v, F.DCH_QOS_VAL_u_floor.of v) }

/-- Writing 1 to valid frees the selected entry. -/
def State.celWrite (s : State) (ch : Nat) (v : Word) : State :=
  let c := s.chan ch
  if F.DCH_CEL_HI_valid.on v then s.setChan ch { c with cel := SMap.del c.cel (s.fN F.DCH_CEL_IDX_entry ch) } else s

def State.wayWrite (s : State) (v : Word) : State :=
  let d := s.fN F.HONEY_WAY_IDX_dome
  { s with honey := { s.honey with ways := SMap.store s.honey.ways (wayReset d) d (v &&& 0x8FFFFFFF#32) } }

def State.keepWrite (s : State) (v : Word) : State :=
  { s with home := { s.home with keep := SMap.store s.home.keep false (s.fN F.SNOOP_POL_IDX_dome) (F.SNOOP_POL_VAL_keep_on_down.on v) } }

def State.modeWrite (s : State) (v : Word) : State :=
  { s with fab := { s.fab with modes := SMap.store s.fab.modes 3 (s.fN F.RYP_DOME_MODE_IDX_dome) (v &&& 3#32) } }

/-! Settings a port, a class or a Dome has. -/

def State.portCfgWrite (s : State) (v : Word) : State :=
  match s.shaperPort with
  | some p => { s with eg := { s.eg with cfg := SMap.store s.eg.cfg 0x100 p (v &&& 0x1FF#32) } }
  | none => s

def State.classCfgWrite (s : State) (c : Nat) (v : Word) : State :=
  match s.shaperPort with
  | some p => { s with eg := { s.eg with classCfg := SMap.store s.eg.classCfg (classCfgReset c) (p * 8 + c) (v &&& 0x1FF#32) } }
  | none => s

def State.weightWrite (s : State) (v : Word) : State :=
  let d := s.fN F.SHAPER_IDX_index
  if s.shaperPort.isNone then s
  else { s with eg := { s.eg with weights := SMap.store s.eg.weights (domeWeightReset d) d (v &&& 0xFF#32) } }

def State.targetWrite (s : State) (v : Word) : State :=
  s.setWsrc s.srcIdx { s.wsrc s.srcIdx with targets := v.setWidth 24 }

def State.vecPut (s : State) (f : Vec → Vec) : State :=
  let (d, n) := s.vecIdx
  s.setVec d n (f (s.vec d n))

def State.loadWrite (s : State) (v : Word) : State :=
  let t := s.fN F.WAGGLE_TMR_IDX_timer
  s.setTimer t { s.timer t with load := v.toNat }

/-- Kinds 9 to 15 have no cost. -/
def State.costWrite (s : State) (v : Word) : State :=
  let k := s.fN F.PGU_COST_IDX_kind
  if k < 9 then { s with pwr := { s.pwr with costs := SMap.store s.pwr.costs (costReset k) k (F.PGU_COST_VAL_cost.of v) } } else s

/-! Registers whose write has a meaning of its own, by block. -/

def writes0 : List (Nat × (State → Nat → Nat → Word → State)) :=
  [(R.GLOBAL_IL_LOCK.id, fun s _ _ v => s.ilLockWrite v), (R.GLOBAL_VMAP_CTL.id, fun s _ _ v => s.vmapCtlWrite v),
   (R.GLOBAL_SW_RST.id, fun s _ _ v => s.swRstWrite v), (R.GLOBAL_CORE_WDT.id, fun s _ k v => s.wdtWrite k v),
   (R.GLOBAL_CORE_RST.id, fun s _ _ v => s.coreRstWrite v), (R.GLOBAL_FWCMD_DONE.id, fun s _ k v => s.fwDoneWrite k v),
   (R.CXLP_CTXT_CMD.id, fun s i _ v => s.ctxtCmdWrite i v), (R.CXLP_CFG.id, fun s i _ v => s.cxlCfgWrite i v),
   (R.CXLP_LINK_CTL.id, fun s i _ v => s.linkCtlWrite i v), (R.CXLP_HDM_CTL.id, fun s _ k v => s.hdmCtlWrite k v),
   (R.DCH_CFG.id, fun s i _ v => s.dchCfgWrite i v), (R.DCH_QOS_VAL.id, fun s i _ v => s.qosWrite i v),
   (R.DCH_SCHED_CTL.id, fun s i _ v => s.schedCtlWrite i v), (R.DCH_TRAIN_CTL.id, fun s i _ v => s.trainCtlWrite i v), (R.DCH_CEL_HI.id, fun s i _ v => s.celWrite i v),
   (R.DCH_REMAP_HI.id, fun s i _ v => s.remapHiWrite i v), (R.DCH_FRG_CTL.id, fun s i _ v => s.frgCtlWrite i v),
   (R.DCH_RAW_CTL.id, fun s i _ v => s.rawCtlWrite i v)]

def writes1 : List (Nat × (State → Nat → Nat → Word → State)) :=
  [(R.HONEY_CTL.id, fun s _ _ v => s.honeyCtlWrite v), (R.HONEY_WAY_VAL.id, fun s _ _ v => s.wayWrite v),
   (R.HONEY_HOT_CTL.id, fun s _ _ v => s.hotCtlWrite v), (R.SNOOP_CTL.id, fun s _ _ v => s.snoopCtlWrite v),
   (R.SNOOP_AGENT_CFG.id, fun s _ _ v => s.agentCfgWrite (s.fN F.SNOOP_AGENT_IDX_agent) v),
   (R.SNOOP_POL_VAL.id, fun s _ _ v => s.keepWrite v), (R.QCTL_CTL.id, fun s _ _ v => s.qctlWrite v),
   (R.QCTL_MBX_CMD.id, fun s _ _ v => s.mbxCmdWrite v), (R.COMB_CTL.id, fun s _ _ v => s.combCtlWrite v),
   (R.COMB_INV_CMD.id, fun s _ _ v => s.invCmdWrite v), (R.COMB_FW_FILL2.id, fun s _ k v => s.fill2Write k v),
   (R.SPIRE_CTL.id, fun s i _ v => s.spireCtlWrite i v), (R.SPIRE_SR_SEED_LO.id, fun s i _ v => s.wr R.SPIRE_SR_SEED_LO v i),
   (R.SPIRE_SR_SEED_HI.id, fun s i _ v => s.seedLoad i v), (R.SPIRE_WIN_CTL.id, fun s _ k v => s.winCtlWrite k v)]

def writes2 : List (Nat × (State → Nat → Nat → Word → State)) :=
  [(R.RYP_CFG.id, fun s i _ v => s.rypCfgWrite i v), (R.RYP_LINK_CTL.id, fun s i _ v => s.rypLinkCtlWrite i v),
   (R.RYP_VC_CRED.id, fun s i k v => (s.wrCodes R.RYP_VC_CRED v i k).ryKick i),
   (R.RYP_ORIGIN_ROUTE.id, fun s i k v => (s.wrCodes R.RYP_ORIGIN_ROUTE v i k).announceRole),
   (R.RYP_QUEEN_CTL.id, fun s _ _ v => s.queenCtlWrite v), (R.RYP_BYP_CTL.id, fun s _ _ v => s.bypWrite v),
   (R.RYP_HANDLE_CTL.id, fun s _ _ v => s.handleCtlWrite v), (R.RYP_DOME_MODE_VAL.id, fun s _ _ v => s.modeWrite v),
   (R.RYP_OWIN_CTL.id, fun s _ k v => s.owinCtlWrite k v), (R.RYP_IWIN_CTL.id, fun s _ k v => s.iwinCtlWrite k v),
   (R.SHAPER_RATE.id, fun s _ _ v => s.shaperRate v), (R.SHAPER_DEPTH.id, fun s _ _ v => s.shaperDepth v),
   (R.SHAPER_CTL.id, fun s _ _ v => s.shaperCtl v), (R.SHAPER_PORT_CFG.id, fun s _ _ v => s.portCfgWrite v),
   (R.SHAPER_CLASS_CFG.id, fun s _ k v => s.classCfgWrite k v), (R.SHAPER_DOME_WT.id, fun s _ _ v => s.weightWrite v),
   (R.SEC_BIND_CTL.id, fun s _ _ v => s.bindCtlWrite v), (R.SEC_LINK.id, fun s _ k v => s.secLinkWrite k v)]

def writes3 : List (Nat × (State → Nat → Nat → Word → State)) :=
  [(R.BELFRY_SRC_CFG.id, fun s _ _ v => s.srcCfgWrite v), (R.BELFRY_CLASS_ACT.id, fun s _ k v => s.classActWrite k v),
   (R.BELFRY_REC_CLOSE.id, fun s _ _ v => s.recClose (F.BELFRY_REC_CLOSE_slot.of v)),
   (R.BELFRY_DFS_CTL.id, fun s _ _ v => s.dfsCtlWrite v), (R.WAGGLE_SRC_CFG.id, fun s _ _ v => s.wsrcCfgWrite v),
   (R.WAGGLE_SRC_TGT.id, fun s _ _ v => s.targetWrite v), (R.WAGGLE_GRP_CFG.id, fun s _ _ v => s.grpCfgWrite v),
   (R.WAGGLE_CORE_EOI.id, fun s _ k v => s.eoi k (F.WAGGLE_CORE_EOI_source.of v)),
   (R.WAGGLE_SWTRIG.id, fun s _ _ v => s.swtrig (F.WAGGLE_SWTRIG_source.of v)),
   (R.WAGGLE_MSIX_ADDR_LO.id, fun s _ _ v => s.vecPut fun x => { x with addr := x.addr / 2 ^ 32 * 2 ^ 32 + v.toNat / 4 * 4 }),
   (R.WAGGLE_MSIX_ADDR_HI.id, fun s _ _ v => s.vecPut fun x => { x with addr := v.toNat * 2 ^ 32 + x.addr % 2 ^ 32 }),
   (R.WAGGLE_MSIX_DATA.id, fun s _ _ v => s.vecPut fun x => { x with data := v.toNat }),
   (R.WAGGLE_MSIX_CTL.id, fun s _ _ v => s.msixCtlWrite v), (R.WAGGLE_TMR_OWNER.id, fun s _ _ v => s.tmrOwnerWrite v),
   (R.WAGGLE_TMR_CTL.id, fun s _ _ v => s.tmrCtlWrite v), (R.WAGGLE_TMR_LOAD.id, fun s _ _ v => s.loadWrite v)]

def writes4 : List (Nat × (State → Nat → Nat → Word → State)) :=
  [(R.CLK_CTL.id, fun s _ _ v => s.clkCtlWrite v), (R.PWR_DOM_CTL.id, fun s _ _ v => s.domCtlWrite v),
   (R.PGU_COST_VAL.id, fun s _ _ v => s.costWrite v)]

/-- Registers whose write does more than R5's codes say. -/
def writeTable : List (Nat × (State → Nat → Nat → Word → State)) :=
  writes0 ++ writes1 ++ writes2 ++ writes3 ++ writes4

/-- A write of a register. -/
def State.regWrite (s : State) (r : Reg) (i k : Nat) (v : Word) : State :=
  if s.writeLocked r k then s
  else match writeTable.find? fun e => e.1 == r.id with
    | some e => e.2 s i k v
    | none => s.wrCodes r v i k

/-! ## Accesses (R9, R395) -/

-- Log entry 17: DEDUCED, unsafe.
/-- A counted access records its address. -/
def State.csrCount (s : State) (f : Fld) (a : Nat) : State := (s.bump f).fSet F.GLOBAL_CSR_ERR_ADDR_addr a

/-- A read of the 32-bit register in which a register address lies. -/
def State.csrRead (s : State) (a : Nat) : State × Word :=
  match blockDomain a with
  | none => (s.csrCount F.GLOBAL_CSR_ERR_unmapped a, 0)
  | some d =>
    if !s.domainOn d then (s.csrCount F.GLOBAL_CSR_ERR_off_domain a, 0)
    else match regAt (a / 4 * 4) with
      | some (r, i, k) => s.regRead r i k
      | none => (s, 0)

/-- An aligned 32-bit write of a register address. -/
def State.csrWrite (s : State) (a : Nat) (v : Word) : State :=
  match blockDomain a with
  | none => s.csrCount F.GLOBAL_CSR_ERR_unmapped a
  | some d =>
    if !s.domainOn d then s.csrCount F.GLOBAL_CSR_ERR_off_domain a
    else match regAt a with
      | some (r, i, k) => s.regWrite r i k v
      | none => s

-- Log entry 17: DEDUCED, unsafe.
/-- A write narrower than 32 bits is ignored; outside every block or in a domain that is off it is counted. -/
def State.csrTouch (s : State) (a : Nat) : State :=
  match blockDomain a with
  | none => s.csrCount F.GLOBAL_CSR_ERR_unmapped a
  | some d => if s.domainOn d then s else s.csrCount F.GLOBAL_CSR_ERR_off_domain a

-- Log entry 17: DEDUCED, unsafe.
/-- An access that is not naturally aligned: ignored, counted under the first case of R395 that holds. -/
def State.csrMisaligned (s : State) (a : Nat) : State :=
  match blockDomain a with
  | some d => if s.domainOn d then s.csrCount F.GLOBAL_CSR_ERR_unmapped a else s.csrCount F.GLOBAL_CSR_ERR_off_domain a
  | none => s.csrCount F.GLOBAL_CSR_ERR_unmapped a

/-- A load of a register address by a window's path (R9): the state after it and the value. -/
def State.csrLoad (s : State) (z : AccSize) (a : Nat) : State × Nat :=
  if !z.aligned a then (s.csrMisaligned a, 0)
  else match z with
    | .b8 =>
      let (s, lo) := s.csrRead a
      let (s, hi) := s.csrRead (a + 4)
      (s, lo.toNat + hi.toNat * 2 ^ 32)
    | .b4 => let (s, v) := s.csrRead a; (s, v.toNat)
    | .b2 => let (s, v) := s.csrRead a; (s, bits v.toNat (8 * (a % 4)) 16)
    | .b1 => let (s, v) := s.csrRead a; (s, bits v.toNat (8 * (a % 4)) 8)

/-- A store to a register address by a window's path (R9). -/
def State.csrStore (s : State) (z : AccSize) (a v : Nat) : State :=
  if !z.aligned a then s.csrMisaligned a
  else match z with
    | .b8 => (s.csrWrite a (BitVec.ofNat 32 v)).csrWrite (a + 4) (BitVec.ofNat 32 (v / 2 ^ 32))
    | .b4 => s.csrWrite a (BitVec.ofNat 32 v)
    | _ => s.csrTouch a

-- Log entry 24: DESIGN CHOICE, safe.
/-- A host assigns BAR2 of the fabric-manager function of a port's first link, which has one while the link is up (R241). -/
def State.barAssign (s : State) (b : Bar) : State :=
  let y := s.cxlPort b.port
  match b.assign with
  | some v => if y.fmFunc && y.link0.up then s.setCxlPort b.port { y with bar2 := some v } else s
  | none => s

-- Log entry 24: DESIGN CHOICE, safe.
/-- An access reaches the registers: through BAR2 of a fabric-manager function that stands and is assigned (R241, R392). -/
def State.barOpen (s : State) (p : Nat) : Bool := (s.cxlPort p).fmFunc && (s.cxlPort p).link0.up && (s.cxlPort p).bar2.isSome

-- Log entry 24: DESIGN CHOICE, safe.
/-- An access through BAR2 at a window offset: a store of a value or a load, whose value leaves in 32-bit words. Where no
function with the BAR stands, it does not reach the device. -/
def State.barAccess (s : State) (b : Bar) (w : Nat) (z : AccSize) (st : Option Nat) : State :=
  let s := s.barAssign b
  let a := winToReg w
  if !s.barOpen b.port then s
  else match st with
  | some v => s.csrStore z a v
  | none =>
    let (s, v) := s.csrLoad z a
    match z with
    | .b8 => (s.emit (.csr a (BitVec.ofNat 32 v))).emit (.csr (a + 4) (BitVec.ofNat 32 (v / 2 ^ 32)))
    | _ => s.emit (.csr a (BitVec.ofNat 32 v))

/-- REGISTER_WRITE: a 32-bit or 64-bit write, or a narrower one, through BAR2. -/
def execRegisterWrite (w : CsrAt) (z : AccSize) (v : BitVec 64) (s : State) : Result :=
  run s fun s => s.barAccess w.bar w.off.toNat z (some v.toNat)

/-- MISALIGNED_CSR_ACCESS: a store of a value, or a load, through BAR2. -/
def execMisalignedCsrAccess (w : CsrAt) (z : AccSize) (st : Option (BitVec 64)) (s : State) : Result :=
  run s fun s => s.barAccess w.bar w.off.toNat z (st.map fun v => v.toNat)

/-- CSR_UNMAPPED_ACCESS. -/
def execCsrUnmappedAccess (w : CsrAt) (z : AccSize) (st : Option (BitVec 64)) (s : State) : Result :=
  run s fun s => s.barAccess w.bar w.off.toNat z (st.map fun v => v.toNat)

/-- CSR_OFF_DOMAIN_ACCESS. -/
def execCsrOffDomainAccess (w : CsrAt) (z : AccSize) (st : Option (BitVec 64)) (s : State) : Result :=
  run s fun s => s.barAccess w.bar w.off.toNat z (st.map fun v => v.toNat)

end Sys2Proof.Machine
end

