-- ==== Sys2Proof/Machine/Mailbox.lean ====
section
/-!
DEFINITION. The mailbox commands of CXL functions (R250 - R253). A reply is the return code CXL 3.1 assigns and the values
the rule states.
-/
namespace Sys2Proof.Machine

-- Log entry 79: PRESUMED, unsafe.
/-- Return codes of CXL 3.1. -/
def rcOK : Nat := 0
-- Log entry 79: PRESUMED, unsafe.
def rcInput : Nat := 2
-- Log entry 79: PRESUMED, unsafe.
def rcUnsupported : Nat := 3
-- Log entry 79: PRESUMED, unsafe.
def rcBusy : Nat := 6
-- Log entry 79: PRESUMED, unsafe.
def rcHandle : Nat := 14

-- Log entry 79: PRESUMED, unsafe.
/-- A mailbox's reply. -/
def State.mbx (s : State) (p l ret : Nat) (pay : List Nat) : State := s.emit (.mailbox p l ret pay)

-- Log entry 79: PRESUMED, unsafe.
/-- A command on a function's mailbox: nothing where the port presents no such function; Unsupported where the table of
R250 does not name it. -/
def State.onMbx (s : State) (p l : Nat) (f : Func) (named : Bool) (go : State → State) : State :=
  if !s.hasFunc p l f then s
  else if named then go s else s.mbx p l rcUnsupported []

/-- IDENTIFY. -/
def execIdentify (p : Fin 16) (l : Fin 2) (f : Func) (s : State) : Result := run s fun s =>
  s.onMbx p.val l.val f true fun s => s.mbx p.val l.val rcOK [(s.rd R.GLOBAL_ID).toNat]

/-- IDENTIFY_MEMORY_DEVICE: total, volatile and persistent capacity. -/
def execIdentifyMemoryDevice (p : Fin 16) (l : Fin 2) (f : Func) (s : State) : Result := run s fun s =>
  s.onMbx p.val l.val f true fun s => s.mbx p.val l.val rcOK [s.hiveBase, s.hiveBase, 0]

/-- The media status: 0 not ready, 1 ready, 2 error (R332, R357). -/
def State.media (s : State) : Nat := if s.bel.latched then 2 else if s.pwr.ready then 1 else 0

/-- The highest module temperature last read (R64). -/
def State.topTemp (s : State) : Nat :=
  (List.range 24).foldl (fun a ch => ((s.chan ch).mods.filterMap id).foldl max a) 0

/-- GET_HEALTH_INFO. -/
def execGetHealthInfo (p : Fin 16) (l : Fin 2) (f : Func) (s : State) : Result := run s fun s =>
  s.onMbx p.val l.val f true fun s => s.mbx p.val l.val rcOK [s.media, s.topTemp, s.ceTotal]

-- Log entry 13: DESIGN CHOICE, safe.
/-- GET_SUPPORTED_LOGS: the Command Effects Log alone. -/
def execGetSupportedLogs (p : Fin 16) (l : Fin 2) (f : Func) (s : State) : Result := run s fun s =>
  s.onMbx p.val l.val f true fun s => s.mbx p.val l.val rcOK [1]

/-- GET_LOG: `cel` names the Command Effects Log. -/
def execGetLog (p : Fin 16) (l : Fin 2) (f : Func) (cel : Bool) (s : State) : Result := run s fun s =>
  s.onMbx p.val l.val f true fun s =>
    if cel then let (d, s) := s.draw; s.mbx p.val l.val rcOK (Config.standardReply 3 (if f.isFm then 1 else 0) d)
    else s.mbx p.val l.val rcInput []

/-- GET_FW_INFO: one slot, and the version of the firmware image that runs (R373). -/
def execGetFwInfo (p : Fin 16) (l : Fin 2) (f : Func) (s : State) : Result := run s fun s =>
  s.onMbx p.val l.val f true fun s =>
    s.mbx p.val l.val rcOK [1, s.cores.version.toNat]

-- Log entry 81: DESIGN CHOICE, safe.
/-- A log's records as words: kind, address, handle. -/
def EventLog.words (x : EventLog) : List Nat := x.recs.flatMap fun r => [r.kind, r.addr, r.handle]

-- Log entry 81: DESIGN CHOICE, safe.
/-- GET_EVENT_RECORDS: a log's overflow flag, records lost, and records; a Type 3 function holds none. -/
def execGetEventRecords (p : Fin 16) (l : Fin 2) (f : Func) (g : Fin 4) (s : State) : Result := run s fun s =>
  s.onMbx p.val l.val f true fun s =>
    let x := s.events.get g
    s.mbx p.val l.val rcOK (if f.isFm then [if x.overflow then 1 else 0, x.lost] ++ x.words else [0, 0])

/-- A log without the records of some handles, or empty. -/
def EventLog.clear (x : EventLog) (all : Bool) (hs : List Nat) : EventLog :=
  { recs := if all then [] else x.recs.filter fun r => !hs.contains r.handle, overflow := false, lost := 0 }

/-- CLEAR_EVENT_RECORDS. -/
def execClearEventRecords (p : Fin 16) (l : Fin 2) (f : Func) (g : Fin 4) (all : Bool) (hs : List Nat) (s : State) : Result :=
  run s fun s => s.onMbx p.val l.val f true fun s =>
    let x := s.events.get g
    if !f.isFm then s.mbx p.val l.val (if all || hs.isEmpty then rcOK else rcHandle) []
    else if !all && hs.any fun h => !x.recs.any fun r => r.handle == h then s.mbx p.val l.val rcHandle []
    else ({ s with events := s.events.set g (x.clear all hs) }).mbx p.val l.val rcOK []

/-- GET_EVENT_INTERRUPT_POLICY. -/
def execGetEventInterruptPolicy (p : Fin 16) (l : Fin 2) (f : Func) (s : State) : Result := run s fun s =>
  s.onMbx p.val l.val f f.isFm fun s => s.mbx p.val l.val rcOK [s.eventPolicy.toNat]

/-- SET_EVENT_INTERRUPT_POLICY. -/
def execSetEventInterruptPolicy (p : Fin 16) (l : Fin 2) (f : Func) (v : BitVec 32) (s : State) : Result := run s fun s =>
  s.onMbx p.val l.val f f.isFm fun s => ({ s with eventPolicy := v }).mbx p.val l.val rcOK []

/-! ## Poison (R252) -/

/-- GET_POISON_LIST: the overflow flag and the entries from a DPA line on. -/
def execGetPoisonList (p : Fin 16) (l : Fin 2) (f : Func) (line : BitVec 39) (n : Nat) (s : State) : Result :=
  run s fun s => s.onMbx p.val l.val f f.isFm fun s =>
    let hit := s.poisonList.filter fun x => decide (line.toNat ≤ x ∧ x < line.toNat + n)
    s.mbx p.val l.val rcOK ((if s.poisonOvf then 1 else 0) :: hit)

/-- A write of a line by Inject Poison or Clear Poison, below M. -/
def State.poisonWrite (s : State) (p l line : Nat) (d : BitVec 512) (poison : Bool) : State :=
  if s.memTop ≤ line * 64 then s.mbx p l rcInput []
  else (s.deviceWrite line ⟨if poison then 0 else d, if poison then 0xFFFF else 0⟩ 33 poison).mbx p l rcOK []

/-- INJECT_POISON. -/
def execInjectPoison (p : Fin 16) (l : Fin 2) (f : Func) (line : BitVec 39) (s : State) : Result := run s fun s =>
  s.onMbx p.val l.val f f.isFm fun s => s.poisonWrite p.val l.val line.toNat 0 true

/-- CLEAR_POISON. -/
def execClearPoison (p : Fin 16) (l : Fin 2) (f : Func) (line : BitVec 39) (d : BitVec 512) (s : State) : Result :=
  run s fun s => s.onMbx p.val l.val f f.isFm fun s => s.poisonWrite p.val l.val line.toNat d false

/-! ## Logical devices, vendor commands -/

/-- The fabric-manager-owned LD exists on a port in MLD mode. -/
def State.fmLd (s : State) (p : Nat) (f : Func) : Bool := f.isFm && (s.cxlPort p).mode == 1

/-- GET_LD_INFO: capacity and the number of logical devices. -/
def execGetLdInfo (p : Fin 16) (l : Fin 2) (f : Func) (s : State) : Result := run s fun s =>
  s.onMbx p.val l.val f (s.fmLd p.val f) fun s => s.mbx p.val l.val rcOK [s.hiveBase, 16]

/-- GET_LD_ALLOCATIONS: every allocation is 0. -/
def execGetLdAllocations (p : Fin 16) (l : Fin 2) (f : Func) (s : State) : Result := run s fun s =>
  s.onMbx p.val l.val f (s.fmLd p.val f) fun s => s.mbx p.val l.val rcOK (List.replicate 16 0)

/-- SET_LD_ALLOCATIONS: accepts only allocations of 0. -/
def execSetLdAllocations (p : Fin 16) (l : Fin 2) (f : Func) (as : List Nat) (s : State) : Result := run s fun s =>
  s.onMbx p.val l.val f (s.fmLd p.val f) fun s =>
    s.mbx p.val l.val (if as.all fun a => a == 0 then rcOK else rcInput) []

/-- ZM_CMD_PACKET: the packet runs on the mailbox's context, and the reply comes with its completion. -/
def execZmCmdPacket (p : Fin 16) (l : Fin 2) (f : Func) (pkt : BitVec 512) (s : State) : Result := run s fun s =>
  s.onMbx p.val l.val f f.isFm fun s =>
    if s.fB F.QCTL_MBX_CMD_busy then s.mbx p.val l.val rcBusy [] else s.mailboxStart (.cxlMailbox p.val l.val) pkt

-- Log entry 27: DEDUCED, unsafe.
/-- The flit counters of a link, which have grown by what the link carried since they were read last. -/
def CxlLink.grow (x : CxlLink) (a : Nat) : CxlLink :=
  { x with flitsTx := (x.flitsTx + a % 2 ^ 32) % 2 ^ 64, flitsRx := (x.flitsRx + a / 2 ^ 32) % 2 ^ 64 }

-- Log entry 27: DEDUCED, unsafe.
/-- The counters of a link. -/
def CxlLink.counts (x : CxlLink) : List Nat := [x.flitsTx, x.flitsRx, x.replays, x.ideFails, x.downs, x.discarded]

-- Log entry 27: DEDUCED, unsafe.
/-- ZM_PORT_COUNTERS of port `n`. -/
def State.portCounters (s : State) (p l n : Nat) : State :=
  let (a, s) := s.random64
  let (b, s) := s.random64
  let y := s.cxlPort n
  let y := { y with link0 := y.link0.grow a.toNat, link1 := y.link1.grow b.toNat }
  (s.setCxlPort n y).mbx p l rcOK (y.link0.counts ++ y.link1.counts)

def execZmPortCounters (p : Fin 16) (l : Fin 2) (f : Func) (n : Fin 256) (s : State) : Result := run s fun s =>
  s.onMbx p.val l.val f f.isFm fun s =>
    if 16 ≤ n.val then s.mbx p.val l.val rcInput [] else s.portCounters p.val l.val n.val

/-- ZM_LINK_RETRAIN: success when Recovery has begun on the link. -/
def execZmLinkRetrain (p : Fin 16) (l : Fin 2) (f : Func) (n : Fin 16) (k : Fin 2) (s : State) : Result := run s fun s =>
  s.onMbx p.val l.val f f.isFm fun s =>
    let x := s.cxlLink n.val k.val
    if x.up then (s.recover n.val k.val).mbx p.val l.val rcOK [] else s.mbx p.val l.val rcInput []

/-- UNSUPPORTED_MAILBOX_COMMAND. -/
def execUnsupportedMailboxCommand (p : Fin 16) (l : Fin 2) (f : Func) (s : State) : Result := run s fun s =>
  s.onMbx p.val l.val f false fun s => s

end Sys2Proof.Machine
end

