-- ==== Sys2Proof/Machine/Mgmt.lean ====
section
/-!
DEFINITION. The management port (R376 - R378), the board-management SMBus target (R389), the TAP's scan (R361), and the
control cores' loads and stores (R365).
-/
namespace Sys2Proof.Machine

/-! ## Requests of the table of R378 -/

/-- A session bound to Dome 0; session 256 stands for none. -/
def State.mgmtOk (s : State) (sess : Nat) : Bool := s.sessBound sess 0

/-- A request of R378: refused in another session, and while the device is frozen. -/
def State.mgmtDo (s : State) (code sess : Nat) (f : State → State × Resp) : State × Resp :=
  if !s.mgmtOk sess then (s, ⟨code, stDenied, []⟩)
  else if s.pwr.frozen then (s, ⟨code, stBusy, []⟩)
  else f s

/-- Register addresses that no request reaches (R392). -/
def csrAddrBad (a : Nat) : Bool := bit a 15 || decide (0x07FFFFFF < a) || a % 4 != 0

def wordBytes (v : Nat) : List Nat := (List.range 4).map fun j => bits v (8 * j) 8

/-- CSR_READ. -/
def State.mgmtRead (s : State) (sess a : Nat) : State × Resp :=
  s.mgmtDo 0x4B10 sess fun s =>
    if csrAddrBad a then (s, ⟨0x4B10, stFormat, []⟩)
    else let (s, v) := s.csrRead a; (s, ⟨0x4B10, stOK, wordBytes v.toNat⟩)

/-- CSR_WRITE. -/
def State.mgmtWrite (s : State) (sess a : Nat) (v : Word) : State × Resp :=
  s.mgmtDo 0x4B11 sess fun s =>
    if csrAddrBad a then (s, ⟨0x4B11, stFormat, []⟩) else (s.csrWrite a v, ⟨0x4B11, stOK, []⟩)

/-- FLASH_WRITE: `l` written at `off`. -/
def State.flashPut (s : State) (off : Nat) (l : List (BitVec 8)) : State :=
  { s with cores := { s.cores with flash := l.zipIdx.foldl (fun m e => SMap.store m 0xFF (off + e.2) e.1) s.cores.flash } }

/-- A range meets bytes a FLASH_WRITE may not touch: an active image slot, or bytes 0 to 4 and 6 to 7 of the header. -/
def State.flashDenied (s : State) (off n : Nat) : Bool :=
  let hits := fun (lo m : Nat) => decide (off < lo + m ∧ lo < off + n)
  hits 0 5 || hits 6 2 || (List.range 3).any fun k => hits (s.activeSlot k) (slotSize k)

/-- The header's checksum is not as a write of it, or of the active slots, must leave it. -/
def State.flashBadCrc (s : State) (off n : Nat) (l : List (BitVec 8)) : Bool :=
  let t := s.flashPut off l
  let ok := t.flashLe 8 4 == crc32c (t.flashBytes 0 8)
  let some' := decide (off < 12 ∧ 8 < off + n)
  let all' := decide (off ≤ 8 ∧ 12 ≤ off + n)
  (some' && !ok) || (t.flashByte 5 != s.flashByte 5 && !(all' && ok))

-- Log entry 102: DEDUCED, unsafe.
def State.mgmtFlash (s : State) (sess off : Nat) (l : List (BitVec 8)) : State × Resp :=
  s.mgmtDo 0x4B13 sess fun s =>
    if decide (4096 < l.length) || decide (2 ^ 32 < off + l.length) then (s, ⟨0x4B13, stFormat, []⟩)
    else if s.flashDenied off l.length then (s, ⟨0x4B13, stDenied, []⟩)
    else if s.flashBadCrc off l.length l then (s, ⟨0x4B13, stFormat, []⟩)
    else (s.flashPut off l, ⟨0x4B13, stOK, []⟩)

-- Log entry 102: DEDUCED, unsafe.
/-- CMD_PACKET: its response where it does not start; a packet that starts is answered when it completes. -/
def State.mgmtPacket (s : State) (sess : Nat) (pkt : BitVec 512) : State × Option Resp :=
  let no := fun st => (s, some (⟨0x4B12, st, []⟩ : Resp))
  if !s.mgmtOk sess then no stDenied
  else if s.pwr.frozen || s.fB F.QCTL_MBX_CMD_busy then no stBusy
  else (s.mailboxStart .mgmt pkt, none)

/-- CSR_READ. -/
def execCsrRead (sess : Fin 256) (a : BitVec 32) (s : State) : Result :=
  run1 s fun s => State.reply (s.mgmtRead sess.val a.toNat)

/-- CSR_WRITE. -/
def execCsrWrite (sess : Fin 256) (a v : BitVec 32) (s : State) : Result :=
  run1 s fun s => State.reply (s.mgmtWrite sess.val a.toNat v)

/-- CMD_PACKET. -/
def execCmdPacket (sess : Fin 256) (pkt : BitVec 512) (s : State) : Result :=
  run1 s fun s =>
    match s.mgmtPacket sess.val pkt with
    | (s, some r) => State.reply (s, r)
    | (s, none) => s

/-- FLASH_WRITE. -/
def execFlashWrite (sess : Fin 256) (off : BitVec 32) (l : List (BitVec 8)) (s : State) : Result :=
  run1 s fun s => State.reply (s.mgmtFlash sess.val off.toNat l)

/-! ## Frames of the management port (R376, R377) -/

-- Log entry 102: DEDUCED, unsafe.
/-- A frame the port does not accept. -/
def State.frameDrop (s : State) : State := s.bump F.GLOBAL_MGMT_STATUS_dropped

-- Log entry 102: DEDUCED, unsafe.
/-- Serves a message; none while its response is still to come. -/
def State.mgmtServe (s : State) (sess : Nat) (m : MgmtMsg) : State × Option Resp :=
  let one := fun (x : State × Resp) => (x.1, some x.2)
  match m with
  | .version => one s.getVersion
  | .certificate => one s.getCertificate
  | .keyExchange ma d => one (s.keyExchange ma d)
  | .spdm r => one (s.spdmRequest r)
  | .keyDeliver m a => one (s.keyDeliver sess m a)
  | .csrRead a => one (s.mgmtRead sess a.toNat)
  | .csrWrite a v => one (s.mgmtWrite sess a.toNat v)
  | .cmdPacket p => s.mgmtPacket sess p
  | .flashWrite o l => one (s.mgmtFlash sess o.toNat l)

-- Log entry 102: DEDUCED, unsafe.
/-- A datagram whose sequence is not the last answered; one whose packet still runs is not executed again. A type 0 message
belongs to no session. -/
def State.datagramNew (s : State) (d : Datagram) : State :=
  let seq := d.seq.toNat
  if s.cores.mgmtCmd = some (d.who, seq) then s
  else match s.mgmtServe (if d.type = 1 then d.sess.val else 256) d.msg with
    | (s, some r) => s.respond d.who seq r
    | (s, none) => { s with cores := { s.cores with mgmtCmd := some (d.who, seq) } }

-- Log entry 102: DEDUCED, unsafe.
/-- MGMT_DATAGRAM: a sequence repeated is answered with the response kept, a new one is executed. -/
def State.datagram (s : State) (d : Datagram) : State :=
  if d.version ≠ 1 ∨ 1 < d.type.toNat then s.frameDrop
  else
    let seq := d.seq.toNat
    match SMap.find s.cores.lastResp d.who with
    | some (q, r) => if q = seq then s.emit (.mgmt r.code seq r.status r.payload) else s.datagramNew d
    | none => s.datagramNew d

/-- The port is in use. -/
def State.port (s : State) (f : State → State) : State := if s.fB F.GLOBAL_MGMT_CTL_enable then f s else s

def execMgmtDatagram (d : Datagram) (s : State) : Result := run1 s fun s => s.port fun s => s.datagram d

-- Log entry 95: PRESUMED, unsafe.
/-- The port's addresses: configuration record 4, IPv4 then IPv6 (R374). -/
def State.myIp4 (s : State) : Option Nat :=
  match s.cfgRec 4 with
  | some (o, n) => if 4 ≤ n then some (s.flashLe o 4) else none
  | none => none

-- Log entry 95: PRESUMED, unsafe.
def State.myIp6 (s : State) : Option Nat :=
  match s.cfgRec 4 with
  | some (o, n) => if 20 ≤ n then some (s.flashLe (o + 4) 16) else none
  | none => none

-- Log entry 103: PRESUMED, unsafe.
/-- A frame that asks for an address: answered where it is the port's, else dropped. -/
def State.neighbour (s : State) (mine : Option Nat) (ip kind : Nat) (l : List Nat) : State :=
  if mine = some ip then s.emit (.mgmt kind 0 0 l) else s.frameDrop

-- Log entry 103: PRESUMED, unsafe.
/-- ARP. -/
def execArp (ip : BitVec 32) (s : State) : Result :=
  run1 s fun s => s.port fun s => s.neighbour s.myIp4 ip.toNat 0x0806 []

-- Log entry 103: PRESUMED, unsafe.
/-- NDP. -/
def execNdp (ip : BitVec 128) (s : State) : Result :=
  run1 s fun s => s.port fun s => s.neighbour s.myIp6 ip.toNat 136 []

-- Log entry 103: PRESUMED, unsafe.
/-- ICMP_ECHO, of IPv4 or of IPv6. -/
def execIcmpEcho (six : Bool) (ip : BitVec 128) (l : List (BitVec 8)) (s : State) : Result :=
  run1 s fun s => s.port fun s =>
    s.neighbour (if six then s.myIp6 else s.myIp4) ip.toNat (if six then 129 else 0) (l.map fun b => b.toNat)

/-- MGMT_FRAME_DROP. -/
def execMgmtFrameDrop (s : State) : Result := run1 s fun s => s.port fun s => s.frameDrop

/-! ## SMBus (R389) -/

-- Log entry 105: DESIGN CHOICE, safe.
/-- SMB_ALERT_N is asserted. -/
def State.smbAlert (s : State) : Bool := s.fN F.START_STATUS_error != 0 || s.bel.latched

/-- SMB_READ_START_STATUS. -/
def execSmbReadStartStatus (s : State) : Result := .next (s.emit (.smbus (some s.startStatus)))

/-- SMB_READ_DFS_STATUS. -/
def execSmbReadDfsStatus (s : State) : Result := .next (s.emit (.smbus (some s.dfsStatus)))

/-- SMB_NACK: any other command code. -/
def execSmbNack (s : State) : Result := .next (s.emit (.smbus none))

/-! ## The TAP's scan (R361) -/

def Leaf.scan (l : Leaf) : Nat :=
  1 + flag l.r 1 + flag l.w 2 + l.shift * 2 ^ 3 + l.ctx.toNat * 2 ^ 9 + l.page * 2 ^ 25 + l.dpa * 2 ^ 64

-- Log entry 98: DEDUCED, unsafe.
/-- What a scan finds at a place: 0 where there is nothing. No data of a tenant and no key is within its reach. -/
def State.scanValue (s : State) (x : ScanAt) : Nat × Nat × Nat :=
  let leaf := fun (o : Option Leaf) => match o with | some l => l.scan | none => 0
  match x with
  | .csr a =>
    (0, a.toNat, match blockDomain a.toNat with
      | some d => if s.domainOn d then (match regAt a.toNat with | some (r, i, k) => (s.regRead r i k).2.toNat | none => 0) else 0
      | none => 0)
  | .honey k =>
    (1, k.val, match SMap.find s.honey.lines k.val with
      | some l => 1 + flag l.dirty 1 + flag l.pinned 2 + l.dome * 2 ^ 3 + l.tag * 2 ^ 15
      | none => 0)
  | .filter k => (2, k.val, (SMap.findD s.home.filter k.val 0).toNat)
  | .atc k => (3, k.val, leaf (SMap.find s.comb.atc k.val))
  | .stc k => (4, k.val, leaf (SMap.find s.comb.stc k.val))
  | .tracker i => (5, i, match s.home.txs[i]? with | some t => t.line + 1 | none => 0)
  | .readQueue ch sub i => (6, i, match (s.sub ch.val sub.val).rq[i]? with | some e => e.loc + 1 | none => 0)
  | .writeQueue ch sub i => (7, i, match (s.sub ch.val sub.val).wq[i]? with | some e => e.loc + 1 | none => 0)

/-- TAP_SCAN: what is read leaves; no state changes. -/
def execTapScan (x : ScanAt) (s : State) : Result :=
  .next (if s.pwr.pwrok then (let (w, p, v) := s.scanValue x; s.emit (.scan w p v)) else s)

/-! ## Control cores (R365) -/

-- Log entry 104: PRESUMED, unsafe.
/-- A core's access of `n` bytes of one line of the DPA space, as RdCur or PlainWr through the home, or through the outbound
window that covers the line: once sent, its outcome comes when the home or the window answers. -/
def State.coreDpa (s : State) (k dpa n : Nat) (st : Option Nat) : State :=
  let line := dpa / 64
  let t := { newTx (if st.isSome then .plainWr else .rdCur) (.core k) 0 line 33 with
    be := rangeBe (dpa % 64) n, fill := some 0,
    wdata := ⟨BitVec.ofNat 512 (st.getD 0 % 2 ^ (8 * n) * 2 ^ (8 * (dpa % 64))), 0⟩ }
  match s.owinFor 0 line with
  | some _ => (s.keepAtPort t false).retryWindow
  | none => s.deviceTx t

/-- Reply bytes of a held area stand in the area's reply; a store changes them there. -/
def State.tcmStore (s : State) (n off b : Nat) : State :=
  let a := (off - 0xFF800) / 128
  let i := (off - 0xFF800) % 128
  match (if 0xFF800 ≤ off ∧ 96 ≤ i ∧ i < 112 then SMap.find s.q.areas (n * 16 + a) else none) with
  | some k =>
    let r := match SMap.find s.q.tcmReply k with
      | some r => r.toNat
      | none => s.tcmGet (areaByte n a 96) 16
    { s with q := { s.q with tcmReply := SMap.put s.q.tcmReply k (BitVec.ofNat 128 (setBits r (8 * (i - 96)) 8 b)) } }
  | none => s.tcmPut (n * 2 ^ 20 + off) 1 b

/-- One byte of a TCM as its core reads it. -/
def State.tcmLoad (s : State) (n off : Nat) : Nat :=
  let a := (off - 0xFF800) / 128
  let i := (off - 0xFF800) % 128
  match (if 0xFF800 ≤ off ∧ 96 ≤ i ∧ i < 112 then
      (SMap.find s.q.areas (n * 16 + a)).bind fun k => SMap.find s.q.tcmReply k else none) with
  | some r => bits r.toNat (8 * (i - 96)) 8
  | none => (SMap.findD s.cores.tcm (n * 2 ^ 20 + off) 0).toNat

-- Log entry 104: PRESUMED, unsafe.
/-- An access of a running core at an address of its physical map: each access to the CSR space is exactly one load or one
store there, uncached and never repeated (R393). -/
def State.coreAccess (s : State) (k a : Nat) (z : AccSize) (st : Option Nat) : State :=
  let n := z.bytes
  if !s.cores.running.getLsbD k then s
  else if a + n ≤ 2 ^ 45 then
    if 64 < a % 64 + n then s
    else s.coreDpa k a n st
  else if 2 ^ 45 ≤ a ∧ a + n ≤ 2 ^ 45 + 2 ^ 26 then
    (match st with
      | some v => s.csrStore z (winToReg (a - 2 ^ 45)) v
      | none => let (s, v) := s.csrLoad z (winToReg (a - 2 ^ 45)); s.coreAns k (some v) 0)
  else if k < 8 ∧ 0x200010000000 ≤ a ∧ a + n ≤ 0x200010100000 then
    (let off := a - 0x200010000000
     match st with
      | some v => (List.range n).foldl (fun s i => s.tcmStore k (off + i) (bits v (8 * i) 8)) s
      | none => s.coreAns k (some ((List.range n).foldl (fun x i => x + s.tcmLoad k (off + i) * 2 ^ (8 * i)) 0)) 0)
  else if st.isNone then s.coreAns k none 5
  else s.coreAns k none 7

/-- CONTROL_CORE_ACCESS: a load, or a store of a value. -/
def execControlCoreAccess (k : Fin 24) (a : BitVec 48) (z : AccSize) (st : Option (BitVec 64)) (s : State) : Result :=
  run s fun s => s.coreAccess k.val a.toNat z (st.map fun v => v.toNat)

end Sys2Proof.Machine
end

