-- ==== Sys2Proof/Machine/Dispatch.lean ====
section
/-!
DEFINITION. The meaning of every command: one arm per constructor, each one direct call of its meaning.
-/
namespace Sys2Proof.Machine

-- Log entry 3: DESIGN CHOICE, safe.
def exec (i : Instr) (s : State) : Host.Outcome State Fault Refusal :=
  match i with
  | .registerWrite w z v => Sys2Proof.Machine.execRegisterWrite w z v s
  | .misalignedCsrAccess w z st => Sys2Proof.Machine.execMisalignedCsrAccess w z st s
  | .csrUnmappedAccess w z st => Sys2Proof.Machine.execCsrUnmappedAccess w z st s
  | .csrOffDomainAccess w z st => Sys2Proof.Machine.execCsrOffDomainAccess w z st s
  | .memrd m u => Sys2Proof.Machine.execMemrd m u s
  | .memrddata m => Sys2Proof.Machine.execMemrddata m s
  | .meminv m => Sys2Proof.Machine.execMeminv m s
  | .meminvnt m => Sys2Proof.Machine.execMeminvnt m s
  | .memclnevct m => Sys2Proof.Machine.execMemclnevct m s
  | .memspecrd m => Sys2Proof.Machine.execMemspecrd m s
  | .memrdfwd m => Sys2Proof.Machine.execMemrdfwd m s
  | .memwrfwd m => Sys2Proof.Machine.execMemwrfwd m s
  | .memwr m d => Sys2Proof.Machine.execMemwr m d s
  | .memwrptl m d => Sys2Proof.Machine.execMemwrptl m d s
  | .biconflict x => Sys2Proof.Machine.execBiconflict x s
  | .birspi x => Sys2Proof.Machine.execBirspi x s
  | .birsps x => Sys2Proof.Machine.execBirsps x s
  | .birspe x => Sys2Proof.Machine.execBirspe x s
  | .birspBlock x => Sys2Proof.Machine.execBirspBlock x s
  | .lockGrant => Sys2Proof.Machine.execLockGrant s
  | .policerRelease p => Sys2Proof.Machine.execPolicerRelease p s
  | .biTimeout => Sys2Proof.Machine.execBiTimeout s
  | .dramCommandIssue ch sc => Sys2Proof.Machine.execDramCommandIssue ch sc s
  | .dramReadData ch sc flips => Sys2Proof.Machine.execDramReadData ch sc flips s
  | .refsbIssue ch sc => Sys2Proof.Machine.execRefsbIssue ch sc s
  | .refreshDue ch sc rank => Sys2Proof.Machine.execRefreshDue ch sc rank s
  | .rfmIssue ch sc => Sys2Proof.Machine.execRfmIssue ch sc s
  | .neighbourSet ch sc => Sys2Proof.Machine.execNeighbourSet ch sc s
  | .zqCalibration ch sc prank => Sys2Proof.Machine.execZqCalibration ch sc prank s
  | .dqsOscRead ch sc prank => Sys2Proof.Machine.execDqsOscRead ch sc prank s
  | .rowCloseIdle ch sc rank bg bank => Sys2Proof.Machine.execRowCloseIdle ch sc rank bg bank s
  | .thermalRead ch t0 t1 => Sys2Proof.Machine.execThermalRead ch t0 t1 s
  | .caAlert ch sc a => Sys2Proof.Machine.execCaAlert ch sc a s
  | .dchCfgWrite ch v => Sys2Proof.Machine.execDchCfgWrite ch v s
  | .maintActive ch => Sys2Proof.Machine.execMaintActive ch s
  | .fullTraining ch => Sys2Proof.Machine.execFullTraining ch s
  | .maintTraining ch => Sys2Proof.Machine.execMaintTraining ch s
  | .trainingDone ch r => Sys2Proof.Machine.execTrainingDone ch r s
  | .rawRead ch v => Sys2Proof.Machine.execRawRead ch v s
  | .rawWrite ch v => Sys2Proof.Machine.execRawWrite ch v s
  | .injectWrite ch v => Sys2Proof.Machine.execInjectWrite ch v s
  | .checkedRead ch v => Sys2Proof.Machine.execCheckedRead ch v s
  | .remapRead ch v => Sys2Proof.Machine.execRemapRead ch v s
  | .remapInstall ch v => Sys2Proof.Machine.execRemapInstall ch v s
  | .remapInstallDone ch => Sys2Proof.Machine.execRemapInstallDone ch s
  | .installBlank ch v => Sys2Proof.Machine.execInstallBlank ch v s
  | .remapRemove ch v => Sys2Proof.Machine.execRemapRemove ch v s
  | .foragerRead ch f => Sys2Proof.Machine.execForagerRead ch f s
  | .foragerAccel ch v => Sys2Proof.Machine.execForagerAccel ch v s
  | .foragerLapEnd ch => Sys2Proof.Machine.execForagerLapEnd ch s
  | .vmapZero => Sys2Proof.Machine.execVmapZero s
  | .vmapZeroDone => Sys2Proof.Machine.execVmapZeroDone s
  | .vmapOn => Sys2Proof.Machine.execVmapOn s
  | .ilLock => Sys2Proof.Machine.execIlLock s
  | .ctxtRead p ix => Sys2Proof.Machine.execCtxtRead p ix s
  | .ctxtWrite p ix => Sys2Proof.Machine.execCtxtWrite p ix s
  | .ctxtInvalidate p ix => Sys2Proof.Machine.execCtxtInvalidate p ix s
  | .ctxtCmdDone p => Sys2Proof.Machine.execCtxtCmdDone p s
  | .halfPowerDown b => Sys2Proof.Machine.execHalfPowerDown b s
  | .halfPowerDownDone b => Sys2Proof.Machine.execHalfPowerDownDone b s
  | .halfPowerUp b => Sys2Proof.Machine.execHalfPowerUp b s
  | .cacheDisable => Sys2Proof.Machine.execCacheDisable s
  | .cacheEnable => Sys2Proof.Machine.execCacheEnable s
  | .heatFold cell => Sys2Proof.Machine.execHeatFold cell s
  | .heatEpochEnd => Sys2Proof.Machine.execHeatEpochEnd s
  | .heatSweepDone => Sys2Proof.Machine.execHeatSweepDone s
  | .hotListStart v => Sys2Proof.Machine.execHotListStart v s
  | .hotListDone => Sys2Proof.Machine.execHotListDone s
  | .mirrorEntry k => Sys2Proof.Machine.execMirrorEntry k s
  | .mirrorTimeout k => Sys2Proof.Machine.execMirrorTimeout k s
  | .agentRegister v => Sys2Proof.Machine.execAgentRegister v s
  | .snoopCtlWrite v => Sys2Proof.Machine.execSnoopCtlWrite v s
  | .agentDownSweepDone => Sys2Proof.Machine.execAgentDownSweepDone s
  | .packetFetch => Sys2Proof.Machine.execPacketFetch s
  | .fenceRelease k => Sys2Proof.Machine.execFenceRelease k s
  | .commandComplete k => Sys2Proof.Machine.execCommandComplete k s
  | .nop k => Sys2Proof.Machine.execNop k s
  | .queueCreate k => Sys2Proof.Machine.execQueueCreate k s
  | .queueDestroy k => Sys2Proof.Machine.execQueueDestroy k s
  | .queueResume k => Sys2Proof.Machine.execQueueResume k s
  | .doorbellSet k => Sys2Proof.Machine.execDoorbellSet k s
  | .domeCreate k a => Sys2Proof.Machine.execDomeCreate k a s
  | .domeTeardown k a => Sys2Proof.Machine.execDomeTeardown k a s
  | .shareJoin k => Sys2Proof.Machine.execShareJoin k s
  | .shareLeave k => Sys2Proof.Machine.execShareLeave k s
  | .cellAlloc k a => Sys2Proof.Machine.execCellAlloc k a s
  | .cellFree k => Sys2Proof.Machine.execCellFree k s
  | .shareMove k a => Sys2Proof.Machine.execShareMove k a s
  | .pin k => Sys2Proof.Machine.execPin k s
  | .unpin k => Sys2Proof.Machine.execUnpin k s
  | .migrate k a dstOk reach => Sys2Proof.Machine.execMigrate k a dstOk reach s
  | .migrateEnd k => Sys2Proof.Machine.execMigrateEnd k s
  | .combInval k => Sys2Proof.Machine.execCombInval k s
  | .combRootSet k => Sys2Proof.Machine.execCombRootSet k s
  | .agentDown k => Sys2Proof.Machine.execAgentDown k s
  | .rekey k => Sys2Proof.Machine.execRekey k s
  | .handleCreate k => Sys2Proof.Machine.execHandleCreate k s
  | .handleDestroy k => Sys2Proof.Machine.execHandleDestroy k s
  | .move k => Sys2Proof.Machine.execMove k s
  | .fill k => Sys2Proof.Machine.execFill k s
  | .moveStrided k => Sys2Proof.Machine.execMoveStrided k s
  | .atomicAdd64 k => Sys2Proof.Machine.execAtomicAdd64 k s
  | .convert k e => Sys2Proof.Machine.execConvert k e s
  | .axpy k e => Sys2Proof.Machine.execAxpy k e s
  | .reduceInto k e => Sys2Proof.Machine.execReduceInto k e s
  | .gatherPool k e => Sys2Proof.Machine.execGatherPool k e s
  | .optStep k e => Sys2Proof.Machine.execOptStep k e s
  | .attnPartial k e => Sys2Proof.Machine.execAttnPartial k e s
  | .topk k e => Sys2Proof.Machine.execTopk k e s
  | .checksum k e => Sys2Proof.Machine.execChecksum k e s
  | .publish k e => Sys2Proof.Machine.execPublish k e s
  | .get k => Sys2Proof.Machine.execGet k s
  | .put k => Sys2Proof.Machine.execPut k s
  | .ping k => Sys2Proof.Machine.execPing k s
  | .mailboxGo => Sys2Proof.Machine.execMailboxGo s
  | .qctlEnable => Sys2Proof.Machine.execQctlEnable s
  | .pguGrant => Sys2Proof.Machine.execPguGrant s
  | .throttleChange low => Sys2Proof.Machine.execThrottleChange low s
  | .combEnable v => Sys2Proof.Machine.execCombEnable v s
  | .combRecordTake n => Sys2Proof.Machine.execCombRecordTake n s
  | .combFillCommit n v => Sys2Proof.Machine.execCombFillCommit n v s
  | .combMissTimeout k => Sys2Proof.Machine.execCombMissTimeout k s
  | .combInvGo v => Sys2Proof.Machine.execCombInvGo v s
  | .combInvDone => Sys2Proof.Machine.execCombInvDone s
  | .spireSlotStart n => Sys2Proof.Machine.execSpireSlotStart n s
  | .spireCtlWrite n v => Sys2Proof.Machine.execSpireCtlWrite n v s
  | .srSeedLoad n v => Sys2Proof.Machine.execSrSeedLoad n v s
  | .windowEnable w v => Sys2Proof.Machine.execWindowEnable w v s
  | .hdmCommit d ig iw => Sys2Proof.Machine.execHdmCommit d ig iw s
  | .hdmUncommit d => Sys2Proof.Machine.execHdmUncommit d s
  | .cxlpCfgWrite p v => Sys2Proof.Machine.execCxlpCfgWrite p v s
  | .cxlLinkUp p l w fast => Sys2Proof.Machine.execCxlLinkUp p l w fast s
  | .linkRecovery p l => Sys2Proof.Machine.execLinkRecovery p l s
  | .recoveryTimeout p l => Sys2Proof.Machine.execRecoveryTimeout p l s
  | .retrain0 p => Sys2Proof.Machine.execRetrain0 p s
  | .retrain1 p => Sys2Proof.Machine.execRetrain1 p s
  | .linkDown p l => Sys2Proof.Machine.execLinkDown p l s
  | .hotReset p l => Sys2Proof.Machine.execHotReset p l s
  | .linkDisable p l => Sys2Proof.Machine.execLinkDisable p l s
  | .ideIntegrityFailure p l => Sys2Proof.Machine.execIdeIntegrityFailure p l s
  | .kSetGo p l g => Sys2Proof.Machine.execKSetGo p l g s
  | .keyProg p l sess ide set dir key => Sys2Proof.Machine.execKeyProg p l sess ide set dir key s
  | .doeObject p l f k n => Sys2Proof.Machine.execDoeObject p l f k n s
  | .identify p l f => Sys2Proof.Machine.execIdentify p l f s
  | .identifyMemoryDevice p l f => Sys2Proof.Machine.execIdentifyMemoryDevice p l f s
  | .getHealthInfo p l f => Sys2Proof.Machine.execGetHealthInfo p l f s
  | .getSupportedLogs p l f => Sys2Proof.Machine.execGetSupportedLogs p l f s
  | .getLog p l f cel => Sys2Proof.Machine.execGetLog p l f cel s
  | .getFwInfo p l f => Sys2Proof.Machine.execGetFwInfo p l f s
  | .getEventRecords p l f g => Sys2Proof.Machine.execGetEventRecords p l f g s
  | .clearEventRecords p l f g all hs => Sys2Proof.Machine.execClearEventRecords p l f g all hs s
  | .getEventInterruptPolicy p l f => Sys2Proof.Machine.execGetEventInterruptPolicy p l f s
  | .setEventInterruptPolicy p l f v => Sys2Proof.Machine.execSetEventInterruptPolicy p l f v s
  | .getPoisonList p l f line n => Sys2Proof.Machine.execGetPoisonList p l f line n s
  | .injectPoison p l f line => Sys2Proof.Machine.execInjectPoison p l f line s
  | .clearPoison p l f line d => Sys2Proof.Machine.execClearPoison p l f line d s
  | .getLdInfo p l f => Sys2Proof.Machine.execGetLdInfo p l f s
  | .getLdAllocations p l f => Sys2Proof.Machine.execGetLdAllocations p l f s
  | .setLdAllocations p l f as => Sys2Proof.Machine.execSetLdAllocations p l f as s
  | .zmCmdPacket p l f pkt => Sys2Proof.Machine.execZmCmdPacket p l f pkt s
  | .zmPortCounters p l f n => Sys2Proof.Machine.execZmPortCounters p l f n s
  | .zmLinkRetrain p l f n k => Sys2Proof.Machine.execZmLinkRetrain p l f n k s
  | .unsupportedMailboxCommand p l f => Sys2Proof.Machine.execUnsupportedMailboxCommand p l f s
  | .dataFlit p h d => Sys2Proof.Machine.execDataFlit p h d s
  | .idleFlit p ack valid nak => Sys2Proof.Machine.execIdleFlit p ack valid nak s
  | .badFlit w => Sys2Proof.Machine.execBadFlit w s
  | .ctrlCredit p h => Sys2Proof.Machine.execCtrlCredit p h s
  | .mac p h ok => Sys2Proof.Machine.execMac p h ok s
  | .void p h => Sys2Proof.Machine.execVoid p h s
  | .spareReq p h lane => Sys2Proof.Machine.execSpareReq p h lane s
  | .spareGo p h => Sys2Proof.Machine.execSpareGo p h s
  | .resetReq p h x4 slow => Sys2Proof.Machine.execResetReq p h x4 slow s
  | .flitTransmit p => Sys2Proof.Machine.execFlitTransmit p s
  | .ackTimer p => Sys2Proof.Machine.execAckTimer p s
  | .ackRepeat p => Sys2Proof.Machine.execAckRepeat p s
  | .replayTimeout p => Sys2Proof.Machine.execReplayTimeout p s
  | .laneFailing p lane lock => Sys2Proof.Machine.execLaneFailing p lane lock s
  | .spareDone e => Sys2Proof.Machine.execSpareDone e s
  | .rypCfgWrite p v => Sys2Proof.Machine.execRypCfgWrite p v s
  | .rypDisable p on => Sys2Proof.Machine.execRypDisable p on s
  | .partnerDetected p lanes => Sys2Proof.Machine.execPartnerDetected p lanes s
  | .equalisationDone p => Sys2Proof.Machine.execEqualisationDone p s
  | .fecLock p lanes spare => Sys2Proof.Machine.execFecLock p lanes spare s
  | .paramDone p a => Sys2Proof.Machine.execParamDone p a s
  | .trainTimeout p => Sys2Proof.Machine.execTrainTimeout p s
  | .resetIdleEnd p => Sys2Proof.Machine.execResetIdleEnd p s
  | .failedRetry p => Sys2Proof.Machine.execFailedRetry p s
  | .linkReset p => Sys2Proof.Machine.execLinkReset p s
  | .hRd p => Sys2Proof.Machine.execHRd p s
  | .hWr p => Sys2Proof.Machine.execHWr p s
  | .wRd p => Sys2Proof.Machine.execWRd p s
  | .wWr p => Sys2Proof.Machine.execWWr p s
  | .rdData p => Sys2Proof.Machine.execRdData p s
  | .wrAck p => Sys2Proof.Machine.execWrAck p s
  | .err p => Sys2Proof.Machine.execErr p s
  | .pong p => Sys2Proof.Machine.execPong p s
  | .pingPacket p => Sys2Proof.Machine.execPingPacket p s
  | .packetForward => Sys2Proof.Machine.execPacketForward s
  | .routeHoldExpiry => Sys2Proof.Machine.execRouteHoldExpiry s
  | .msgTimeout n => Sys2Proof.Machine.execMsgTimeout n s
  | .msgNumberReturn n => Sys2Proof.Machine.execMsgNumberReturn n s
  | .owinTimeout n => Sys2Proof.Machine.execOwinTimeout n s
  | .owinEnable w v => Sys2Proof.Machine.execOwinEnable w v s
  | .iwinEnable w v => Sys2Proof.Machine.execIwinEnable w v s
  | .handleTableEnable => Sys2Proof.Machine.execHandleTableEnable s
  | .queenClaim p c => Sys2Proof.Machine.execQueenClaim p c s
  | .heartbeat p term b => Sys2Proof.Machine.execHeartbeat p term b s
  | .heartbeatMiss => Sys2Proof.Machine.execHeartbeatMiss s
  | .lossVote p => Sys2Proof.Machine.execLossVote p s
  | .takeover p term => Sys2Proof.Machine.execTakeover p term s
  | .queenUpdate p u a => Sys2Proof.Machine.execQueenUpdate p u a s
  | .queenCtlWrite v => Sys2Proof.Machine.execQueenCtlWrite v s
  | .bypassRelease r => Sys2Proof.Machine.execBypassRelease r s
  | .egressPick p l cr => Sys2Proof.Machine.execEgressPick p l cr s
  | .shaperRefill => Sys2Proof.Machine.execShaperRefill s
  | .shaperCtlWrite v => Sys2Proof.Machine.execShaperCtlWrite v s
  | .keyDeliver sess m a => Sys2Proof.Machine.execKeyDeliver sess m a s
  | .getVersion => Sys2Proof.Machine.execGetVersion s
  | .getCertificate => Sys2Proof.Machine.execGetCertificate s
  | .keyExchange mutualAuth digest => Sys2Proof.Machine.execKeyExchange mutualAuth digest s
  | .spdmRequest r => Sys2Proof.Machine.execSpdmRequest r s
  | .bindCommit => Sys2Proof.Machine.execBindCommit s
  | .linkKeySwitch p => Sys2Proof.Machine.execLinkKeySwitch p s
  | .sweepCell cell => Sys2Proof.Machine.execSweepCell cell s
  | .teardownDrainDone d => Sys2Proof.Machine.execTeardownDrainDone d s
  | .drainTimeout d => Sys2Proof.Machine.execDrainTimeout d s
  | .teardownRecallDone d o => Sys2Proof.Machine.execTeardownRecallDone d o s
  | .overwritePassDone d o => Sys2Proof.Machine.execOverwritePassDone d o s
  | .faultEvent => Sys2Proof.Machine.execFaultEvent s
  | .wireFault n stays => Sys2Proof.Machine.execWireFault n stays s
  | .faultInject => Sys2Proof.Machine.execFaultInject s
  | .brokenClear invalid => Sys2Proof.Machine.execBrokenClear invalid s
  | .recNext => Sys2Proof.Machine.execRecNext s
  | .recClose k => Sys2Proof.Machine.execRecClose k s
  | .ovfCntRead c => Sys2Proof.Machine.execOvfCntRead c s
  | .quietExpiry => Sys2Proof.Machine.execQuietExpiry s
  | .clrCount => Sys2Proof.Machine.execClrCount s
  | .claim k => Sys2Proof.Machine.execClaim k s
  | .eoi k n => Sys2Proof.Machine.execEoi k n s
  | .swtrig n => Sys2Proof.Machine.execSwtrig n s
  | .grpCfgWrite v => Sys2Proof.Machine.execGrpCfgWrite v s
  | .holdoffExpiry g => Sys2Proof.Machine.execHoldoffExpiry g s
  | .msixUnmask => Sys2Proof.Machine.execMsixUnmask s
  | .timerExpiry t => Sys2Proof.Machine.execTimerExpiry t s
  | .tmrOwnerWrite v => Sys2Proof.Machine.execTmrOwnerWrite v s
  | .watchdogExpiry k => Sys2Proof.Machine.execWatchdogExpiry k s
  | .watchdogKick k => Sys2Proof.Machine.execWatchdogKick k s
  | .pwrokRise t perst fl c => Sys2Proof.Machine.execPwrokRise t perst fl c s
  | .pwrokFall => Sys2Proof.Machine.execPwrokFall s
  | .rootPllLockTimeout => Sys2Proof.Machine.execRootPllLockTimeout s
  | .dramGroupSelect => Sys2Proof.Machine.execDramGroupSelect s
  | .readyRise => Sys2Proof.Machine.execReadyRise s
  | .perstNAssert => Sys2Proof.Machine.execPerstNAssert s
  | .perstNDeassert c => Sys2Proof.Machine.execPerstNDeassert c s
  | .softwareReset => Sys2Proof.Machine.execSoftwareReset s
  | .softwareResetBegin => Sys2Proof.Machine.execSoftwareResetBegin s
  | .freeze miss => Sys2Proof.Machine.execFreeze miss s
  | .zmFreeze miss => Sys2Proof.Machine.execZmFreeze miss s
  | .thaw => Sys2Proof.Machine.execThaw s
  | .zmThaw => Sys2Proof.Machine.execZmThaw s
  | .tapReset => Sys2Proof.Machine.execTapReset s
  | .tapScan x => Sys2Proof.Machine.execTapScan x s
  | .powerDomainOff d => Sys2Proof.Machine.execPowerDomainOff d s
  | .powerDomainOn d => Sys2Proof.Machine.execPowerDomainOn d s
  | .powerSwitchDone => Sys2Proof.Machine.execPowerSwitchDone s
  | .refcntRead => Sys2Proof.Machine.execRefcntRead s
  | .fwcmdTake n => Sys2Proof.Machine.execFwcmdTake n s
  | .fwcmdDone n v => Sys2Proof.Machine.execFwcmdDone n v s
  | .coreReset v => Sys2Proof.Machine.execCoreReset v s
  | .coreStart k c => Sys2Proof.Machine.execCoreStart k c s
  | .mgmtDatagram d => Sys2Proof.Machine.execMgmtDatagram d s
  | .arp ip => Sys2Proof.Machine.execArp ip s
  | .ndp ip => Sys2Proof.Machine.execNdp ip s
  | .icmpEcho six ip l => Sys2Proof.Machine.execIcmpEcho six ip l s
  | .mgmtFrameDrop => Sys2Proof.Machine.execMgmtFrameDrop s
  | .csrRead sess a => Sys2Proof.Machine.execCsrRead sess a s
  | .csrWrite sess a v => Sys2Proof.Machine.execCsrWrite sess a v s
  | .cmdPacket sess pkt => Sys2Proof.Machine.execCmdPacket sess pkt s
  | .flashWrite sess off l => Sys2Proof.Machine.execFlashWrite sess off l s
  | .smbReadStartStatus => Sys2Proof.Machine.execSmbReadStartStatus s
  | .smbReadDfsStatus => Sys2Proof.Machine.execSmbReadDfsStatus s
  | .smbNack => Sys2Proof.Machine.execSmbNack s
  | .controlCoreAccess k a z st => Sys2Proof.Machine.execControlCoreAccess k a z st s
  | .spireSelfTestDone n pass => Sys2Proof.Machine.execSpireSelfTestDone n pass s
  | .halfPowerUpDone b => Sys2Proof.Machine.execHalfPowerUpDone b s
  | .rootPllLock => Sys2Proof.Machine.execRootPllLock s
  | .internalResetEnd c => Sys2Proof.Machine.execInternalResetEnd c s

end Sys2Proof.Machine
end

