-- ==== Sys2Proof/Machine/Step.lean ====
section
/-!
DEFINITION. One step of the block: the command at the front of its queue, or one tick of time while none waits.
-/
namespace Sys2Proof.Machine

-- Log entries 2: DESIGN CHOICE, unsafe; 16: DESIGN CHOICE, safe.
/-- A step: the first waiting command is carried out on the state with the queue's rest; on an empty queue time passes
by a third of a nanosecond. -/
def step (s : State) : Host.Outcome State Fault Refusal :=
  match s.pending with
  | [] => .next s.tick
  | c :: rest => exec c { s with pending := rest }

-- Log entry 1: DESIGN CHOICE, safe.
/-- `s` with the command that a word spells at the front of its queue; no row of the table gives bits, so `s` itself. -/
def State.withFetchWord (s : State) (nbits w : Nat) : State :=
  match decodeTableWord nbits w with
  | some c => { s with pending := c :: s.pending }
  | none => s

end Sys2Proof.Machine
end

