-- ==== Sys2Proof/Safety.lean ====
section
/-!
DEFINITION. What counts as a sound state, in the terms the statements use.
-/
namespace Sys2Proof.Machine

/-- Nothing of the device is left without power: every part of the state is as in `State.reset`, but for what no loss of
power reaches. That is the flash, the levels of the pins the board drives, the number of trainings that have left the DRAM
arrays undefined, and the model's own fields. -/
def State.Dark (s : State) : Prop :=
  s.csr = [] ∧ (∀ i : Fin 24, s.chans.get i = { Channel.reset with epoch := (s.chans.get i).epoch }) ∧
  s.home = Home.reset ∧ s.honey = Honey.reset ∧ s.domes = State.reset.domes ∧ s.q = QCtl.reset ∧ s.comb = Comb.reset ∧
  s.spires = State.reset.spires ∧ s.cxl = CxlPorts.reset ∧ s.events = EventLogs.reset ∧ s.eventPolicy = 0 ∧
  s.poisonList = [] ∧ s.poisonOvf = false ∧ s.ry = State.reset.ry ∧ s.fab = Fabric.reset ∧ s.eg = Egress.reset ∧
  s.sec = Sec.reset ∧ s.bel = Belfry.reset ∧ s.wag = Waggle.reset ∧
  s.cores = { Cores.reset with flash := s.cores.flash } ∧
  s.pwr = { Power.reset with perstN := s.pwr.perstN, throttleIn := s.pwr.throttleIn, throttlePin := s.pwr.throttleIn,
                             freezePin := s.pwr.freezePin }

/-- The invariant of power: without PWROK the block is dark (R356). -/
def State.PowerInv (s : State) : Prop := s.pwr.pwrok = false → s.Dark

/-- The commands that need no running device: what the board does to the pins, and what is answered without a clock of the
device (R353 - R360, R381, R389). -/
inductive BoardRow : Instr → Prop
  | thermalRead a b c : BoardRow (.thermalRead a b c)
  | tapScan a : BoardRow (.tapScan a)
  | throttleChange a : BoardRow (.throttleChange a)
  | smbReadStartStatus : BoardRow .smbReadStartStatus
  | smbReadDfsStatus : BoardRow .smbReadDfsStatus
  | smbNack : BoardRow .smbNack
  | pwrokRise a b c d : BoardRow (.pwrokRise a b c d)
  | pwrokFall : BoardRow .pwrokFall
  | freeze a : BoardRow (.freeze a)
  | thaw : BoardRow .thaw
  | perstNAssert : BoardRow .perstNAssert
  | perstNDeassert a : BoardRow (.perstNDeassert a)
  | internalResetEnd a : BoardRow (.internalResetEnd a)

/-- The commands of domain 1 by itself, which works while the device is frozen (R360). -/
inductive Domain1Row : Instr → Prop
  | keyDeliver a b c : Domain1Row (.keyDeliver a b c)
  | getVersion : Domain1Row .getVersion
  | getCertificate : Domain1Row .getCertificate
  | keyExchange a b : Domain1Row (.keyExchange a b)
  | spdmRequest a : Domain1Row (.spdmRequest a)
  | softwareResetBegin : Domain1Row .softwareResetBegin
  | zmFreeze a : Domain1Row (.zmFreeze a)
  | zmThaw : Domain1Row .zmThaw
  | tapReset : Domain1Row .tapReset
  | powerSwitchDone : Domain1Row .powerSwitchDone
  | mgmtDatagram a : Domain1Row (.mgmtDatagram a)
  | arp a : Domain1Row (.arp a)
  | ndp a : Domain1Row (.ndp a)
  | icmpEcho a b c : Domain1Row (.icmpEcho a b c)
  | mgmtFrameDrop : Domain1Row .mgmtFrameDrop
  | csrRead a b : Domain1Row (.csrRead a b)
  | csrWrite a b c : Domain1Row (.csrWrite a b c)
  | cmdPacket a b : Domain1Row (.cmdPacket a b)
  | flashWrite a b c : Domain1Row (.flashWrite a b c)

/-! ## Hosts (R137, R255) -/

/-- A host's link carries a message of any class: it is up and not in Recovery, and the port has an ingress entry for a
request with or without data, and an egress entry for an answer. -/
def State.hears (s : State) (c : CxlSrc) : Bool :=
  (s.cxlLink c.port c.link).up && (s.cxlLink c.port c.link).recovery.isNone && s.ingressRoom c.port c.link true &&
    s.ingressRoom c.port c.link false && s.ansRoom c.port c.link 1

/-! ## DRAM channels (R58) -/

/-- A subchannel owes no step of its own, and no earlier command's gap still runs. -/
def Subch.quiet (x : Subch) : Prop :=
  x.refDue = [] ∧ x.raa = [] ∧ x.marks = [] ∧ x.nbr = none ∧ x.started = none ∧ x.rfmOn = none ∧ x.hist = []

/-! ## Accesses that are answered (R145) -/

/-- Requester `o`'s read of a line has delivered `l`. -/
def State.gotLine (s : State) (o : Origin) (line : Nat) (l : Line) : Prop :=
  (s.engAns o line false fullBe).map EngAns.res = some (.ok l)

/-- Requester `o`'s write of some bytes of a line is done. -/
def State.gotWrite (s : State) (o : Origin) (w : EngWr) : Prop :=
  ∃ l, (s.engAns o w.line true w.be).map EngAns.res = some (.ok l)

/-- Requester `o` has read a table word of R174. -/
def State.tableWord (s : State) (o : Origin) (dpa e : Nat) : Prop := ∃ l, s.gotLine o (dpa / 64) l ∧ rd8 dpa l = .val e

/-- The table words that requester `o` has read map a PVA, from table `t` of the first of the levels on: to a DPA, with leave to
read and to write (R174, R175). -/
inductive State.Maps (s : State) (o : Origin) (pva : Nat) : List Nat → Nat → Nat → Bool → Bool → Prop
  | leaf {sh rest t e} : s.dome0Cell t = true → s.tableWord o (t + 8 * (pva / 2 ^ sh % 512)) e → bit e 0 = true →
      bits e 4 8 = 0 → bits e 45 11 = 0 → bit e 1 = true → sh ≠ 43 → bits e 12 33 * 4096 % 2 ^ sh = 0 →
      s.Maps o pva (sh :: rest) t (bits e 12 33 * 4096 + pva % 2 ^ sh) (bit e 2) (bit e 3)
  | table {sh rest t e d r w} : s.dome0Cell t = true → s.tableWord o (t + 8 * (pva / 2 ^ sh % 512)) e → bit e 0 = true →
      bits e 4 8 = 0 → bits e 45 11 = 0 → bit e 1 = false → bits e 2 2 = 0 → sh ≠ 16 →
      s.Maps o pva rest (bits e 12 33 * 4096) d r w → s.Maps o pva (sh :: rest) t d r w

/-- Firmware, as requester `o`, has read the tables of a context, and they map a PVA. -/
def State.mapped (s : State) (o : Origin) (ctx : Ctx) (pva dpa : Nat) (r w : Bool) : Prop :=
  s.fB F.COMB_CTL_enable = true ∧ ∃ e, s.tableWord o (s.rootDir + 8 * ctx.toNat) e ∧ bit e 0 = true ∧ bits e 1 11 = 0 ∧
    bits e 45 19 = 0 ∧ s.Maps o pva [43, 34, 25, 16] (bits e 12 33 * 4096) dpa r w

/-- Firmware has read the 64 bytes at a PVA that starts a line, none of them poisoned. -/
def State.fwReadLine (s : State) (o : Origin) (ctx : Ctx) (pva v : Nat) : Prop :=
  pva % 64 = 0 ∧ ∃ dpa w l, s.mapped o ctx pva dpa true w ∧ dpa % 64 = 0 ∧ s.owinFor ctx (dpa / 64) = none ∧
    s.gotLine o (dpa / 64) l ∧ l.poison = 0 ∧ v = l.data.toNat

/-- Firmware has written `n` bytes, at most a line of them, at a PVA. -/
def State.fwWroteLine (s : State) (o : Origin) (ctx : Ctx) (pva n v : Nat) : Prop :=
  n ≠ 0 ∧ pva % 64 + n ≤ 64 ∧ ∃ dpa r, s.mapped o ctx pva dpa r true ∧ s.owinFor ctx (dpa / 64) = none ∧
    s.gotWrite o (fwWr ctx dpa n v)

/-! ## Commands of the engines (R161, R177) -/

/-- Data mover `n` holds the command of context `k` and may work on it: nothing keeps it from starting, and it is not ending. -/
def State.MoverRuns (s : State) (k op : Nat) (c : Cmd) (n : Nat) : Prop :=
  s.cmd k = some c ∧ c.eng = .mover n ∧ c.opcode = op ∧ c.ending = none ∧
    (c.st = .running ∨ c.st = .blocked ∨ (c.st = .queued ∧ s.heldBack c = false))

/-- An engine's read of the line that holds a PVA, which the command has begun, has delivered `l`. -/
def State.beatRead (s : State) (k : Nat) (c : Cmd) (e : Eng) (pva line : Nat) (l : Line) : Prop :=
  s.ownLine k pva false = some line ∧ s.owinFor c.ctx line = none ∧ s.gotLine e.o line l

/-- An engine's write of bytes of the line that holds a PVA, which the command has begun, is done. -/
def State.beatWrote (s : State) (k : Nat) (c : Cmd) (e : Eng) (pva : Nat) (l : Line) (be : BitVec 64) : Prop :=
  ∃ line, s.ownLine k pva true = some line ∧ s.owinFor c.ctx line = none ∧
    s.gotWrite e.o ⟨c.ctx, line, l, be, e.wrCls, .engine, .engine, s.engFill c.ctx⟩

/-- The lines that hold `n` bytes from a PVA on have been read, no byte of them in a poisoned block, and their value is `v`. -/
inductive State.BytesRead (s : State) (k : Nat) (c : Cmd) (e : Eng) : Nat → Nat → Nat → Prop
  | nil {pva} : s.BytesRead k c e pva 0 0
  | line {pva n j line l v} : n ≠ 0 → j = min n (64 - pva % 64) → s.beatRead k c e pva line l →
      bits (lineMarks l).toNat (pva % 64) j = 0 → s.BytesRead k c e (pva + j) (n - j) v →
      s.BytesRead k c e pva n (bits l.data.toNat (8 * (pva % 64)) (8 * j) + v * 2 ^ (8 * j))

/-- Requester `o` has read the lines that hold `n` bytes from a DPA on: their value is `v` and their poison marks, one per byte,
are `m` (R282). -/
inductive State.Fetched (s : State) (o : Origin) : Nat → Nat → Nat → Nat → Prop
  | nil {a} : s.Fetched o a 0 0 0
  | line {a n j l v m} : n ≠ 0 → j = min n (64 - a % 64) → s.gotLine o (a / 64) l → s.Fetched o (a + j) (n - j) v m →
      s.Fetched o a n (bits l.data.toNat (8 * (a % 64)) (8 * j) + v * 2 ^ (8 * j))
        (bits (lineMarks l).toNat (a % 64) j + m * 2 ^ j)

/-! ## Operations of the Spires (R196) -/

/-- A slot of Spire `n` runs the command of context `k`, which is not ending. -/
def State.SpireRuns (s : State) (k op : Nat) (c : Cmd) (n slot : Nat) : Prop :=
  s.cmd k = some c ∧ c.eng = .spireSlot n slot ∧ c.opcode = op ∧ c.ending = none ∧ (c.st = .running ∨ c.st = .blocked)

/-- The units of work of an operation that streams. -/
def Cmd.units (c : Cmd) : Nat :=
  match c.opcode with
  | 0x90 => c.pb 1 0 40
  | 0x94 => c.pb 1 0 40
  | 0x88 => c.pb 3 0 40
  | 0x98 => c.pb 3 0 40
  | _ => c.pb 2 0 40

/-- No operand is left to be read into the buffer, or none yet: GATHER_POOL's and ATTN_PARTIAL's rows of this pass are read, a
PUBLISH has not claimed, an OPT_STEP has not read its block. -/
def Cmd.loaded (c : Cmd) : Prop :=
  match c.opcode with
  | 0x84 => c.part.getD 3 [] = []
  | 0x8C => c.part.getD 1 [] = []
  | 0x88 => c.part = [] ∨ c.units ≤ c.ahead
  | 0x98 => c.aux = 0 ∨ c.units ≤ c.ahead
  | _ => c.units ≤ c.ahead

/-! ## Cells as firmware finds them (R44, R46) -/

/-- A cell's entry is `e`: its line lies in the cache and the word is neither poisoned nor marked corrupt. -/
def State.cellShown (s : State) (cell : Nat) (e : Word) : Prop :=
  ∃ k x, s.honey.lookup (s.cellEntryAddr cell / 64) = some (k, x) ∧
    x.data.poison.getLsbD (s.cellEntryAddr cell % 64 / 4) = false ∧ x.data.word (s.cellEntryAddr cell % 64 / 4) = e ∧
    ceCorrupt e = false

/-- The cell-table line of a cell is held by no access and no agent. -/
def State.entryOpen (s : State) (cell : Nat) : Prop :=
  s.locked (s.cellEntryAddr cell / 64) = false ∧ s.holders (s.cellEntryAddr cell / 64) = []

/-- Firmware has read the entries of some cells: their lines are the most recently used. -/
def State.looked (s : State) (cells : List Nat) : State := cells.foldl (fun t z => (t.fwEntry z).1) s

/-- The queen's state takes an update: she is reachable and takes updates; she is alone or her successor answers, or, at
another node, she agrees (R287, R288). -/
def State.queenAgrees (s : State) (a : QAns) : Bool :=
  s.queenOk && (if s.fB F.RYP_FAB_STATUS_is_queen then
      s.fB F.RYP_QUEEN_CTL_solo || (s.successor.isSome && a != .unreachable)
    else a == .ok)

/-- Requester `o` has read entry `i` of the handle table, and it is `e` (R281). -/
def State.handleShown (s : State) (o : Origin) (i e : Nat) : Prop :=
  ∃ l, s.gotLine o ((s.handleBase + 16 * i) / 64) l ∧
    l.poison.extractLsb' ((s.handleBase + 16 * i) % 64 / 4) 4 = 0 ∧ e = bits l.data.toNat (8 * ((s.handleBase + 16 * i) % 64)) 128

/-! ## Packets at a port (R278 - R280) -/

/-- `x` is the oldest packet of a kind that waits at a port for this node and is not held by its policer; it stands at place
`i`. -/
def State.pktIs (s : State) (p kind i : Nat) (x : InPkt) : Prop := s.pktAt p kind = some i ∧ (s.waitingPkts p)[i]? = some x

/-- `x` answers the message `m`, which this node still holds, of a Dome whose teardown has not armed its discard. -/
def State.answers (s : State) (x : InPkt) (m : Msg) : Prop :=
  domeOf x.pkt.ctx ∉ s.sec.armed ∧ SMap.find s.fab.msgs x.pkt.msg = some m

/-! ## Control commands (R20, R368) -/

/-- Firmware holds the command of context `k` in a command area, has not begun it or takes it up again, and has written no
reply. -/
def State.FwHolds (s : State) (k op : Nat) (c : Cmd) : Prop :=
  s.cmd k = some c ∧ (∃ n a, c.eng = .fwArea n a) ∧ c.opcode = op ∧ (c.st = .queued ∨ c.st = .blocked) ∧
    SMap.find s.q.tcmReply k = none

/-- Firmware ends a command: what it had under way is given up, the reply is in the command's area. -/
def State.replied (s : State) (k st res : Nat) : State := ((s.clearAns (.fw k)).dropOrigin (.fw k)).fwReply k st res

/-- A command that must wait is taken up again later. -/
def State.blocked (s : State) (k : Nat) : State :=
  match s.cmd k with
  | some c => s.putCmd k { c with st := .blocked }
  | none => s

end Sys2Proof.Machine
end

