-- ==== Sys2Proof/Certificates/Slice0/Obligations.lean ====
section
/-!
DEFINITION. What is stated of the block. A command's completion is stated as the state it answers, written with the model's
named operations, so that what the state does not mention is unchanged.
-/
open Sys2Proof Sys2Proof.Machine

/-! ## The queue of commands -/

/-- A step takes the command at the front of the queue and carries it out on the state with the rest. -/
def Obligations.StepRunsFront : Prop :=
  ∀ (s : State) (c : Instr) (rest : List Instr), s.pending = c :: rest → step s = exec c { s with pending := rest }

/-- On an empty queue a step lets one third of a nanosecond pass: nothing but the two tick counts changes, and they only
while the device has power (the model's choice, log entry 2). -/
def Obligations.EmptyQueueTicks : Prop :=
  ∀ s : State, s.pending = [] → ∃ t, step s = .next t ∧
    t = { s with pwr := { s.pwr with refTime := t.pwr.refTime, rootTime := t.pwr.rootTime } } ∧
    t.pwr.refTime = s.pwr.refTime + (if s.pwr.pwrok then 1 else 0) ∧
    (s.pwr.pwrok = true ∧ s.pwr.frozen = false ∧ s.pwr.inReset = false ∧ 3 ≤ s.pwr.step →
      t.pwr.rootTime = s.pwr.rootTime + 1)

/-- No step faults or refuses, and a step takes exactly the front of the queue: what waits afterwards is what waited behind
it. -/
def Obligations.StepTakesFront : Prop :=
  ∀ s : State, ∃ t, step s = .next t ∧ t.pending = s.pending.tail

/-! ## Power, reset and freeze as seen by every command -/

/-- The state before PWROK is dark.
Where it uses what log entry 6 fixes, that is the model's choice where the entry says so. -/
def Obligations.ResetIsDark : Prop :=
   State.reset.PowerInv

/-- In every state, reached or not, a step keeps the invariant of power: without PWROK nothing of the device is left but the
flash, what the board drives, and the model's own fields.
Where it uses what log entry 97 fixes, that is the model's choice where the entry says so. -/
def Obligations.PowerInvariant : Prop :=
  ∀ s t : State, s.PowerInv → step s = .next t → t.PowerInv

/-- While the device is frozen, no command changes anything but those of domain 1, which runs on, and of the board. A device
that PERST_N or a software reset holds takes no command but what the board does to it, the reading of its temperature
sensors, the TAP and the SMBus.
Where it uses what log entries 97, 98 fix, that is the model's choice where they say so. -/
def Obligations.StoppedKeepsState : Prop :=
  (∀ (c : Instr) (s : State), s.pwr.frozen = true → ¬ Domain1Row c → ¬ BoardRow c → exec c s = .next s) ∧
  (∀ (c : Instr) (s : State), s.pwr.inReset = true → ¬ BoardRow c → exec c s = .next s)

/-- The straps stand as PWROK latched them: no command but a change of PWROK changes the node ID or the three selects, and
PWROK_RISE on a device without power latches the levels it is given.
Where it uses what log entry 97 fixes, that is the model's choice where the entry says so. -/
def Obligations.StrapsLatched : Prop :=
  (∀ (c : Instr) (s t : State), exec c s = .next t → (∀ a b d e, c ≠ .pwrokRise a b d e) → c ≠ .pwrokFall →
    t.pwr.node = s.pwr.node ∧ t.pwr.queenSel = s.pwr.queenSel ∧ t.pwr.succSel = s.pwr.succSel ∧
      t.pwr.dpcSel = s.pwr.dpcSel) ∧
  ∀ (x : Straps) (p : Bool) (f : List (Nat × Byte)) (b : BootChk) (s t : State), s.pwr.pwrok = false →
    exec (.pwrokRise x p f b) s = .next t →
    t.pwr.node = x.node.val ∧ t.pwr.queenSel = x.queen ∧ t.pwr.succSel = x.succ ∧ t.pwr.dpcSel = x.dpc

/-! ## The register space -/

/-- A 32-bit write of a register that its chapter gives no meaning of its own and that is not locked: each RW bit takes the
value written, a 1 clears a W1C bit and sets a W1S bit, every other bit keeps its value, and nothing else changes. Window
offsets and register addresses correspond one to one, and a register address a window reaches has bit 15 equal to 0. The
access comes through BAR2 of a fabric-manager function that stands and is assigned.
Where it uses what log entries 18, 24 fix, that is the model's choice where they say so. -/
def Obligations.RegisterSpace : Prop :=
  (∀ (s u : State) (b : Bar) (w : BitVec 26) (v : BitVec 64) (d : Nat) (r : Reg) (i k : Nat), s.up = true →
      u = s.barAssign b → u.barOpen b.port = true →
      AccSize.aligned .b4 (winToReg w.toNat) = true → blockDomain (winToReg w.toNat) = some d → u.domainOn d = true →
      regAt (winToReg w.toNat) = some (r, i, k) → u.writeLocked r k = false →
      (writeTable.find? fun e => e.1 == r.id) = none →
      exec (.registerWrite ⟨b, w⟩ .b4 v) s = .next (u.wr r (codeWrite r (u.rd r i k) (v.setWidth 32)) i k) ∧
      ∀ j < 32, (codeWrite r (u.rd r i k) (v.setWidth 32)).getLsbD j =
        (((if r.rw.testBit j then v.getLsbD j else (u.rd r i k).getLsbD j) &&
          !(r.w1c.testBit j && v.getLsbD j)) || (r.w1s.testBit j && v.getLsbD j))) ∧
  ((∀ w < 2 ^ 26, regToWin (winToReg w) = w ∧ winToReg w / 2 ^ 15 % 2 = 0 ∧ winToReg w < 2 ^ 27) ∧
    ∀ a < 2 ^ 27, a / 2 ^ 15 % 2 = 0 → winToReg (regToWin a) = a)

/-- The first case of R395 that applies: an access outside every block, or to a block whose domain is off, and an access
that is not naturally aligned. Each reads as 0, ignores its write, adds 1 to its counter and records its register address; a
64-bit access is two. What counting an access does to the registers: the counter saturates, the address is recorded, and no
other register and nothing outside the registers changes. Where no function with BAR2 stands, an access does not reach the
device.
Where it uses what log entries 17, 24 fix, that is the model's choice where they say so. -/
def Obligations.CountedAccesses : Prop :=
  (∀ (s u : State) (b : Bar) (w : BitVec 26) (z : AccSize), s.up = true → u = s.barAssign b → u.barOpen b.port = true →
      ∀ a, a = winToReg w.toNat →
      (AccSize.aligned z a = true → blockDomain a = none → (z = .b8 → blockDomain (a + 4) = none) →
        (∀ v, exec (.csrUnmappedAccess ⟨b, w⟩ z (some v)) s = .next
          (if z = .b8 then (u.csrCount F.GLOBAL_CSR_ERR_unmapped a).csrCount F.GLOBAL_CSR_ERR_unmapped (a + 4)
            else u.csrCount F.GLOBAL_CSR_ERR_unmapped a)) ∧
        exec (.csrUnmappedAccess ⟨b, w⟩ z none) s = .next
          (if z = .b8 then ((((u.csrCount F.GLOBAL_CSR_ERR_unmapped a).csrCount F.GLOBAL_CSR_ERR_unmapped (a + 4)).emit
              (.csr a 0)).emit (.csr (a + 4) 0))
            else (u.csrCount F.GLOBAL_CSR_ERR_unmapped a).emit (.csr a 0))) ∧
      (∀ d, AccSize.aligned z a = true → z ≠ .b8 → blockDomain a = some d → u.domainOn d = false →
        (∀ v, exec (.csrOffDomainAccess ⟨b, w⟩ z (some v)) s = .next (u.csrCount F.GLOBAL_CSR_ERR_off_domain a)) ∧
        exec (.csrOffDomainAccess ⟨b, w⟩ z none) s = .next ((u.csrCount F.GLOBAL_CSR_ERR_off_domain a).emit (.csr a 0))) ∧
      (∀ d, AccSize.aligned z a = false → blockDomain a = some d → u.domainOn d = true →
        (∀ v, exec (.misalignedCsrAccess ⟨b, w⟩ z (some v)) s = .next (u.csrCount F.GLOBAL_CSR_ERR_unmapped a)) ∧
        (z ≠ .b8 → exec (.misalignedCsrAccess ⟨b, w⟩ z none) s = .next ((u.csrCount F.GLOBAL_CSR_ERR_unmapped a).emit (.csr a 0))))) ∧
  (∀ (s u : State) (b : Bar) (w : BitVec 26) (z : AccSize) (v : BitVec 64) (st : Option (BitVec 64)), s.up = true →
      u = s.barAssign b → u.barOpen b.port = false →
      ∀ i ∈ [Instr.registerWrite ⟨b, w⟩ z v, .csrUnmappedAccess ⟨b, w⟩ z st, .csrOffDomainAccess ⟨b, w⟩ z st,
        .misalignedCsrAccess ⟨b, w⟩ z st], exec i s = .next u) ∧
  (∀ (s : State) (a : Nat) (f : Fld), f = F.GLOBAL_CSR_ERR_unmapped ∨ f = F.GLOBAL_CSR_ERR_off_domain → a < 2 ^ 27 →
      (s.csrCount f a).fN f = min (s.fN f + 1) (2 ^ (f.hi + 1 - f.lo) - 1) ∧
      (s.csrCount f a).fN F.GLOBAL_CSR_ERR_ADDR_addr = a ∧
      (∀ r i k, r.addr i k ≠ R.GLOBAL_CSR_ERR.addr 0 0 → r.addr i k ≠ R.GLOBAL_CSR_ERR_ADDR.addr 0 0 →
        (s.csrCount f a).rd r i k = s.rd r i k) ∧
      s.csrCount f a = { s with csr := (s.csrCount f a).csr })

/-! ## CXL.mem requests and answers -/

/-- A request of a host whose source and address meet a context enters policing as the home's kind that R127 gives its
opcode and MetaValue, under the context and line of its ingress entry; a combination the table lacks is RdCur where it
carries no data, and counted. A filter entry that has flipped bits is so before the request meets it. A message is taken as
it comes where its link is not secure; on a secure link it waits for its epoch's MAC, and in skid mode a write alone does; a
message with the MAC brings in all that wait. A message that cannot arrive changes nothing.
Where it uses what log entries 20, 23, 111 fix, that is the model's choice where they say so. -/
def Obligations.HostRequestsReachTheHome : Prop :=
  (∀ (s : State) (m : M2S) (c : CxlSrc) (x : Ctx) (line : Nat), s.up = true → c = m.id.src_ → s.hears c = true →
    (s.cxlLink c.port c.link).ideSecure = false → s.ingress c m.hpa.toNat = some (x, line) → s.srcDown c = false →
    ∀ (odd : State) (tx : HKind → Bool → Option RwD → Tx), odd = s.bump F.SNOOP_EVT_CNT2_odd_meta →
      (∀ k w d, tx k w d = State.hostTx c x line ⟨k, w, false⟩ d) →
    (m.meta_ = .s → exec (.memrd m none) s = .next ((s.police (tx .rdS true none)).keep s)) ∧
    (m.meta_ = .a → exec (.memrd m none) s = .next ((s.police (tx .rdE true none)).keep s)) ∧
    (m.meta_ = .noOp → exec (.memrd m none) s = .next ((s.police (tx .rdCur false none)).keep s)) ∧
    (m.meta_ = .i → exec (.memrd m none) s = .next ((odd.police (tx .rdCur false none)).keep s)) ∧
    exec (.memrddata m) s = .next ((s.police (tx .rdAny true none)).keep s) ∧
    (m.meta_ = .a → ∀ i ∈ [Instr.meminv m, .meminvnt m], exec i s = .next ((s.police (tx .invE true none)).keep s)) ∧
    (m.meta_ = .i → ∀ i ∈ [Instr.meminv m, .meminvnt m, .memclnevct m],
      exec i s = .next ((s.police (tx .drop false none)).keep s)) ∧
    (m.meta_ ≠ .a → m.meta_ ≠ .i → ∀ i ∈ [Instr.meminv m, .meminvnt m],
      exec i s = .next ((odd.police (tx .rdCur false none)).keep s)) ∧
    (m.meta_ ≠ .i → exec (.memclnevct m) s = .next ((odd.police (tx .rdCur false none)).keep s)) ∧
    (∀ u, exec (.memrd m u) s = .next (((s.upset line u).hear (.req m .read (mapRd m.meta_) none)).keep s)) ∧
    exec (.memspecrd m) s = .next ((s.police (tx .hint false none)).keep s) ∧
    ∀ d : RwD,
      (m.meta_ = .noOp →
        exec (.memwr m d) s = .next ((s.police (tx .plainWr false (some { d with be := fullBe }))).keep s) ∧
        exec (.memwrptl m d) s = .next ((s.police (tx .plainWr false (some d))).keep s)) ∧
      (m.meta_ ≠ .noOp →
        exec (.memwr m d) s = .next ((s.police (tx (.agentWr m.meta_) false (some { d with be := fullBe }))).keep s) ∧
        exec (.memwrptl m d) s = .next ((s.police (tx (.agentWr m.meta_) false (some d))).keep s))) ∧
  ∀ (s : State) (x : CxlMsg) (c : CxlSrc) (l : CxlLink), c = x.id.src_ → l = s.cxlLink c.port c.link →
    (s.canHear x = false → s.hear x = s) ∧
    (s.canHear x = true →
      (l.ideSecure = false ∨ (l.skid = true ∧ x.id.mac = false ∧ x.isWrite = false) → s.hear x = s.takeMsg x) ∧
      (l.ideSecure = true → x.id.mac = true → s.hear x =
        (l.epoch ++ [x]).foldl (fun s x => s.takeMsg x) (s.setCxlLink c.port c.link { l with epoch := [] })) ∧
      (l.ideSecure = true → x.id.mac = false → l.skid = false ∨ x.isWrite = true →
        s.hear x = s.setCxlLink c.port c.link { l with epoch := l.epoch ++ [x] }))

/-- A request that meets no ingress entry reaches no data: the port's miss counter rises, source 0 of its CX block raises an
event with the source ID, a read is answered with an all-poisoned line and any other request that has an answer with Cmp. A
message the home does not support is counted; MemRdFwd is answered with an all-poisoned line, MemWrFwd discarded.
Where it uses what log entries 19, 20, 21 fix, that is the model's choice where they say so. -/
def Obligations.RequestsWithoutData : Prop :=
  ∀ (s : State) (m : M2S) (c : CxlSrc), s.up = true → c = m.id.src_ → s.hears c = true →
    (s.cxlLink c.port c.link).ideSecure = false →
    (s.ingress c m.hpa.toNat = none →
      ∀ missed : State, missed = (s.bump F.CXLP_CTXT_MISS_CNT_miss_count 1 c.port).raise (640 + 16 * c.port) 0 0 none c.src →
      ∀ l : Nat, l = 2 ^ 58 + m.hpa.toNat / 64 →
      (∀ i ∈ [Instr.memrd m none, .memrddata m, .memrdfwd m],
        exec i s = .next ((missed.s2m c 0 0 false (.memData .i) l Line.poisoned).keep s)) ∧
      (∀ i ∈ [Instr.meminv m, .meminvnt m, .memclnevct m, .memwrfwd m],
        exec i s = .next ((missed.s2m c 1 0 false .cmp l Line.zero).keep s)) ∧
      (∀ d, ∀ i ∈ [Instr.memwr m d, .memwrptl m d], exec i s = .next ((missed.s2m c 1 0 false .cmp l Line.zero).keep s)) ∧
      exec (.memspecrd m) s = .next (missed.keep s)) ∧
    ∀ (x : Ctx) (line : Nat), s.ingress c m.hpa.toNat = some (x, line) →
      exec (.memwrfwd m) s = .next (s.bump F.SNOOP_EVT_CNT2_odd_meta) ∧
      exec (.memrdfwd m) s = .next (((s.bump F.SNOOP_EVT_CNT2_odd_meta).s2m c 0 (domeOf x) false
        (.memData .i) line Line.poisoned).keep s)

/-- A snoop answer from a registered source that is not down: without a snoop outstanding it is counted late; an answer its
snoop allows sets the agent's entry and ends the snoop; any other is handled as a timeout. A block answer is counted. A
BIConflict is acknowledged at once with BIConflictAck, in the Dome of the snoop it meets.
Where it uses what log entries 55, 57 fix, that is the model's choice where they say so. -/
def Obligations.SnoopAnswers : Prop :=
  ∀ (s : State) (x : CxlLine) (c : CxlSrc), s.up = true → c = x.id.src_ → s.hears c = true →
    (s.cxlLink c.port c.link).ideSecure = false →
    exec (.birspBlock x) s = .next (s.bump F.SNOOP_EVT_CNT2_odd_meta) ∧
    (s.srcDown c = false → exec (.biconflict x) s = .next ((s.s2m c 2
      (((s.home.snoops.find? fun n => some n.agent == s.agentOf c && n.line == x.line.toNat).map fun n => n.dome).getD 0)
      false .biConflictAck x.line.toNat Line.zero).keep s)) ∧
    ∀ a, s.agentOf c = some a → s.agentDown a = false →
      ∀ e ∈ [(Instr.birspi x, 0), (.birsps x, 1), (.birspe x, 2)],
        ((s.home.snoops.find? fun n => n.agent == a && n.line == x.line.toNat) = none →
          exec e.1 s = .next (s.bump F.SNOOP_EVT_CNT2_late_birsp)) ∧
        (∀ n, (s.home.snoops.find? fun n => n.agent == a && n.line == x.line.toNat) = some n →
          (snoopAllows n.kind e.2 = true → exec e.1 s = .next (((s.setAgent a x.line.toNat e.2).snoopGone n).keep s)) ∧
          (snoopAllows n.kind e.2 = false → exec e.1 s = .next (((s.snoopLost n).snoopGone n).keep s)))

/-- The home by itself. Where no write of a snooped agent waits for a line held for it, the line that has waited longest
for arbitration goes to its first waiter, with the arbitration pointer past its requester; a line that is locked again is
passed over. A snoop that no answer reached in time: the line is written poisoned and the agent's entry removed, the timeout counted and
logged with line and agent, source 7 raises an event. A policer releases the oldest held request that may go, with its
debit. Policing of a host's access. A passable policer is debited and the access goes on. Otherwise a read of a Dome whose
action is to hold, with room to hold it, waits in its port and is counted; any other is debited, demoted and counted.
Where it uses what log entries 53, 55, 57, 89 fix, that is the model's choice where they say so. -/
def Obligations.HomeByItself : Prop :=
  (∀ s : State, s.up = true →
      (∀ line rel rest t w, s.prompted = none → s.home.ready = (line, rel) :: rest → s.locked line = false →
        s.waiters line rel = t :: w →
        ∀ u : State, u = { s with home := { s.home with ready := rest, rr := originIdx t.origin + 1 } } →
        exec .lockGrant s = .next ((u.lockStep t).keep s)) ∧
      (∀ line rel rest, s.prompted = none → s.home.ready = (line, rel) :: rest → s.locked line = true →
        exec .lockGrant s = .next { s with home := { s.home with ready := rest } }) ∧
      (∀ t, s.prompted = some t → ∀ w : Tx, w = { s.atLock t with stage := .snoop } →
        exec .lockGrant s = .next (((s.putTx w).dataStep w).keep s)) ∧
      (∀ n rest, s.home.snoops = n :: rest → exec .biTimeout s = .next (((s.snoopLost n).snoopGone n).keep s)) ∧
      (∀ (n : Snoop) (u : State), u = (((((s.setAgent n.agent n.line 0).bump F.SNOOP_EVT_CNT0_bi_timeouts).fSet
          F.SNOOP_TO_LOG_LO_line_lo (n.line % 2 ^ 32)).fSet F.SNOOP_TO_LOG_HI_line_hi (n.line / 2 ^ 32)).fSet
          F.SNOOP_TO_LOG_HI_agent n.agent).fFlag F.SNOOP_TO_LOG_HI_valid true →
        (n.tx.isSome = true → s.snoopLost n =
          (u.poisonLine n.line 33).raise 7 (BitVec.ofNat 16 (n.dome * 16)) n.dome (some (n.line * 64)) n.agent) ∧
        (n.tx = none → s.snoopLost n = u)) ∧
      (∀ (p : Fin 28) h, p.val < 16 → s.home.held.find? (fun h => s.mayRelease p.val h) = some h → ∀ u : State,
        u = { s with home := { s.home with held := s.home.held.filter fun x => x.seq != h.seq } } → ∀ k,
        k = p.val * 4096 + domeOf h.tx.ctx →
        exec (.policerRelease p) s = .next (((if h.policed then
          u.setBucket .pol k ((u.bucket .pol k).debit (u.polCost p.val h.tx.lines)) else u).enterHome h.tx).keep s))) ∧
  (∀ (s : State) (t : Tx) (p k : Nat) (b : Bucket), p = t.at_.1 → k = p * 4096 + domeOf t.ctx → b = s.bucket .pol k →
      ∀ paid : State, paid = s.setBucket .pol k (b.debit (64 * t.lines + s.overhead p)) →
      (b.passable = true → s.police t = paid.enterOrKeep t) ∧
      (b.passable = false → (b.action = false ∧ t.kind.isWrite = false ∧ s.mayHold t b = true) →
        s.police t = (s.bump F.SHAPER_POL_CNT_held).keepAtPort t true) ∧
      (b.passable = false → (b.action = true ∨ t.kind.isWrite = true ∨ s.mayHold t b = false) →
        s.police t = (paid.bump F.SHAPER_POL_CNT_demoted).enterOrKeep { t with demoted := true }))

/-! ## The DRAM channels -/

/-- The scheduler issues the next command of the request it chooses: an ACTIVATE opens the row, a PRECHARGE closes it, a
WRITE stores the line, a READ puts the line's beats in flight; each is noted for the timing rules that follow it, and what the
home keeps for want of a queue entry tries again. A subchannel with one request and nothing else to do issues that request's
next command. Refresh, RFM and neighbour steps where the scheduler chooses them, and where nothing but that step waits. A
REFsb of a rank whose named banks are closed repays one debt and moves the bank index on; an RFM of closed banks takes the
initial threshold off their counts; a neighbour set starts by taking the mark and activating the first row.
Where it uses what log entries 29, 30 fix, that is the model's choice where they say so. -/
def Obligations.SchedulerSteps : Prop :=
  (∀ (s : State) (ch : Fin 24) (sc : Fin 2) (x : Subch), s.up = true → x = s.sub ch sc →
      (∀ (c : Cand) (u : State), s.schedule ch sc = .req c → u = s.overtake ch sc c →
        ∀ a, a ∈ [(DKind.act, u.issueAct ch sc c.co), (.pre, u.issuePre ch sc c.co.rank c.co.bg c.co.bank),
          (.wr, u.issueWr ch sc c), (.rd, u.issueRd ch sc c)] → c.kind = a.1 →
          exec (.dramCommandIssue ch sc) s = .next (a.2.retryKept.keep s)) ∧
      (s.schedOn ch sc = true → x.quiet → (s.chan ch).install = none →
        (∀ (r : RdEnt) (co : Coord), x.rq = [r] → x.wq = [] → co = s.coord ch r.loc →
          (SMap.find x.rows co.key = none →
            exec (.dramCommandIssue ch sc) s = .next ((s.issueAct ch sc co).retryKept.keep s)) ∧
          (∀ row, SMap.find x.rows co.key = some row → row ≠ co.row →
            exec (.dramCommandIssue ch sc) s = .next ((s.issuePre ch sc co.rank co.bg co.bank).retryKept.keep s)) ∧
          (SMap.find x.rows co.key = some co.row →
            exec (.dramCommandIssue ch sc) s = .next ((s.issueRd ch sc
              ⟨false, 0, co, .rd, s.urgency ch r.cls r.target0 r.entry, r.entry, false⟩).retryKept.keep s))) ∧
        ∀ (w : WrEnt) (co : Coord), x.rq = [] → x.wq = [w] → co = s.coord ch w.loc → x.drain = false →
          SMap.find x.rows co.key = some co.row →
          exec (.dramCommandIssue ch sc) s = .next ((s.issueWr ch sc
            ⟨true, 0, co, .wr, s.urgency ch w.cls w.target0 w.entry, w.entry, false⟩).retryKept.keep s))) ∧
  ∀ (s : State) (ch : Fin 24) (sc : Fin 2) (x : Subch), s.up = true → x = s.sub ch sc →
    (∀ r b n, (s.schedule ch sc = .refresh ∧ s.refRank ch sc = some r ∧ s.refOpen ch sc r = []) ∨
        (s.schedOn ch sc = true ∧ ({ x with refDue := [] } : Subch).quiet ∧ x.rq = [] ∧ x.wq = [] ∧ x.rows = [] ∧
          x.refDue = [(r, n)] ∧ n ≠ 0) →
      b = SMap.findD x.refIdx r 0 → n = SMap.findD x.refDue r 0 →
      exec (.refsbIssue ch sc) s = .next ((((s.setSub ch sc
        ({ x with refDue := SMap.put x.refDue r (n - 1), putOff := SMap.put x.putOff r (min (n - 1) (SMap.findD x.putOff r 0)),
                  refIdx := SMap.put x.refIdx r ((b + 1) % 4), started := none }.lowerRaa r b (s.chan ch).rfmInit)).noteStep
          ch sc .refsb r 0 b 0).showDebt ch).keep s)) ∧
    (∀ k n, (s.schedule ch sc = .rfm k ∧ s.openIn ch sc (k / 32) (k % 4) = []) ∨
        (s.schedOn ch sc = true ∧ ({ x with raa := [] } : Subch).quiet ∧ x.rq = [] ∧ x.wq = [] ∧ x.rows = [] ∧
          x.raa = [(k, n)] ∧ (s.chan ch).rfmInit ≠ 0 ∧ (s.chan ch).rfmInit ≤ n) →
      exec (.rfmIssue ch sc) s = .next (((s.setSub ch sc
        ({ x with rfmOn := none }.lowerRaa (k / 32) (k % 4) (s.chan ch).rfmInit)).noteStep ch sc .rfm (k / 32) 0 (k % 4)
          0).keep s)) ∧
    ∀ k row rows, (s.schedule ch sc = .neighbour ∧ x.nbr = none ∧ s.nbrStart ch sc = some (k, row)) ∨
        (s.schedOn ch sc = true ∧ ({ x with marks := [] } : Subch).quiet ∧ x.rq = [] ∧ x.wq = [] ∧ x.rows = [] ∧
          x.marks = [(k, row)] ∧ (s.chan ch).rfmMax = 0) →
      rows = s.nbrRows ch row →
      exec (.neighbourSet ch sc) s = .next ((((s.setSub ch sc
        (s.countAct ch { x with marks := SMap.del x.marks k, nbr := some ⟨k / 32, k / 4 % 8, k % 4, rows, true⟩ } k)).bump
          F.DCH_EVT_CNT0_nbr_sets 1 ch).noteStep ch sc .act (k / 32) (k / 4 % 8) (k % 4) (rows.headD 0)).keep s)

/-- A rank of a channel in service whose next phase of the refresh interval has come owes one REFsb more; where a ready
request of urgency 7 holds it off within the limit, it is counted as postponed. Calibration and idle rows. A package rank
whose ZQ calibration or DQS oscillator read is due and covered by a refresh is calibrated, and the time kept. An open row
with no column command for the programmed time and no request that wants it is closed, unless the setting is 0 or 4,095.
Where it uses what log entries 2, 28 fix, that is the model's choice where they say so. -/
def Obligations.RefreshAndCalibration : Prop :=
  (∀ (s : State) (ch : Fin 24) (sc : Fin 2) (rank : Fin 16) (x y : Subch) (at_ : Nat), s.up = true →
      s.fB F.DCH_CFG_enable ch = true → (s.chan ch).trained = true → (s.chan ch).selfRefresh = false →
      rank.val < s.rankCount ch → x = s.sub ch sc → at_ = s.refPhase ch rank (SMap.findD x.refAt rank 0) →
      at_ ≤ s.pwr.rootTime →
      y = { x with refDue := SMap.put x.refDue rank.val (SMap.findD x.refDue rank.val 0 + 1),
                   refAt := SMap.put x.refAt rank.val at_ } →
      exec (.refreshDue ch sc rank) s = .next ((if s.ready7 ch sc && decide (y.debt ≤ s.postponeLimit ch)
        then ((s.setSub ch sc y).showDebt ch).postpone ch sc rank else (s.setSub ch sc y).showDebt ch).keep s)) ∧
  (∀ (s : State) (ch : Fin 24) (sc : Fin 2) (x : Subch), s.up = true → x = s.sub ch sc →
      (∀ p : Fin 4, s.calOk ch sc p x.zqAt (ms 128) = true →
        exec (.zqCalibration ch sc p) s = .next (((s.setSub ch sc
          { x with zqAt := SMap.put x.zqAt p.val s.pwr.rootTime }).noteStep ch sc .zq p 0 0 0).keep s)) ∧
      (∀ p : Fin 4, s.calOk ch sc p x.oscAt (ms 32) = true →
        exec (.dqsOscRead ch sc p) s = .next (((s.setSub ch sc
          { x with oscAt := SMap.put x.oscAt p.val s.pwr.rootTime }).noteStep ch sc .osc p 0 0 0).keep s)) ∧
      ∀ (rank : Fin 16) (bg : Fin 8) (bank : Fin 4) (k row n : Nat), k = bankKey rank.val bg.val bank.val →
        n = s.fN F.DCH_SCHED_CTL_row_close_idle ch → SMap.find x.rows k = some row →
        (n = 0 ∨ n = 4095 → exec (.rowCloseIdle ch sc rank bg bank) s = .next s) ∧
        (n ≠ 0 → n ≠ 4095 →
          (∀ r ∈ x.rq, ¬ ((s.coord ch r.loc).key = k ∧ (s.coord ch r.loc).row = row)) →
          (∀ w ∈ x.wq, ¬ ((s.coord ch w.loc).key = k ∧ (s.coord ch w.loc).row = row)) →
          SMap.findD x.lastCol k 0 + n * s.ctlTicks ≤ s.pwr.rootTime → s.schedOn ch sc = true → x.nbr = none →
          x.started = none → x.rfmOn = none → s.cmdOk ch sc .pre (k / 32) (k / 4 % 8) (k % 4) = true →
          exec (.rowCloseIdle ch sc rank bg bank) s = .next ((s.issuePre ch sc (k / 32) (k / 4 % 8) (k % 4)).keep s)))

/-- The oldest read whose burst is due returns what the arrays hold with the bits that changed, decoded word by word: the
corrected errors are logged, the uncorrected ones of a tenant line are counted, and the access it
belongs to goes on with the line. A command or address error of a channel in service. Up to retry_limit failures are
repaired by precharging every bank and issuing again what the retry buffer holds, and counted; a read that still fails has the
error response, logged and counted as final; a write that still fails is handled as R73 says.
Where it uses what log entries 31, 32, 34, 106 fix, that is the model's choice where they say so. -/
def Obligations.ReadsAndAlerts : Prop :=
  (∀ (s : State) (ch : Fin 24) (sc : Fin 2) (flips v : Stored) (f : Flight) (rest : List Flight) (id : Nat) (t : Tx) (p : Pri)
      (u : State), s.up = true → (s.sub ch sc).flight = f :: rest → f.due ≤ s.pwr.rootTime → (s.sub ch sc).alert = false →
      v = f.beats ^^^ flips → f.ent.tx = some id → p = ⟨f.ent.cls, f.ent.target0, some f.ent.entry⟩ →
      u = ((s.setSub ch sc { s.sub ch sc with flight := rest }).logCes ch f.ent.loc (decodeWords v)).countUe ch
        (ueMask (decodeWords v)) →
      ((∀ d ∈ decodeWords v, d.action = 0) → ueMask (decodeWords v) = 0 → s.tx id = some t →
        exec (.dramReadData ch sc flips) s = .next ((u.dramArrive t p (u.decodeFor f.ent.line v)).keep s)) ∧
      (u.tx id = some t → ueMask (decodeWords v) = 0 ∨ (t.rewrites = false ∧ u.area (f.ent.line * 64) = .tenant) →
        exec (.dramReadData ch sc flips) s = .next ((u.dramArrive t p (u.decodeFor f.ent.line v)).keep s))) ∧
  (∀ (s u : State) (ch : Fin 24) (sc : Fin 2) (a : Alert), s.up = true → s.fB F.DCH_CFG_enable ch = true →
      (s.chan ch).trained = true → (s.chan ch).failed = false → a.fails.val ≠ 0 → u = s.reissue ch sc →
      (a.fails.val ≤ s.fN F.DCH_CA_CTL_retry_limit ch →
        exec (.caAlert ch sc a) s = .next ((u.bump F.DCH_CA_FAIL_CNT_retry_ok 1 ch).keep s) ∧
        (u.sub ch sc).rows = [] ∧ (u.sub ch sc).rq = (s.sub ch sc).rq ∧ (u.sub ch sc).wq = (s.sub ch sc).wq) ∧
      (s.fN F.DCH_CA_CTL_retry_limit ch < a.fails.val → ∀ x, x = u.sub ch sc →
        (∀ f rest, a.wr = false → (s.sub ch sc).flight = f :: rest → f.spare = false → ∃ g, x.flight.head? = some g ∧
          g.ent = f.ent ∧ exec (.caAlert ch sc a) s =
          .next ((((u.setSub ch sc { x with flight := x.flight.tail }).readFail ch g a).finalFailure ch).keep s)) ∧
        (∀ w t rest, a.wr = true → (s.sub ch sc).retry = .wr w t :: rest →
          s.pwr.rootTime < t + s.busyTicks ch (.wr w t) → exec (.caAlert ch sc a) s =
          .next ((((u.setSub ch sc { x with retry := x.retry.tail }).writeFail ch w a).finalFailure ch).keep s))))

/-- The modules of a channel whose DRAM group is powered read their sensors: the readings are kept, and the channel is hot
from above 85 °C until every reading is at 82 °C or below; each module newly above 95 °C raises source 3 once, with an
event. DCH_CFG and maintenance. A write is stored; an enable whose settings R55 does not accept leaves enable as it was and
sets cfg_error; an accepted one begins refresh; clearing maint clears maint_active. maint_active rises once maint is set and
the channel holds no request. Training. A full training starts where the channel does not train, the speeds agree and the
layout is not locked; a maintenance training where maint is set, with a request for power leave. Any other start is refused.
A full training that ends leaves the arrays undefined; a maintenance training ends with empty queues and leave, and changes
no array.
Where it uses what log entries 31, 35, 37 fix, that is the model's choice where they say so. -/
def Obligations.ChannelService : Prop :=
  (∀ (s : State) (ch : Fin 24) (t0 t1 : Fin 256) (c : Channel) (ps : List (Option Nat × Nat)), s.pwr.pwrok = true →
      s.domainOn (7 + ch.val / 4) = true → c = s.chan ch → ps = c.mods.zip [t0.val, t1.val] →
      exec (.thermalRead ch t0 t1) s = .next
        ((List.range (ps.filter fun p => decide (95 < p.2) && p.1.all fun t => decide (t ≤ 95)).length).foldl
          (fun (u : State) _ => (u.raise (64 + 16 * ch.val + 3)).addEvent 1 3 ch)
          (s.setChan ch { c with
            mods := ps.map (fun p => some p.2) ++ c.mods.drop ps.length,
            hot := ps.any (fun p => decide (85 < p.2)) || (c.hot && ps.any fun p => decide (82 < p.2)) }))) ∧
  (∀ (s : State) (ch : Fin 24), s.up = true →
      (∀ (v : Word) (u w x : State), u = s.wrCodes R.DCH_CFG v ch →
        w = (if F.DCH_CFG_enable.on v = true ∧ u.dchEnableOk ch v = false
          then (u.fFlag F.DCH_CFG_enable (s.fB F.DCH_CFG_enable ch) ch).fFlag F.DCH_STATUS_cfg_error true ch else u) →
        x = (if F.DCH_CFG_maint.on v then w else w.fFlag F.DCH_STATUS_maint_active false ch) →
        exec (.dchCfgWrite ch v) s = .next (((if s.fB F.DCH_CFG_enable ch = false ∧ x.fB F.DCH_CFG_enable ch = true
          then x.refStart ch else x).showService ch).keep s)) ∧
      (s.fB F.DCH_CFG_maint ch = true → s.drained ch = true →
        exec (.maintActive ch) s = .next ((s.fFlag F.DCH_STATUS_maint_active true ch).keep s)) ∧
      (s.drained ch = false → exec (.maintActive ch) s = .next s)) ∧
  (∀ (s : State) (ch : Fin 24), s.up = true →
      (∀ b : Bool, b = (s.fB F.DCH_TRAIN_STATUS_busy ch || s.fB F.DCH_CFG_speed ch != s.fB F.CLK_CTL_fast_dram) →
        ∀ st : Channel → State, (∀ c, st c = ({ s.setChan ch c with
          pwr := { s.pwr with trainStarted := true } } : State).fFlag F.DCH_TRAIN_STATUS_busy true ch) →
        (b = false → s.fB F.GLOBAL_IL_STATUS_locked = false →
          exec (.fullTraining ch) s = .next ((st { s.chan ch with
            train := some .full, mods := List.replicate (if s.fB F.DCH_CFG_dpc ch then 2 else 1) none,
            hot := false }).keep s)) ∧
        (b = false → s.fB F.DCH_CFG_maint ch = true →
          exec (.maintTraining ch) s = .next (((st { s.chan ch with train := some .maint }).pguAsk 3 (.train ch)).keep s)) ∧
        (b = true ∨ s.fB F.GLOBAL_IL_STATUS_locked = true →
          exec (.fullTraining ch) s = .next ((s.fFlag F.DCH_TRAIN_STATUS_refused true ch).keep s)) ∧
        (b = true ∨ s.fB F.DCH_CFG_maint ch = false →
          exec (.maintTraining ch) s = .next ((s.fFlag F.DCH_TRAIN_STATUS_refused true ch).keep s))) ∧
      (∀ r : TrainRes, (s.chan ch).train = some .full → ∃ t, exec (.trainingDone ch r) s = .next t ∧
        (t.chan ch).train = none ∧ (t.chan ch).trained = (r.pass && s.modulesOk ch r) ∧ (t.chan ch).array = [] ∧
        (t.chan ch).epoch = (s.chan ch).epoch + 1 ∧ (t.chan ch).metaInit = false) ∧
      (∀ r : TrainRes, (s.chan ch).train = some .maint → s.drained ch = true → s.hasLeave (.train ch) = true →
        exec (.trainingDone ch r) s = .next ((((((s.setChan ch { s.chan ch with train := none }).pguReturn (.train ch)).fFlag
          F.DCH_TRAIN_STATUS_busy false ch).fFlag F.DCH_TRAIN_STATUS_pass r.pass ch).fFlag F.DCH_TRAIN_STATUS_fail (!r.pass)
          ch).keep s)))

/-- Raw test operations on a channel under maintenance, on a line within its capacity: with the control word stored, a raw
read shows each beat in the data and mask registers; a raw write stores the beats the registers spell; an inject write
stores encoded words with check bits flipped; a checked read shows each word as it decodes, with its syndrome and action.
Remap operations, with the control word stored and no operation busy: a read shows the chosen entry, zeros for a free one; an
install takes the
lowest free entry and is busy until its copy; a blank install makes a free entry valid at once where the channel is disabled
or under maintenance; a removal under maintenance ends the entry, and the line's own location holds no value the
specification gives.
Where it uses what log entries 7, 40, 106 fix, that is the model's choice where they say so. -/
def Obligations.RawAndRemapOperations : Prop :=
  (∀ (s : State) (ch : Fin 24) (v : Word) (op : Nat) (w : Word) (u : State) (loc : Nat), s.up = true → 1 ≤ op → op ≤ 4 →
      w = BitVec.ofNat 32 (setBits v.toNat 24 3 op) → u = s.wrCodes R.DCH_RAW_CTL w ch →
      loc = (u.fN F.DCH_RAW_CTL_addr_hi ch * 2 ^ 32 + u.fN F.DCH_RAW_ADDR_addr_lo ch) * 64 →
      u.fB F.DCH_CFG_maint ch = true → u.fB F.DCH_STATUS_maint_active ch = true → loc < u.chanCap ch →
      ∀ word m : Nat → Nat, (∀ j, word j = (u.rd R.DCH_RAW_D ch j).toNat) →
        (∀ j, m j = u.fN F.DCH_RAW_M_check ch j + u.fN F.DCH_RAW_M_poison ch j * 128) →
      (op = 1 → exec (.rawRead ch v) s = .next (((List.range 16).foldl (fun t j =>
        (t.wr R.DCH_RAW_D ((beat (u.arrayGet ch loc) j).setWidth 32) ch j).wr R.DCH_RAW_M
          ((t.rd R.DCH_RAW_M ch j &&& 0xFFFFFF00) ||| ((beat (u.arrayGet ch loc) j).extractLsb' 32 8).setWidth 32) ch j)
        u).keep s)) ∧
      (op = 2 → exec (.rawWrite ch v) s = .next ((u.arrayPut ch loc ((List.range 16).foldl (fun a j =>
        setBeat a j (BitVec.ofNat 40 (word j + m j * 2 ^ 32))) 0)).keep s)) ∧
      (op = 3 → exec (.injectWrite ch v) s = .next ((u.arrayPut ch loc ((List.range 16).foldl (fun a j =>
        setBeat a j (encodeBeat (u.rd R.DCH_RAW_D ch j) (bit (m j) 7) ^^^ BitVec.ofNat 40 (m j % 128 * 2 ^ 32))) 0)).keep s)) ∧
      (op = 4 → exec (.checkedRead ch v) s = .next (((decodeWords (u.arrayGet ch loc)).zipIdx.foldl (fun t x =>
        (t.wr R.DCH_RAW_D x.1.data ch x.2).wr R.DCH_RAW_M (BitVec.ofNat 32
          (bits (beat (u.arrayGet ch loc) x.2).toNat 32 7 + (if x.1.p then 128 else 0) + x.1.syn.toNat * 256 +
            x.1.action * 65536)) ch x.2) u).keep s))) ∧
  (∀ (s : State) (ch : Fin 24) (v : Word), s.up = true → s.fB F.DCH_REMAP_HI_busy ch = false →
      ∀ (u : Nat → State), (∀ op, u op = s.wrCodes R.DCH_REMAP_HI (BitVec.ofNat 32 (setBits v.toNat 28 3 op)) ch) →
      ∀ (loc : Nat → Nat), (∀ op, loc op =
        ((u op).fN F.DCH_REMAP_HI_line_hi ch * 2 ^ 32 + (u op).fN F.DCH_REMAP_LO_line_lo ch) * 64) →
      (∀ e, SMap.find (s.chan ch).remap (s.fN F.DCH_REMAP_IDX_entry ch) = some e →
        exec (.remapRead ch v) s = .next ((((((u 0).fSet F.DCH_REMAP_LO_line_lo (e.loc / 64 % 2 ^ 32) ch).fSet
          F.DCH_REMAP_HI_line_hi (e.loc / 64 / 2 ^ 32) ch).fFlag F.DCH_REMAP_HI_auto e.auto ch).fFlag F.DCH_REMAP_HI_valid true
          ch).keep s)) ∧
      (SMap.find (s.chan ch).remap (s.fN F.DCH_REMAP_IDX_entry ch) = none →
        exec (.remapRead ch v) s = .next ((((((u 0).fSet F.DCH_REMAP_LO_line_lo 0 ch).fSet F.DCH_REMAP_HI_line_hi 0 ch).fFlag
          F.DCH_REMAP_HI_auto false ch).fFlag F.DCH_REMAP_HI_valid false ch).keep s)) ∧
      (∀ k, (s.chan ch).remapOf (loc 1) = none → loc 1 < (u 1).chanCap ch → SMap.firstFree (s.chan ch).remap 16 = some k →
        exec (.remapInstall ch v) s = .next ((((u 1).setChan ch
          { s.chan ch with install := some ⟨k, loc 1, false⟩ }).fFlag F.DCH_REMAP_HI_busy true ch).keep s)) ∧
      (∀ k, (s.chan ch).remapOf (loc 2) = none → loc 2 < (u 2).chanCap ch → SMap.firstFree (s.chan ch).remap 16 = some k →
        (s.fB F.DCH_CFG_enable ch = false ∨ s.fB F.DCH_CFG_maint ch = true) →
        exec (.installBlank ch v) s = .next ((((u 2).remapPut ch k ⟨loc 2, false, encodeLine Line.zero⟩).addEvent 1 1
          (loc 2)).keep s)) ∧
      (∀ e, SMap.find (s.chan ch).remap (s.fN F.DCH_REMAP_IDX_entry ch) = some e → s.fB F.DCH_CFG_maint ch = true →
        ∃ t, exec (.remapRemove ch v) s = .next t ∧
          ∀ w, w = (u 3).setChan ch { s.chan ch with remap := SMap.del (s.chan ch).remap (s.fN F.DCH_REMAP_IDX_entry ch) } →
            t = ((({ w with free := s.free + 1 } : State).arrayPut ch e.loc
              (Config.undefinedLine ch (2 ^ 32 + s.free) (e.loc / 64))).remapFree ch).keep s) ∧
      ∀ i, (s.chan ch).install = some i →
        exec (.remapInstallDone ch) s = .next ((((s.setChan ch { s.chan ch with install := none }).installCopy ch i.entry i.loc
          i.auto).fFlag F.DCH_REMAP_HI_busy false ch).keep s))

/-- The Forager reads the next line that is not remapped in an idle cycle, moves its position past it and logs what the read
corrects; a line without errors changes nothing else. Acceleration restarts the walk from line 0 and asks for power leave.
The walk's end records the lap's time, counts the lap, starts at line 0 again and ends the acceleration.
Where it uses what log entry 43 fixes, that is the model's choice where the entry says so. -/
def Obligations.ForagerWalk : Prop :=
  ∀ (s : State) (ch : Fin 24) (c : Channel), s.up = true → c = s.chan ch →
    (∀ (f : FrgFlips) (p : Nat) (ds : List Dec), p = c.frgNext 16 c.frgPos → s.frgReady ch p = true →
      ds = decodeWords (s.storedGet ch (p * 64) ^^^ f.first) → (∀ d ∈ ds, d.action = 0) → ueMask ds = 0 →
      exec (.foragerRead ch f) s = .next (((((s.setChan ch { c with frgPos := p + 1, frgLast := s.pwr.rootTime }).showPos
        ch)).logCes ch (p * 64) ds).keep s)) ∧
    (∀ (v w : Word) (u x : State), w = BitVec.ofNat 32 (setBits v.toNat 1 1 1) → s.fB F.DCH_FRG_CTL_accel ch = false →
      s.fB F.DCH_FRG_CTL_enable ch = F.DCH_FRG_CTL_enable.on w → u = s.wrCodes R.DCH_FRG_CTL w ch →
      x = ((u.setChan ch { c with frgPos := 0, frgLapTicks := 0, frgSince := s.pwr.rootTime }).showPos ch).pguAsk 2
        (.forager ch) →
      exec (.foragerAccel ch v) s = .next ((x.fFlag F.DCH_FRG_CTL_grant_wait (!x.hasLeave (.forager ch)) ch).keep s)) ∧
    (∀ u x : State, s.chanCap ch ≤ c.frgNext 16 c.frgPos * 64 →
      u = s.fSet F.DCH_FRG_LAP_last_lap_ms (min (2 ^ 32 - 1) (s.lapTicks ch / ms 1)) ch →
      x = ((u.setChan ch { c with frgPos := 0, frgLapTicks := 0, frgSince := s.pwr.rootTime }).showPos ch).bump
        F.DCH_FRG_POS_HI_laps 1 ch →
      exec (.foragerLapEnd ch) s = .next ((((x.fFlag F.DCH_FRG_CTL_accel false ch).fFlag F.DCH_FRG_CTL_grant_wait false
        ch).pguReturn (.forager ch)).keep s))

/-- The valid map and the layout lock. Zeroing starts once, after the lock; its end leaves every metadata line of every
channel at its initial contents; the map goes on after zeroing or in recovery. Locking a layout that R32 allows locks it;
any other sets layout_error and, before READY, error 4.
Where it uses what log entries 7, 41 fix, that is the model's choice where they say so. -/
def Obligations.ValidMapAndLayout : Prop :=
  ∀ s : State, s.up = true →
    (s.fB F.GLOBAL_IL_STATUS_locked = true → s.fB F.GLOBAL_VMAP_STATUS_zero_busy = false →
      s.fB F.GLOBAL_VMAP_STATUS_zero_done = false →
      exec .vmapZero s = .next (s.fFlag F.GLOBAL_VMAP_STATUS_zero_busy true)) ∧
    (s.fB F.GLOBAL_VMAP_STATUS_zero_busy = true →
      exec .vmapZeroDone s = .next ((((s.chanList.foldl (fun (t : State) ch => t.metaZero ch)
        { s with honey := { s.honey with lines := s.honey.lines.filter fun e =>
          !(s.metaDefault (lineOf (e.1 / 16) e.2.tag * 64)).isSome } }).fFlag F.GLOBAL_VMAP_STATUS_zero_busy false).fFlag
        F.GLOBAL_VMAP_STATUS_zero_done true).keep s)) ∧
    (s.fB F.GLOBAL_VMAP_STATUS_zero_done = true ∨ s.fB F.GLOBAL_VMAP_STATUS_recovery = true →
      exec .vmapOn s = .next (((s.fFlag F.GLOBAL_VMAP_CTL_on true).fFlag F.GLOBAL_VMAP_STATUS_on true).fFlag
        F.GLOBAL_VMAP_STATUS_recovery false)) ∧
    (s.fB F.GLOBAL_IL_STATUS_locked = false →
      (∀ rs, s.layoutRegs = some rs → layoutOk s.memTop s.chanList.length s.hiveBase rs = true →
        exec .ilLock s = .next ((s.fFlag F.GLOBAL_IL_STATUS_locked true).fFlag F.GLOBAL_IL_STATUS_layout_error false)) ∧
      (∀ rs, s.layoutRegs = some rs → layoutOk s.memTop s.chanList.length s.hiveBase rs = false → s.pwr.ready = false →
        exec .ilLock s = .next ((s.fFlag F.GLOBAL_IL_STATUS_layout_error true).fSet F.START_STATUS_error 4)))

/-! ## The codes -/

/-- R82 over every beat: its syndrome decides the action. The cases are those of the rule's table, and every syndrome falls
under one of them. -/
def Obligations.SyndromeActions : Prop :=
  ∀ (b : BitVec 40) (s : BitVec 7) (d : Word) (p : Bool) (weight : Nat), s = syndrome b → d = b.setWidth 32 → p = b.getLsbD 39 →
    weight = ((List.range 7).filter fun i => s.getLsbD i).length →
    (s = 0 → decodeBeat b = ⟨d, p, s, 0⟩) ∧
    (weight = 1 → decodeBeat b = ⟨d, p, s, 1⟩) ∧
    (∀ i < 32, s.toNat = dataCols.getD i 0 → decodeBeat b = ⟨d ^^^ (1#32 <<< i), p, s, 1⟩) ∧
    (s = 0x70 → decodeBeat b = ⟨d, !p, s, 1⟩) ∧
    (s = 0x64 ∨ s = 0x68 ∨ weight = 5 ∨ weight = 7 ∨ (s ≠ 0 ∧ weight % 2 = 0) → decodeBeat b = ⟨d, p, s, 2⟩) ∧
    (s = 0 ∨ weight = 1 ∨ (∃ i < 32, s.toNat = dataCols.getD i 0) ∨ s = 0x70 ∨ s = 0x64 ∨ s = 0x68 ∨ weight = 5 ∨ weight = 7 ∨
      (s ≠ 0 ∧ weight % 2 = 0))

/-- The DRAM code corrects one flipped bit and detects two: whatever a beat holds, a single flip among its 40 bits gives
back the data and the poison bit that were stored, as a corrected error, and any two flips are an uncorrectable error. -/
def Obligations.CodeCorrectsOneDetectsTwo : Prop :=
  ∀ (d : Word) (p : Bool),
    (decodeBeat (encodeBeat d p) = ⟨d, p, 0, 0⟩) ∧
    (∀ i < 40, ∃ s, s ≠ 0 ∧ decodeBeat (encodeBeat d p ^^^ (1#40 <<< i)) = ⟨d, p, s, 1⟩) ∧
    ∀ i < 40, ∀ j < 40, i ≠ j → (decodeBeat (encodeBeat d p ^^^ (1#40 <<< i) ^^^ (1#40 <<< j))).action = 2

/-- The snoop filter's entries. A set and a tag name one line of the 2^39; an entry reads back its tag and state, also with
one bit flipped, and two flipped bits are detected. -/
def Obligations.FilterEntries : Prop :=
  (∀ line < 2 ^ 39, filterLine (filterSet line) (filterTag line) = line ∧ filterSet line < 2 ^ 15 ∧ filterTag line < 2 ^ 24) ∧
  ∀ (tag st : Nat), tag < 2 ^ 24 → st < 4 →
    filterDecode (filterEncode tag st) = some (tag, st) ∧
    (∀ i < 32, filterDecode (filterEncode tag st ^^^ (1#32 <<< i)) = some (tag, st)) ∧
    ∀ i < 32, ∀ j < 32, i ≠ j → filterDecode (filterEncode tag st ^^^ (1#32 <<< i) ^^^ (1#32 <<< j)) = none

/-! ## CXL ports -/

/-- The commands of a port's ingress context table. A command that finds none running takes its index and the key and value
registers, and is busy. When it ends busy clears: a read shows the entry; a write stores the key and context where no other
valid entry has the key, the Dome is not 0 and is ACTIVE, and otherwise sets the bits that say why not; an invalidation
makes the entry not valid. HDM decoders. A commit takes the granularity and ways; where R244 refuses nothing the decoder is
committed, else its error bit is set. Clearing commit on a committed decoder ends the commitment and changes nothing else.
CXLP_CFG. fm_func and ide_required are stored whenever it is written; mode and bifurcate only while the port is disabled.
Enabling takes them over; disabling an enabled port takes both its links down.
Where it uses what log entry 26 fixes, that is the model's choice where the entry says so. -/
def Obligations.CxlPortTables : Prop :=
  (∀ (s : State) (p : Fin 16) (x : CxlPort), s.up = true → x = s.cxlPort p →
      (∀ (i : Fin 1024), s.fB F.CXLP_CTXT_CMD_busy p = false → ∀ go : Nat → State,
        (∀ op, go op = (s.setCxlPort p { x with ctxtCmd := some ⟨op, i.val, BitVec.ofNat 19 (s.rd R.CXLP_CTXT_KEY p).toNat,
          BitVec.ofNat 16 (s.fN F.CXLP_CTXT_VAL_ctx p)⟩ }).fFlag F.CXLP_CTXT_CMD_busy true p) →
        exec (.ctxtRead p i) s = .next ((go 0).keep s) ∧ exec (.ctxtWrite p i) s = .next ((go 1).keep s) ∧
          exec (.ctxtInvalidate p i) s = .next ((go 2).keep s)) ∧
      ∀ (c : CtxtCmd) (e : CtxtEnt) (u : State), x.ctxtCmd = some c → e = SMap.findD x.ctxt c.idx ⟨false, 0, 0⟩ →
        u = (s.setCxlPort p { x with ctxtCmd := none }).fFlag F.CXLP_CTXT_CMD_busy false p →
        (c.op = 0 → exec (.ctxtCmdDone p) s = .next ((((u.wr R.CXLP_CTXT_KEY (BitVec.ofNat 32 e.key.toNat) p).wr
          R.CXLP_CTXT_VAL (BitVec.ofNat 32 e.ctx.toNat) p).fFlag F.CXLP_CTXT_STATUS_entry_valid e.valid p).keep s)) ∧
        (c.op = 1 → ∀ dup zero dead : Bool,
          dup = (x.ctxt.any fun e => e.1 != c.idx && e.2.valid && e.2.key == c.key) → zero = (domeOf c.ctx == 0) →
          dead = (s.domeSt (domeOf c.ctx) != .active) →
          (dup = false → zero = false → dead = false → exec (.ctxtCmdDone p) s = .next ((u.setCxlPort p
            { x with ctxtCmd := none, ctxt := SMap.put x.ctxt c.idx ⟨true, c.key, c.ctx⟩ }).keep s)) ∧
          (dup = true ∨ zero = true ∨ dead = true → exec (.ctxtCmdDone p) s = .next ((        let a := if dup then u.fFlag F.CXLP_CTXT_STATUS_dup_key true p else u
            let b := if zero then a.fFlag F.CXLP_CTXT_STATUS_dome_zero true p else a
            if dead then b.fFlag F.CXLP_CTXT_STATUS_dome_not_active true p else b).keep s))) ∧
        (c.op = 2 → exec (.ctxtCmdDone p) s = .next ((u.setCxlPort p
          { x with ctxtCmd := none, ctxt := SMap.store x.ctxt ⟨false, 0, 0⟩ c.idx { e with valid := false } }).keep s))) ∧
  (∀ (s : State) (d : Fin 32), s.up = true →
      (∀ (ig : Fin 16) (iw : Fin 8) (u : State), s.fB F.CXLP_HDM_CTL_committed 0 d = false →
        u = (s.fSet F.CXLP_HDM_CTL_ig ig.val 0 d).fSet F.CXLP_HDM_CTL_iw iw.val 0 d →
        (u.hdmRefused d = false → exec (.hdmCommit d ig iw) s =
          .next (((u.fFlag F.CXLP_HDM_CTL_committed true 0 d).fFlag F.CXLP_HDM_CTL_commit true 0 d).keep s)) ∧
        (u.hdmRefused d = true → exec (.hdmCommit d ig iw) s =
          .next ((u.fFlag F.CXLP_HDM_CTL_error true 0 d).keep s))) ∧
      (s.fB F.CXLP_HDM_CTL_committed 0 d = true → exec (.hdmUncommit d) s =
        .next (((s.fFlag F.CXLP_HDM_CTL_committed false 0 d).fFlag F.CXLP_HDM_CTL_commit false 0 d).keep s))) ∧
  (∀ (s : State) (p : Fin 16) (v : Word) (u w : State), s.up = true →
      u = (s.fFlag F.CXLP_CFG_fm_func (F.CXLP_CFG_fm_func.on v) p).fFlag F.CXLP_CFG_ide_required
        (F.CXLP_CFG_ide_required.on v) p →
      w = (u.fSet F.CXLP_CFG_mode (F.CXLP_CFG_mode.of v) p).fFlag F.CXLP_CFG_bifurcate (F.CXLP_CFG_bifurcate.on v) p →
      (u.fB F.CXLP_CFG_enable p = true → F.CXLP_CFG_enable.on v = true → exec (.cxlpCfgWrite p v) s = .next (u.keep s)) ∧
      (u.fB F.CXLP_CFG_enable p = true → F.CXLP_CFG_enable.on v = false →
        exec (.cxlpCfgWrite p v) s = .next ((((u.fFlag F.CXLP_CFG_enable false p).linkDown p 0).linkDown p 1).keep s)) ∧
      (u.fB F.CXLP_CFG_enable p = false → F.CXLP_CFG_enable.on v = false ∨ w.fN F.CXLP_CFG_mode p = 3 →
        exec (.cxlpCfgWrite p v) s = .next (w.keep s)) ∧
      (u.fB F.CXLP_CFG_enable p = false → F.CXLP_CFG_enable.on v = true → w.fN F.CXLP_CFG_mode p ≠ 3 →
        ∃ t, exec (.cxlpCfgWrite p v) s = .next t ∧ t.cxlPort p = { s.cxlPort p with
          mode := (w.fFlag F.CXLP_CFG_enable true p).fN F.CXLP_CFG_mode p,
          bifurcate := (w.fFlag F.CXLP_CFG_enable true p).fB F.CXLP_CFG_bifurcate p,
          fmFunc := (w.fFlag F.CXLP_CFG_enable true p).fB F.CXLP_CFG_fm_func p }))

/-- The life of a CXL link. It comes up on an enabled port at a width its bifurcation allows, and the vectors that wait for
it are sent; it enters Recovery, on its own account or when retrained, keeping the time; a Recovery that lasts too long, a
hot reset, a link disable and a loss of the link take it down, and a hot reset returns its functions to their PCIe reset
state: BAR2 is unassigned and the DOE Error bits are clear. A link that goes down: it is down with its trained values and
keys gone, what was queued for it is counted as discarded and gone from egress, and requests its ingress held are dropped.
Where it uses what log entries 22, 26 fix, that is the model's choice where they say so. -/
def Obligations.CxlLinks : Prop :=
  (∀ (s : State) (p : Fin 16) (l : Fin 2) (x : CxlLink), s.up = true → x = s.cxlLink p l →
      (∀ (w : Fin 3) (fast : Bool), s.fB F.CXLP_CFG_enable p = true → (l.val = 1 → (s.cxlPort p).bifurcate = true) →
        ((s.cxlPort p).bifurcate = true → w.val ≠ 2) → x.up = false →
        exec (.cxlLinkUp p l w fast) s = .next (((s.setCxlLink p l
          { x with up := true, recovery := none, width := w.val + 1, speed := if fast then 2 else 1 }).vecsUp p l).keep s)) ∧
      (x.up = true → x.recovery = none → ∀ u, u = s.setCxlLink p l
          { x with recovery := some s.pwr.refTime, replays := x.replays + 1 } →
        exec (.linkRecovery p l) s = .next (u.keep s) ∧ (l.val = 0 → exec (.retrain0 p) s = .next (u.keep s)) ∧
          (l.val = 1 → exec (.retrain1 p) s = .next (u.keep s))) ∧
      (x.recovery.isSome = true → exec (.recoveryTimeout p l) s = .next ((s.linkDown p l).keep s)) ∧
      (∀ i ∈ [Instr.linkDown p l, .linkDisable p l], exec i s = .next ((s.linkDown p l).keep s)) ∧
      (∀ u v : State, u = s.linkDown p l →
        v = (if l.val = 0 then u.setCxlPort p { u.cxlPort p with bar2 := none } else u) →
        exec (.hotReset p l) s = .next ((v.setCxlLink p l { v.cxlLink p l with doeErr := [] }).keep s))) ∧
  (∀ (s : State) (p : Fin 16) (l : Fin 2) (x : CxlLink), x = s.cxlLink p l → x.up = true →
      (s.linkDown p l).cxlLink p l = { x with
        up := false, recovery := none, width := 0, speed := 0, ideSecure := false,
        keySet := 0, ideKeys := [], ioKeys := [], ioSet := [], epoch := [], downs := x.downs + 1, discarded := x.discarded +
          ((s.eg.items.filter fun i => i.port == p.val && i.link == l.val).filter fun i =>
            match i.body with | .s2m _ _ _ _ => true | _ => false).length } ∧
      (∀ h ∈ (s.linkDown p l).home.held, h.tx.origin.onLink p l = false))

/-- IDE and DOE. A KEY_PROG by a session that may program the link stores the key of its stream's set and direction and is
acknowledged; any other is answered as
refused; K_SET_GO of a set with both keys makes the CXL.mem stream secure under it, in the mode it names, and gives a
CXL.io stream with the keys of its three sub-streams its set; an integrity failure is counted, raised and takes the link down.
A DOE object is answered by its protocol; one that is too long is discarded with the function's Error bit, which stays until
DOE Abort.
Where it uses what log entry 23 fixes, that is the model's choice where the entry says so. -/
def Obligations.IdeAndDoe : Prop :=
  ∀ (s : State) (p : Fin 16) (l : Fin 2) (x : CxlLink), s.up = true → x = s.cxlLink p l → x.up = true →
    (∀ (sess : Fin 256) (ks dir : Fin 2) (key : BitVec 256), s.mayKey p l sess = true →
      exec (.keyProg p l sess .mem ks dir key) s = .next (((s.setCxlLink p l
        { x with ideKeys := SMap.put x.ideKeys (ks.val * 2 + dir.val) key }).emit (.doe p l 0 [])).keep s) ∧
      ∀ (n : Fin 256) (sub : Fin 3), n.val < 5 → exec (.keyProg p l sess (.io n sub) ks dir key) s = .next (((s.setCxlLink p l
        { x with ioKeys := SMap.put x.ioKeys (((n.val * 3 + sub.val) * 2 + ks.val) * 2 + dir.val) key }).emit
          (.doe p l 0 [])).keep s)) ∧
    (∀ (sess : Fin 256) (t : IdeStream) (ks dir : Fin 2) (key : BitVec 256),
      s.mayKey p l sess = false ∨ (∃ n sub, t = .io n sub ∧ 5 ≤ n.val) →
      exec (.keyProg p l sess t ks dir key) s = .next (s.emit (.doe p l 1 []))) ∧
    (∀ (ks : Fin 2) (skid : Bool), (SMap.find x.ideKeys (ks.val * 2)).isSome = true →
      (SMap.find x.ideKeys (ks.val * 2 + 1)).isSome = true →
      exec (.kSetGo p l ⟨.mem, ks, skid⟩) s =
        .next ((s.setCxlLink p l { x with keySet := ks.val, ideSecure := true, skid := skid }).keep s)) ∧
    (∀ (ks : Fin 2) (skid : Bool) (n : Fin 256) (sub : Fin 3),
      (∀ j < 3, ∀ dir < 2, (SMap.find x.ioKeys (((n.val * 3 + j) * 2 + ks.val) * 2 + dir)).isSome = true) →
      exec (.kSetGo p l ⟨.io n sub, ks, skid⟩) s =
        .next ((s.setCxlLink p l { x with ioSet := SMap.put x.ioSet n.val ks.val }).keep s)) ∧
    exec (.ideIntegrityFailure p l) s = .next (((((s.setCxlLink p l { x with ideFails := x.ideFails + 1 }).bump
      F.CXLP_ERR_CNT_ide_fail 1 p).raise (640 + 16 * p.val + 1) 0 0 none l.val).linkDown p l).keep s) ∧
    ∀ (f : Func) (n : Nat), s.hasFunc p l f = true →
      exec (.doeObject p l f .abort n) s = .next ((s.setCxlLink p l
        { x with doeErr := x.doeErr.filter fun e => e != f.idx }).keep s) ∧
      (x.doeErr.contains f.idx = true → ∀ k, k ≠ .abort → exec (.doeObject p l f k n) s = .next s) ∧
      (x.doeErr.contains f.idx = false →
        (65536 < n → ∀ k, k ≠ .abort →
          exec (.doeObject p l f k n) s = .next ((s.setCxlLink p l { x with doeErr := f.idx :: x.doeErr }).keep s)) ∧
        (n ≤ 65536 →
          exec (.doeObject p l f .cdat n) s = .next (s.emit (.doe p l 0 x.cdat)) ∧
          exec (.doeObject p l f .discovery n) s = .next (s.emit (.doe p l 0 [0, 1, 2, 3, 4]))))

/-! ## The honey cache, page heat and migration -/

/-- The halves of the cache. A half that is on, with the other on, no pinned line and no change in progress, asks for power
leave and flushes; at the flush's end its lines are written back and dropped, each once its lock is free, and when none is left the half and its
domain are off and the leave is returned. A half that is off rises while the other is on and no change is in progress, and is then on. Any other request
is refused; one that asks for what is the case changes nothing. The cache's enable. Enabling and disabling empty the cache;
a disable is refused while a line is dirty or pinned.
Where it uses what log entries 48, 57 fix, that is the model's choice where they say so. -/
def Obligations.CacheControl : Prop :=
  (∀ (s : State) (b : Fin 2), s.up = true →
      (s.honey.halfOf b = .off → exec (.halfPowerDown b) s = .next s) ∧
      (s.honey.halfOf b = .on → exec (.halfPowerUp b) s = .next s) ∧
      (∀ pinned : Bool, pinned = ((s.halfKeys b).any fun k => (SMap.find s.honey.lines k).any fun x => x.pinned) →
        s.honey.halfOf b ≠ .off →
        (s.honey.halfOf (1 - b) = .off ∨ pinned = true ∨ s.halfBusy = true →
          exec (.halfPowerDown b) s = .next (s.fFlag F.HONEY_CTL_refused true)) ∧
        (s.honey.halfOf (1 - b) ≠ .off → pinned = false → s.halfBusy = false → ∀ u : State,
          u = ((s.setHalf b .flushWait).fFlag (halfCtl b) false).pguAsk 5 (.flush b) →
          exec (.halfPowerDown b) s =
            .next (((if u.hasLeave (.flush b) then u.setHalf b .flushing else u).showHalves).keep s))) ∧
      (s.honey.halfOf b ≠ .on →
        (s.honey.halfOf (1 - b) = .off ∨ s.halfBusy = true →
          exec (.halfPowerUp b) s = .next (s.fFlag F.HONEY_CTL_refused true)) ∧
        (s.honey.halfOf (1 - b) ≠ .off → s.halfBusy = false → ∀ u : State,
          u = ((s.setHalf b .rising).fFlag (halfCtl b) true).showHalves →
          exec (.halfPowerUp b) s =
            .next (({ u with pwr := { u.pwr with domains := u.pwr.domains ||| (1#20 <<< (4 + b.val)) } } : State).keep s))) ∧
      (s.honey.halfOf b = .flushing → ∀ u v : State,
        u = s.flushLines b →
        v = ((u.setHalf b .off).pguReturn (.flush b)).showHalves →
        exec (.halfPowerDownDone b) s = .next ((if u.halfKeys b = [] then
          { v with pwr := { v.pwr with domains := v.pwr.domains &&& ~~~(1#20 <<< (4 + b.val)) } } else u).keep s)) ∧
      (s.honey.halfOf b = .rising → exec (.halfPowerUpDone b) s = .next (((s.setHalf b .on).showHalves).keep s))) ∧
  (∀ s : State, s.up = true →
      (s.fB F.HONEY_CTL_enable = false → exec .cacheEnable s =
        .next (({ s with honey := { s.honey with lines := [] } } : State).fFlag F.HONEY_CTL_enable true)) ∧
      (s.fB F.HONEY_CTL_enable = true → (∀ e ∈ s.honey.lines, e.2.dirty = false ∧ e.2.pinned = false) →
        exec .cacheDisable s =
          .next (({ s with honey := { s.honey with lines := [] } } : State).fFlag F.HONEY_CTL_enable false)) ∧
      (s.fB F.HONEY_CTL_enable = true → (∃ e ∈ s.honey.lines, e.2.dirty = true ∨ e.2.pinned = true) →
        exec .cacheDisable s = .next (s.fFlag F.HONEY_CTL_refused true)))

/-- Page heat. A cell's buffered increment is folded into its counter, unless the counter's line is locked or the sweep has
still to reach the cell. An epoch's end folds the whole buffer and starts the sweep; while one runs the boundary waits and is
noted as late. The sweep's end follows the halving of every counter it had left; a boundary that waited is then taken. The
hot-list extractor. A start with a list of 1 to 4,096 records, a target that exists and a destination in Dome 0's cells begins
and asks for power leave; a list of none is done at once; anything else is refused. With leave, the extractor writes the
records of the hottest cells of its target, ties by ascending cell, and shows their number. A migration slot. Once a copy has
left few enough tracked lines, or no pass is left, the slot enters the mirror and the rest is copied; with more lines and
passes left it asks to copy again. When nothing is left to copy its command completes OK. A slot whose destination was lost
ends its command with REMOTE_UNREACHABLE. A mirror that lasts too long ends, is counted, and its cell is kept for the
MIGRATE_END that follows.
Where it uses what log entries 45, 46 fix, that is the model's choice where they say so. -/
def Obligations.HeatAndMigration : Prop :=
  (∀ s : State, s.up = true →
      (∀ c : Fin 536870912, s.honey.sweep = none →
        (s.locked (s.heatAddr c / 64) = false → exec (.heatFold c) s = .next ((s.heatFold c).keep s)) ∧
        (s.locked (s.heatAddr c / 64) = true → exec (.heatFold c) s = .next s)) ∧
      (∀ (c : Fin 536870912) (u : State), u = s.sweepOn →
        exec (.heatFold c) s = .next ((if u.foldable c then u.heatFold c else u).keep s)) ∧
      (s.fN F.HONEY_HEAT_EPOCH_length ≠ 0 →
        (s.honey.sweep.isSome = true → exec .heatEpochEnd s =
          .next (({ s with honey := { s.honey with lateEpoch := true, epochAt := s.pwr.rootTime } } : State).fFlag
            F.HONEY_HEAT_STATUS_late true)) ∧
        (s.honey.sweep = none → ∀ u : State, u = (s.honey.heat.map fun e => e.1).foldl
            (fun (t : State) c => if t.foldable c then t.heatFold c else t) s →
          exec .heatEpochEnd s =
            .next ((({ u with honey := { u.honey with sweep := some 0, epochAt := u.pwr.rootTime } } : State).fFlag
              F.HONEY_HEAT_STATUS_sweep_busy true).keep s))) ∧
      (∀ (u v : State), u = State.halveOn s.tenantCells s → v = ({ u with honey :=
          { u.honey with sweep := none, lateEpoch := false } } : State).fFlag F.HONEY_HEAT_STATUS_sweep_busy false →
        (∀ p, s.honey.sweep = some p → s.tenantCells ≤ p → u = s) ∧
        (∀ p, u.honey.sweep = some p → exec .heatSweepDone s = .next ((if p < u.tenantCells then u
          else if u.honey.lateEpoch then v.epochEnd else v).keep s)))) ∧
  (∀ s : State, s.up = true →
      (∀ (v w : Word) (u : State) (n dst kind target : Nat), w = (v ||| 0x40000000) → u = s.wrCodes R.HONEY_HOT_CTL w →
        n = F.HONEY_HOT_CTL_n.of w → kind = F.HONEY_HOT_CTL_target_kind.of w → target = F.HONEY_HOT_CTL_target.of w →
        dst = u.fN F.HONEY_HOT_DST_LO_addr_lo * 64 + u.fN F.HONEY_HOT_DST_HI_addr_hi * 2 ^ 32 →
        s.honey.hot = none →
        (n = 0 → exec (.hotListStart v) s =
          .next (((u.fFlag F.HONEY_HOT_STATUS_done true).fSet F.HONEY_HOT_STATUS_count 0).keep s)) ∧
        (n ≠ 0 → (4096 < n ∨ (kind = 1 ∧ 255 < target) ∨ u.dome0Range dst (8 * n) = false) →
          exec (.hotListStart v) s = .next ((u.fFlag F.HONEY_HOT_CTL_refused true).keep s)) ∧
        (n ≠ 0 → n ≤ 4096 → (kind = 1 → target ≤ 255) → u.dome0Range dst (8 * n) = true → ∀ x : State,
          x = (u.fFlag F.HONEY_HOT_CTL_busy true).fFlag F.HONEY_HOT_STATUS_done false →
          exec (.hotListStart v) s = .next ((({ x with honey := { x.honey with
            hot := some ⟨kind, target, n, x.fN F.HONEY_HOT_MIN_min_heat, dst, false⟩ } } : State).pguAsk 6 .hot).keep s))) ∧
      (∀ (j : HotJob), s.honey.hot = some j → s.hasLeave .hot = true →
        ∃ (u x : State) (cs top : List HotCell), State.hotCells j s.tenantCells s 0 = (u, cs) ∧
        top = (cs.mergeSort fun a b => decide (b.heat ≤ a.heat)).take j.n ∧
        x = State.putRecords (top.length + 1) u j.dst (top.map fun h => h.record) ∧
        exec .hotListDone s = .next ((((((({ x with honey := { x.honey with hot := none } } : State).pguReturn .hot).fFlag
          F.HONEY_HOT_CTL_busy false).fFlag F.HONEY_HOT_STATUS_done true).fSet F.HONEY_HOT_STATUS_count top.length)).keep s))) ∧
  (∀ (s : State) (k : Fin 16) (m : MigSlot), s.up = true → SMap.find s.honey.mig k.val = some m →
      (m.stage = .copied →
        (min 1024 (s.fN F.HONEY_MIG_CTL_final_lines) < trackedLines m → m.passes ≤ s.fN F.HONEY_MIG_CTL_max_passes →
          exec (.mirrorEntry k) s = .next (((s.putMig k { m with stage := .recopyWait }).migAsk k).keep s)) ∧
        (trackedLines m ≤ min 1024 (s.fN F.HONEY_MIG_CTL_final_lines) ∨ s.fN F.HONEY_MIG_CTL_max_passes < m.passes →
          exec (.mirrorEntry k) s =
            .next (((s.putMig k { m with stage := .mirror, mirrorAt := s.pwr.rootTime }).mirrorStep k).keep s))) ∧
      (m.stage = .mirror → 1024 ≤ m.at_ → m.tracker = 0 → s.migQuiet k = true →
        exec (.mirrorEntry k) s = .next ((s.migReply k m stOK).keep s)) ∧
      (m.stage = .lost → s.entryFree m.cell = true → m.cmd ≠ 20000 →
        exec (.mirrorEntry k) s = .next (((s.migReply k m stRemote).dropMig k m).keep s)) ∧
      (m.stage = .mirror → s.fN F.HONEY_MIG_CTL_mirror_timeout ≠ 0 → s.entryFree m.cell = true → ∀ u : State,
        u = ((s.migReply k m stTimeout).dropMig k m).bump F.HONEY_MIG_STATUS_timed_out → exec (.mirrorTimeout k) s =
          .next (({ u with honey := { u.honey with migAborted := u.honey.migAborted ++ [(m.cell, stTimeout)] } } : State).keep s)))

/-- Snoop agents. A slot is registered with a key no other enabled slot has and no sweep of its own running, and is then not
down; a slot whose array is empty is disabled; anything else is refused. SNOOP_CTL takes its timeout at once, and its enable
only while no array holds an entry. The sweep of a lost agent's slot empties its array, poisoning what its Domes' policies
say, unless one of its E/M lines is locked; an AGENT_DOWN that waits for it completes with its report written.
Where it uses what log entries 56, 57 fix, that is the model's choice where they say so. -/
def Obligations.SnoopAgents : Prop :=
  ∀ s : State, s.up = true →
    (∀ (v x : Word) (a : Nat) (u : State), a = s.fN F.SNOOP_AGENT_IDX_agent → x = v &&& agentMask →
      u = { s with home := { s.home with agents := SMap.store s.home.agents 0 a x } } →
      (x.getLsbD 31 = true → s.sweepBusy a = false →
        (∀ b < 32, b ≠ a → ¬ (s.agentOn b = true ∧ s.agentCfg b = x)) →
        exec (.agentRegister v) s = .next { u with home := { u.home with down := u.home.down.filter fun b => b != a } }) ∧
      (x.getLsbD 31 = false → s.agentEntries a = [] → exec (.agentRegister v) s = .next u) ∧
      (x.getLsbD 31 = false → s.agentEntries a ≠ [] →
        exec (.agentRegister v) s = .next (s.fFlag F.SNOOP_STATUS_refused true))) ∧
    (∀ (v : Word) (u : State), u = s.fSet F.SNOOP_CTL_bi_timeout (F.SNOOP_CTL_bi_timeout.of v) →
      (F.SNOOP_CTL_enable.on v = u.fB F.SNOOP_CTL_enable → exec (.snoopCtlWrite v) s = .next u) ∧
      (F.SNOOP_CTL_enable.on v ≠ u.fB F.SNOOP_CTL_enable → s.home.filter = [] →
        exec (.snoopCtlWrite v) s = .next (u.fFlag F.SNOOP_CTL_enable (F.SNOOP_CTL_enable.on v))) ∧
      (F.SNOOP_CTL_enable.on v ≠ u.fB F.SNOOP_CTL_enable → s.home.filter ≠ [] →
        exec (.snoopCtlWrite v) s = .next (u.fFlag F.SNOOP_STATUS_refused true))) ∧
    ∀ (w : DownSweep) (r : List DownSweep) (ls : List Lost), s.home.sweeps = w :: r → ls = s.lostLines w.slot →
      ((∃ l ∈ ls, s.locked l.line = true) → exec .agentDownSweepDone s = .next s) ∧
      ((∀ l ∈ ls, s.locked l.line = false) →
        (w.cmd = none → exec .agentDownSweepDone s = .next ((s.sweepArray w.slot ls).keep s)) ∧
        (∀ k c, w.cmd = some k → s.cmd k = some c → c.p 2 + c.p 3 ≤ pvaTop → ls = [] ∨ c.p 3 < 8 →
          exec .agentDownSweepDone s =
            .next (((s.sweepArray w.slot ls).replied k (if c.p 3 < 8 * ls.length then stPartial else stOK) ls.length).keep s)))

/-! ## Command queues -/

/-- Queue control fetches the packet at the head of the queue whose turn it is, as a Dome's own access under the queue's
origin. A turn goes on while packets of it are left and the queue may be fetched from; where no queue may be, the turn ends.
Once the home has answered the fetch, the head moves on: an unpoisoned packet starts in the lowest free context; a poisoned
one is consumed and completes with POISON; a refused read completes with the refusal's status. The mailbox and the enable of
queue control. MAILBOX_GO while it is not busy starts the packet in the packet registers as a command of Dome 0 in the
mailbox's own context, and is busy; while busy it changes nothing. Queue control is enabled once its descriptor table lies in
256 cells allocated to Dome 0, and otherwise refuses.
Where it uses what log entries 62, 71 fix, that is the model's choice where they say so. -/
def Obligations.QueueControl : Prop :=
  (∀ s : State, s.up = true → s.nextTurn = none →
      exec .packetFetch s = .next (({ s with q := { s.q with turn := none } } : State).keep s)) ∧
  (∀ (s w : State) (q left : Nat) (d : QDesc) (k line : Nat) (a : EngAns) (ctx : Ctx), s.up = true →
      s.nextTurn = some (q, left) ∨ (s.q.turn = some (q, left) ∧ left ≠ 0 ∧ s.canFetch q d = true) →
      SMap.find s.q.desc q = some d → SMap.firstFree s.q.cmds 16384 = some k →
      ctx = BitVec.ofNat 16 (d.dome * 16) → line = d.ringBase / 64 + d.head →
      s.engAns (.queue q) line false fullBe = some a →
      w = { s.takeAns (.queue q) line false fullBe with
              q := { s.q with desc := SMap.put s.q.desc q { d with head := (d.head + 1) % 2 ^ d.ringLog2 },
                              nextSeq := s.q.nextSeq + 1, turn := some (q, left), lastDome := d.dome,
                              lastQ := SMap.put s.q.lastQ d.dome q } } →
      (∀ l, a.res = .ok l → l.anyPoison = false → exec .packetFetch s = .next
        ((((w.startCmd k (newCmd (.queue q) d.dome s.q.nextSeq l.data w.pwr.refTime)).turnNow q (left - 1)).showInflight).keep
          s)) ∧
      (∀ l x, a.res = .ok l → l.anyPoison = true → x = w.consume ctx line → exec .packetFetch s = .next
        ((((x.endCmd k { newCmd (.queue q) d.dome s.q.nextSeq 0 x.pwr.refTime with noTag := true } stPoison 0).turnNow q
          (left - 1)).showInflight).keep s)) ∧
      (∀ e, a.res = .no e → exec .packetFetch s = .next
        ((((w.endCmd k { newCmd (.queue q) d.dome s.q.nextSeq 0 w.pwr.refTime with noTag := true } e.status 0).turnNow q
          (left - 1)).showInflight).keep s))) ∧
  (∀ s : State, s.up = true →
      (s.fB F.QCTL_MBX_CMD_busy = true → exec .mailboxGo s = .next s) ∧
      (s.fB F.QCTL_MBX_CMD_busy = false → ∀ u : State,
        u = ({ s with q := { s.q with nextSeq := s.q.nextSeq + 1 } } : State).fFlag F.QCTL_MBX_CMD_busy true →
        exec .mailboxGo s = .next (((u.startCmd 16384 (newCmd .mailbox 0 s.q.nextSeq s.mailboxPkt
          u.pwr.refTime)).showInflight).keep s)) ∧
      (s.fB F.QCTL_CTL_enable = false →
        ((∀ j < 256, s.descBase + j * 65536 < s.memTop ∧ s.dome0Cell (s.descBase + j * 65536) = true) →
          exec .qctlEnable s = .next (s.fFlag F.QCTL_CTL_enable true)) ∧
        (¬ (∀ j < 256, s.descBase + j * 65536 < s.memTop ∧ s.dome0Cell (s.descBase + j * 65536) = true) →
          exec .qctlEnable s = .next (s.fFlag F.QCTL_STATUS_refused true))))

/-- The first rules of admission: an opcode that is not defined, a packet with a reserved bit set or a field out of range,
an opcode of Dome 0 alone, and a control command for another Dome's subject are each stopped with their status, in this
order. Starting a packet. Admission stops it with a status, or it waits at a fence, or it goes to its engine; a fenced
command goes on once no earlier command of its queue is left.
Where it uses what log entries 61, 62, 71 fix, that is the model's choice where they say so. -/
def Obligations.Admission : Prop :=
  (∀ (s : State) (c : Cmd),
      (opMasks c.opcode = none → s.admission c = some stOpcode) ∧
      ∀ m, opMasks c.opcode = some m →
        (c.formatBad m = true → s.admission c = some stFormat) ∧
        (c.formatBad m = false →
          (opZ c.opcode = true → c.dome ≠ 0 → s.admission c = some stDenied) ∧
          (isControl c.opcode = true → c.pb 0 0 12 ≠ 0 → c.dome ≠ 0 → s.admission c = some stDenied) ∧
          (opZ c.opcode = false ∨ c.dome = 0 → isControl c.opcode = false ∨ c.pb 0 0 12 = 0 ∨ c.dome = 0 →
            (c.zeroCount = true → s.admission c = some stOK) ∧
            (c.zeroCount = false → s.rangeExceeds c = true → s.admission c = some stLength) ∧
            (c.zeroCount = false → s.rangeExceeds c = false → s.admission c = none)))) ∧
  (∀ (s : State) (k : Nat) (c : Cmd),
      (∀ st, s.admission c = some st → s.startCmd k c = s.endCmd k c st 0) ∧
      (s.admission c = none → c.fence = true → s.startCmd k c = s.putCmd k { c with st := .fence }) ∧
      (s.admission c = none → c.fence = false → s.startCmd k c = s.dispatch k c) ∧
      ∀ f : Fin 16384, f.val = k → s.up = true → s.cmd k = some c → c.st = .fence → s.heldBack c = false →
        ((∀ e ∈ s.q.cmds, e.2.src = c.src → c.seq ≤ e.2.seq) →
          exec (.fenceRelease f) s = .next ((s.dispatch k c).keep s)) ∧
        ((∃ e ∈ s.q.cmds, e.2.src = c.src ∧ e.2.seq < c.seq) → exec (.fenceRelease f) s = .next s))

/-- A command whose status is known completes, once no access made for it is left. Without a queue, its reply goes to where it
came from. With a queue: where the queue has a completion ring and the command is not quiet, it takes the ring's tail, which
moves on, and writes its reply there with the phase bit; once that is written, or at once where there is no reply to write, the
count word, the interrupt and the halt follow, and the context is free. Without a count word an interrupt is raised where
asked, and the queue halts where asked after a failure.
Where it uses what log entries 58, 60, 94 fix, that is the model's choice where they say so. -/
def Obligations.CommandCompletes : Prop :=
  (∀ (s : State) (k : Fin 16385) (c : Cmd), s.up = true → s.cmd k = some c → c.st = .done → s.busyFor k = false →
    (c.ofQueue = none → exec (.commandComplete k) s = .next (((s.mailboxReply c).dropCmd k c).keep s)) ∧
    ∀ (q : Nat) (d : QDesc), c.src = .queue q → SMap.find s.q.desc q = some d →
      (c.pos = 2 → exec (.commandComplete k) s = .next ((s.countStep k c q d).keep s)) ∧
      (c.pos ≠ 2 → d.mode % 2 = 0 ∨ (c.status = stOK ∧ c.quiet = true) → exec (.commandComplete k) s =
        .next (((s.putCmd k { c with pos := 2 }).countStep k { c with pos := 2 } q d).keep s)) ∧
      (d.mode % 2 = 1 → c.status ≠ stOK ∨ c.quiet = false → ∀ (x : QDesc) (e : EngWr) (u : State) (v : Cmd),
        (c.pos = 0 → x = { d with ctail := (d.ctail + 1) % 2 ^ d.cringLog2,
                                  phase := if (d.ctail + 1) % 2 ^ d.cringLog2 = 0 then !d.phase else d.phase } ∧
          v = { c with pos := 1, aux := 2 * d.ctail + (if d.phase then 1 else 0) } ∧
          u = ({ s with q := { s.q with desc := SMap.put s.q.desc q x } } : State).putCmd k v) →
        (c.pos = 1 → v = c ∧ u = s) → c.pos ≤ 1 →
        e = qWrite (BitVec.ofNat 16 (d.dome * 16)) (d.cringBase + 16 * (v.aux / 2)) 16
          (replyBits c.tag d.head c.status (v.aux % 2) c.result) →
        (∀ a, s.engAns (.comp q k) e.line true e.be = some a → exec (.commandComplete k) s =
          .next (((u.putCmd k { v with pos := 2 }).countStep k { v with pos := 2 } q d).keep s)) ∧
        (s.engAns (.comp q k) e.line true e.be = none →
          exec (.commandComplete k) s = .next ((u.engEnter (e.tx (.comp q k) 0)).keep s)))) ∧
  (∀ (s u v : State) (k q : Nat) (c : Cmd) (d x : QDesc), d.mode < 2 →
    u = (if c.irq && d.irqEn then s.vecRaise d.dome d.vector else s) → SMap.find u.q.desc q = some x →
    v = (if c.halt = true ∧ c.status ≠ stOK ∧ x.state = .active then u.haltQueue q x else u) →
    s.countStep k c q d = v.dropCmd k c)
/-! ## Control commands -/

/-- The subject of a control command. Except for the commands that name their own rule, a subject that is FREE gives
ACCESS_DENIED and one in TEARDOWN gives DOME_TEARDOWN before anything else is done. -/
def Obligations.SubjectCheck : Prop :=
  ∀ (s : State) (k : Fin 16385) (c : Cmd) (a : QAns) (x y : Bool), s.up = true →
    ∀ e ∈ [(Instr.nop k, 0x00), (.queueDestroy k, 0x02), (.queueResume k, 0x03), (.doorbellSet k, 0x04), (.shareJoin k, 0x0A),
        (.shareLeave k, 0x0B), (.cellAlloc k a, 0x10), (.cellFree k, 0x11), (.shareMove k a, 0x12), (.pin k, 0x14),
        (.unpin k, 0x15), (.migrate k a x y, 0x18), (.migrateEnd k, 0x19), (.combInval k, 0x1C), (.agentDown k, 0x20),
        (.handleCreate k, 0x28), (.handleDestroy k, 0x29)],
      s.FwHolds k e.2 c → c.st = .queued →
      (s.domeSt c.subject = .free →
        exec e.1 s = .next (((s.putCmd k { c with st := .running }).fwReply k stDenied 0).keep s)) ∧
      (s.domeSt c.subject = .teardown →
        exec e.1 s = .next (((s.putCmd k { c with st := .running }).fwReply k stTeardown 0).keep s))

/-- Queues, as firmware works on them for an ACTIVE subject. NOP completes. A queue is created from the 64-byte image its
command names, where the image is in order, the number is free and the rings lie below the metadata. A queue destroyed is
frozen at once and, with no command of it in flight, gone, with the number of packets never fetched; while one is in flight
the command waits. A halted queue resumes; an active one stays as it is; a frozen one gives RESOURCE_BUSY. A doorbell page
is set in a cell of the subject's own. Domes and share groups. DOME_CREATE of a Dome other than 0 that is not in use, with
the queen's answer, makes it ACTIVE. SHARE_JOIN as anchor makes a new group; joining as a member adds the subject.
SHARE_LEAVE takes a member out, and ends the group when its anchor leaves and it owns no cell. A change completes once the
home has served what it had accepted.
Where it uses what log entries 59, 60, 61, 65, 68, 110 fix, that is the model's choice where they say so. -/
def Obligations.QueueAndDomeCommands : Prop :=
  (∀ (s u : State) (k : Fin 16385) (c r : Cmd) (op : Nat), s.up = true → s.FwHolds k op c → s.domeSt c.subject = .active →
      r = { c with st := .running } → u = s.putCmd k r → ∀ q, q = c.pb 1 0 18 →
      (op = 0x00 → exec (.nop k) s = .next ((u.replied k stOK 0).keep s)) ∧
      (op = 0x01 → ∀ (w : State) (v : Nat) (d : QDesc), (u.fwReadLine (.fw k) c.ctx (c.p 2) v ∧ w = u) ∨
        State.fwGet (.fw k) c.ctx 3 u (c.p 2) 64 = (w, .ok v) → d = descOf v →
        imageBad v c.subject = false → w.domeSt c.subject = .active → SMap.find w.q.desc q = none →
        d.ringBase + 64 * 2 ^ d.ringLog2 ≤ w.hiveBase →
        (d.mode % 2 = 1 → d.cringBase + 16 * 2 ^ d.cringLog2 ≤ w.hiveBase) → (2 ≤ d.mode → d.countAddr + 8 ≤ w.hiveBase) →
        exec (.queueCreate k) s =
          .next (((w.setDesc q d).replied k stOK 0).keep s)) ∧
      (op = 0x02 → ∀ (d : QDesc) (w : State) (n : Nat), c.aux = 0 → c.src ≠ .queue q → SMap.find s.q.desc q = some d →
        d.dome = c.subject → n = (d.tail + 2 ^ d.ringLog2 - d.head) % 2 ^ d.ringLog2 →
        w = (u.setDesc q { d with state := .frozen }).dropOrigin (.queue q) →
        (w.inflight q = 0 → exec (.queueDestroy k) s =
          .next (((w.freeDesc q).replied k stOK n).keep s)) ∧
        (w.inflight q ≠ 0 → exec (.queueDestroy k) s =
          .next (((w.putCmd k { r with aux := 1, pos := n }).blocked k).keep s))) ∧
      (op = 0x03 → ∀ d : QDesc, SMap.find s.q.desc q = some d → d.dome = c.subject →
        (d.state = .halted → exec (.queueResume k) s =
          .next (((u.setDesc q { d with state := .active }).replied k stOK 0).keep s)) ∧
        (d.state = .active → exec (.queueResume k) s = .next ((u.replied k stOK 0).keep s)) ∧
        (d.state = .frozen → exec (.queueResume k) s = .next ((u.replied k stBusy 0).keep s))) ∧
      (op = 0x04 → ∀ (dpa : Nat) (w : State) (e : Word), dpa = c.pb 1 0 45 → u.area dpa = .tenant →
        u.cellShown (dpa / 65536) e ∨ (u.fwEntry (dpa / 65536)).2 = .inl e → w = (u.fwEntry (dpa / 65536)).1 →
        (ownedBy e c.subject = true → exec (.doorbellSet k) s = .next ((({ w with domes := { w.domes with
          pages := SMap.put w.domes.pages c.subject dpa } } : State).replied k stOK 0).keep s)) ∧
        (ownedBy e c.subject = false → exec (.doorbellSet k) s = .next ((w.replied k stDenied 0).keep s)))) ∧
  (∀ (s u : State) (k : Fin 16385) (c r : Cmd) (op : Nat), s.up = true → s.FwHolds k op c →
      r = { c with st := .running } → u = s.putCmd k r → c.subject ≠ 0 →
      (op = 0x08 → ∀ (a : QAns) (w : State), u.queenAgrees a = true →
        (u.fB F.RYP_FAB_STATUS_is_queen = true → SMap.findD s.fab.registry c.subject .free = .free) → w = (u.queenAsk a).1 →
        exec (.domeCreate k a) s = .next (((w.setDome c.subject .active).replied k stOK 0).keep s)) ∧
      (s.domeSt c.subject = .active → s.home.txs = [] → s.copying = false → c.pos = 0 → ∀ g, g = c.pb 1 0 8 →
        (op = 0x0A →
          (bit (c.p 1) 8 = true → SMap.find s.domes.groups g = none → exec (.shareJoin k) s =
            .next (((u.setGroup g (some ⟨c.subject, [c.subject]⟩)).replied k stOK 0).keep s)) ∧
          (∀ gr : Group, bit (c.p 1) 8 = false → SMap.find s.domes.groups g = some gr → gr.anchor ≠ c.subject →
            c.subject ∉ gr.members → exec (.shareJoin k) s =
              .next (((u.setGroup g (some { gr with members := gr.members ++ [c.subject] })).replied k stOK 0).keep s))) ∧
        (op = 0x0B → ∀ gr : Group, SMap.find s.domes.groups g = some gr → c.subject ∈ gr.members →
          (gr.anchor ≠ c.subject → exec (.shareLeave k) s = .next (((u.setGroup g (some
            { gr with members := gr.members.filter fun x => x != c.subject })).replied k stOK 0).keep s)) ∧
          (gr.anchor = c.subject → u.groupOwns g = true →
            exec (.shareLeave k) s = .next ((u.replied k stBusy 0).keep s)) ∧
          (gr.anchor = c.subject → u.groupOwns g = false →
            exec (.shareLeave k) s = .next (((u.setGroup g none).replied k stOK 0).keep s)))))

/-- Cells. CELL_ALLOC takes the lowest-numbered cells that meet it, or those it chose before, and once their list is written
drops what is cached under them, clears their valid bits, enters them under the Dome's CURRENT generation and counts them.
CELL_FREE releases cells that are the subject's or its groups', none of them a doorbell page or migrating. SHARE_MOVE moves
cells between the subject and a group it anchors. Each changes an entry whose line nothing holds, and completes once the home
has served what it had accepted. Pins and migration. PIN of a cell the subject reaches, with nothing in its way, pins the
cached lines of the cell in place, and once every line is pinned marks the cell; UNPIN of a pinned cell unmarks it and its
lines. MIGRATE of such a cell to an allocated cell of the same owner at this node takes a free slot, and its command waits.
MIGRATE_END ends a mirror whose command has its reply; of a slot that is not there yet it gives RESOURCE_BUSY; of a cell whose
slot ended by itself, the status of that.
Where it uses what log entries 42, 49, 51, 65 fix, that is the model's choice where they say so. -/
def Obligations.CellCommands : Prop :=
  (∀ (s u : State) (k : Fin 16385) (c r : Cmd) (op : Nat), s.up = true → s.FwHolds k op c → s.domeSt c.subject = .active →
      r = { c with st := .running } → u = s.putCmd k r →
      (op = 0x10 → ∀ (a : QAns) (w x y : State) (g : Nat) (cells : List Nat), bit (c.p 2) 5 = false → c.pos = 0 ∨ c.pos = 2 →
        (c.pos = 0 → u.queenAgrees a = true) → w = (if c.pos = 0 then (u.queenAsk a).1 else u) →
        w.currentGen c.subject = some g →
        c.part.head? = some cells ∨ (c.part = [] ∧ w.chooseCells (c.p 1) (c.p 2) = some cells) →
        x = w.putCmd k { r with pos := 2, part := [cells] } →
        (∀ z ∈ cells, ∃ e, x.cellShown z e) → (∀ z ∈ cells, x.entryOpen z) →
        x.fwWroteLine (.fw k) c.ctx (c.p 3) (4 * cells.length) (cells.zipIdx.foldl (fun a z => a + z.1 * 2 ^ (32 * z.2)) 0) →
        y = (x.looked cells).takeCells c.subject g cells → y.home.txs = [] →
        exec (.cellAlloc k a) s = .next ((y.replied k stOK cells.length).keep s)) ∧
      (c.pos = 0 → ∀ cells : List Nat, cells = (List.range (c.p 2)).map (fun i => c.p 1 + i) →
        (∀ z ∈ cells, u.entryOpen z) →
        (op = 0x11 → ∀ v : State,
          (∀ z ∈ cells, ∃ e, u.cellShown z e ∧ (ownedBy e c.subject = true ∨ u.anchorOf e c.subject = true) ∧
            u.pageCell z = false ∧ ceMigrating e = false) →
          (∀ z ∈ cells, ∀ y ∈ s.sec.sweeps, y.cell ≠ z) →
          v = cells.foldl (fun (t : State) z => match t.cellEntry z with | some e => t.releaseCell z e | none => t)
            (u.looked cells) → v.home.txs = [] →
          exec (.cellFree k) s = .next ((v.replied k stOK 0).keep s)) ∧
        (op = 0x12 → ∀ (a : QAns) (w v : State) (g own : Nat) (out : Bool) (gr : Group),
          g = c.pb 3 0 8 → out = bit (c.p 3) 8 → u.queenAgrees a = true →
          w = (u.queenAsk a).1.putCmd k { r with pos := 2 } → SMap.find w.domes.groups g = some gr → gr.anchor = c.subject →
          (∀ z ∈ cells, w.entryOpen z) →
          (∀ z ∈ cells, ∃ e, w.cellShown z e ∧ w.pageCell z = false ∧
            (if out = true then ceAllocated e = true ∧ ceGroup e = true ∧ ceOwner e % 256 = g else ownedBy e c.subject = true)) →
          own = (if out then c.subject else g + 2 ^ 12) →
          v = cells.foldl (fun (t : State) z => match t.cellEntry z with
            | some e => t.putEntry z (BitVec.ofNat 32 (setBits e.toNat 0 13 own))
            | none => t) (w.looked cells) → v.home.txs = [] →
          exec (.shareMove k a) s = .next ((v.replied k stOK 0).keep s)))) ∧
  (∀ (s u : State) (k : Fin 16385) (c r : Cmd) (op : Nat), s.up = true → s.FwHolds k op c → s.domeSt c.subject = .active →
      c.pos = 0 → r = { c with st := .running } → u = s.putCmd k r →
      (∀ (w : State) (e : Word), u.cellShown (c.p 1) e → w = (u.fwEntry (c.p 1)).1 → w.reaches e c.subject = true →
        w.entryOpen (c.p 1) →
        (op = 0x14 → u.behind k r [0x14] = false → cePinned e = false → w.pinBusy (c.p 1) c.subject e = false →
          w.keyLive (c.p 1 * 1024) e = true → w.cellChans (c.p 1) = none →
          (∀ line ∈ cellLines (c.p 1), ∃ n x, w.honey.lookup line = some (n, x) ∧
            (x.pinned = true ∨ (w.locked line = false ∧ bit (w.wayMask c.subject) (n % 16) = true))) →
          ∀ (x y : State) (pins : List (Nat × Nat)), x = (State.pinLines k c.subject (cellLines (c.p 1)) w).1 →
          pins = x.honey.pins ++ [(c.p 1, c.subject)] →
          y = ({ x with honey := { x.honey with pins := pins } } : State).fSet F.HONEY_PIN_CTL_pinned_cells pins.length →
          exec (.pin k) s = .next (((y.putEntry (c.p 1) (e ||| 0x10000)).replied k stOK 0).keep s)) ∧
        (op = 0x15 → cePinned e = true → ∀ (x : State) (pins : List (Nat × Nat)),
          x = (w.putEntry (c.p 1) (e &&& ~~~0x10000)).unpinLines (c.p 1) →
          pins = x.honey.pins.filter (fun p => p.1 != c.p 1) →
          exec (.unpin k) s = .next (((({ x with honey := { x.honey with pins := pins } } : State).fSet
            F.HONEY_PIN_CTL_pinned_cells pins.length).replied k stOK 0).keep s)) ∧
        (op = 0x18 → ∀ (a : QAns) (dstOk reach : Bool) (v x y : State) (z : Word) (slot : Nat), c.p 1 < u.tenantCells →
          c.pb 2 45 6 = w.pwr.node → c.pb 2 16 29 < w.tenantCells → v = w.putCmd k { r with pos := 2 } →
          v.cellShown (c.pb 2 16 29) z → x = (v.fwEntry (c.pb 2 16 29)).1 →
          ceAllocated z = true → ceGroup z = ceGroup e → ceOwner z = ceOwner e → SMap.firstFree x.honey.mig 16 = some slot →
          cePinned e = false → ceMigrating e = false → x.pageCell (c.p 1) = false → x.pageCell (c.pb 2 16 29) = false →
          y = ((x.putEntry (c.p 1) (e ||| 0x20000)).clearAns (.fw k)).dropOrigin (.fw k) →
          exec (.migrate k a dstOk reach) s = .next ((((((y.putMig slot
            ⟨c.p 1, c.pb 2 45 6, c.pb 2 16 29, y.keyDome e, k, .copyWait, 0, 0, 0, 0⟩).putCmd k { r with pos := 1 }).migAsk
              slot).blocked k)).keep s))) ∧
      (op = 0x19 →
        (∀ (n : Nat) (m : MigSlot), u.slotOf (c.p 1) = some (n, m) →
          (m.stage = .mirror → m.cmd = 20000 → u.entryOpen (c.p 1) →
            exec (.migrateEnd k) s = .next (((u.dropMig n m).replied k stOK 0).keep s)) ∧
          (m.stage ≠ .mirror ∨ m.cmd ≠ 20000 → exec (.migrateEnd k) s = .next ((u.replied k stBusy 0).keep s))) ∧
        (u.slotOf (c.p 1) = none →
          (∀ x, (u.honey.migAborted.find? fun x => x.1 == c.p 1) = some x → exec (.migrateEnd k) s =
            .next ((({ u with honey := { u.honey with migAborted := u.honey.migAborted.filter fun y => y.1 != c.p 1 } } :
              State).replied k x.2 0).keep s)) ∧
          ((∀ x ∈ u.honey.migAborted, x.1 ≠ c.p 1) → exec (.migrateEnd k) s = .next ((u.replied k stFormat 0).keep s)))))

/-- Comb maintenance, the loss of an agent, REKEY and handles. COMB_INVAL and COMB_ROOT_SET, the latter once its entry is
written, start an invalidation and wait; its end, once no beat under the old generation is left, completes them. AGENT_DOWN
marks the slot down, completes its outstanding snoops by policy and leaves the sweep to follow. A REKEY with a STAGED key
makes it CURRENT and the other DRAINING, and starts its sweeps. A handle is made in the lowest free entry and ended by raising
the entry's generation; the end completes once no packet that was resolved under it is left. -/
def Obligations.MaintenanceCommands : Prop :=
  ∀ (s u : State) (k : Fin 16385) (c r : Cmd) (op : Nat), s.up = true → s.FwHolds k op c → s.domeSt c.subject = .active →
    r = { c with st := .running } → u = s.putCmd k r →
    (c.pos = 0 →
    (op = 0x1C → s.comb.inval = none → exec (.combInval k) s = .next ((((u.putCmd k { r with pos := 1 }).fwInval 0
      (BitVec.ofNat 16 (c.subject * 16 + c.asp)) (c.p 1 / 65536) ((c.p 1 + c.p 2 - 1) / 65536 - c.p 1 / 65536 + 1)
      (some k.val)).blocked k).keep s)) ∧
    (op = 0x1D → u.fB F.COMB_CTL_enable = true → ∀ (ctx : Ctx) (root : Nat) (e : EngWr),
      ctx = BitVec.ofNat 16 (c.subject * 16 + c.pb 1 0 4) → root = c.pb 2 0 45 →
      e = fwWr 0 (u.rootDir + 8 * ctx.toNat) 8 (if root = 0 then 0 else root + 1) → u.owinFor 0 e.line = none →
      u.gotWrite (.fw k) e → u.comb.inval = none →
      exec (.combRootSet k) s =
        .next ((((u.putCmd k { r with pos := 2 }).fwInval 1 ctx 0 0 (some k.val)).blocked k).keep s)) ∧
    (op = 0x20 → ∀ (a : Nat) (w : State), a = c.pb 1 0 5 →
      w = ({ u with home := { u.home with down := if u.agentDown a then u.home.down else u.home.down ++ [a],
                                          sweeps := u.home.sweeps ++ [⟨a, some k.val⟩] } } : State).putCmd k { r with pos := 1 } →
      exec (.agentDown k) s = .next (((w.downSnoops a).blocked k).keep s)) ∧
    (op = 0x24 → ∀ (d g : Nat) (w x : State) (slots : SMap KeySlot), d = c.subject → d ≠ 0 →
      (c.p 2 = 0 ∨ c.p 1 + c.p 2 ≤ u.tenantCells) → (([0, 1] : List Nat).find? fun g => (u.keySlot d g).st == .staged) = some g →
      (∀ y ∈ u.sec.rekeyRun, y.1 ≠ d) → slots = SMap.put (SMap.put u.sec.slots (d * 2 + g)
        { u.keySlot d g with st := .current }) (d * 2 + (1 - g)) { u.keySlot d (1 - g) with st := .draining } →
      w = { u with sec := { u.sec with slots := slots } } → w.rekeyCells d 0 0 ≠ [] →
      x = (({ w with sec := { w.sec with old := SMap.store w.sec.old 0 d (w.rekeyCells d 0 0).length,
                                         rekeyRun := w.sec.rekeyRun ++ [(d, k.val)] } } : State).putCmd k { r with pos := 1 }) →
      x.rekeyCells d (c.p 1) (c.p 2) ≠ [] →
      exec (.rekey k) s = .next (((x.startSweeps k d (x.rekeyCells d (c.p 1) (c.p 2))).blocked k).keep s)) ∧
    (op = 0x28 → ∀ (w : State) (e : Word) (cells : List Nat) (i old v : Nat),
      cells = c.p 1 :: (List.range (c.p 2)).map (fun i => c.p 1 + i) → w = u.looked cells → u.behind k r [0x28, 0x29] = false →
      u.cellShown (c.p 1) e → w.reaches e c.subject = true →
      (∀ z ∈ cells, ∃ f, u.cellShown z f ∧ ceAllocated f = true ∧ ceGroup f = ceGroup e ∧ ceOwner f = ceOwner e) →
      u.fB F.RYP_HANDLE_CTL_enable = true → 1 ≤ i → i ≤ 65535 →
      (∀ j, 1 ≤ j → j < i → ∃ f, u.handleShown (.fw k) j f ∧ heValid f = true) →
      u.handleShown (.fw k) i old → heValid old = false →
      v = 1 + c.pb 3 0 2 * 2 + (if ceGroup e then 8 + (ceOwner e % 256) * 2 ^ 16 else 0) + c.subject * 16 + heGen old * 2 ^ 32 +
        c.p 1 * 2 ^ 64 + c.p 2 * 2 ^ 96 →
      u.owinFor 0 ((u.handleBase + 16 * i) / 64) = none → u.gotWrite (.fw k) (fwWr 0 (u.handleBase + 16 * i) 16 v) →
      exec (.handleCreate k) s = .next ((w.replied k stOK (heGen old * 65536 + i)).keep s)) ∧
    (op = 0x29 → ∀ (w : State) (h e : Nat), h = c.pb 1 0 32 → h % 65536 ≠ 0 → u.fB F.RYP_HANDLE_CTL_enable = true →
      u.behind k r [0x28, 0x29] = false →
      u.handleShown (.fw k) (h % 65536) e → heValid e = true → heGen e = h / 65536 → heDome e = c.subject →
      u.owinFor 0 ((u.handleBase + 16 * (h % 65536)) / 64) = none →
      u.gotWrite (.fw k) (fwWr 0 (u.handleBase + 16 * (h % 65536)) 16 (setBits (e - e % 2) 32 16 (heGen e + 1))) →
      w = u.forgetHandle (h % 65536) →
      (w.handleOpen h = false → exec (.handleDestroy k) s = .next ((w.replied k stOK 0).keep s)) ∧
      (w.handleOpen h = true →
        exec (.handleDestroy k) s = .next (((w.putCmd k { r with pos := 1 }).blocked k).keep s)))) ∧
    (c.pos = 1 → op = 0x29 → u.handleOpen (c.pb 1 0 32) = false →
      exec (.handleDestroy k) s = .next ((u.replied k stOK 0).keep s)) ∧
    ∀ v : Inval, s.comb.inval = some v → s.oldBeats v.gen = false → ∀ x,
      x = ({ s with comb := { s.comb with inval := none } } : State).fFlag F.COMB_INV_CMD_busy false →
      (v.cmd = none → exec .combInvDone s = .next (x.keep s)) ∧
      (∀ j, v.cmd = some j → exec .combInvDone s = .next ((x.replied j stOK 0).keep s))

/-! ## Data movers -/

/-- MOVE, FILL and MOVE_STRIDED work unit by unit, each unit the part of one destination line. A unit of a copy reads its
bytes and then writes them, poison with them. FILL gives the byte at address a byte a mod 8 of the pattern. MOVE_STRIDED
copies element i from source + i x P4 to destination + i x P5. With the bytes of a unit read and its line written, the unit
is done; with the last the command ends OK with the bytes done. A failed access ends it with its status and the bytes done
before; an access that waits leaves it to be taken up again. The end makes free what the manual calls undefined in the
destination, and nothing where that is nothing. ATOMIC_ADD64 adds to its word under the line's lock and its result is the old
value. GET, PUT and PING at the requester. GET and PUT of a Dome without handle mode end with ACCESS_DENIED. Otherwise a GET
opens one message for each 64 KiB of the handle's offsets and asks for its bytes with one H_RD; a PUT reads its bytes and
sends them in H_WR packets of at most 4 KiB; both then wait for what comes back. PING of this node is OK at once; of another
it is a PING packet.
Where it uses what log entries 11, 63 fix, that is the model's choice where they say so. -/
def Obligations.MoverCommands : Prop :=
  (∀ (s u : State) (k : Fin 16385) (c : Cmd) (n : Nat) (e : Eng), s.up = true → e = moverOf n k →
      u = s.putCmd k { c with st := .running } →
      (∀ i ∈ [(Instr.move k, 0x40, c.p 2, State.moveWork c k), (.fill k, 0x41, c.p 1, State.fillWork c k),
          (.moveStrided k, 0x42, c.p 2 * c.p 3, State.stridedWork c k)], s.MoverRuns k i.2.1 c n →
        ∀ (t : State) (r : Prog), i.2.2.2 e u = (t, r) →
          (r = .go → i.2.2.1 ≤ t.cmdPos k → exec i.1 s = .next ((t.finishRun k stOK (t.cmdPos k)).keep s)) ∧
          (r = .go → t.cmdPos k < i.2.2.1 → exec i.1 s = .next ((t.unitEnd k e).keep s)) ∧
          (r = .wait → exec i.1 s = .next ((t.markCmd k .blocked).keep s)) ∧
          (∀ st, r = .stop st → exec i.1 s = .next ((t.finishRun k st (t.cmdPos k)).keep s))) ∧
      (∀ i ∈ [(Instr.move k, 0x40, c.p 2, c.p 0 + c.pos, c.p 1 + c.pos, c.p 2 - c.pos),
          (.moveStrided k, 0x42, c.p 2 * c.p 3, c.p 0 + c.pos / c.p 2 * c.p 4 + c.pos % c.p 2,
            c.p 1 + c.pos / c.p 2 * c.p 5 + c.pos % c.p 2, c.p 2 - c.pos % c.p 2)],
        s.MoverRuns k i.2.1 c n → ∀ (j v : Nat) (w : State), j = min i.2.2.2.2.2 (64 - i.2.2.2.2.1 % 64) →
          u.BytesRead k c e i.2.2.2.1 j v →
          u.beatWrote k c e i.2.2.2.2.1 ⟨BitVec.ofNat 512 (v % 2 ^ (8 * j) * 2 ^ (8 * (i.2.2.2.2.1 % 64))), 0⟩
            (rangeBe (i.2.2.2.2.1 % 64) j) →
          w = u.putCmd k { c with st := .running, pos := c.pos + j } →
          (i.2.2.1 ≤ c.pos + j → exec i.1 s = .next ((w.finishRun k stOK (c.pos + j)).keep s)) ∧
          (c.pos + j < i.2.2.1 → exec i.1 s = .next ((w.unitEnd k e).keep s))) ∧
      (s.MoverRuns k 0x41 c n → ∀ (a j v : Nat) (w : State), a = c.p 0 + c.pos → j = min (c.p 1 - c.pos) (64 - a % 64) →
        v < 2 ^ (8 * j) → (∀ i < j, bits v (8 * i) 8 = bits (c.p 2) (8 * ((a + i) % 8)) 8) →
        u.beatWrote k c e a ⟨BitVec.ofNat 512 (v * 2 ^ (8 * (a % 64))), 0⟩ (rangeBe (a % 64) j) →
        w = u.putCmd k { c with st := .running, pos := c.pos + j } →
        (c.p 1 ≤ c.pos + j → exec (.fill k) s = .next ((w.finishRun k stOK (c.pos + j)).keep s)) ∧
        (c.pos + j < c.p 1 → exec (.fill k) s = .next ((w.unitEnd k e).keep s))) ∧
      (∀ (d v : State) (x : Cmd) (st r : Nat), d.cmd k = some x → v = d.unitEnd k (x.unit k) →
        v.doubt x st = [] → d.finishRun k st r = v.stopCmd k st r) ∧
      (s.MoverRuns k 0x48 c n → ∀ (line : Nat) (l : Line), u.ownLine k (c.p 0) true = some line →
        u.owinFor c.ctx line = none → l.badWord (c.p 0 % 64) = false →
        ((u.engAns e.o line true fullBe).map EngAns.res = some (.ok l) → exec (.atomicAdd64 k) s = .next (((u.unitEnd k e).stopCmd k
          stOK (l.slot8 (c.p 0 % 64 / 8)).toNat).keep s)) ∧
        (u.engAns e.o line true fullBe = none → ∀ (t : Tx) (x : State), u.engTx e.o line true fullBe = some t →
          t.stage = .engine → t.got = some (.ok l) → x = u.engFinish e.o line (l.setSlot8 (c.p 0 % 64 / 8)
            (BitVec.ofNat 64 (((l.slot8 (c.p 0 % 64 / 8)).toNat + c.p 1) % 2 ^ 64))) → x.cmd k = u.cmd k →
          ((x.engAns e.o line true fullBe).map EngAns.res = some (.ok l) → exec (.atomicAdd64 k) s =
            .next (((x.unitEnd k e).stopCmd k stOK (l.slot8 (c.p 0 % 64 / 8)).toNat).keep s))))) ∧
  (∀ (s u : State) (k : Fin 16385) (c : Cmd) (n : Nat) (e : Eng), s.up = true → e = moverOf n k →
      u = s.putCmd k { c with st := .running } →
      (∀ i ∈ [(Instr.get k, 0xC0), (.put k, 0xC1)], s.MoverRuns k i.2 c n → bit (s.domeMode c.dome).toNat 0 = false →
        exec i.1 s = .next ((s.endCmd k c stDenied 0).keep s)) ∧
      (bit (s.domeMode c.dome).toNat 0 = true → ∀ (m off len : Nat), c.pos < c.p 3 → c.aux ≠ 1 → off = c.p 1 + c.pos →
        s.freeMsg = some m →
        (s.MoverRuns k 0xC0 c n → len = min (c.p 3 - c.pos) (65536 - off % 65536) → exec (.get k) s =
          .next (((((((u.openMsg m k c .get c.pos len).putCmd k { c with st := .running, pos := c.pos + len }).originate
            (Pkt.bare c.rNode s.pwr.node kHRd c.ctx m off len (BitVec.ofNat 32 c.rHandle) 0) 4).unitEnd k e).markCmd k
              .blocked).fabEnd k).keep s)) ∧
        (s.MoverRuns k 0xC1 c n → len = min (c.p 3 - c.pos) (4096 - off % 4096) → c.pos = 0 →
          (s.fab.msgs.find? fun y => y.2.cmd == k.val && y.2.kind == .put && y.2.base == 0) = none →
          ∀ v, u.BytesRead k c e (c.p 2) len v → exec (.put k) s =
          .next ((((((((u.openMsg m k c .put 0 (min (c.p 3) (65536 - c.p 1 % 65536))).putCmd k
            { c with st := .running, pos := len }).originate
            { Pkt.bare c.rNode s.pwr.node kHWr c.ctx m off len (BitVec.ofNat 32 c.rHandle) 0 with
              units := (len + 63) / 64, poison := 0, data := BitVec.ofNat 32768 v } 4).unitEnd k e).markCmd k
                .blocked).fabEnd k)).keep s))) ∧
      (s.MoverRuns k 0xC4 c n →
        (c.rNode = s.pwr.node → exec (.ping k) s = .next ((s.endCmd k c stOK 0).keep s)) ∧
        (∀ m, c.rNode ≠ s.pwr.node → (∀ y ∈ s.fab.msgs, ¬ (y.2.cmd = k.val ∧ y.2.kind = .ping)) → s.freeMsg = some m →
          exec (.ping k) s = .next ((((s.openMsg m k c .ping 0 0).markCmd k .blocked).originate
            (Pkt.bare c.rNode s.pwr.node kPing c.ctx m 0 0 0 0) 6).keep s))))

/-! ## Spires -/

/-- An operation in a slot of a Spire runs row by row. A row reads the next operands into the streaming buffer where there is
room, and then writes the next bytes of a result that lies there to memory, or computes a unit of work. With every unit done
and written it ends with its result. A failed access ends it with the access's status; an access that waits leaves it to be
taken up again. REDUCE_INTO updates a destination line under its lock. PUBLISH claims its word, copies, and releases the word; a
word that is not the expected one ends it with STALE_VERSION and the word.
Where it uses what log entries 11, 72, 73, 75, 77 fix, that is the model's choice where they say so. -/
def Obligations.SpireOperations : Prop :=
  ∀ (s u : State) (k : Fin 16385) (er : Scr) (c r : Cmd) (n slot : Nat) (g : Eng), s.up = true → g = spireOf n k →
    r = { c with st := .running } → u = (s.putCmd k r).scrFlip n slot er →
    (∀ (i : Instr) (op : Nat) (fin : Cmd → Bool) (ok bad : Cmd → Nat) (load unit : Eng → Nat → Nat → Cmd → State → State × Prog),
      (i, op, fin, ok, bad, load, unit) ∈
        ([(.convert k er, 0x80, fun x => decide (x.pb 2 0 40 ≤ x.pos), fun x => x.pos, fun x => x.pos, State.convertLoad k,
            State.convertUnit k),
          (.axpy k er, 0x81, fun x => decide (x.pb 2 0 40 ≤ x.pos), fun x => x.pos, fun x => x.pos, State.axpyLoad k,
            State.axpyUnit k),
          (.reduceInto k er, 0x82, fun x => decide (x.pb 2 0 40 ≤ x.pos), fun x => x.pos, fun x => x.pos, State.reduceLoad k,
            State.reduceUnit k),
          (.gatherPool k er, 0x84, fun _ => false, fun x => x.result, fun x => x.pos, State.gatherLoad k, State.gatherUnit k),
          (.optStep k er, 0x88, fun x => x.part != [] && decide (x.pb 3 0 40 ≤ x.pos),
            fun x => x.pb 3 0 40 + min x.result (2 ^ 24 - 1) * 2 ^ 40, fun x => x.pos, State.optLoad k, State.optUnit k),
          (.attnPartial k er, 0x8C, fun x => x.phase == 2 && decide (x.attNq ≤ x.aux), fun x => x.pb 4 0 16, fun _ => 0,
            State.attLoad k, State.attUnit k),
          (.topk k er, 0x90, fun x => decide (x.topN ≤ x.pos ∧ x.topK ≤ x.aux), fun x => x.topN, fun _ => 0, State.topLoad k,
            State.topUnit k),
          (.checksum k er, 0x94, fun x => decide (x.pb 1 0 40 ≤ x.pos), fun x => if x.poison then 0 else x.crcOnes - x.crcReg,
            fun x => x.pos, State.crcLoad k, State.crcUnit k),
          (.publish k er, 0x98, fun _ => false, fun x => x.pos, fun x => if x.aux = 0 then x.result else x.pos, State.pubLoad k,
            State.pubUnit k)] :
          List (Instr × Nat × (Cmd → Bool) × (Cmd → Nat) × (Cmd → Nat) × (Eng → Nat → Nat → Cmd → State → State × Prog) ×
            (Eng → Nat → Nat → Cmd → State → State × Prog))) →
      s.SpireRuns k op c n slot →
      (∀ (t : State) (p : Prog), load g n slot r u = (t, p) →
        (∀ st x, p = .stop st → t.cmd k = some x →
          exec i s = .next ((t.finishRun k st (if st = stOK ∨ st = stPartial then ok x else bad x)).keep s)) ∧
        (∀ x, (∀ st, p ≠ .stop st) → t.cmd k = some x → x.wbuf = [] →
          (fin x = true → exec i s = .next ((t.finishRun k stOK (ok x)).keep s)) ∧
          (fin x = false → ∀ (y : State) (q : Prog), unit g n slot x t = (y, q) →
            (q = .go → exec i s = .next (y.keep s)) ∧ (q = .wait → exec i s = .next ((y.markCmd k .blocked).keep s)) ∧
            (∀ st z, q = .stop st → y.cmd k = some z →
              exec i s = .next ((y.finishRun k st (if st = stOK ∨ st = stPartial then ok z else bad z)).keep s))))) ∧
      (c.loaded →
        (c.wbuf = [] → fin c = true → exec i s = .next ((u.finishRun k stOK (ok c)).keep s)) ∧
        (∀ (a pva m j v mk line : Nat) (rest : List (Nat × Nat × Nat)) (w y : State) (z : Cmd), c.wbuf = (a, pva, m) :: rest →
          j = min m (64 - pva % 64) → w = (State.scrGet k n slot 3 u a j).1 → v = (State.scrGet k n slot 3 u a j).2.1 →
          mk = (State.scrGet k n slot 3 u a j).2.2 → w.ownLine k pva true = some line → w.owinFor c.ctx line = none →
          w.gotWrite g.o ⟨c.ctx, line, ⟨BitVec.ofNat 512 (v % 2 ^ (8 * j) * 2 ^ (8 * (pva % 64))), markPoison (pva % 64) j mk⟩,
            rangeBe (pva % 64) j, g.wrCls, .engine, .engine, w.engFill c.ctx⟩ →
          y = (w.offChan g line).takeBeats k g true → y.cmd k = some z →
          (j < m → exec i s = .next ((y.putCmd k { z with wbuf := (a + j, pva + j, m - j) :: rest }).keep s)) ∧
          (j = m → rest ≠ [] → exec i s = .next ((y.putCmd k { z with wbuf := rest }).keep s)) ∧
          (j = m → rest = [] → exec i s = .next (((y.putCmd k { z with wbuf := [] }).advance k).keep s))))) ∧
    (c.loaded → c.wbuf = [] →
      (∀ i ∈ [(Instr.convert k er, 0x80, c.pb 2 0 40, State.convertUnit k g n slot r), (.axpy k er, 0x81, c.pb 2 0 40,
          State.axpyUnit k g n slot r)],
        s.SpireRuns k i.2.1 c n slot → c.pos < i.2.2.1 → exec i.1 s = .next ((i.2.2.2 u).1.keep s)) ∧
      (s.SpireRuns k 0x82 c n slot → c.pos < c.pb 2 0 40 → ∀ (pva line : Nat) (l : Line),
        pva = c.p 1 + c.pos * (fmtBits c.fo / 8) → u.ownLine k pva true = some line → u.owinFor c.ctx line = none →
        (u.engAns g.o line true fullBe).map EngAns.res = some (.ok l) →
        exec (.reduceInto k er) s = .next (((u.takeBeats k g true).give k n slot [] (c.cvLen c.pos, 0)).keep s)) ∧
      (s.SpireRuns k 0x84 c n slot → c.phase = 1 → c.gBags ≤ c.aux →
        ∀ st, st = (if 2 ^ 32 ≤ c.result ∧ c.poison = false then stPartial else stOK) →
          exec (.gatherPool k er) s = .next ((u.finishRun k st c.result).keep s)) ∧
      (s.SpireRuns k 0x8C c n slot → c.phase = 1 →
        (c.pb 4 0 16 ≤ c.pos →
          exec (.attnPartial k er) s = .next ((u.putCmd k { r.setPart 0 [2, c.pt 0 1] with aux := 0 }).keep s)) ∧
        (∀ t rest, c.pos < c.pb 4 0 16 → c.part.getD 2 [] = t :: rest → c.attSkip t c.aux = true →
          exec (.attnPartial k er) s = .next ((u.attNextRow k r).1.keep s))) ∧
      (s.SpireRuns k 0x98 c n slot →
        (∀ (line : Nat) (l : Line) (old : Nat) (v : State) (x : Cmd), c.aux = 0 → u.ownLine k (c.p 0) true = some line →
          u.owinFor c.ctx line = none → l.badWord (c.p 0 % 64) = false → old = (l.slot8 (c.p 0 % 64 / 8)).toNat →
          (u.engAns g.o line true fullBe).map EngAns.res = some (.ok l) → v = (u.offChan g line).unitEnd k g → v.cmd k = some x →
          (old = c.p 4 → exec (.publish k er) s = .next ((v.putCmd k { x with aux := 1 }).keep s)) ∧
          (old ≠ c.p 4 → exec (.publish k er) s =
            .next (((v.putCmd k { x with result := old }).finishRun k stStale old).keep s))) ∧
        (c.aux ≠ 0 → c.pos < c.pb 3 0 40 → exec (.publish k er) s = .next ((State.pubUnit k g n slot r u).1.keep s)) ∧
        (c.aux ≠ 0 → c.pb 3 0 40 ≤ c.pos → c.poison = false → ∀ line, u.ownLine k (c.p 0) true = some line →
          u.owinFor c.ctx line = none → u.gotWrite g.o ⟨c.ctx, line, ⟨BitVec.ofNat 512 (c.pb 5 0 63 * 2 ^ (8 * (c.p 0 % 64))), 0⟩,
            rangeBe (c.p 0 % 64) 8, g.wrCls, .engine, .engine, u.engFill c.ctx⟩ →
          exec (.publish k er) s = .next (((u.offChan g line).finishRun k stOK c.pos).keep s))))

/-- What one unit of an operation computes from the operands its buffer holds. CONVERT widens each element and rounds it into
the output format. AXPY takes a x + b y with the product b y rounded first, and no y where b is zero. REDUCE_INTO adds to the
destination line under its lock. CHECKSUM carries its register over every byte. TOPK keeps the candidates that rank highest,
an equal one behind those before it. ATTN_PARTIAL takes one of the tokens left, in an order no rule promises, and meets it
with the query rows, rescaling a row where the token's score is its largest. Pooling, ranking and the optimisers. An index
past the table is skipped and counted. A row's elements become the largest of their columns, or their sums, whose order no
rule promises. TOPK's list stays in order, and a new candidate stands behind its equals. The three optimisers follow their
formulas, operation by operation.
Where it uses what log entries 10, 72, 75, 76, 77, 106 fix, that is the model's choice where they say so. -/
def Obligations.SpireUnits : Prop :=
  (∀ (s t : State) (k : Nat) (e : Eng) (n slot : Nat) (c : Cmd) (xs : List Elem), c.fed = true →
      (s.laneElems k n slot c.cvIn c.fa (c.p 0) c.pos (c.cvLen c.pos) = (t, xs) →
        State.convertUnit k e n slot c s = t.giveOut k n slot c c.cvOut c.fo (w32 (c.pb 4 32 32)) (c.p 1) c.pos (xs.map fun x =>
          ⟨x.f32 c.fa (w32 (c.pb 4 0 32)), fIsNan (x.f32 c.fa (w32 (c.pb 4 0 32))), x.poison⟩)) ∧
      (s.laneElems k n slot c.axX c.fa (c.p 0) c.pos (c.axLen c.pos) = (t, xs) →
        (∀ (u : State) (ys : List Elem), c.readsY = true → t.laneElems k n slot c.axY c.fb (c.p 1) c.pos (c.axLen c.pos) = (u, ys) →
          ∃ zs : List OutEl, State.axpyUnit k e n slot c s = u.giveOut k n slot c c.axOut c.fo 0 (c.p 3) c.pos zs ∧
            zs.map (fun z => (z.w, z.poison)) = (xs.zip ys).map fun p =>
              (ffma (w32 (c.pb 4 0 32)) (p.1.f32 c.fa 0) (fmul (w32 (c.pb 4 32 32)) (p.2.f32 c.fb 0)), p.1.poison || p.2.poison)) ∧
        (c.readsY = false → xs.length = c.axLen c.pos → ∃ zs : List OutEl,
          State.axpyUnit k e n slot c s = t.giveOut k n slot c c.axOut c.fo 0 (c.p 3) c.pos zs ∧
          zs.map (fun z => (z.w, z.poison)) = xs.map fun x => (fmul (w32 (c.pb 4 0 32)) (x.f32 c.fa 0), x.poison))) ∧
      (∀ (w : State) (pva line o : Nat) (old l : Line) (x : Tx) (r : Nat × Nat × Nat × Nat) (ev : Exc) (p : Spire),
        pva = c.p 1 + c.pos * (fmtBits c.fo / 8) → o = pva % 64 → s.ownLine k pva true = some line → s.owinFor c.ctx line = none →
        s.engAns e.o line true fullBe = none → s.engTx e.o line true fullBe = some x → x.stage = .engine → x.got = some (.ok old) →
        s.laneElems k n slot c.rdX c.fa (c.p 0) c.pos (c.cvLen c.pos) = (t, xs) → reduceLine (t.spire n) c old o xs = (r, ev, p) →
        w = ((((t.setSpire n p).addExc n ev).offChan e line).engFinish e.o line (old.merge
          ⟨BitVec.ofNat 512 (r.2.2.1 * 2 ^ (8 * o)), markPoison o r.2.1 r.2.2.2⟩ (rangeBe o r.2.1))).noteBeat k e pva true line →
        (w.engAns e.o line true fullBe).map EngAns.res = some (.ok l) →
        State.reduceUnit k e n slot c s = ((w.takeBeats k e true).give k n slot [] (c.cvLen c.pos, 0), .go)) ∧
      (∀ (x : Cmd) (v m : Nat), s.getRun k n slot (c.crcLane.run (c.p 0 + c.pos) (c.crcLen c.pos)) = (t, (v, m)) → t.cmd k = some x →
        State.crcUnit k e n slot c s = ((t.putCmd k { x with part := [[(List.range (c.crcLen c.pos)).foldl
          (fun r i => crcByte c.crcPoly r (bits v (8 * i) 8)) c.crcReg]] }).give k n slot [] (c.crcLen c.pos, 0), .go)) ∧
      (∀ (u w : State) (x : Cmd) (old cand : List (Nat × Nat)) (lost : Bool),
        s.laneElems k n slot c.topLane c.fa (c.p 0) c.pos (c.topLen c.pos) = (t, xs) →
        t.topGet k e n slot c 0 (min c.topK c.pos) = (u, old, lost) →
        cand = xs.zipIdx.foldl (fun l y =>
          (topInsert (c.pb 2 16 1 == 1) c.topKey (topKeep c y.1, c.pos + y.2) l).take c.topK) old →
        w = (u.persPut k e n slot c [(0, 12 * cand.length, packList 96 (cand.map fun x => x.1 + x.2 * 2 ^ 32), 0)]).1 →
        w.cmd k = some x → State.topTake k e n slot c s = ((if (lost || xs.any fun y => y.poison) = true then
          w.putCmd k { x with part := [[1]] } else w).give k n slot [] (xs.length, 0), .go)) ∧
      (c.part.getD 1 [] ≠ [] → ∃ tok, (c.part.getD 1 [])[c.attPick]? = some tok)) ∧
  ((∀ (c : Cmd) (t r : Nat) (q kk vv : List Word) (row : AttRow) (sc : Word),
      sc = fmul (w32 (c.pb 5 32 32)) (sumTerms (c.pt 0 1 * 2 ^ 32 + t * 65536 + r) ((q.zip kk).map fun x => .prod x.1 x.2)) →
      (flt row.m sc = true → attStep c t r q kk vv row = ⟨sc, fadd (fmul row.l (sfuExp2 (fsub row.m sc))) (sfuExp2 (fsub sc sc)),
        ((row.acc.map fun a => fmul a (sfuExp2 (fsub row.m sc))).zip vv).map fun p => fadd p.1 (fmul (sfuExp2 (fsub sc sc)) p.2)⟩) ∧
      (flt row.m sc = false → attStep c t r q kk vv row = ⟨row.m, fadd row.l (sfuExp2 (fsub sc row.m)),
        (row.acc.zip vv).map fun p => fadd p.1 (fmul (sfuExp2 (fsub sc row.m)) p.2)⟩)) ∧
    (∀ (s t : State) (k : Nat) (e : Eng) (n slot : Nat) (c y : Cmd) (x r : Nat),
      s.getRun k n slot ⟨c.gIdxLane, recAt c.gIdx (c.pt 5 3) (c.p 1 + x * c.gIdx), c.p 1 + x * c.gIdx, c.gIdx⟩ = (t, (r, 0)) →
      bits (c.pt 2 1) (c.gIdx * x) c.gIdx = 0 → r = bits (c.pt 2 0) (8 * c.gIdx * x) (8 * c.gIdx) → c.pb 6 0 40 ≤ r →
      t.cmd k = some y → ∃ z : Cmd, State.gatherIndex k e n slot c x s = (t.putCmd k z, .go) ∧ z.result = y.result + 2 ^ 32 ∧
        z.pt 5 0 = (if 5 < y.part.length then c.pt 5 0 else 0)) ∧
    (∀ (mode code j : Nat) (first : Bool) (acc row : List Elem) (a x : Elem), acc[j]? = some a → row[j]? = some x →
      ∃ v : Word, ((poolRow mode first acc row code)[j]?.map fun y => (y.1, y.2.1)) =
          some (v.toNat, (!first && a.poison) || x.poison) ∧
        (mode = 2 → v = fmax (if first then fInf true else w32 a.raw) (x.f32 code 0)) ∧
        (mode ≠ 2 → v = fadd (if first then 0 else w32 a.raw) (x.f32 code 0))) ∧
    (∀ (n : Nat) (x y : Word), sumTerms n [] = 0 ∧ sumTerms n [.sum x] = fadd 0 x ∧
      sumTerms n [.sum x, .sum y] = fadd 0 (fadd x y)) ∧
    (∀ (key : Nat → Nat) (y : Nat × Nat) (l : List (Nat × Nat)),
      (topInsert false key y l).Perm (y :: l) ∧ (topInsert true key y l).Perm (y :: l) ∧
      (l.Pairwise (fun a b => key b.1 ≤ key a.1) → (topInsert false key y l).Pairwise fun a b => key b.1 ≤ key a.1) ∧
      (l.Pairwise (fun a b => key a.1 ≤ key b.1) → (topInsert true key y l).Pairwise fun a b => key a.1 ≤ key b.1) ∧
      ∀ x ∈ l, key x.1 = key y.1 → l.Pairwise (fun a b => key b.1 ≤ key a.1) →
        ∃ l1 l2, topInsert false key y l = l1 ++ y :: l2 ∧ x ∈ l1) ∧
    ∀ (c : Cmd) (w m v g m1 v1 : Word),
      (c.optAlg = 0 → m1 = fadd (fmul (c.hyp 1) m) (fmul (fsub fOne (c.hyp 1)) g) →
        v1 = fadd (fmul (c.hyp 2) v) (fmul (fmul (fsub fOne (c.hyp 2)) g) g) →
        optElem c w m v g = (fsub w (fmul (c.hyp 0) (fadd (fmul (fmul m1 (c.hyp 6))
          (sfuRecip (fadd (sfuSqrt (fmul v1 (c.hyp 7))) (c.hyp 3)))) (fmul (c.hyp 4) w))), m1, v1)) ∧
      (c.optAlg = 1 → m1 = fadd (fmul (c.hyp 2) m) (fmul (fsub fOne (c.hyp 2)) g) →
        optElem c w m v g = (fsub w (fmul (c.hyp 0) (fadd (fsign (fadd (fmul (c.hyp 1) m) (fmul (fsub fOne (c.hyp 1)) g)))
          (fmul (c.hyp 4) w))), m1, v)) ∧
      (2 ≤ c.optAlg → m1 = fadd (fadd (fmul (c.hyp 1) m) g) (fmul (c.hyp 4) w) →
        optElem c w m v g = (fsub w (fmul (c.hyp 0) m1), m1, v)))

/-- Slots, control, seed and windows. A free slot takes the oldest operation of the queue that is ready, its written bits
cleared. hold is stored as written; enable = 0 is refused while the Spire holds an operation. A seed that is not 0 becomes the
generator's state. A window is enabled only where it may be.
Where it uses what log entry 78 fixes, that is the model's choice where the entry says so. -/
def Obligations.SpireControl : Prop :=
  ∀ (s : State), s.up = true →
    (∀ (n : Fin 24) (slot k : Nat) (c : Cmd) (before after : List Nat), (s.spire n).opq = before ++ k :: after →
      SMap.firstFree (s.spire n).slots 4 = some slot → s.cmd k = some c → c.eng = .spireQ n → c.st = .queued →
      (c.heavy = true → c.leave = true) → s.heldBack c = false →
      (∀ j ∈ before, ∀ x, s.cmd j = some x →
        ¬ (x.eng = .spireQ n ∧ x.st = .queued ∧ (x.heavy = true → x.leave = true) ∧ s.heldBack x = false)) →
      exec (.spireSlotStart n) s = .next ((((s.setSpire n
        (({ s.spire n with slots := SMap.put (s.spire n).slots slot k } : Spire).wipe slot)).putCmd k
          { c with eng := .spireSlot n slot, st := .running }).showSpire n).keep s)) ∧
    (∀ (n : Fin 24) (v : Word) (t : State), t = s.fFlag F.SPIRE_CTL_hold (F.SPIRE_CTL_hold.on v) n →
      (F.SPIRE_CTL_enable.on v = true →
        exec (.spireCtlWrite n v) s = .next (((t.fFlag F.SPIRE_CTL_enable true n).showSpire n).keep s)) ∧
      (F.SPIRE_CTL_enable.on v = false → (s.spire n).opq = [] → (s.spire n).slots = [] →
        exec (.spireCtlWrite n v) s = .next (((t.fFlag F.SPIRE_CTL_enable false n).showSpire n).keep s)) ∧
      (F.SPIRE_CTL_enable.on v = false → (s.spire n).opq ≠ [] ∨ (s.spire n).slots ≠ [] →
        exec (.spireCtlWrite n v) s = .next (((t.fFlag F.SPIRE_STATUS_refused true n).showSpire n).keep s))) ∧
    (∀ (n : Fin 24) (v : Word), v ++ s.rd R.SPIRE_SR_SEED_LO n ≠ 0#64 → exec (.srSeedLoad n v) s =
      .next ((s.setSpire n { s.spire n with gen := v ++ s.rd R.SPIRE_SR_SEED_LO n, draws := 0 }).keep s)) ∧
    ∀ (w : Fin 64) (v : Word),
      (s.winOk w (F.SPIRE_WIN_CTL_fmt.of (v ||| 1)) = true →
        exec (.windowEnable w v) s = .next ((s.wrCodes R.SPIRE_WIN_CTL (v ||| 1) 0 w).keep s)) ∧
      (s.winOk w (F.SPIRE_WIN_CTL_fmt.of (v ||| 1)) = false →
        exec (.windowEnable w v) s = .next ((s.fFlag F.SPIRE_WIN_CTL_refused true 0 w).keep s))

/-! ## Power grants -/

/-- R349: the cost of each kind at reset, and that a write of PGU_COST_VAL programs the cost of the kind that PGU_COST_IDX
names and changes nothing else; kinds 9 to 15 have cost 0 and ignore writes. The write comes through BAR2 of a fabric-manager
function that stands and is assigned (log entry 24). -/
def Obligations.HeavyCosts : Prop :=
  (∀ e ∈ [(0, 24), (1, 12), (2, 6), (3, 10), (4, 12), (5, 40), (6, 8), (7, 8), (8, 8)], State.reset.pguCost e.1 = e.2) ∧
  (∀ k, 9 ≤ k → State.reset.pguCost k = 0) ∧
  ∀ (s u : State) (b : Bar) (w : BitVec 26) (v : BitVec 64) (k : Nat), s.up = true → u = s.barAssign b →
    u.barOpen b.port = true → winToReg w.toNat = R.PGU_COST_VAL.addr 0 0 →
    u.domainOn 1 = true → k = u.fN F.PGU_COST_IDX_kind →
    (9 ≤ k → exec (.registerWrite ⟨b, w⟩ .b4 v) s = .next u) ∧
    (k < 9 → ∃ t, exec (.registerWrite ⟨b, w⟩ .b4 v) s = .next t ∧
      t = { u with pwr := { u.pwr with costs := t.pwr.costs } } ∧
      ∀ j, t.pguCost j = if j = k then v.toNat % 2 ^ 10 else u.pguCost j)

/-- Leave for heavy operations. The request at the head of the queue is granted where it fits under the limit in force
beside what is granted already, or nothing is granted; only a grant above the limit counts as solo; a request that does not
fit keeps the head of the queue. The limit in force is the throttle limit while the throttle pin is seen low, and the pin is
not looked at while the device is frozen. -/
def Obligations.PowerGrants : Prop :=
  (∀ (s : State) (r : PguReq) (rest : List PguReq) (c : Nat) (t : State), s.up = true → s.pwr.queue = r :: rest →
    c = s.pguCost r.kind → t = { s with pwr := { s.pwr with queue := rest, granted := s.pwr.granted ++ [(r, c)] } } →
    (s.fN F.PGU_BASE_base + s.granted + c ≤ s.pguLimit → exec .pguGrant s = .next ((t.leaveGiven r.owner).keep s)) ∧
    (s.pguLimit < s.fN F.PGU_BASE_base + s.granted + c → s.granted = 0 →
      exec .pguGrant s = .next (((t.bump F.PGU_CNT_solo_grants).leaveGiven r.owner).keep s)) ∧
    (s.pguLimit < s.fN F.PGU_BASE_base + s.granted + c → s.granted ≠ 0 → exec .pguGrant s = .next s)) ∧
  ∀ (s : State) (low : Bool), ∃ t, exec (.throttleChange low) s = .next t ∧ t.pwr.throttleIn = low ∧
    (s.pwr.frozen = false → t.pwr.throttlePin = low) ∧ (s.pwr.frozen = true → t.pwr.throttlePin = s.pwr.throttlePin) ∧
    t = { s with pwr := { s.pwr with throttleIn := low, throttlePin := t.pwr.throttlePin } } ∧
    (t.pwr.throttlePin = true → t.pguLimit = t.fN F.PGU_LIMIT_throttle_limit) ∧
    (t.pwr.throttlePin = false → t.pguLimit = t.fN F.PGU_LIMIT_limit)

/-! ## Comb -/

/-- Translation as its firmware cores work it. COMB_CTL.enable is set only while the root directory lies in cells of Dome 0.
A read of REC0 takes the oldest record not taken. A committed fill of a live record enters the leaf and frees the record; a
record made stale is posted again; an outcome without a leaf ends the record for every command that waits on it, and reports
a protection or poison outcome. A record whose time is up ends as a timeout. An invalidation raises the generation, takes
the leaves it covers out of every cache, and makes the misses it covers stale.
Where it uses what log entry 70 fixes, that is the model's choice where the entry says so. -/
def Obligations.CombService : Prop :=
  ∀ (s : State), s.up = true →
    (∀ (v : Word) (t : State), t = s.wrCodes R.COMB_CTL (v ||| 1#32) →
      (s.fB F.COMB_CTL_enable = true ∨ (∀ j < 8, t.dome0Cell (t.rootDir + j * 65536) = true) →
        exec (.combEnable v) s = .next (t.keep s)) ∧
      (s.fB F.COMB_CTL_enable = false → ¬ (∀ j < 8, t.dome0Cell (t.rootDir + j * 65536) = true) →
        exec (.combEnable v) s =
          .next (((t.fFlag F.COMB_CTL_enable false).fFlag F.COMB_STATUS_refused true).keep s))) ∧
    (∀ (n : Fin 8),
      ((∀ e ∈ s.comb.miss, e.2.taken = true) →
        exec (.combRecordTake n) s = .next ((s.emit (.csr (R.COMB_FW_REC0.addr 0 n) 0)).keep s)) ∧
      (∀ (e : Nat × Miss), e ∈ s.comb.miss → e.2.taken = false →
        (∀ x ∈ s.comb.miss, x.2.taken = false → x ≠ e → e.2.order < x.2.order) → ∃ (t : State) (v : Word),
          exec (.combRecordTake n) s = .next (t.keep s) ∧
          t.comb = { s.comb with miss := SMap.put s.comb.miss e.1 { e.2 with taken := true } } ∧
          t.out = .csr (R.COMB_FW_REC0.addr 0 n) v :: s.out ∧ v = BitVec.ofNat 32 (2 ^ 31 + (if e.2.write then 2 ^ 30 else 0) +
            (if e.2.prefetch then 2 ^ 29 else 0) + e.1 * 65536 + e.2.ctx.toNat))) ∧
    (∀ (n : Fin 8) (v : Word) (t : State) (k o sz d : Nat) (m : Miss), t = s.wrCodes R.COMB_FW_FILL2 (v ||| 0x80000000#32) 0 n →
      k = t.fN F.COMB_FW_FILL0_miss_id 0 n → o = t.fN F.COMB_FW_FILL0_outcome 0 n → sz = t.fN F.COMB_FW_FILL1_size 0 n →
      d = t.fN F.COMB_FW_FILL1_dpa 0 n →
      (SMap.find t.comb.miss k = none → exec (.combFillCommit n v) s = .next ((t.bump F.COMB_EVT_CNT_stale_fills).keep s)) ∧
      (SMap.find t.comb.miss k = some m → 4 ≤ o ∨ (o = 0 ∧ (sz = 3 ∨ d % 2 ^ (9 * sz) ≠ 0)) →
        exec (.combFillCommit n v) s = .next ((t.bump F.COMB_EVT_CNT_stale_fills).keep s)) ∧
      (SMap.find t.comb.miss k = some m → o < 4 → ¬ (o = 0 ∧ (sz = 3 ∨ d % 2 ^ (9 * sz) ≠ 0)) →
        (m.stale = true → exec (.combFillCommit n v) s = .next ((t.missAgain k m).keep s)) ∧
        (m.stale = false → o = 0 → ∀ (l : Leaf) (es : List Nat), l = ⟨m.ctx, m.page / 2 ^ (9 * sz) * 2 ^ (9 * sz), 16 + 9 * sz,
            d * 65536, t.fB F.COMB_FW_FILL2_r 0 n, t.fB F.COMB_FW_FILL2_w 0 n⟩ →
          es = (m.waiters.filterMap fun c => (SMap.find t.q.cmds c).map fun x => x.eng.num) ++
            (if m.prefetch then [m.engine] else []) →
          exec (.combFillCommit n v) s = .next ((es.eraseDups.foldl (fun (w : State) e =>
            if (w.atcFind e m.ctx m.page).isSome then w else w.atcFill e l)
              (({ t with comb := { t.comb with miss := SMap.del t.comb.miss k } } : State).stcFill l)).keep s)) ∧
        (m.stale = false → o = 1 → m.prefetch = false →
          exec (.combFillCommit n v) s = .next ((t.missEnd k m 1).keep s)) ∧
        (m.stale = false → o = 2 → m.prefetch = false → exec (.combFillCommit n v) s =
          .next (((t.raise 9 m.ctx (domeOf m.ctx) (some m.page)).missEnd k m 2).keep s)) ∧
        (m.stale = false → o = 3 → m.prefetch = false → exec (.combFillCommit n v) s =
          .next (((t.raise 3 m.ctx (domeOf m.ctx) none).missEnd k m 3).keep s)))) ∧
    (∀ (k : Fin 1024) (m : Miss), SMap.find s.comb.miss k = some m → s.fN F.COMB_CTL_miss_timeout ≠ 0 →
      (m.prefetch = false → exec (.combMissTimeout k) s =
        .next ((((s.bump F.COMB_EVT_CNT_timeouts).raise 10 m.ctx (domeOf m.ctx) (some m.page)).missEnd k m 8).keep s)) ∧
      (m.prefetch = true → m.waiters = [] → exec (.combMissTimeout k) s =
        .next (({ s with comb := { s.comb with miss := SMap.del s.comb.miss k } } : State).keep s))) ∧
    (∀ (v : Word) (t : State) (a b p : Nat), t = s.wrCodes R.COMB_INV_CMD (v ||| 1#32) → a = t.fN F.COMB_INV_CTX_scope →
      b = t.fN F.COMB_INV_START_HI_vpn_hi * 2 ^ 32 + t.fN F.COMB_INV_START_LO_vpn_lo →
      p = t.fN F.COMB_INV_PAGES_HI_pages_hi * 2 ^ 32 + t.fN F.COMB_INV_PAGES_LO_pages_lo →
      (t.comb.inval ≠ none ∨ a = 3 ∨ (a = 0 ∧ 2 ^ 36 < b + p) →
        exec (.combInvGo v) s = .next ((t.fFlag F.COMB_INV_CMD_refused true).keep s)) ∧
      (t.comb.inval = none → a ≠ 3 → (a = 0 → 0 < p ∧ b + p ≤ 2 ^ 36) → exec (.combInvGo v) s =
        .next ((t.startInval a (BitVec.ofNat 16 (t.fN F.COMB_INV_CTX_ctx)) b p none).keep s))) ∧
    ∀ (a b p : Nat) (x : Ctx) (k : Option Nat) (t : State), t = s.startInval a x b p k →
      (∀ e ∈ t.comb.atc ++ t.comb.stc, e.2.ctx = x → (a = 0 → e.2.page < b + p ∧ b < e.2.page + 2 ^ (e.2.shift - 16)) → False) ∧
      (∀ e ∈ t.comb.miss, e.2.ctx = x → e.2.stale = true) ∧ t.fB F.COMB_INV_CMD_busy = true

/-! ## Mailboxes of CXL functions -/

/-- A mailbox command of a function the port does not present changes nothing. Every other is answered at once on its own
mailbox with its return code, but for a packet that starts. The Type 3 function answers the fabric-manager commands as
unsupported.
Where it uses what log entries 13, 27, 79 fix, that is the model's choice where they say so. -/
def Obligations.MailboxReplies : Prop :=
  ∀ (s : State) (p : Fin 16) (l : Fin 2) (f : Func), s.up = true →
    (s.hasFunc p l f = false → exec (.identify p l f) s = .next s ∧ exec (.unsupportedMailboxCommand p l f) s = .next s) ∧
    (s.hasFunc p l f = true → ∀ ans : Instr → Nat → List Nat → Prop,
      (ans = fun i ret pay => exec i s = .next ((s.mbx p l ret pay).keep s)) →
      ans (.identify p l f) rcOK [(s.rd R.GLOBAL_ID).toNat] ∧
      ans (.identifyMemoryDevice p l f) rcOK [s.hiveBase, s.hiveBase, 0] ∧
      ans (.getHealthInfo p l f) rcOK [s.media, s.topTemp, s.ceTotal] ∧
      ans (.getSupportedLogs p l f) rcOK [1] ∧
      ans (.getLog p l f false) rcInput [] ∧
      ans (.unsupportedMailboxCommand p l f) rcUnsupported [] ∧
      ans (.getFwInfo p l f) rcOK [1, s.cores.version.toNat] ∧
      (∃ (t : State) (n : Nat), t = { s with free := s.free + 1 } ∧
        exec (.getLog p l f true) s = .next ((t.mbx p l rcOK (Config.standardReply 3 (if f.isFm then 1 else 0) n)).keep s)) ∧
      (f.isFm = false → (∀ g : Fin 4, ans (.getEventRecords p l f g) rcOK [0, 0]) ∧
        ans (.getEventInterruptPolicy p l f) rcUnsupported [] ∧ ans (.getLdInfo p l f) rcUnsupported [] ∧
        (∀ (x : BitVec 39) (n : Nat), ans (.getPoisonList p l f x n) rcUnsupported [] ∧
          ans (.injectPoison p l f x) rcUnsupported []) ∧ ∀ x : BitVec 512, ans (.zmCmdPacket p l f x) rcUnsupported []) ∧
      (f.isFm = true →
        (∀ g : Fin 4, ans (.getEventRecords p l f g) rcOK
          ([if (s.events.get g).overflow then 1 else 0, (s.events.get g).lost] ++ (s.events.get g).words)) ∧
        (∀ (g : Fin 4) (hs : List Nat), (∀ h ∈ hs, ∃ r ∈ (s.events.get g).recs, r.handle = h) →
          exec (.clearEventRecords p l f g false hs) s =
            .next ((({ s with events := s.events.set g ((s.events.get g).clear false hs) } : State).mbx p l rcOK []).keep s)) ∧
        (∀ (g : Fin 4) (hs : List Nat) (h : Nat), h ∈ hs → (∀ r ∈ (s.events.get g).recs, r.handle ≠ h) →
          ans (.clearEventRecords p l f g false hs) rcHandle []) ∧
        ans (.getEventInterruptPolicy p l f) rcOK [s.eventPolicy.toNat] ∧
        (∀ v, exec (.setEventInterruptPolicy p l f v) s = .next ((({ s with eventPolicy := v } : State).mbx p l rcOK []).keep s)) ∧
        (∀ (x : BitVec 39) (n : Nat), ans (.getPoisonList p l f x n) rcOK ((if s.poisonOvf then 1 else 0) ::
          s.poisonList.filter fun y => decide (x.toNat ≤ y ∧ y < x.toNat + n))) ∧
        (∀ (x : BitVec 39) (d : BitVec 512), s.memTop ≤ x.toNat * 64 →
          ans (.injectPoison p l f x) rcInput [] ∧ ans (.clearPoison p l f x d) rcInput []) ∧
        (∀ (x : BitVec 39) (d : BitVec 512), x.toNat * 64 < s.memTop →
          exec (.injectPoison p l f x) s =
            .next (((s.deviceWrite x.toNat ⟨0, 0xFFFF⟩ 33 true).mbx p l rcOK []).keep s) ∧
          exec (.clearPoison p l f x d) s = .next (((s.deviceWrite x.toNat ⟨d, 0⟩ 33 false).mbx p l rcOK []).keep s)) ∧
        ((s.cxlPort p).mode = 1 → ans (.getLdInfo p l f) rcOK [s.hiveBase, 16] ∧
          ans (.getLdAllocations p l f) rcOK (List.replicate 16 0) ∧
          ∀ as : List Nat, ((∀ a ∈ as, a = 0) → ans (.setLdAllocations p l f as) rcOK []) ∧
            ((∃ a ∈ as, a ≠ 0) → ans (.setLdAllocations p l f as) rcInput [])) ∧
        (∀ x : BitVec 512, (s.fB F.QCTL_MBX_CMD_busy = true → ans (.zmCmdPacket p l f x) rcBusy []) ∧
          (s.fB F.QCTL_MBX_CMD_busy = false →
            exec (.zmCmdPacket p l f x) s = .next ((s.mailboxStart (.cxlMailbox p l) x).keep s))) ∧
        (∀ n : Fin 256, (16 ≤ n.val → ans (.zmPortCounters p l f n) rcInput []) ∧
          (n.val < 16 → exec (.zmPortCounters p l f n) s = .next ((s.portCounters p l n).keep s))) ∧
        ∀ (n : Fin 16) (k : Fin 2),
          ((s.cxlLink n k).up = true →
            exec (.zmLinkRetrain p l f n k) s = .next (((s.recover n k).mbx p l rcOK []).keep s)) ∧
          ((s.cxlLink n k).up = false → ans (.zmLinkRetrain p l f n k) rcInput [])))

/-! ## The Rythar link -/

/-- What a port in use does with a good sequenced flit. Its acknowledgement is delivered first. The flit that is expected is
accepted: what is expected moves on by one and its own effect follows, with an acknowledgement once enough flits are
accepted. One of the 2,047 before it is discarded and acknowledged again; any other is answered with a NAK. A port not in
use takes no flit. Without a link key an accepted flit is released at once; with one it is kept until the tag of its epoch
is seen, and a tag that fails discards the epoch. A flit that is released returns credits, and its operation acts. An IDLE
flit delivers its acknowledgement; a bad flit is counted and NAKed. A RESET_REQ that crosses a reset of this end is heard.
Where it uses what log entries 82, 83, 84, 85, 107 fix, that is the model's choice where they say so. -/
def Obligations.LinkReceive : Prop :=
  ∀ (s : State) (p : Fin 12) (h : FlitHdr), s.up = true →
    (∀ (d : FlitData) (lane : Fin 9) (tag : BitVec 128) (x4 slow : Bool),
      ∀ e ∈ [(Instr.dataFlit p h d, { h.flit 1 0 0 with vc := d.vc.val, units := d.units1.val + 1, head := some d.head,
                                                         payload := d.payload }),
          (.ctrlCredit p h, h.flit 2 0 0), (.void p h, h.flit 2 2 0),
          (.mac p h tag, { h.flit 2 1 0 with payload := tag.setWidth 2048 }),
          (.spareReq p h lane, h.flit 2 3 lane.val), (.spareGo p h, h.flit 2 4 0),
          (.resetReq p h x4 slow, h.flit 2 5 ((if x4 then 1 else 0) + (if slow then 2 else 0)))],
        ((s.ryPort p).st ≠ .active → (s.ryPort p).st ≠ .spare → (s.ryPort p).st ≠ .reset → exec e.1 s = .next s) ∧
        (∀ (u : State) (r : RyPort) (back : Nat), (s.ryPort p).st = .active ∨ (s.ryPort p).st = .spare →
          (h.ackValid = false ∧ u = s) ∨ u = s.ackIn p h.ackSeq.toNat h.ackValid h.nak →
          r = u.ryPort p → r.st = .active ∨ r.st = .spare → back = (r.exp + 4096 - h.seq.toNat) % 4096 →
          (back = 0 → ∀ t, t = (u.setRy p { r with
              exp := (r.exp + 1) % 4096, nakAt := none, nakDue := false, unacked := r.unacked + 1 }).keepFlit p e.2 →
            exec e.1 s = .next ((if max 1 (t.fN F.RYP_ACK_CTL_ack_count p) ≤ (t.ryPort p).unacked ∧ t.ryLive p = true then
              t.sendAck p false else t).keep s)) ∧
          (0 < back → back ≤ 2047 → exec e.1 s = .next
            (((u.setRy p { r with ackDue := true }).bump F.RYP_ERR_CNT1_dup_discard 1 p).keep s)) ∧
          (2047 < back → exec e.1 s = .next ((u.nakE p).keep s)))) ∧
    (∀ x4 slow : Bool, (s.ryPort p).st = .reset → exec (.resetReq p h x4 slow) s =
      .next ((s.setRy p { s.ryPort p with heardAt := some s.pwr.refTime }).keep s)) ∧
    ((s.ryPort p).st = .active ∨ (s.ryPort p).st = .spare →
      (∀ (a : BitVec 12) (valid nak : Bool), exec (.idleFlit p a valid nak) s = .next ((s.ackIn p a.toNat valid nak).keep s)) ∧
      (∀ n, flitBad n.toNat = true →
        exec (.badFlit ⟨p, .flit n⟩) s = .next (((s.bump F.RYP_ERR_CNT0_bad_flits 1 p).nakE p).keep s))) ∧
    (∀ (f : Flit) (x : State), x = s.setRy p { s.ryPort p with
        inbuf := (s.ryPort p).inbuf ++ [f], epochLen := (s.ryPort p).epochLen + 1,
        epochStart := if (s.ryPort p).epochLen = 0 then f.seq else (s.ryPort p).epochStart } →
      ((s.ryPort p).keys = [] → s.keepFlit p f = s.release p f) ∧
      ((s.ryPort p).keys ≠ [] → (s.ryPort p).epochLen ≠ 0 →
        (¬ (f.kind = 2 ∧ f.op = 1) → s.keepFlit p f = x) ∧
        (f.kind = 2 → f.op = 1 → (x.ryPort p).tagOk f = true → s.keepFlit p f = x.epochGood p f.keyGen) ∧
        (f.kind = 2 → f.op = 1 → (x.ryPort p).tagOk f = false → s.keepFlit p f = x.epochBad p))) ∧
    (∀ (f : Flit) (t : State), t = s.setRy p (((((s.ryPort p).addCred 0 f.crReq).addCred 1 f.crRsp).addCred 2 f.crBulk).addCred 3
        f.crMgt) →
      (f.kind = 1 → s.release p f = t.units p f) ∧
      (f.kind = 2 → (f.op ≤ 2 → s.release p f = t) ∧ (f.op = 3 → s.release p f = t.spareReq p f.arg) ∧
        (f.op = 4 → s.release p f = t.spareGo p) ∧ (f.op = 5 → s.release p f = t.ryReset p false))) ∧
    (∀ (g : Nat) (r : RyPort), r = s.ryPort p → ∃ fs : List Flit, fs.length = r.inbuf.length ∧
      (∀ (i : Nat) (f : Flit), r.inbuf[i]? = some f →
        (f.kind ≠ 1 → fs[i]? = some f) ∧
        (f.kind = 1 → fs[i]? = some { f with
          payload := gcmPayload (SMap.findD r.keys g 0) r.rxIv ((r.inbuf.take i).filter fun y : Flit => y.kind == 1).length f.payload })) ∧
      s.epochGood p g = fs.foldl (fun (t : State) f => t.release p f) (s.setRy p { r with
        inbuf := [], epochLen := 0, tagFails := 0,
        switchReq := r.switchReq || (g != r.txGen && (SMap.find r.keys g).isSome) })) ∧
    ∀ (r : RyPort) (t : State), r = s.ryPort p → t = s.setRy p { r with
        exp := r.epochStart, epochLen := 0, inbuf := [], tagFails := r.tagFails + 1, nakAt := none } →
      (r.tagFails = 0 → s.epochBad p = t.nakE p) ∧
      (r.tagFails ≠ 0 → s.epochBad p = (t.ryResetSelf p).raise (896 + 16 * p.val + 3) 0 0 none p)

/-- Sending. A port in use that is not paused sends, in this order, the next flit of a replay; a tag that closes an epoch of 31
flits, or an idle one; a control operation that waits; the next units of the first packet whose virtual channel has credit for
them; credit that is owed. With 2,047 flits unacknowledged it sends its acknowledgement in IDLE flits and nothing new. What
follows a SPARE_GO or a RESET_REQ waits for its epoch to close. A flit goes out once the die has room for it, with fewer than
512 flits there or the oldest spilled. An acknowledgement advances the oldest flit kept, and a NAK starts a replay; a replay
past the limit resets the port.
Where it uses what log entries 82, 83, 84 fix, that is the model's choice where they say so. -/
def Obligations.LinkSend : Prop :=
  ∀ (s : State) (p : Fin 12) (r : RyPort), s.up = true → r = s.ryPort p →
    ((r.st ≠ .active ∧ r.st ≠ .spare) ∨ r.paused = true → exec (.flitTransmit p) s = .next s) ∧
    (r.st = .active ∨ r.st = .spare → r.paused = false →
      (∀ q, r.replayFrom = some q → exec (.flitTransmit p) s = .next ((s.replayNext p q).keep s)) ∧
      (r.replayFrom = none →
        (∀ op arg rest, r.ctrl = (op, arg) :: rest → 14 ≤ op → r.txEpoch = 0 → exec (.flitTransmit p) s =
          .next (((s.setRy p { r with ctrl := rest }).ctrlDone p op arg).keep s)) ∧
        ((∀ op arg rest, r.ctrl = (op, arg) :: rest → op < 14) →
        (2047 ≤ r.sent.length → exec (.flitTransmit p) s = .next ((s.sendAck p false).keep s)) ∧
        (r.sent.length < 2047 → ∀ (t : State) (x : RyPort) (owes idle : Bool),
          ((r.sent.filter fun y => !y.spilled).length < 512 ∧ t = s) ∨ s.makeRoom p = (t, true) → x = t.ryPort p →
          x.ctrl = r.ctrl → x.nextOut = r.nextOut → x.keys = r.keys →
          owes = decide (r.retReq + r.retRsp + r.retBulk + r.retMgt ≠ 0) → idle = (r.ctrl.isEmpty && r.nextOut.isNone) →
          (r.keys ≠ [] → 31 ≤ r.txEpoch ∨ (0 < r.txEpoch ∧ idle = true ∧ owes = false) →
            exec (.flitTransmit p) s = .next ((t.sendMac p).keep s)) ∧
          (r.keys = [] ∨ r.txEpoch < 31 →
            (∀ op arg rest, r.ctrl = (op, arg) :: rest → op ≠ 4 → op ≠ 5 → exec (.flitTransmit p) s =
              .next (((t.setRy p { x with ctrl := rest }).sendSeq p (x.ctrlFlit op arg) none).keep s)) ∧
            (∀ op arg rest, r.ctrl = (op, arg) :: rest → op = 4 ∨ op = 5 → r.keys = [] → exec (.flitTransmit p) s =
              .next ((((t.setRy p { x with ctrl := rest }).sendSeq p (x.ctrlFlit op arg) none).ctrlDone p (op + 10) arg).keep s)) ∧
            (∀ y, r.ctrl = [] → r.nextOut = some y → exec (.flitTransmit p) s = .next ((t.sendUnits p y).keep s)) ∧
            (idle = true → owes = true → exec (.flitTransmit p) s =
              .next ((t.sendSeq p (x.ctrlFlit 0 0) none).keep s)) ∧
            (idle = true → owes = false → r.keys = [] ∨ r.txEpoch = 0 → exec (.flitTransmit p) s = .next s)))))) ∧
    (r.st = .active ∨ r.st = .spare →
      (r.unacked ≠ 0 ∨ r.ackDue = true → exec (.ackTimer p) s = .next ((s.sendAck p false).keep s)) ∧
      (r.unacked = 0 → exec (.ackRepeat p) s = .next (((s.setRy p { r with nakAt := none }).sendAck p false).keep s)) ∧
      (∀ x rest, r.sent = x :: rest → exec (.replayTimeout p) s = .next ((s.round p x.flit.seq).keep s))) ∧
    (∀ seq, (max 1 (s.fN F.RYP_REPLAY_CTL_replay_limit p) ≤ r.rounds → s.round p seq = s.ryResetSelf p) ∧
      (r.rounds < max 1 (s.fN F.RYP_REPLAY_CTL_replay_limit p) → s.round p seq = (s.setRy p { r with
        replayFrom := some seq, rounds := r.rounds + 1, ackAt := s.pwr.refTime }).bump F.RYP_ERR_CNT1_replays 1 p)) ∧
    ∀ x, r.nextOut = some x → x ∈ r.outq ∧ min 4 x.left ≤ r.cred x.vc

/-- Training, resets and spare lanes. DETECT with four lanes, equalisation, FEC lock and the exchange of parameters bring a
port to ACTIVE, each only from its own state; a partner with this node's own ID fails the port. A timeout is a failed
attempt: after the retries the port is FAILED, else it resets. RESET ends in DETECT, and a FAILED port that is enabled tries
again. A failing lane goes to the spare where there is one, and resets the port else.
Where it uses what log entries 84, 85 fix, that is the model's choice where they say so. -/
def Obligations.LinkTraining : Prop :=
  ∀ (s : State) (p : Fin 12) (r : RyPort), s.up = true → r = s.ryPort p →
    (∀ (v : Word) (t : State), t = s.wrCodes R.RYP_CFG v p →
      (F.RYP_CFG_enable.on v = true → exec (.rypCfgWrite p v) s = .next ((t.ryKick p).keep s)) ∧
      (F.RYP_CFG_enable.on v = false → exec (.rypCfgWrite p v) s = .next ((t.ryDown p).keep s)) ∧
      ((t.ryPort p).st = .failed → t.ryDown p = t) ∧
      ((t.ryPort p).st ≠ .failed → t.ryDown p = t.setRy p { t.ryPort p with
        st := .down, since := t.pwr.refTime, ctrl := [], paused := false, sparing := none, moving := false, spareTx := none,
        txLine := (0, 0), rxLine := (0, 0, false) })) ∧
    (∀ (on : Bool) (v : Word) (t : State), v = (s.rd R.RYP_LINK_CTL p &&& ~~~2#32) ||| (if on then 2#32 else 0#32) →
      t = s.wrCodes R.RYP_LINK_CTL v p →
      (on = true → exec (.rypDisable p on) s = .next ((t.ryDown p).keep s)) ∧
      (on = false → F.RYP_LINK_CTL_reset.on v = false → exec (.rypDisable p on) s = .next ((t.ryKick p).keep s))) ∧
    (∀ (v : Word) (t : State), v = s.rd R.RYP_LINK_CTL p ||| 1#32 → F.RYP_LINK_CTL_disable.on v = false →
      t = s.wrCodes R.RYP_LINK_CTL v p → exec (.linkReset p) s = .next (((t.ryKick p).ryResetWrite p).keep s)) ∧
    (∀ lanes : Fin 10, r.st = .detect →
      (4 ≤ lanes.val → exec (.partnerDetected p lanes) s = .next ((s.setRy p { r with
        st := .train, since := s.pwr.refTime,
        heardAt := if r.heardAt.isSome then r.heardAt else some s.pwr.refTime }).keep s)) ∧
      (lanes.val < 4 → exec (.partnerDetected p lanes) s = .next s)) ∧
    (r.st = .train → exec (.equalisationDone p) s = .next ((s.ryGo p .align).keep s)) ∧
    (∀ (x8 : BitVec 8) (sp : Bool) (good : List Nat) (x4 : Bool),
      good = (List.range 8).filter (fun k => x8.getLsbD k) ++ (if sp then [8] else []) → r.st = .align →
      x4 = (decide (good.length < 8) || r.capX4) →
      (good.length < 4 → exec (.fecLock p x8 sp) s = .next s) ∧
      (4 ≤ good.length → exec (.fecLock p x8 sp) s = .next ((((s.setRy p { r with
        st := .param, since := s.pwr.refTime, x4 := x4, lanes := good.take (if x4 then 4 else 8), spareTx := none,
        spareLocked := good.length == 9, corrs := [], txLine := (0, 0), rxLine := (0, 0, false) }).fFlag
          F.RYP_LINK_STATUS_spare_used false p).announce p).keep s))) ∧
    (∀ a : Announce,
      (r.st ≠ .param → exec (.paramDone p a) s = .next s) ∧
      (r.st = .param → a.node.val = s.pwr.node →
        exec (.paramDone p a) s = .next (((s.fFlag F.RYP_LINK_STATUS_id_clash true p).ryFail p).keep s)) ∧
      (r.st = .param → a.node.val ≠ s.pwr.node → s.fB F.RYP_CFG_enc_required p = false ∨ r.keys ≠ [] → ∃ t,
        exec (.paramDone p a) s = .next t ∧ (t.ryPort p).st = .active ∧ (t.ryPort p).attempts = 0 ∧
        t.fN F.RYP_LINK_STATUS_peer_node p = a.node.val ∧ t.fB F.RYP_LINK_STATUS_peer_valid p = true ∧
        t.fB F.RYP_ROUTE_STATUS_wiring_error p = !wiringOk s.pwr.node a.node.val p)) ∧
    (r.st = .detect ∨ r.st = .train ∨ r.st = .align ∨ r.st = .param →
      (max 1 (s.fN F.RYP_LINK_CTL_train_retries p) ≤ r.attempts + 1 →
        exec (.trainTimeout p) s = .next ((s.ryFail p).keep s)) ∧
      (r.attempts + 1 < max 1 (s.fN F.RYP_LINK_CTL_train_retries p) → exec (.trainTimeout p) s =
        .next (((s.setRy p { r with attempts := r.attempts + 1 }).ryReset p true).keep s))) ∧
    (r.st = .reset → exec (.resetIdleEnd p) s = .next ((s.ryGo p .detect).keep s)) ∧
    (r.st = .failed → s.fB F.RYP_LINK_CTL_disable p = false →
      exec (.failedRetry p) s = .next ((s.ryBegin p .detect true).keep s)) ∧
    (∀ (lane : Fin 9) (lock : Bool), r.st = .active ∨ r.st = .spare → lock = true ∨ (s.fN F.RYP_SPARE_CTL_threshold p ≠ 0 ∧
        s.fN F.RYP_SPARE_CTL_threshold p ≤ s.corrected p lane) → r.sparing ≠ some lane.val →
      (s.fB F.RYP_LINK_STATUS_spare_used p = false →
        (lane.val ≠ 8 → r.sparing = none → r.spareLocked = true → exec (.laneFailing p lane lock) s =
          .next ((s.setRy p { r with sparing := some lane.val, ctrl := r.ctrl ++ [(3, lane.val)] }).keep s)) ∧
        (lane.val ≠ 8 → r.sparing ≠ none ∨ r.spareLocked = false →
          exec (.laneFailing p lane lock) s = .next ((s.ryResetSelf p).keep s)) ∧
        (lane.val = 8 → exec (.laneFailing p lane lock) s =
          .next (if lock then (s.setRy p { r with spareLocked := false }).keep s else s))) ∧
      (s.fB F.RYP_LINK_STATUS_spare_used p = true →
        (s.fN F.RYP_LINK_STATUS_spared_lane p = lane.val → exec (.laneFailing p lane lock) s = .next s) ∧
        (s.fN F.RYP_LINK_STATUS_spared_lane p ≠ lane.val →
          exec (.laneFailing p lane lock) s = .next ((s.ryResetSelf p).keep s)))) ∧
    (∀ (lane : Nat) (t : State), r.sparing = some lane → r.moving = true →
      t = s.setRy p { r with sparing := none, moving := false, nakAt := none }.traffic →
      exec (.spareDone ⟨p, true⟩) s = .next (((((t.fFlag F.RYP_LINK_STATUS_spare_used true p).fSet
        F.RYP_LINK_STATUS_spared_lane lane p).bump F.RYP_ERR_CNT2_spares 1 p).nakE p).keep s)) ∧
    (r.paused = true → exec (.spareDone ⟨p, false⟩) s = .next ((s.setRy p { r with
      paused := false, replayFrom := r.sent.head?.map (fun x : SentFlit => x.flit.seq) }.traffic).keep s))

/-! ## The Rythar fabric -/

/-- A request that waits at a port. In the device fault state it is answered with that; else it is policed, and one held
waits; a check that fails answers it with an ERR of its status. The check of a handle looks at the table, the generation,
the Dome's state, who may use it, its permission and its length, in that order; that of a window at its Dome's state, the
source node, the Dome, its permission and its size. A request that passes is served, whatever changes after it: bytes come
back as RD_DATA of at most 4 KiB, a write is done line by line and answered with WR_ACK of its length, or with the status of
what was refused. What comes back to the requester. An answer to a message no longer held is discarded and counted. RD_DATA
places a GET's bytes or answers a window's read; WR_ACK counts a PUT's bytes, ends a window's write, or ends the mirroring of
a write; an ERR ends its message with the status it carries, and one of a stale term makes this node an ordinary one; a PONG
ends its PING with the time in nanoseconds; a PING is answered with a PONG. A message without progress ends as
REMOTE_UNREACHABLE, a PING of a reachable node as TIMEOUT; a window request without an answer ends so too.
Where it uses what log entries 63, 86 fix, that is the model's choice where they say so. -/
def Obligations.FabricPackets : Prop :=
  (∀ (s : State) (p : Fin 13), s.up = true →
      (∀ e ∈ [(Instr.hRd p, kHRd, false, State.handleCheck, fun (t : State) (i : Nat) (_ : InPkt) (a : Nat) => State.rdLoop p i a 20 t),
          (.hWr p, kHWr, true, State.handleCheck, fun t i _ a => State.wrLoop p i a 68 t),
          (.wRd p, kWRd, false, State.winCheck, fun t i x a => t.wRead p i x a),
          (.wWr p, kWWr, true, State.winCheck, fun t i x a => t.wWrite p i x a)],
        ∀ (i : Nat) (x : InPkt), s.pktIs p e.2.1 i x →
          (∀ a, x.base = some a → exec e.1 s = .next ((e.2.2.2.2 s i x a).keep s)) ∧
          (x.base = none →
            (s.bel.active = true → exec e.1 s = .next ((s.pktErr p i x stFault).keep s)) ∧
            (s.bel.active = false → ∀ (u : State) (y : InPkt) (o : Origin), (u, y) = s.policePkt p i x e.2.2.1 →
              o = pktOrigin p x.pkt →
              (y.gate = .held → exec e.1 s = .next (u.keep s)) ∧
              (∀ t c, y.gate ≠ .held → e.2.2.2.1 u p y.pkt e.2.2.1 = (t, c) →
                (c = .wait → exec e.1 s = .next (t.keep s)) ∧
                (∀ st, c = .err st → exec e.1 s = .next (((t.dropAns o).pktErr p i y st).keep s)) ∧
                (∀ d, c = .discard d → exec e.1 s = .next ((((t.dropAns o).tdDiscard d).pktGone p i).keep s)) ∧
                (∀ a, c = .dpa a → exec e.1 s = .next ((e.2.2.2.2 ((t.dropAns o).putPkt p i { y with base := some a }) i
                  { y with base := some a } a).keep s)))))) ∧
      (∀ (x : InPkt) (i : Nat) (wr : Bool) (k : Nat), k = (p.val + 16) * 4096 + domeOf x.pkt.ctx →
        (p = 12 ∨ x.gate ≠ .fresh → s.policePkt p i x wr = (s, x)) ∧
        (p ≠ 12 → x.gate = .fresh → (s.bucket .pol k).passable = true → s.policePkt p i x wr =
          ((s.setBucket .pol k ((s.bucket .pol k).debit (s.polCost (p.val + 16) x.pkt.lineCount))).putPkt p i
            { x with gate := .passed }, { x with gate := .passed })) ∧
        (p ≠ 12 → x.gate = .fresh → (s.bucket .pol k).passable = false → (s.bucket .pol k).action = true ∨ wr = true →
          s.policePkt p i x wr = (((s.setBucket .pol k ((s.bucket .pol k).debit (s.polCost (p.val + 16) x.pkt.lineCount))).bump
            F.SHAPER_POL_CNT_demoted).putPkt p i { x with gate := .demoted }, { x with gate := .demoted }))) ∧
      (∀ (k : Pkt) (wr : Bool) (h : Nat), h = k.target.toNat →
        (s.fB F.RYP_HANDLE_CTL_enable = false ∨ h % 65536 = 0 → s.handleCheck p k wr = (s, .err stDenied)) ∧
        ∀ v d c : Nat, s.fB F.RYP_HANDLE_CTL_enable = true → h % 65536 ≠ 0 →
          s.handleShown (pktOrigin p k) (h % 65536) v → d = heDome v → c = domeOf k.ctx →
          (heValid v = false ∨ heGen v ≠ h / 65536 → s.handleCheck p k wr = (s, .err stDenied)) ∧
          (heValid v = true → heGen v = h / 65536 →
            (d ∈ s.sec.armed → s.handleCheck p k wr = (s, .discard d)) ∧
            (d ∉ s.sec.armed → s.domeSt d = .teardown → s.handleCheck p k wr = (s, .err stTeardown)) ∧
            (d ∉ s.sec.armed → s.domeSt d ≠ .teardown →
              (¬ (c = d ∨ (bit v 3 = true ∧ s.member (bits v 16 8) c = true)) ∨ bit v (if wr then 2 else 1) = false →
                s.handleCheck p k wr = (s, .err stDenied)) ∧
              (c = d ∨ (bit v 3 = true ∧ s.member (bits v 16 8) c = true) → bit v (if wr then 2 else 1) = true →
                (bits v 96 32 * 65536 < k.offset + k.length → s.handleCheck p k wr = (s, .err stLength)) ∧
                (k.offset + k.length ≤ bits v 96 32 * 65536 →
                  s.handleCheck p k wr = (s, .dpa (bits v 64 29 * 65536 + k.offset))))))) ∧
      (∀ (k : Pkt) (wr : Bool) (w d : Nat), w = k.target.toNat % 64 → d = s.fN F.RYP_IWIN_CTL_dome 0 w →
        (s.fB F.RYP_IWIN_CTL_enable 0 w = false → s.winCheck p k wr = (s, .err stDenied)) ∧
        (s.fB F.RYP_IWIN_CTL_enable 0 w = true →
          (d ∈ s.sec.armed → s.winCheck p k wr = (s, .discard d)) ∧
          (d ∉ s.sec.armed → s.domeSt d = .teardown → s.winCheck p k wr = (s, .err stTeardown)) ∧
          (d ∉ s.sec.armed → s.domeSt d ≠ .teardown → ∀ ok : Prop,
            ok = ((s.fN F.RYP_IWIN_CTL_src_node 0 w = k.src ∨ s.fB F.RYP_IWIN_CTL_any_src 0 w = true) ∧ domeOf k.ctx = d ∧
              s.fB (if wr then F.RYP_IWIN_CTL_w else F.RYP_IWIN_CTL_r) 0 w = true ∧
              k.offset + 64 ≤ s.fN F.RYP_IWIN_SIZE_cells 0 w * 65536) →
            (ok → s.winCheck p k wr = (s, .dpa (s.fN F.RYP_IWIN_BASE_base_cell 0 w * 65536 + k.offset))) ∧
            (¬ ok → s.winCheck p k wr = (s, .err stDenied))))) ∧
      (∀ (i a : Nat) (x : InPkt) (o : Origin) (u : State), x.base = some a → o = pktOrigin p x.pkt → u = s.dropAns o →
        (s.pktIs p kHRd i x → ∀ off len v m : Nat, off = x.pkt.offset + x.done →
          len = min (x.pkt.length - x.done) (4096 - off % 4096) → x.done < x.pkt.length →
          s.Fetched o (a + x.done) len v m → exec (.hRd p) s = .next ((State.rdLoop p i a 19
            ((u.sendData x off len v m false).putPkt p i { x with done := x.done + len })).keep s)) ∧
        (s.pktIs p kHWr i x → ∀ n : Nat, n = min (x.pkt.length - x.done) (64 - (a + x.done) % 64) → x.done < x.pkt.length →
          (∃ l, (s.engAns o ((a + x.done) / 64) true (rangeBe ((a + x.done) % 64) n)).map EngAns.res = some (.ok l)) →
          exec (.hWr p) s = .next ((State.wrLoop p i a 67 (u.putPkt p i { x with done := x.done + n })).keep s)) ∧
        (s.pktIs p kWRd i x → ∀ v m : Nat, s.Fetched o a 64 v m →
          exec (.wRd p) s = .next (((u.sendData x x.pkt.offset 64 v m true).pktGone p i).keep s)) ∧
        (s.pktIs p kWWr i x → (∃ l, (s.engAns o (a / 64) true x.pkt.be).map EngAns.res = some (.ok l)) →
          exec (.wWr p) s = .next ((u.wrAnswer p i { x with fail := 0 }).keep s)) ∧
        (∀ fuel : Nat, (s.waitingPkts p)[i]? = some x → x.pkt.length ≤ x.done →
          State.rdLoop p i a (fuel + 1) s = s.pktGone p i ∧ State.wrLoop p i a (fuel + 1) s = s.wrAnswer p i x) ∧
        (x.fail = 0 → s.wrAnswer p i x = (s.originate (Pkt.bare x.pkt.src s.pwr.node kWrAck x.pkt.ctx x.pkt.msg x.pkt.offset
          x.pkt.length 0 0) (if x.gate = .demoted then 7 else 1)).pktGone p i) ∧
        (x.fail ≠ 0 → s.wrAnswer p i x = s.pktErr p i x x.fail))) ∧
  (∀ (s : State) (p : Fin 13), s.up = true →
      (∀ e ∈ [(Instr.rdData p, kRdData), (.wrAck p, kWrAck), (.pong p, kPong)], ∀ (i : Nat) (x : InPkt), s.pktIs p e.2 i x →
        (domeOf x.pkt.ctx ∈ s.sec.armed → exec e.1 s = .next (((s.tdDiscard (domeOf x.pkt.ctx)).pktGone p i).keep s)) ∧
        (domeOf x.pkt.ctx ∉ s.sec.armed → SMap.find s.fab.msgs x.pkt.msg = none →
          exec e.1 s = .next ((s.late p i).keep s))) ∧
      (∀ (i : Nat) (x : InPkt) (m : Msg) (n w : Nat) (u : State), s.answers x m → n = x.pkt.msg →
        u = (s.endMsg n).pktGone p i →
        (s.pktIs p kRdData i x →
          (m.kind = .get → exec (.rdData p) s = .next ((s.placeData p i x m).keep s)) ∧
          (∀ (c : Cmd) (mv pva d : Nat) (l : Line), m.kind = .get → s.cmd m.cmd = some c → c.eng = .mover mv →
            x.done < x.pkt.length → pva = c.p 2 + (x.pkt.offset - c.p 1) + x.done → d = x.pkt.length - x.done →
            d ≤ 64 - pva % 64 → s.beatWrote m.cmd c (moverOf mv m.cmd) pva l (rangeBe (pva % 64) d) →
            exec (.rdData p) s = .next ((((s.unitEnd m.cmd (moverOf mv m.cmd)).msgGot n m x.pkt.offset x.pkt.length).pktGone
              p i).keep s)) ∧
          (m.kind = .wrd w → exec (.rdData p) s = .next ((s.owinAnswer p i n (some (x.pkt.lineAt 0 0 64))).keep s))) ∧
        (s.pktIs p kWrAck i x →
          (m.kind = .put →
            exec (.wrAck p) s = .next (((s.msgGot n m x.pkt.offset x.pkt.length).pktGone p i).keep s)) ∧
          (m.kind = .wwr w → exec (.wrAck p) s = .next ((s.owinAnswer p i n (some Line.zero)).keep s)) ∧
          (∀ k line tx, m.kind = .mig k line tx →
            exec (.wrAck p) s = .next ((((s.endMsg n).mirrored k line).pktGone p i).keep s))) ∧
        (s.pktIs p kPong i x → m.kind = .ping →
          exec (.pong p) s = .next ((u.stopCmd m.cmd stOK ((u.pwr.refTime - m.progress) / 3)).keep s)) ∧
        (s.pktIs p kErr i x → x.pkt.status ≠ stStale ∨ s.fB F.RYP_FAB_STATUS_is_queen = false →
          (m.kind = .get ∨ m.kind = .put ∨ m.kind = .ping →
            exec (.err p) s = .next (((s.msgFail n x.pkt.status).pktGone p i).keep s)) ∧
          (m.kind = .wrd w ∨ m.kind = .wwr w → exec (.err p) s = .next ((s.owinAnswer p i n none).keep s)) ∧
          (∀ k line tx, m.kind = .mig k line tx →
            exec (.err p) s = .next ((((s.endMsg n).migLost k).pktGone p i).keep s)))) ∧
      (∀ (i : Nat) (x : InPkt), s.pktIs p kErr i x → x.pkt.status = stStale → s.fB F.RYP_FAB_STATUS_is_queen = true →
        exec (.err p) s = .next ((((s.fFlag F.RYP_FAB_STATUS_is_queen false).fFlag
          F.RYP_FAB_STATUS_queen_valid false).pktGone p i).keep s)) ∧
      (∀ (i : Nat) (x : InPkt), s.pktIs p kPing i x → exec (.pingPacket p) s =
        .next (((s.originate (Pkt.bare x.pkt.src s.pwr.node kPong x.pkt.ctx x.pkt.msg 0 0 0 0) 6).pktGone p i).keep s)) ∧
      (∀ (n : BitVec 16) (m : Msg), SMap.find s.fab.msgs n.toNat = some m →
        (m.kind = .get ∨ m.kind = .put → exec (.msgTimeout n) s = .next ((s.msgFail n.toNat stRemote).keep s)) ∧
        (m.kind = .ping → exec (.msgTimeout n) s =
          .next ((s.msgFail n.toNat (if s.reachable m.node then stTimeout else stRemote)).keep s)) ∧
        (∀ k line tx, m.kind = .mig k line tx →
          exec (.msgTimeout n) s = .next (((s.endMsg n.toNat).migLost k).keep s))) ∧
      (∀ n : BitVec 16, exec (.msgNumberReturn n) s =
        .next ((({ s with fab := { s.fab with retired := SMap.del s.fab.retired n.toNat } } : State).retryWindow).keep s)) ∧
      ∀ (n : BitVec 16) (r : OwinReq), (s.fab.owin.find? fun y => y.msg == n.toNat && y.ans.isNone) = some r →
        exec (.owinTimeout n) s = .next ((s.owinDone r none).keep s))

/-- Forwarding and windows. The first packet that can leave goes to the usable port with the most credit, where there is
credit for all of it and for the bubble of a ring it enters; a packet held without a usable port is dropped, counted, and
its requester told. An outbound or inbound window, and the handle table, are enabled only where the rules allow, and refuse
else. A write of the bypass register drives the held ports named low. -/
def Obligations.ForwardingAndWindows : Prop :=
  ∀ s : State, s.up = true →
    (∀ (x : FwdPkt) (before after : List FwdPkt) (n vc : Nat) (t : State), s.fab.fwd = before ++ x :: after →
      (∀ y ∈ before, s.route y = none) → s.route x = some n → vc = vcOf x.pkt.kind →
      t = ({ s with fab := { s.fab with fwd := before ++ after } } : State).egPut (16 + n) 0 x.cls
        (if x.inPort.isSome then 0 else domeOf x.pkt.ctx) (64 * x.pkt.wire) false (.ry vc x.pkt x.inPort) →
      exec .packetForward s = .next ((t.unhold x).keep s) ∧
      (x.inPort = none ∨ x.held = false → t.unhold x = t) ∧
      (∀ p, x.inPort = some p → x.held = true → t.unhold x = t.giveBack p vc x.pkt.wire)) ∧
    (∀ (x : FwdPkt) (after : List FwdPkt) (vc : Nat), s.fab.fwd = x :: after → vc = vcOf x.pkt.kind → s.usable x ≠ [] →
      (∀ j ∈ s.usable x, x.pkt.wire + 130 ≤ s.freeCred j vc) → ∃ n ∈ s.usable x, exec .packetForward s =
        .next (((({ s with fab := { s.fab with fwd := after } } : State).egPut (16 + n) 0 x.cls
          (if x.inPort.isSome then 0 else domeOf x.pkt.ctx) (64 * x.pkt.wire) false (.ry vc x.pkt x.inPort)).unhold x).keep s)) ∧
    (∀ (x : FwdPkt) (n : Nat), s.route x = some n → n < 12 ∧ (s.ryPort n).st = .active ∧
      s.fB F.RYP_ROUTE_STATUS_wiring_error n = false ∧
      x.pkt.wire + (if x.enters n then 130 else 0) ≤ s.freeCred n (vcOf x.pkt.kind) ∧
      ∀ j ∈ s.usable x, s.freeCred j (vcOf x.pkt.kind) ≤ s.freeCred n (vcOf x.pkt.kind)) ∧
    (∀ (x : FwdPkt) (before after : List FwdPkt) (t : State), s.fab.fwd = before ++ x :: after →
      (∀ y ∈ before, s.usable y ≠ []) → s.usable x = [] →
      t = (({ s with fab := { s.fab with fwd := before ++ after } } : State).bump F.RYP_FAB_CNT_unroutable).lostMsg x.pkt.msgKey →
      exec .routeHoldExpiry s = .next ((t.unhold x).keep s)) ∧
    (∀ (w : Fin 64) (v : Word) (t : State) (b n : Nat), F.RYP_OWIN_CTL_enable.on v = true →
      t = (if F.RYP_OWIN_CTL_refused.on v then s.fFlag F.RYP_OWIN_CTL_refused false 0 w else s) →
      b = t.fN F.RYP_OWIN_BASE_base_cell 0 w → n = t.fN F.RYP_OWIN_SIZE_cells 0 w →
      (b * 65536 < apertureBase ∨ dpaTop < (b + n) * 65536 ∨ n = 0 ∨ F.RYP_OWIN_CTL_node.of v = t.pwr.node →
        exec (.owinEnable w v) s = .next ((t.fFlag F.RYP_OWIN_CTL_refused true 0 w).keep s)) ∧
      (apertureBase ≤ b * 65536 → (b + n) * 65536 ≤ dpaTop → n ≠ 0 → F.RYP_OWIN_CTL_node.of v ≠ t.pwr.node →
        (∀ x < 64, x ≠ w.val → t.fB F.RYP_OWIN_CTL_enable 0 x = false) →
        exec (.owinEnable w v) s = .next ((t.wrCodes R.RYP_OWIN_CTL (v &&& ~~~2#32) 0 w).keep s))) ∧
    (∀ (w : Fin 64) (v : Word) (t : State) (n : Nat), F.RYP_IWIN_CTL_enable.on v = true →
      t = (if F.RYP_IWIN_CTL_refused.on v then s.fFlag F.RYP_IWIN_CTL_refused false 0 w else s) →
      n = t.fN F.RYP_IWIN_SIZE_cells 0 w →
      (F.RYP_IWIN_CTL_dome.of v = 0 ∨ n = 0 ∨ t.hiveBase < (t.fN F.RYP_IWIN_BASE_base_cell 0 w + n) * 65536 →
        exec (.iwinEnable w v) s = .next ((t.fFlag F.RYP_IWIN_CTL_refused true 0 w).keep s)) ∧
      (F.RYP_IWIN_CTL_dome.of v ≠ 0 → n ≠ 0 → (t.fN F.RYP_IWIN_BASE_base_cell 0 w + n) * 65536 ≤ t.hiveBase →
        exec (.iwinEnable w v) s = .next ((t.wrCodes R.RYP_IWIN_CTL (v &&& ~~~0x80000000#32) 0 w).keep s))) ∧
    (s.fB F.RYP_HANDLE_CTL_enable = false →
      ((∀ k < 16, s.handleBase + k * 65536 < s.memTop ∧ s.dome0Cell (s.handleBase + k * 65536) = true) →
        exec .handleTableEnable s = .next ((s.fFlag F.RYP_HANDLE_CTL_enable true).keep s)) ∧
      (¬ (∀ k < 16, s.handleBase + k * 65536 < s.memTop ∧ s.dome0Cell (s.handleBase + k * 65536) = true) →
        exec .handleTableEnable s = .next ((s.fFlag F.RYP_HANDLE_CTL_refused true).keep s))) ∧
    ∀ r : BitVec 6, exec (.bypassRelease r) s =
      .next (((s.fSet F.RYP_BYP_CTL_release r.toNat).fSet F.RYP_BYP_CTL_hold_state (63 - r.toNat)).keep s)

/-- The queen node. Each packet of the protocol is taken from its port and acted on. Of two claims of one term the lower
node is queen, and the other raises its clash; an older term is told so. A node that claims a role tells every node it has
not told. The queen's heartbeat goes to every node, and says whether she accepts updates, which she does alone or while her
successor answers. Missed heartbeats declare the queen lost, and its successor takes over under the next term once it has the
votes. An update takes effect once the successor has it, and is acknowledged; without the successor's answer updates stop.
Where it uses what log entries 14, 87, 88 fix, that is the model's choice where they say so. -/
def Obligations.QueenNode : Prop :=
  ∀ (s : State), s.up = true →
    (∀ (p : Fin 13) (i : Nat) (x : InPkt) (t : State) (q : Nat), s.pktIs p kQueen i x →
      t = s.pktGone p i → q = x.pkt.src → ∀ (m : BitVec 16) (st : Bool) (n : Option (Fin 64)) (u : QUpd) (a : QAns),
        exec (.queenClaim p ⟨m, false⟩) s = .next ((t.claimFrom q m.toNat).keep s) ∧
        exec (.queenClaim p ⟨m, true⟩) s = .next ((t.succFrom q).keep s) ∧
        exec (.lossVote p) s = .next ((t.vote q).keep s) ∧
        exec (.takeover p m) s = .next ((t.takeoverFrom q m.toNat).keep s) ∧
        exec (.queenUpdate p u a) s = .next ((t.queenUpdate q u a).keep s) ∧
        (s.isQueen = false → exec (.heartbeat p m ⟨st, n⟩) s =
          .next ((t.heartbeatFrom q m.toNat st (n.map fun y => y.val)).keep s))) ∧
    (∀ (p : Fin 13) (m : BitVec 16) (st : Bool) (n : Option (Fin 64)), s.isQueen = true →
      exec (.heartbeat p m ⟨st, n⟩) s = .next ((s.sendBeat st).keep s)) ∧
    (∀ (q m : Nat),
      (m < s.term → s.claimFrom q m = s.staleQueen q) ∧
      (s.isQueen = true → m = s.term → q < s.pwr.node → s.claimFrom q m = (s.raise 15).recordQueen q m) ∧
      (s.isQueen = true → m = s.term → s.pwr.node ≤ q → s.claimFrom q m = s) ∧
      (s.term < m → s.claimFrom q m = s.recordQueen q m) ∧
      (s.isQueen = false → s.fB F.RYP_FAB_STATUS_queen_valid = false → m = s.term → s.claimFrom q m = s.recordQueen q m) ∧
      (s.term ≤ 1 → s.succFrom q = s.learnSucc (some q)) ∧ (1 < s.term → s.succFrom q = s) ∧
      (m ≤ s.term → s.takeoverFrom q m = s.staleQueen q) ∧
      (s.term < m → s.takeoverFrom q m = (((s.recordQueen q m).fFlag F.RYP_FAB_STATUS_is_succ false).learnSucc none).fFlag
        F.RYP_FAB_STATUS_alloc_stopped true) ∧
      (m < s.term → ∀ st n, s.heartbeatFrom q m st n = s.staleQueen q)) ∧
    (∀ t : State, t = s.announceRole → ∀ lost : Bool,
      (t.fB F.RYP_QUEEN_CTL_solo = true → s.sendBeat lost = t.queenAll 3) ∧
      (t.fB F.RYP_QUEEN_CTL_solo = false →
        (lost = true ∨ t.successor = none → s.sendBeat lost = (t.fFlag F.RYP_FAB_STATUS_alloc_stopped true).queenAll 3) ∧
        (∀ n, lost = false → t.successor = some n → s.sendBeat lost = (t.fab.reports.foldl
          (fun (w : State) u => (w.sendQueen n 0).applyUpd u) (({ t with fab := { t.fab with reports := [] } } : State).fFlag
            F.RYP_FAB_STATUS_alloc_stopped false)).queenAll 3))) ∧
    (s.isQueen = false → s.fB F.RYP_FAB_STATUS_queen_valid = true → ∀ t : State,
      t = { s with fab := { s.fab with missed := s.fab.missed + 1 } } →
      (s.fab.missed + 1 < max 1 (s.fN F.RYP_QUEEN_CTL_hb_miss) → exec .heartbeatMiss s = .next (t.keep s)) ∧
      (max 1 (s.fN F.RYP_QUEEN_CTL_hb_miss) ≤ s.fab.missed + 1 → ∀ u, u = t.fFlag F.RYP_FAB_STATUS_queen_valid false →
        (s.fB F.RYP_FAB_STATUS_is_succ = true → exec .heartbeatMiss s = .next ((u.vote s.pwr.node).keep s)) ∧
        (s.fB F.RYP_FAB_STATUS_is_succ = false →
          (∀ n, u.successor = some n → exec .heartbeatMiss s = .next ((u.sendQueen n 4).keep s)) ∧
          (u.successor = none → exec .heartbeatMiss s = .next (u.keep s))))) ∧
    (∀ n : Nat, s.fB F.RYP_FAB_STATUS_is_succ = true → ∀ t : State, t = { s with fab := { s.fab with
        votes := if n ∈ s.fab.votes then s.fab.votes else s.fab.votes ++ [n] } } →
      (t.enoughVotes = true → s.vote n = t.takeOver) ∧ (t.enoughVotes = false → s.vote n = t)) ∧
    (∀ (src : Nat) (u : QUpd) (a : QAns),
      (s.isQueen = true →
        (s.fB F.RYP_QUEEN_CTL_solo = true → s.queenUpdate src u a = ((s.applyUpd u).localUpd u).sendQueen src 1) ∧
        (s.fB F.RYP_QUEEN_CTL_solo = false → s.fB F.RYP_FAB_STATUS_alloc_stopped = true → s.queenUpdate src u a = s) ∧
        (s.fB F.RYP_QUEEN_CTL_solo = false → s.fB F.RYP_FAB_STATUS_alloc_stopped = false →
          (s.successor = none → s.queenUpdate src u a = s.fFlag F.RYP_FAB_STATUS_alloc_stopped true) ∧
          ∀ n t, s.successor = some n → t = s.sendQueen n 0 →
            (a = .ok → s.queenUpdate src u a = ((t.applyUpd u).localUpd u).sendQueen src 1) ∧
            (a ≠ .ok → s.queenUpdate src u a = t.fFlag F.RYP_FAB_STATUS_alloc_stopped true))) ∧
      (s.isQueen = false →
        (src ≠ s.fN F.RYP_FAB_STATUS_queen_node → s.queenUpdate src u a = s) ∧
        (src = s.fN F.RYP_FAB_STATUS_queen_node →
          (s.fB F.RYP_FAB_STATUS_is_succ = true → s.queenUpdate src u a = ((s.applyUpd u).localUpd u).sendQueen src 1) ∧
          (s.fB F.RYP_FAB_STATUS_is_succ = false → s.queenUpdate src u a = (s.localUpd u).sendQueen src 1)))) ∧
    ∀ (v : Word) (on : Bool) (t u : State),
      on = (if s.pwr.queenSel then F.RYP_QUEEN_CTL_solo.on v else s.fB F.RYP_QUEEN_CTL_solo) →
      t = (s.wrCodes R.RYP_QUEEN_CTL v).fFlag F.RYP_QUEEN_CTL_solo on →
      u = (t.fSet F.RYP_FAB_STATUS_succ_node (t.successor.getD 0)).fFlag F.RYP_FAB_STATUS_is_succ (!s.isQueen &&
        (if F.RYP_QUEEN_CTL_succ_override.on v then F.RYP_QUEEN_CTL_succ_node.of v == s.pwr.node else s.pwr.succSel)) →
      (s.isQueen = false → exec (.queenCtlWrite v) s = .next (u.keep s)) ∧
      (s.isQueen = true → on = true → exec (.queenCtlWrite v) s =
        .next ((u.fFlag F.RYP_FAB_STATUS_alloc_stopped false).keep s)) ∧
      (s.isQueen = true → on = false → F.RYP_QUEEN_CTL_succ_override.on v = true → F.RYP_QUEEN_CTL_succ_node.of v ≠ s.pwr.node →
        exec (.queenCtlWrite v) s = .next (((u.sendQueen (F.RYP_QUEEN_CTL_succ_node.of v) 6).fFlag
          F.RYP_FAB_STATUS_alloc_stopped false).keep s)) ∧
      (s.isQueen = true → on = false →
        F.RYP_QUEEN_CTL_succ_override.on v = false ∨ F.RYP_QUEEN_CTL_succ_node.of v = s.pwr.node →
        exec (.queenCtlWrite v) s = .next (u.keep s))

/-! ## Egress -/

/-- A link that can start an item sends the one the scheduler picks, whose length is debited from its subscriber's, its
service's and its port's bucket; one that cannot, or for which nothing is eligible, sends nothing. The express item comes
first, then the strict classes in order, then the others in rotation. A subscriber that waits for tokens is passed over. A
refill edge adds each bucket's rate, up to its depth. An enable with rate 0 is refused.
Where it uses what log entry 89 fixes, that is the model's choice where the entry says so. -/
def Obligations.EgressScheduling : Prop :=
  ∀ s : State, s.up = true →
    (∀ (p : Fin 28) (l : Fin 2) (cr : BitVec 4),
      (s.canStart p l = false → exec (.egressPick p l cr) s = .next s) ∧
      (s.canStart p l = true → ∀ (t : State) (o : Option EgItem), s.pick p l cr = (t, o) →
        (∀ x, o = some x → exec (.egressPick p l cr) s = .next (((t.egSend x).egTidy).keep s)) ∧
        (o = none → exec (.egressPick p l cr) s = .next (t.keep s))) ∧
      (∀ x, s.canStart p l = true → s.expressPick p l = some x → s.creditOk cr x = true →
        exec (.egressPick p l cr) s = .next (((s.egSend x).egTidy).keep s)) ∧
      (∀ (x : EgItem) (k : Nat) (d : Int) (w : State), s.canStart p l = true → x ∈ s.eg.items → x.port = p → x.link = l →
        x.cls < 8 → x.express = false → (∀ y ∈ s.eg.items, y.port = p → y.link = l → y = x) → s.creditOk cr x = true →
        (s.bucket .port p).passable = true → (s.bucket .svc (p.val * 8 + x.cls)).passable = true →
        x.dome = 0 ∨ (s.bucket .sub (p.val * 4096 + x.dome)).passable = true → k = p.val * 8 + x.cls →
        d = SMap.findD s.eg.sdef (k * 4096 + x.dome) 0 →
        w = { s with eg := { s.eg with
          sdef := SMap.put s.eg.sdef (k * 4096 + x.dome) ((if d ≤ 0 then d + s.domeWeight x.dome * 1024 else d) - s.counted x),
          lastSub := SMap.put s.eg.lastSub ((p.val * 2 + l.val) * 8 + x.cls) x.dome } } →
        (s.strict p x.cls = true → exec (.egressPick p l cr) s = .next (((w.egSend x).egTidy).keep s)) ∧
        (s.strict p x.cls = false → ∀ (o n : Int) (m : SMap Int), o = SMap.findD s.eg.cdef k 0 →
          n = (if o ≤ 0 then o + s.classWeight p x.cls * 1024 else o) → m = (if o ≤ 0 then SMap.put s.eg.cdef k n else s.eg.cdef) →
          exec (.egressPick p l cr) s = .next (((({ w with eg := { w.eg with
            cdef := SMap.put m k (n - s.counted x), lastCls := SMap.put w.eg.lastCls (p.val * 2 + l.val) x.cls } } : State).egSend x).egTidy).keep s)))) ∧
    (∀ (p l : Nat) (cr : BitVec 4) (x : EgItem), s.expressPick p l = some x → s.creditOk cr x = true →
      s.pick p l cr = (s, some x)) ∧
    (∀ (p l c : Nat) (cr : BitVec 4) (t : State) (x : EgItem), s.classPick p l c cr = (t, some x) →
      x ∈ s.eg.items ∧ x.port = p ∧ x.link = l ∧ x.cls = c ∧ s.eligible cr x = true ∧
      (s.bucket .port p).passable = true ∧ (s.bucket .svc (p * 8 + c)).passable = true ∧
      (x.dome ≠ 0 → (s.bucket .sub (p * 4096 + x.dome)).passable = true)) ∧
    (∀ x : EgItem, (s.egSend x).eg.items = s.eg.items.filter (fun y => y.seq != x.seq) ∧
      ∀ t : State, t = s.egSend x →
        t.bucket .sub (x.port * 4096 + x.dome) = (s.bucket .sub (x.port * 4096 + x.dome)).debit (s.counted x) ∧
        t.bucket .svc (x.port * 8 + x.cls) = (s.bucket .svc (x.port * 8 + x.cls)).debit (s.counted x) ∧
        t.bucket .port x.port = (s.bucket .port x.port).debit (s.counted x)) ∧
    (∃ t, exec .shaperRefill s = .next t ∧ ∀ l k, (l = .sub ∨ l = .pol → k % 4096 ∉ s.eg.resetDomes) →
      t.bucket l k = (s.bucket l k).refill) ∧
    (∀ b : Bucket, (b.newEnable = true → b.enable = true →
        b.refill.tokens = min (b.refill.depthBytes : Int) (b.tokens + b.newRate)) ∧
      (b.newEnable = true → b.enable = false → b.refill.tokens = b.refill.depthBytes) ∧
      b.refill.rate = b.newRate ∧ b.refill.depth = b.newDepth ∧ b.refill.enable = b.newEnable) ∧
    ∀ (v : Word) (l : Level) (k : Nat), s.shaperSel = some (l, k) → l ≠ .pol → F.SHAPER_CTL_refused.on v = false →
      (F.SHAPER_CTL_enable.on v = false →
        exec (.shaperCtlWrite v) s = .next ((s.setBucket l k { s.bucket l k with newEnable := false }).keep s)) ∧
      (F.SHAPER_CTL_enable.on v = true → (s.bucket l k).newRate = 0 →
        exec (.shaperCtlWrite v) s = .next ((s.setBucket l k { s.bucket l k with refused := true }).keep s)) ∧
      (F.SHAPER_CTL_enable.on v = true → (s.bucket l k).newRate ≠ 0 →
        exec (.shaperCtlWrite v) s = .next ((s.setBucket l k { s.bucket l k with newEnable := true }).keep s))

/-! ## The security root -/

/-- The security root answers every request with a response. KEY_DELIVER is decided by its checks in order: a session not
bound to the Dome, a payload out of format, a link key in use, a Dome that is free or in teardown, a slot that is not empty,
the queen's refusal; then the key is installed; a link's key needs a session bound to Dome 0. Its response names the Dome, the status and the slot. SPDM's own requests
open, close and read; a session past the 256th is turned away. Bindings, link generations and sweeps. A binding is committed
for a Dome that is FREE and not 0, and is refused else. A link switches to a generation that is LIVE, at once between epochs
and at the epoch's end else. A sweep with leave turns its cell's generation over once, then re-encrypts line after line
under each line's lock; an invalid line is passed over, and with the last line the sweep is over.
Where it uses what log entries 58, 65, 90, 91, 109 fix, that is the model's choice where they say so. -/
def Obligations.SecurityRoot : Prop :=
  (∀ (s : State), s.up1 = true →
      (∀ (x : Fin 256) (m : BitVec 640) (a : QAns) (r : State × Nat),
        r = (if s.pwr.frozen = true then (s, stBusy) else s.keyDeliverSt x m a) → exec (.keyDeliver x m a) s =
          .next ((State.reply (r.1, ⟨0x4B81, r.2, [bits m.toNat 16 12, r.1.kdSlot m]⟩)).keep s)) ∧
      (∀ (x : Nat) (m : BitVec 640) (a : QAns) (d g p c : Nat), c = (if kdBytes m 4 1 = 1 then 0 else d) → d = bits m.toNat 16 12 → g = bits m.toNat 40 1 →
        p = bits m.toNat 48 4 →
        (s.sessBound x c = false → s.keyDeliverSt x m a = (s, stDenied)) ∧
        (s.sessBound x c = true →
          (kdFormatBad m = true → s.keyDeliverSt x m a = (s, stFormat)) ∧
          (kdFormatBad m = false → kdBytes m 4 1 = 1 →
            (s.linkKeyBusy p g = true → s.keyDeliverSt x m a = (s, stBusy)) ∧
            (s.linkKeyBusy p g = false →
              s.keyDeliverSt x m a = (s.putLinkKey p g (BitVec.ofNat 256 (kdBytes m 8 32)), stOK))) ∧
          (kdFormatBad m = false → kdBytes m 4 1 ≠ 1 →
            (s.domeSt d = .free → s.keyDeliverSt x m a = (s, stDenied)) ∧
            (s.domeSt d = .teardown → s.keyDeliverSt x m a = (s, stTeardown)) ∧
            (s.domeSt d = .active → (s.keySlot d g).st ≠ .empty → s.keyDeliverSt x m a = (s, stBusy)) ∧
            (∀ t, s.domeSt d = .active → (s.keySlot d g).st = .empty → s.queenAgrees a = true → t = (s.queenAsk a).1 →
              s.keyDeliverSt x m a = (t.putKey d g (BitVec.ofNat 512 (kdBytes m 8 64)), stOK))))) ∧
      exec .getVersion s = .next ((s.emit (.spdm 0x04 0 [0x12])).keep s) ∧
      exec .getCertificate s =
        .next ((s.emit (.spdm 0x02 0 (if s.fB F.SEC_STATUS_chain_mismatch then [] else s.sec.chain))).keep s) ∧
      (∀ (ma : Bool) (dg : BitVec 384),
        (∀ k, SMap.firstFree s.sec.sessions 256 = some k → exec (.keyExchange ma dg) s =
          .next ((({ s with sec := { s.sec with sessions := SMap.put s.sec.sessions k ⟨ma, dg⟩ } } : State).emit
            (.spdm 0x64 0 [k])).keep s)) ∧
        (SMap.firstFree s.sec.sessions 256 = none →
          exec (.keyExchange ma dg) s = .next ((s.emit (.spdm 0x7F 0x03 [])).keep s))) ∧
      (∀ k : Fin 256, (SMap.find s.sec.sessions k.val).isSome = true → exec (.spdmRequest (.endSession k)) s =
        .next ((({ s with sec := { s.sec with sessions := SMap.del s.sec.sessions k } } : State).emit
          (.spdm 0x6C 0 [])).keep s)) ∧
      ∀ (i : BitVec 8) (g : BitVec 384), SMap.find s.cores.meas i.toNat = some g → exec (.spdmRequest (.measurement i)) s =
        .next ((s.emit (.spdm 0x60 0 ((List.range 48).map fun j => bits g.toNat (8 * j) 8))).keep s)) ∧
  (∀ s : State, s.up = true →
      (∀ (d : Nat) (t : State), t = s.wrCodes R.SEC_BIND_CTL 1 → d = t.fN F.SEC_DOME_IDX_dome →
        (d = 0 ∨ t.domeSt d ≠ .free → exec .bindCommit s = .next ((t.fFlag F.SEC_BIND_CTL_refused true).keep s)) ∧
        (d ≠ 0 → t.domeSt d = .free → exec .bindCommit s =
          .next ((({ t with sec := { t.sec with bind := SMap.put t.sec.bind d t.bindStaged } } : State).fFlag
            F.SEC_BIND_CTL_refused false).keep s))) ∧
      (∀ (p : Fin 12) (r : RyPort), r = s.ryPort p →
        (SMap.find r.keys (1 - r.txGen) = none → exec (.linkKeySwitch p) s = .next s) ∧
        (SMap.find r.keys (1 - r.txGen) ≠ none → r.txEpoch = 0 → exec (.linkKeySwitch p) s =
          .next ((s.setRy p { r with txGen := 1 - r.txGen, switchReq := false }).keep s)) ∧
        (SMap.find r.keys (1 - r.txGen) ≠ none → r.txEpoch ≠ 0 → exec (.linkKeySwitch p) s =
          .next ((s.setRy p { r with switchReq := true }).keep s))) ∧
      (∀ (cell : Fin 536870912) (w : Sweep), (s.sec.sweeps.find? fun y => y.cell == cell.val) = some w →
        (s.hasLeave (.sweep cell) = false ∨ s.slotOf cell ≠ none → exec (.sweepCell cell) s = .next s) ∧
        (s.hasLeave (.sweep cell) = true → s.slotOf cell = none →
          (∀ r, w.ptr < 1024 → r = State.sweepFrom cell 2100 s →
            exec (.sweepCell cell) s = .next ((if r.2 then r.1.sweepEnded w else r.1).keep s)) ∧
          (w.ptr = 1024 → s.entryFree cell = false → exec (.sweepCell cell) s = .next s) ∧
          (∀ t (x : Sweep) r, w.ptr = 1024 → t = s.sweepStart w → (t.sec.sweeps.find? fun y => y.cell == cell.val) = some x →
            x.ptr < 1024 → r = State.sweepFrom cell 2100 t →
            exec (.sweepCell cell) s = .next ((if r.2 then r.1.sweepEnded x else r.1).keep s)) ∧
          (∀ (x : Tx) (l : Line) (ch loc line : Nat), w.ptr = 1023 → line = cell * 1024 + 1023 →
            s.locate (line * 64) = some (ch, loc) → s.chSt ch = .ok → s.engAns (.sweep cell) line false fullBe = none →
            s.engTx (.sweep cell) line false fullBe = some x → x.stage = .engine → x.got = some (.ok l) →
            exec (.sweepCell cell) s = .next (((s.sweepStore w x l ch loc).sweepEnded w).keep s)))) ∧
      (∀ (w : Sweep) (t : State) (e : Word), s.entryFree w.cell = true → s.loadEntry w.cell (.of 35) = (t, some (some e)) →
        s.sweepStart w = (t.putEntry w.cell (e ^^^ 0x2000) (.of 35)).putSweep { w with ptr := 0 }) ∧
      (∀ (cell fuel : Nat) (w : Sweep) (r : State × Bool), (s.sec.sweeps.find? fun y => y.cell == cell) = some w →
        (1024 ≤ w.ptr → State.sweepFrom cell (fuel + 1) s = (s, true)) ∧
        (w.ptr < 1024 → r = s.sweepLine w →
          State.sweepFrom cell (fuel + 1) s = (if r.2 then State.sweepFrom cell fuel r.1 else (r.1, false)))) ∧
      (∀ (w : Sweep) (ch loc line : Nat) (o : Origin), o = .sweep w.cell → line = w.cell * 1024 + w.ptr →
        s.locate (line * 64) = some (ch, loc) →
        (s.engAns o line false fullBe ≠ none → s.sweepLine w = ((s.dropAns o).sweepSkip w, true)) ∧
        (s.engAns o line false fullBe = none →
          (∀ (t : Tx) (l : Line), s.engTx o line false fullBe = some t → t.stage = .engine → t.got = some (.ok l) →
            (s.chSt ch = .ok → s.sweepLine w = (s.sweepStore w t l ch loc, true)) ∧
            (s.chSt ch = .failed → s.sweepLine w = ((s.dropTx t).sweepSkip w, true)) ∧
            (s.chSt ch = .maint → s.sweepLine w = (s, false))) ∧
          (s.engTx o line false fullBe = none →
            (s.chSt ch = .maint → s.sweepLine w = (s, false)) ∧
            (s.chSt ch = .failed → s.sweepLine w = (s.sweepSkip w, true)) ∧
            (s.chSt ch = .ok → ∀ r, r = s.loadValid line (.of 35) →
              (r.2 = some false → s.sweepLine w = (r.1.sweepSkip w, true)) ∧
              (r.2 ≠ some false → (s.sweepLine w).1 =
                r.1.engEnter { newTx .rdCur o 0 line 35 with maint := true, upd := true }))))))

/-- The teardown of a Dome, step by step. It begins, with the queen's leave, by setting the Dome to TEARDOWN; Dome 0, a FREE
Dome and one in TEARDOWN are refused. Once the Dome has nothing running its discard is armed and its lines are recalled; a
drain that takes too long abandons what still runs and goes on. With nothing held any more its handles, cells, groups and
keys go, and its number is free, after an overwrite of its cells where that is asked.
Where it uses what log entries 65, 92 fix, that is the model's choice where they say so. -/
def Obligations.TeardownSteps : Prop :=
  ∀ (s u : State) (d : Fin 4096) (t : Teardown), s.up = true →
    (∀ (k : Fin 16385) (c r : Cmd) (a : QAns), s.FwHolds k 0x09 c → r = { c with st := .running } → u = s.putCmd k r →
      c.pos = 0 →
      (c.subject = 0 ∨ s.domeSt c.subject = .free →
        exec (.domeTeardown k a) s = .next ((u.replied k stFormat 0).keep s)) ∧
      (c.subject ≠ 0 → s.domeSt c.subject = .teardown →
        exec (.domeTeardown k a) s = .next ((u.replied k stBusy 0).keep s)) ∧
      (∀ w, c.subject ≠ 0 → s.domeSt c.subject = .active → u.queenAgrees a = true → w = (u.queenAsk a).1 → exec (.domeTeardown k a) s =
        .next ((((w.putCmd k { r with pos := 1 }).tdStart c.subject (c.pb 1 0 32) (c.pb 2 0 1 != 0) (some k.val)).blocked
          k).keep s))) ∧
    (SMap.find s.sec.teardowns d.val = some t →
      (∀ w : State, t.step = 1 → (w = s ∧ ∀ e ∈ s.honey.mig, e.2.dome ≠ d.val) ∨ w = s.tdMigs d →
        (w.tdDrained d t = true → exec (.teardownDrainDone d) s =
          .next (((({ w with sec := { w.sec with armed := w.sec.armed ++ [d.val] } } : State).putTd d
            { t with step := 3 }).tdRecall d).keep s)) ∧
        (w.tdDrained d t = false → exec (.teardownDrainDone d) s = .next (w.keep s))) ∧
      (t.step ≠ 1 → exec (.teardownDrainDone d) s = .next s) ∧
      (∀ (cs : List (Nat × Cmd)) (w : State), t.step = 1 → t.timedOut = false →
        cs = (s.tdCmds d t.cmd).filter (fun e => e.2.st != .done) →
        w = (cs.foldl (fun (x : State) e => x.tdAbandon e.1) s).tdSweeps d →
        exec (.drainTimeout d) s = .next ((((((w.bump F.SEC_TD_CNT_aborted cs.length).raise 14 0 d none d).putTd d
          { t with timedOut := true, aborted := t.aborted + cs.length }).tdDrainDone d)).keep s)) ∧
      (t.step = 3 →
        (s.tdSnoops d ≠ [] ∨ s.tdHeld d ≠ [] → s.tdNext d t = (s.tdRecall d, false) ∧
          ∀ o : TdRest, exec (.teardownRecallDone d o) s = .next ((s.tdRecall d).keep s)) ∧
        (s.tdSnoops d = [] → s.tdHeld d = [] → s.tdNext d t = (s.putTd d { t with step := 4, cells := s.tdCells d }, true))) ∧
      (t.step = 4 → ∀ w, w = s.tdRelease (s.tdCells d) →
        (w.tdCells d = [] → w.copying = false →
          s.tdNext d t = ((w.tdGroups d).putTd d { t with step := 5, mark := w.home.nextId }, true)) ∧
        (w.tdCells d ≠ [] ∨ w.copying = true → s.tdNext d t = (w, false))) ∧
      (t.step = 5 →
        (s.drainedTo t.mark = true → s.tdNext d t = ((s.tdKeys d).putTd d { t with step := 6 }, true)) ∧
        (s.drainedTo t.mark = false → s.tdNext d t = (s, false))) ∧
      (t.step = 6 ∨ t.step = 7 → s.comb.inval ≠ none → s.tdNext d t = (s, false)) ∧
      (t.step = 6 → s.comb.inval = none → s.fB F.RYP_HANDLE_CTL_enable = false →
        s.tdNext d t = (((s.dropAns (.teardown d)).tdChip d).putTd d { t with step := 7 }, true)) ∧
      (∀ r, t.step = 6 → s.comb.inval = none → s.fB F.RYP_HANDLE_CTL_enable = true → r = State.tdHandles d 65535 s 1 →
        s.tdNext d t = (if r.2 then ((r.1.dropAns (.teardown d)).tdChip d).putTd d { t with step := 7 } else r.1, r.2)) ∧
      (∀ (o : TdRest) (y : Teardown) (w : State), t.step = 7 → s.comb.inval = none → y = { t with step := 8 } → w = s.putTd d y →
        (t.overwrite = false → exec (.teardownRecallDone d o) s = .next ((w.tdFinish d y o).keep s)) ∧
        (t.overwrite = true → exec (.teardownRecallDone d o) s = .next (((({ w with sec := { w.sec with
          overwrite := w.sec.overwrite ++ [(d.val, t.cells)] } } : State).putTd d { t with step := 9 }).pguAsk 8
            (.overwrite d)).keep s))) ∧
      (∀ (o : TdRest) (w : State), t.step = 9 → s.hasLeave (.overwrite d) = true →
        w = (s.tdOverwrite t.cells).pguReturn (.overwrite d) → exec (.overwritePassDone d o) s =
          .next ((({ w with sec := { w.sec with overwrite := w.sec.overwrite.filter fun x => x.1 != d.val } } :
            State).tdFinish d t o).keep s))) ∧
    (∀ (e fuel : Nat) (y : Teardown) (r : State × Bool), SMap.find s.sec.teardowns e = some y → r = s.tdNext e y →
      State.tdGo e (fuel + 1) s = (if r.2 then State.tdGo e fuel r.1 else r.1)) ∧
    (∀ (o : TdRest) (w : State) (y : Teardown), w = State.tdGo d 6 s → SMap.find w.sec.teardowns d.val = some y → y.step ≠ 8 →
      exec (.teardownRecallDone d o) s = .next (w.keep s)) ∧
    (∀ e : Nat, e ≠ 0 → (s.domeFreed e).domeSt e = .free ∧ (∀ q ∈ (s.domeFreed e).q.desc, q.2.dome ≠ e) ∧
      SMap.find (s.domeFreed e).sec.bind e = none ∧ e ∉ (s.domeFreed e).sec.armed) ∧
    ∀ e g : Nat, e ≠ 0 → g < 2 → (s.tdKeys e).keySlot e g = ⟨.empty, 0⟩

/-! ## Faults and interrupts -/

/-- Faults. In one reference cycle each source delivers its oldest event, in ascending order of sources. A fault's actions
are its source's under its class's mask with the class's forced ones. A fault that merges is added to its record; one that
does not gets the lowest free slot, and none free adds it to its class's overflow summary. A pair found invalid is broken
and delivers a wire fault, once. Injecting raises the source's fault; a broken pair that reads valid is cleared. Records,
overflow and the device fault state. REC_NEXT gives the oldest record not read and marks it read. REC_CLOSE appends a record
to the archive ring, at the next of its places. Reading an overflow count clears its summary. Entering the state raises its
interrupt, and latches where the limit is reached; while the quiet timer runs its expiry leaves the state and counts a
recovery; CLR_COUNT clears the count.
Where it uses what log entry 93 fixes, that is the model's choice where the entry says so. -/
def Obligations.FaultsAndRecords : Prop :=
  (∀ s : State, s.up = true →
      exec .faultEvent s = .next ((s.dueEvts.foldl (fun (t : State) e => t.faultIn e)
        ({ s with bel := { s.bel with evts := s.dueEvts.foldl (fun l e => l.erase e) s.bel.evts } })).keep s) ∧
      ((∀ e ∈ s.dueEvts, e ∈ s.bel.evts ∧ s.srcDriven e.src = true ∧ s.srcBroken e.src = false) ∧
        (s.dueEvts.map fun e => e.src).Pairwise fun a b => a < b) ∧
      (∀ (n : Fin 1536) (stays : Bool),
        (s.srcDriven n = false → exec (.wireFault n stays) s = .next s) ∧
        (s.srcDriven n = true → s.srcBroken n = true → exec (.wireFault n stays) s = .next ((s.setPair n ⟨stays, true⟩).keep s)) ∧
        (s.srcDriven n = true → s.srcBroken n = false → exec (.wireFault n stays) s =
          .next (((s.setPair n ⟨stays, true⟩).faultIn ⟨n, 0, 0, none, 0, 1, true⟩).keep s))) ∧
      (∀ (n : Nat) (x : Nat × Nat × Bool) (v new : Word) (t : State), n = s.fN F.BELFRY_SRC_IDX_source → srcInfo n = some x →
        v = s.srcCfg n ||| 0x40000000 → F.BELFRY_SRC_CFG_broken.on v = false →
        new = (s.srcCfg n &&& ~~~0xF81#32) ||| (v &&& 0xF80) ||| (if x.1 = 2 then 1 else v &&& 1) →
        t = { s with bel := { s.bel with cfg := SMap.store s.bel.cfg (srcCfgReset n) n new } } →
        exec .faultInject s = .next ((t.raise n).keep s)) ∧
      (∀ (n : Nat) (x : Nat × Nat × Bool) (t : State), n = s.fN F.BELFRY_SRC_IDX_source → srcInfo n = some x →
        s.srcBroken n = true → exec (.brokenClear false) s = .next t → t.srcBroken n = false) ∧
      (∀ (invalid : Bool) (n : Nat) (u : State), n = s.fN F.BELFRY_SRC_IDX_source →
        u = (if s.srcBroken n = true then s.setPair n ⟨invalid, true⟩ else s) →
        (srcInfo n = none → exec (.brokenClear invalid) s = .next (u.keep s)) ∧
        ∀ (x : Nat × Nat × Bool) (v new : Word) (t : State), srcInfo n = some x → v = s.srcCfg n ||| 0x80000000 →
          F.BELFRY_SRC_CFG_inject.on v = false →
          new = (s.srcCfg n &&& ~~~0xF81#32) ||| (v &&& 0xF80) ||| (if x.1 = 2 then 1 else v &&& 1) →
          t = { u with bel := { u.bel with cfg := SMap.store u.bel.cfg (srcCfgReset n) n new } } →
          (s.srcBroken n = true → invalid = true → exec (.brokenClear invalid) s = .next (t.keep s)) ∧
          (s.srcBroken n = true → invalid = false →
            exec (.brokenClear invalid) s = .next ((t.setPair n ⟨false, false⟩).keep s)) ∧
          (s.srcBroken n = false → exec (.brokenClear invalid) s =
            .next ((if (SMap.findD s.bel.pairs n ⟨false, false⟩).invalid = true then t else t.setPair n ⟨false, false⟩).keep s))) ∧
      (∀ (invalid : Bool), ∃ t, exec (.brokenClear invalid) s = .next t ∧ t.home = s.home ∧ t.chans = s.chans) ∧
      (∀ e : FaultEvt, e.wire = false →
        (s.faultActs e).1 = bits (s.srcCfg e.src).toNat 1 3 ∧
        ∀ i < 5, bit (s.faultActs e).2 i = ((bit (s.srcCfg e.src).toNat (7 + i) &&
          bit (s.rd R.BELFRY_CLASS_ACT 0 (s.faultActs e).1).toNat i) ||
            bit (s.rd R.BELFRY_CLASS_ACT 0 (s.faultActs e).1).toNat (8 + i))) ∧
      (∀ (e : FaultEvt) (cls acts : Nat),
        (∀ k, SMap.firstFree s.bel.recs 512 = some k → ∃ r t, s.newRec cls e acts = t ∧ SMap.find t.bel.recs k = some r ∧
          r.src = e.src ∧ r.cls = cls ∧ r.addr = e.addr ∧ r.dome = e.dome ∧ r.ctx = e.ctx ∧ r.seq = s.bel.seq ∧
          r.read = false ∧ t.bel.seq = s.bel.seq + 1) ∧
        (SMap.firstFree s.bel.recs 512 = none → s.newRec cls e acts = s.overflowRec cls e.src e.count)) ∧
      ∀ (r : FaultRec) (e : FaultEvt), (r.merge e).merges = min 0xFFFF (r.merges + e.count) ∧
        ((r.merge e).multi = true ↔ r.multi = true ∨ r.src ≠ e.src ∨ r.addr ≠ e.addr ∨ r.ctx ≠ e.ctx)) ∧
  (∀ s : State, s.up = true →
      (∀ t, t = s.recTidy →
        (∀ k r, oldestRec (t.bel.recs.filter fun e => !e.2.read) = some (k, r) → exec .recNext s =
          .next (((t.putRec k { r with read := true }).emit (.csr (R.BELFRY_REC_NEXT.addr 0 0) (BitVec.ofNat 32 (2 ^ 31 + k)))).keep
            s)) ∧
        ((∀ e ∈ t.bel.recs, e.2.read = true) →
          exec .recNext s = .next ((t.emit (.csr (R.BELFRY_REC_NEXT.addr 0 0) 0)).keep s)) ∧
        (∀ (k : Fin 512) (r : FaultRec) (u v : State) (a : Nat), SMap.find t.bel.recs k = some r → r.arch = none → a = t.bel.archNext →
          u = t.putRec k { r with arch := some a } →
          v = { u with bel := { u.bel with archNext := (a + 1) % 2 ^ 21,
                                           archWrapped := u.bel.archWrapped || ((a + 1) % 2 ^ 21 == 0) } } →
          exec (.recClose k) s = .next (((v.deviceTx { newTx .plainWr .device 0 (v.archiveAddr a / 64) 33 with
            wdata := ⟨BitVec.ofNat 512 (r.image * 2 ^ (256 * (a % 2))), 0⟩
            be := rangeBe (32 * (a % 2)) 32
            fill := some 0
            maint := true }).recTidy).keep s)) ∧
        (∀ (k : Fin 512), (SMap.find t.bel.recs k = none ∨ ∃ r a, SMap.find t.bel.recs k = some r ∧ r.arch = some a) →
          exec (.recClose k) s = .next (t.keep s))) ∧
      (∀ (k : Nat) (r : FaultRec) (l : List (Nat × FaultRec)), oldestRec l = some (k, r) →
        (k, r) ∈ l ∧ ∀ e ∈ l, r.seq ≤ e.2.seq) ∧
      (∀ (c : Fin 5) (o : OvfSum), o = SMap.findD s.bel.ovf c ⟨0, false, 0, 0⟩ → exec (.ovfCntRead c) s =
        .next ((({ s with bel := { s.bel with ovf := SMap.del s.bel.ovf c } } : State).emit
          (.csr (R.BELFRY_OVF_CNT.addr 0 c) (BitVec.ofNat 32 o.lost))).keep s)) ∧
      (s.quietRuns = true → exec .quietExpiry s = .next (((({ s with bel := { s.bel with
        active := false, recoveries := min 0xFFFF (s.bel.recoveries + 1) } } : State).wagEvent 7).redispatch).keep s)) ∧
      (s.quietRuns = false → exec .quietExpiry s = .next s) ∧
      (∃ t, exec .clrCount s = .next t ∧ t.bel = { s.bel with recoveries := 0 }) ∧
      (s.bel.active = true → s.dfsFault = s) ∧
      (s.bel.active = false → (s.dfsFault).bel.active = true ∧ (s.dfsFault).bel.latched = s.dfsLatches))

/-- R336: a write of EOI takes the source out of service at its core, whatever its place, and the running level is then the
highest level of what is left in service there; a source not in service is ignored and sets eoi_error. -/
def Obligations.EndOfInterrupt : Prop :=
  ∀ (s : State) (k : Fin 24) (n : BitVec 12), s.up = true →
    ((k.val, n.toNat) ∈ s.wag.service → ∃ t, exec (.eoi k n) s = .next t ∧
      t = { s with wag := { s.wag with service := s.wag.service.filter fun e => e != (k.val, n.toNat) } } ∧
      (∀ m, (k.val, m) ∈ t.wag.service → (t.wsrc m).level ≤ t.runLevel k) ∧
      (t.runLevel k = 0 ∨ ∃ m, (k.val, m) ∈ t.wag.service ∧ (t.wsrc m).level = t.runLevel k)) ∧
    ((k.val, n.toNat) ∉ s.wag.service →
      exec (.eoi k n) s = .next (s.fFlag F.WAGGLE_CORE_THRESH_eoi_error true 0 k))

/-- A claim gives the pending source of the highest level above the core's priority, the lowest of equals, takes its count
to 0 and puts it in service. A software trigger counts an event on a source from 128 on and on no other. Groups, vectors and
timers. A hold-off other than 0 is accepted only for a timer reserved to the group; it begins with a claim and ends with that
timer, which raises its own source. A vector whose mask is lifted while it
is pending sends its message. A timer that reaches 0 raises its source, and runs on where it is periodic. A timer is taken
over only while it is free, and let go only while no hold-off names it.
Where it uses what log entry 80 fixes, that is the model's choice where the entry says so. -/
def Obligations.InterruptsAndTimers : Prop :=
  (∀ (s : State) (k : Fin 24), s.up = true →
      (∀ n, s.claimPick k = some n → (s.wPending n = true ∧ (s.wsrc n).targets.getLsbD k = true ∧
          s.corePrio k < (s.wsrc n).level) ∧
        ∀ m ∈ s.wCands, s.wPending m = true → (s.wsrc m).targets.getLsbD k = true → s.corePrio k < (s.wsrc m).level →
          (s.wsrc m).level ≤ (s.wsrc n).level ∧ ((s.wsrc m).level = (s.wsrc n).level → n ≤ m)) ∧
      (s.claimPick k = none → exec (.claim k) s = .next ((s.emit (.csr (R.WAGGLE_CORE_CLAIM.addr 0 k) 0)).keep s)) ∧
      (∀ (n : Nat) (w : WSrc) (t : State), s.claimPick k = some n → w = s.wsrc n → t = s.setWsrc n { w with count := 0, lastCore := k } →
        ∀ u : State, u = { t with wag := { t.wag with service := t.wag.service ++ [(k.val, n)] } } →
        exec (.claim k) s = .next (((u.holdoffBegin w.group).emit (.csr (R.WAGGLE_CORE_CLAIM.addr 0 k)
          (BitVec.ofNat 32 (2 ^ 31 + w.level * 2 ^ 26 + (if n = 8 then 1 else w.count) * 2 ^ 18 + n)))).keep s)) ∧
      (∀ m ∈ s.wCands, s.wPending m = true → (s.wsrc m).targets.getLsbD k = true → s.corePrio k < (s.wsrc m).level →
        s.claimPick k ≠ none) ∧
      (∀ (g : Nat) (x : WGroup), x = s.wgroup g →
        (x.holdoff = 0 → s.holdoffBegin g = s) ∧
        (x.holdoff ≠ 0 → s.holdoffBegin g = (s.setWgroup g { x with heldSince := some s.pwr.refTime }).setTimer x.timer
          { s.timer x.timer with run := true, left := x.holdoff, since := s.pwr.refTime })) ∧
      (∀ n : BitVec 12,
        (128 ≤ n.toNat → exec (.swtrig n) s = .next ((s.wagEvent n.toNat).keep s)) ∧
        (n.toNat < 128 → exec (.swtrig n) s = .next s))) ∧
  (∀ s : State, s.up = true →
      (∀ (v : Word) (g h t : Nat), g = s.fN F.WAGGLE_GRP_IDX_group → h = F.WAGGLE_GRP_CFG_holdoff.of v →
        t = F.WAGGLE_GRP_CFG_timer.of v →
        (h ≠ 0 → (s.timer t).owner ≠ 0x1000 + g →
          exec (.grpCfgWrite v) s = .next ((s.setWgroup g { s.wgroup g with refused := true }).keep s)) ∧
        (h = 0 ∨ (s.timer t).owner = 0x1000 + g → exec (.grpCfgWrite v) s =
          .next ((s.setWgroup g { s.wgroup g with holdoff := h, timer := t, refused := false }).keep s))) ∧
      (∀ (g : Fin 128) (x : WGroup), x = s.wgroup g →
        (x.heldSince = none → exec (.holdoffExpiry g) s = .next s) ∧
        (x.heldSince ≠ none → exec (.holdoffExpiry g) s = .next ((((s.setWgroup g { x with heldSince := none }).setTimer x.timer
          { s.timer x.timer with run := false, left := 0 }).wagEvent (64 + x.timer)).keep s))) ∧
      (∀ (d n : Nat) (x : Vec), s.vecIdx = (d, n) → x = s.vec d n → x.port < 16 → x.link < 2 → x.dest < 4096 → ∀ t,
        t = s.setVec d n { x with mask := false } →
        (x.pending = true → exec .msixUnmask s = .next ((t.vecSend d n).keep s)) ∧
        (x.pending = false → exec .msixUnmask s = .next (t.keep s))) ∧
      (∀ (t : Fin 64) (x : Timer), x = s.timer t →
        (x.run = false → exec (.timerExpiry t) s = .next s) ∧
        (x.run = true → x.periodic = true → exec (.timerExpiry t) s =
          .next (((s.setTimer t (x.start s.pwr.refTime)).wagEvent (64 + t.val)).keep s)) ∧
        (x.run = true → x.periodic = false → exec (.timerExpiry t) s =
          .next (((s.setTimer t { x with run := false, left := 0 }).wagEvent (64 + t.val)).keep s))) ∧
      ∀ (v : Word) (t o : Nat) (x : Timer), t = s.fN F.WAGGLE_TMR_IDX_timer → x = s.timer t → o = F.WAGGLE_TMR_OWNER_owner.of v →
        (o = x.owner ∨ x.owner = 0 ∨ (o = 0 ∧ s.timerHeld t = false) →
          exec (.tmrOwnerWrite v) s = .next ((s.setTimer t { x with owner := o, refused := false }).keep s)) ∧
        (o ≠ x.owner → x.owner ≠ 0 → o ≠ 0 ∨ s.timerHeld t = true →
          exec (.tmrOwnerWrite v) s = .next ((s.setTimer t { x with refused := true }).keep s)))

/-! ## Control cores, power and management -/

/-- Command areas and watchdogs. FWCMD_TAKE puts the oldest command for firmware into the core's lowest free area and gives
its number; FWCMD_DONE completes the command of an area with the status and result that stand there. A watchdog that runs
out sets its flag and raises its core's source, and is kicked anew. A core newly held stops; a released firmware core starts
once its image passes its check. Not every firmware core can be held. The accesses of a running control core. An address
below 2^45 is a DPA, within one line: the access goes once to the home, or to the window that covers the line; when a load is
answered it gives the bytes, poison is consumed with cause 19, and a refusal gives cause 5. The next 64 MiB are the register window. A firmware core's own memory follows. Anything
else gives cause 5 or 7.
Where it uses what log entries 58, 67, 96, 101, 104 fix, that is the model's choice where they say so. -/
def Obligations.ControlCores : Prop :=
  (∀ s : State, s.up = true →
      (∀ (n : Fin 8) (k a : Nat) (c : Cmd), s.fwNext = some k →
        ((List.range 16).find? fun a => (SMap.find s.q.areas (n.val * 16 + a)).isNone) = some a → s.cmd k = some c →
        ∀ t : State, t = (s.putCmd k { c with eng := .fwArea n a }).tcmPut (areaByte n a 0) 96 c.areaImage →
        exec (.fwcmdTake n) s = .next (((({ t with q := { t.q with
          fwBuf := t.q.fwBuf.filter (fun x => x != k), areas := SMap.put t.q.areas (n.val * 16 + a) k } } : State).redispatch).emit
            (.csr (R.GLOBAL_FWCMD_TAKE.addr 0 n) (BitVec.ofNat 32 (2 ^ 31 + a)))).keep s)) ∧
      (∀ n : Fin 8, s.fwNext = none →
        exec (.fwcmdTake n) s = .next ((s.emit (.csr (R.GLOBAL_FWCMD_TAKE.addr 0 n) 0)).keep s)) ∧
      (∀ (n : Fin 8) (v : Word) (a k r : Nat) (c : Cmd) (x : BitVec 128) (t : State), a = F.GLOBAL_FWCMD_DONE_area.of v →
        SMap.find s.q.areas (n.val * 16 + a) = some k → s.cmd k = some c → SMap.find s.q.tcmReply k = some x → r = x.toNat →
        t = s.tcmPut (areaByte n a 96) 16 r →
        exec (.fwcmdDone n v) s = .next ((((({ t with q := { t.q with
          areas := SMap.del t.q.areas (n.val * 16 + a), tcmReply := SMap.del t.q.tcmReply k } } : State).orphan k).putCmd k
            { c with st := .done, eng := .none, status := bits r 48 8, result := bits r 64 64, pos := 0, aux := 0 })).keep s)) ∧
      (∀ k : Fin 24,
        (s.fN F.GLOBAL_CORE_WDT_timeout_ms 0 k ≠ 0 → bit (s.fN F.GLOBAL_CORE_RST_hold) k = false →
          exec (.watchdogExpiry k) s = .next (((({ s with cores := { s.cores with
            kicked := SMap.put s.cores.kicked k s.pwr.refTime } } : State).fFlag F.GLOBAL_CORE_WDT_expired true 0 k).raise
              (16 + k.val)).keep s)) ∧
        (s.fN F.GLOBAL_CORE_WDT_timeout_ms 0 k = 0 ∨ bit (s.fN F.GLOBAL_CORE_RST_hold) k = true →
          exec (.watchdogExpiry k) s = .next s) ∧
        ∃ t, exec (.watchdogKick k) s = .next t ∧ t.cores = { s.cores with kicked := SMap.put s.cores.kicked k s.pwr.refTime }) ∧
      (∀ (v : Word) (t : State), t = (if F.GLOBAL_CORE_RST_refused.on v then s.fFlag F.GLOBAL_CORE_RST_refused false else s) →
        (F.GLOBAL_CORE_RST_hold.of v % 256 = 255 →
          exec (.coreReset v) s = .next ((t.fFlag F.GLOBAL_CORE_RST_refused true).keep s)) ∧
        (F.GLOBAL_CORE_RST_hold.of v % 256 ≠ 255 → ∃ u, exec (.coreReset v) s = .next u ∧
          ∀ k < 24, bit (F.GLOBAL_CORE_RST_hold.of v) k = true → bit (t.fN F.GLOBAL_CORE_RST_hold) k = false →
            u.cores.running.getLsbD k = false)) ∧
      ∀ (k : Fin 8) (c : ImgChk),
        (bit (s.fN F.GLOBAL_CORE_RST_hold) k = false → s.cores.running.getLsbD k = false → 3 ≤ s.pwr.step →
          s.imageOk 1 c = true → exec (.coreStart k c) s = .next ((s.startCore k).keep s) ∧
          (s.startCore k).cores.running.getLsbD k = true) ∧
        (s.imageOk 1 c = false → exec (.coreStart k c) s = .next s)) ∧
  (∀ (s : State) (k : Fin 24) (a : BitVec 48) (z : AccSize) (n : Nat), s.up = true → n = z.bytes →
      (s.cores.running.getLsbD k = false → ∀ st, exec (.controlCoreAccess k a z st) s = .next s) ∧
      (s.cores.running.getLsbD k = true →
        (64 < a.toNat % 64 + n → a.toNat + n ≤ 2 ^ 45 → ∀ st, exec (.controlCoreAccess k a z st) s = .next s) ∧
        (∀ (st : Option (BitVec 64)) (x : Tx), a.toNat + n ≤ 2 ^ 45 → a.toNat % 64 + n ≤ 64 →
          x = { newTx (if st.isSome then .plainWr else .rdCur) (.core k) 0 (a.toNat / 64) 33 with
            be := rangeBe (a.toNat % 64) n
            fill := some 0
            wdata := ⟨BitVec.ofNat 512 ((st.map fun v => v.toNat).getD 0 % 2 ^ (8 * n) * 2 ^ (8 * (a.toNat % 64))), 0⟩ } →
          (s.owinFor 0 (a.toNat / 64) = none → exec (.controlCoreAccess k a z st) s = .next ((s.deviceTx x).keep s)) ∧
          (∀ w, s.owinFor 0 (a.toNat / 64) = some w →
            exec (.controlCoreAccess k a z st) s = .next (((s.keepAtPort x false).retryWindow).keep s))) ∧
        (2 ^ 45 ≤ a.toNat → a.toNat + n ≤ 2 ^ 45 + 2 ^ 26 →
          (∀ v : BitVec 64, exec (.controlCoreAccess k a z (some v)) s =
            .next ((s.csrStore z (winToReg (a.toNat - 2 ^ 45)) v.toNat).keep s)) ∧
          ∀ r, r = s.csrLoad z (winToReg (a.toNat - 2 ^ 45)) →
            exec (.controlCoreAccess k a z none) s = .next ((r.1.emit (.coreLoad k (some r.2) 0)).keep s)) ∧
        (2 ^ 45 + 2 ^ 26 ≤ a.toNat → 8 ≤ k.val ∨ a.toNat < 0x200010000000 ∨ 0x200010100000 < a.toNat + n →
          exec (.controlCoreAccess k a z none) s = .next ((s.emit (.coreLoad k none 5)).keep s) ∧
          ∀ v, exec (.controlCoreAccess k a z (some v)) s = .next ((s.emit (.coreLoad k none 7)).keep s)) ∧
        (k.val < 8 → 0x200010000000 ≤ a.toNat → a.toNat + n ≤ 0x200010100000 → ∀ off, off = a.toNat - 0x200010000000 →
          exec (.controlCoreAccess k a z none) s = .next ((s.emit (.coreLoad k (some ((List.range n).foldl
            (fun x i => x + s.tcmLoad k (off + i) * 2 ^ (8 * i)) 0)) 0)).keep s) ∧
          ∀ v : BitVec 64, exec (.controlCoreAccess k a z (some v)) s = .next (((List.range n).foldl
            (fun (t : State) i => t.tcmStore k (off + i) (bits v.toNat (8 * i) 8)) s).keep s)))) ∧
  ∀ (s : State) (k o n : Nat) (t : Tx), (o, n) = beSpan t.be →
    (∀ r, s.coreGot k t (.no r) = s.emit (.coreLoad k none 5)) ∧
    (∀ l, touchesPoison l o n = false → s.coreGot k t (.ok l) =
      s.emit (.coreLoad k (some (bits l.data.toNat (8 * o) (8 * n))) 0)) ∧
    (∀ l, touchesPoison l o n = true → s.coreGot k t (.ok l) = (s.consume 0 t.line).emit (.coreLoad k none 19))

/-- Power and reset. PWROK_FALL leaves the block dark. PERST_N, or a software reset, holds the device: what it was doing is
gone, the straps, the identity key and the count since PWROK stay. Start-up runs when the hold ends, or with PWROK where
PERST_N is not asserted: a header that does not check, or an always-on or core image that does not, stops it with its error;
else it comes to step 2. The end of a reset draws Dome 0's key and seeds every Spire's generator. The cause of the reset is
shown. Start-up from step 2. The root clock's lock switches every domain on and starts the firmware cores, the self-tests
and the links; its timeout switches all but domain 1 off, with error 2. With the channels trained the populated groups are
those of the capacity kept, the others are switched off, and the layout is derived, or error 3 is shown where there is none.
READY rises from step 7 alone. A self-test's outcome is recorded, and a failed one raises its source.
Where it uses what log entries 6, 8, 74, 95, 96, 99, 100 fix, that is the model's choice where they say so. -/
def Obligations.PowerAndStartUp : Prop :=
  (∀ s : State,
      (∃ t, exec .pwrokFall s = .next t ∧ t.pwr.pwrok = false ∧ t.Dark ∧ t.cores.flash = s.cores.flash) ∧
      (s.pwr.pwrok = true → ∃ t, exec .perstNAssert s = .next t ∧ t.pwr.inReset = true ∧ t.pwr.perstN = false ∧
        t.pwr.node = s.pwr.node ∧ t.pwr.refTime = s.pwr.refTime ∧ t.fB F.SEC_STATUS_id_ready = true ∧ t.home = Home.reset ∧
        t.q = QCtl.reset ∧ t.comb = Comb.reset ∧ t.cores.running = 0 ∧ t.cores.flash = s.cores.flash ∧ t.pwr.ready = false) ∧
      (∀ c : BootChk, s.pwr.pwrok = true → s.pwr.perstN = false → exec (.perstNDeassert c) s =
        .next (((({ s with pwr := { s.pwr with perstN := true } } : State).fFlag F.CLK_STATUS_ref_ok true).fFlag
          F.GLOBAL_RST_CAUSE_perst true).boot c)) ∧
      (s.up = true → s.fB F.GLOBAL_SW_RST_pending = false →
        exec .softwareReset s = .next ((s.fFlag F.GLOBAL_SW_RST_pending true).keep s)) ∧
      (s.up1 = true → s.fB F.GLOBAL_SW_RST_pending = true → ∃ t, exec .softwareResetBegin s = .next t ∧
        t.pwr.inReset = true ∧ t.pwr.swResetAt = some s.pwr.refTime ∧ t.home = Home.reset) ∧
      (∀ (c : BootChk) (x : Nat), s.pwr.pwrok = true → s.pwr.swResetAt = some x → exec (.internalResetEnd c) s =
        .next (((({ s with pwr := { s.pwr with swResetAt := none } } : State).fFlag F.CLK_STATUS_ref_ok true).fFlag
          F.GLOBAL_RST_CAUSE_software true).boot c)) ∧
      (∀ (x : Straps) (f : List (Nat × Byte)) (c : BootChk) (t : State), s.pwr.pwrok = false →
        exec (.pwrokRise x true f c) s = .next t → t.pwr.pwrok = true ∧ t.pwr.perstN = false ∧ t.pwr.inReset = true ∧
          t.fB F.SEC_STATUS_id_ready = true) ∧
      (∀ (c : BootChk) (t : State), t = s.endReset →
        t.pwr = { s.pwr with inReset := false } ∧ t.sec = { s.sec with dome0Key := s.free } ∧
        (∀ n < 24, (t.spire n).gen = (Config.random (s.free + 1 + n)).setWidth 64 ∧ (t.spire n).draws = 0) ∧
        (t.headerOk = false ∨ t.cfgRecs = none → s.boot c = (t.setStep 1).startError 5) ∧
        (t.headerOk = true → t.cfgRecs ≠ none →
          ((t.loadChain c.leaf).imageOk 0 c.aon = false → s.boot c = ((t.loadChain c.leaf).setStep 0).startError 1) ∧
          ((t.loadChain c.leaf).imageOk 0 c.aon = true → ∀ u,
            u = ((t.loadChain c.leaf).setMeas 1 ((t.loadChain c.leaf).imageDigest 0)).setStep 1 →
            (u.imageOk 1 c.fw = false ∨ u.imageOk 2 c.app = false → s.boot c = u.startError 1) ∧
            (u.imageOk 1 c.fw = true → u.imageOk 2 c.app = true → s.boot c = ((u.configure.runVersion (u.imageVersion 1)).setStep 2).bypHold true))))) ∧
  (∀ s : State, s.up = true →
      (s.pwr.step = 2 → s.fN F.START_STATUS_error = 0 →
        (∃ t, exec .rootPllLock s = .next t ∧ t.pwr.domains = 0xFFFFF ∧ t.pwr.step = 3 ∧ t.pwr.frozen = (s.pwr.frozen ||
          s.pwr.freezePin || s.pwr.tapFreeze)) ∧
        exec .rootPllLockTimeout s = .next (((({ s with pwr := { s.pwr with domains := 1 } } : State).startError 2).bypHold
          false).keep s)) ∧
      (s.pwr.step ≠ 2 → exec .rootPllLock s = .next s ∧ exec .rootPllLockTimeout s = .next s) ∧
      (s.pwr.step = 3 → (∀ ch < 24, (s.chan ch).train = none) → ∃ t, exec .dramGroupSelect s = .next t ∧ t.pwr.step = 4 ∧
        (∀ g < 6, bit (t.fN F.GLOBAL_POP_dram_groups) g = (s.keptCap != 0 && s.groupCap g == s.keptCap)) ∧
        (∀ g < 6, bit (t.fN F.GLOBAL_POP_dram_groups) g = false → t.domainOn (7 + g) = false) ∧
        ((∀ g < 6, bit (t.fN F.GLOBAL_POP_dram_groups) g = false) → t.fN F.START_STATUS_error = 3)) ∧
      (s.startStep = 7 → s.fN F.START_STATUS_error = 0 → exec .readyRise s =
        .next ((((({ s with pwr := { s.pwr with step := 8, ready := true } } : State).buildCdat).fSet F.START_STATUS_ready_ms
          (min 0xFFFF (s.pwr.refTime / ms 1))).startCores ((List.range 16).map fun k => 8 + k)).keep s)) ∧
      (s.startStep ≠ 7 ∨ s.fN F.START_STATUS_error ≠ 0 → exec .readyRise s = .next s) ∧
      ∀ (n : Fin 24) (pass : Bool) (t : State), (s.spire n).selfTest = true →
        t = (((s.setSpire n { s.spire n with selfTest := false }).fFlag F.SPIRE_STATUS_st_done true n).fFlag
          F.SPIRE_STATUS_st_pass pass n).showSpire n →
        (pass = true → exec (.spireSelfTestDone n pass) s = .next (t.keep s)) ∧
        (pass = false → exec (.spireSelfTestDone n pass) s = .next ((t.raise (448 + 8 * n.val)).keep s)))

/-- Freeze, thaw and domains. FREEZE_N, or the TAP, freezes a device from step 3 on: every trained channel that can enters
self-refresh, one that misses it is recorded. The device thaws only when neither freezes it, fails the channels recorded,
and takes every link down. A domain is switched where its rule allows and no switch is in progress; the switch done, the
domain's bit follows and what it loses is lost.
Where it uses what log entries 98, 100 fix, that is the model's choice where they say so. -/
def Obligations.FreezeAndDomains : Prop :=
  ∀ s : State,
    (∀ (miss : BitVec 24) (t : State), t = { s with pwr := { s.pwr with freezePin := true } } →
      (s.up1 = false → exec (.freeze miss) s = .next t) ∧
      (s.up1 = true → s.pwr.frozen = false → 3 ≤ s.pwr.step → ∃ u, exec (.freeze miss) s = .next u ∧
        u.pwr.frozen = true ∧ u.pwr.freezePin = true ∧ u.home = s.home ∧ ∀ ch < 24, s.srActs ch = true →
          miss.getLsbD ch = false → (u.chan ch).selfRefresh = true)) ∧
    (∀ miss : BitVec 24, s.up1 = true → exec (.zmFreeze miss) s =
      .next ((({ s with pwr := { s.pwr with tapFreeze := true } } : State).freeze miss).keep s)) ∧
    (s.up1 = true → s.pwr.frozen = true →
      (s.pwr.tapFreeze = false → ∃ u, exec .thaw s = .next u ∧ u.pwr.frozen = false ∧ u.pwr.freezePin = false) ∧
      (s.pwr.tapFreeze = true → exec .thaw s = .next { s with pwr := { s.pwr with freezePin := false } }) ∧
      (s.pwr.freezePin = false → (∃ u, exec .zmThaw s = .next u ∧ u.pwr.frozen = false ∧ u.pwr.tapFreeze = false) ∧
        ∃ u, exec .tapReset s = .next u ∧ u.pwr.frozen = false ∧ u.pwr.tapFreeze = false)) ∧
    (s.up = true → ∀ d : Fin 14, s.pwr.switching = none →
      (bit (s.fN F.PWR_DOM_CTL_on_7_20) d = true → s.offOk (7 + d) = true → ∃ t, exec (.powerDomainOff d) s = .next t ∧
        t.pwr.switching = some (7 + d.val, false) ∧ bit (t.fN F.PWR_DOM_CTL_on_7_20) d = false ∧
        t.pwr.domains = s.pwr.domains) ∧
      (bit (s.fN F.PWR_DOM_CTL_on_7_20) d = true → s.offOk (7 + d) = false →
        exec (.powerDomainOff d) s = .next ((s.fFlag F.PWR_DOM_STATUS_refused true).keep s)) ∧
      (bit (s.fN F.PWR_DOM_CTL_on_7_20) d = false → s.onOk (7 + d) = true → ∃ t, exec (.powerDomainOn d) s = .next t ∧
        t.pwr.switching = some (7 + d.val, true) ∧ bit (t.fN F.PWR_DOM_CTL_on_7_20) d = true ∧
        t.pwr.domains = s.pwr.domains)) ∧
    (s.up1 = true →
      (s.pwr.switching = none → exec .powerSwitchDone s = .next s) ∧
      (∀ d on, s.pwr.switching = some (d, on) → 7 ≤ d → d ≤ 20 → ∃ t, exec .powerSwitchDone s = .next t ∧
        t.pwr.switching = none ∧ t.pwr.domains = (if on then s.pwr.domains ||| (1#20 <<< (d - 1)) else
          s.pwr.domains &&& ~~~(1#20 <<< (d - 1))))) ∧
    (s.up = true → exec .refcntRead s = .next ((({ s with pwr := { s.pwr with
      refHi := BitVec.ofNat 16 (bits s.refCount 32 16) } } : State).emit (.csr (R.CLK_REFCNT_LO.addr 0 0)
        (BitVec.ofNat 32 s.refCount))).keep s))

/-- The management port and the board's buses. A request of the session table is denied in a session not bound to Dome 0,
and turned away while the device is frozen; a register read gives the word, a write does it; a flash write keeps away from
the active images and from the header; a packet that starts is answered when it completes. A datagram seen before is
answered with the response kept. The SMBus gives the two status words and no other; a scan reads and changes nothing.
Where it uses what log entries 95, 98, 102, 103 fix, that is the model's choice where they say so. -/
def Obligations.Management : Prop :=
  ∀ s : State,
    (∀ b : ScanAt, s.pwr.pwrok = true → exec (.tapScan b) s =
      .next (s.emit (.scan (s.scanValue b).1 (s.scanValue b).2.1 (s.scanValue b).2.2))) ∧
    exec .smbReadStartStatus s = .next (s.emit (.smbus (some s.startStatus))) ∧
    exec .smbReadDfsStatus s = .next (s.emit (.smbus (some s.dfsStatus))) ∧
    exec .smbNack s = .next (s.emit (.smbus none)) ∧
    (s.up1 = true →
      (∀ (x : Fin 256) (a v : BitVec 32) (p : BitVec 512) (l : List (BitVec 8)), s.mgmtOk x = false →
        exec (.csrRead x a) s = .next ((s.emit (.spdm 0x4B10 stDenied [])).keep s) ∧
        exec (.csrWrite x a v) s = .next ((s.emit (.spdm 0x4B11 stDenied [])).keep s) ∧
        exec (.cmdPacket x p) s = .next ((s.emit (.spdm 0x4B12 stDenied [])).keep s) ∧
        exec (.flashWrite x a l) s = .next ((s.emit (.spdm 0x4B13 stDenied [])).keep s)) ∧
      (∀ (x : Fin 256) (a v : BitVec 32) (p : BitVec 512) (l : List (BitVec 8)), s.mgmtOk x = true → s.pwr.frozen = false →
        (csrAddrBad a.toNat = true → exec (.csrRead x a) s = .next ((s.emit (.spdm 0x4B10 stFormat [])).keep s) ∧
          exec (.csrWrite x a v) s = .next ((s.emit (.spdm 0x4B11 stFormat [])).keep s)) ∧
        (csrAddrBad a.toNat = false →
          exec (.csrRead x a) s = .next (((s.csrRead a.toNat).1.emit (.spdm 0x4B10 stOK
            (wordBytes (s.csrRead a.toNat).2.toNat))).keep s) ∧
          exec (.csrWrite x a v) s = .next (((s.csrWrite a.toNat v).emit (.spdm 0x4B11 stOK [])).keep s)) ∧
        (s.fB F.QCTL_MBX_CMD_busy = false → exec (.cmdPacket x p) s = .next ((s.mailboxStart .mgmt p).keep s)) ∧
        (s.fB F.QCTL_MBX_CMD_busy = true → exec (.cmdPacket x p) s = .next ((s.emit (.spdm 0x4B12 stBusy [])).keep s)) ∧
        (l.length ≤ 4096 → a.toNat + l.length ≤ 2 ^ 32 →
          (s.flashDenied a.toNat l.length = true →
            exec (.flashWrite x a l) s = .next ((s.emit (.spdm 0x4B13 stDenied [])).keep s)) ∧
          (s.flashDenied a.toNat l.length = false → s.flashBadCrc a.toNat l.length l = false →
            exec (.flashWrite x a l) s = .next (((s.flashPut a.toNat l).emit (.spdm 0x4B13 stOK [])).keep s)))) ∧
      (s.fB F.GLOBAL_MGMT_CTL_enable = false → ∀ (d : Datagram) (ip : BitVec 32) (six : Bool) (w : BitVec 128)
        (l : List (BitVec 8)), exec (.mgmtDatagram d) s = .next s ∧ exec (.arp ip) s = .next s ∧ exec (.ndp w) s = .next s ∧
          exec (.icmpEcho six w l) s = .next s ∧ exec .mgmtFrameDrop s = .next s) ∧
      (s.fB F.GLOBAL_MGMT_CTL_enable = true →
        (∀ (d : Datagram),
          (d.version ≠ 1 ∨ 1 < d.type.toNat → exec (.mgmtDatagram d) s = .next ((s.bump F.GLOBAL_MGMT_STATUS_dropped).keep s)) ∧
          (d.version = 1 → d.type.toNat ≤ 1 →
            (∀ r, SMap.find s.cores.lastResp d.who = some (d.seq.toNat, r) →
              exec (.mgmtDatagram d) s = .next ((s.emit (.mgmt r.code d.seq.toNat r.status r.payload)).keep s)) ∧
            (∀ y, (∀ q r, SMap.find s.cores.lastResp d.who = some (q, r) → q ≠ d.seq.toNat) →
              s.cores.mgmtCmd ≠ some (d.who, d.seq.toNat) →
              y = s.mgmtServe (if d.type = 1 then d.sess.val else 256) d.msg →
              (∀ r, y.2 = some r → exec (.mgmtDatagram d) s = .next ((y.1.respond d.who d.seq.toNat r).keep s)) ∧
              (y.2 = none → exec (.mgmtDatagram d) s =
                .next (({ y.1 with cores := { y.1.cores with mgmtCmd := some (d.who, d.seq.toNat) } } : State).keep s))))) ∧
        (∀ (sess : Nat) (p : BitVec 512),
          (∀ m, (∀ q, m ≠ .cmdPacket q) → (s.mgmtServe sess m).2 ≠ none) ∧
          (s.mgmtOk sess = false → s.mgmtServe sess (.cmdPacket p) = (s, some ⟨0x4B12, stDenied, []⟩)) ∧
          (s.mgmtOk sess = true → s.pwr.frozen = true ∨ s.fB F.QCTL_MBX_CMD_busy = true →
            s.mgmtServe sess (.cmdPacket p) = (s, some ⟨0x4B12, stBusy, []⟩)) ∧
          (s.mgmtOk sess = true → s.pwr.frozen = false → s.fB F.QCTL_MBX_CMD_busy = false →
            s.mgmtServe sess (.cmdPacket p) = (s.mailboxStart .mgmt p, none))) ∧
        (∀ ip : BitVec 32,
          (s.myIp4 = some ip.toNat → exec (.arp ip) s = .next ((s.emit (.mgmt 0x0806 0 0 [])).keep s)) ∧
          (s.myIp4 ≠ some ip.toNat → exec (.arp ip) s = .next ((s.bump F.GLOBAL_MGMT_STATUS_dropped).keep s))) ∧
        (∀ ip : BitVec 128, s.myIp6 = some ip.toNat →
          exec (.ndp ip) s = .next ((s.emit (.mgmt 136 0 0 [])).keep s) ∧
          ∀ l : List (BitVec 8), exec (.icmpEcho true ip l) s =
            .next ((s.emit (.mgmt 129 0 0 (l.map fun b => b.toNat))).keep s)) ∧
        exec .mgmtFrameDrop s = .next ((s.bump F.GLOBAL_MGMT_STATUS_dropped).keep s)))
end

