-- ==== Sys2Proof/Laws/Map.lean ====
section
/-!
SUPPORT. Laws of sparse tables: what is found after a change, and that every change keeps the keys strictly rising.
-/
namespace Sys2Proof

@[simp] theorem SMap.find_nil {α : Type} (k : Nat) : SMap.find ([] : SMap α) k = none := rfl

@[simp] theorem SMap.find_put_same {α : Type} (m : SMap α) (k : Nat) (v : α) : SMap.find (SMap.put m k v) k = some v := by
  induction m with
  | nil => simp [SMap.put, SMap.find]
  | cons e r ih =>
    obtain ⟨a, b⟩ := e
    unfold SMap.put
    split
    · simp [SMap.find]
    · split
      · simp [SMap.find]
      · rename_i h; simp [SMap.find, h, ih]

theorem SMap.find_put_other {α : Type} (m : SMap α) (k j : Nat) (v : α) (h : j ≠ k) :
    SMap.find (SMap.put m k v) j = SMap.find m j := by
  induction m with
  | nil => simp [SMap.put, SMap.find, h]
  | cons e r ih =>
    obtain ⟨a, b⟩ := e
    unfold SMap.put
    split
    · simp [SMap.find, h]
    · split
      · rename_i h2; subst h2; simp [SMap.find, h]
      · simp only [SMap.find, ih]

@[simp] theorem SMap.find_del_same {α : Type} (m : SMap α) (k : Nat) : SMap.find (SMap.del m k) k = none := by
  induction m with
  | nil => rfl
  | cons e r ih =>
    obtain ⟨a, b⟩ := e
    simp only [SMap.del, List.filter_cons] at ih ⊢
    split
    · rename_i h
      have h' : ¬ k = a := fun e => by simp [e] at h
      simp only [SMap.find, if_neg h', ih]
    · exact ih

theorem SMap.find_del_other {α : Type} (m : SMap α) (k j : Nat) (h : j ≠ k) : SMap.find (SMap.del m k) j = SMap.find m j := by
  induction m with
  | nil => rfl
  | cons e r ih =>
    obtain ⟨a, b⟩ := e
    simp only [SMap.del, List.filter_cons] at ih ⊢
    split
    · simp only [SMap.find, ih]
    · rename_i hk
      have hk' : a = k := by simpa using hk
      subst hk'
      simp only [SMap.find, if_neg h, ih]

@[simp] theorem SMap.findD_put_same {α : Type} (m : SMap α) (k : Nat) (v d : α) : SMap.findD (SMap.put m k v) k d = v := by
  simp [SMap.findD]

theorem SMap.findD_put_other {α : Type} (m : SMap α) (k j : Nat) (v d : α) (h : j ≠ k) :
    SMap.findD (SMap.put m k v) j d = SMap.findD m j d := by
  simp [SMap.findD, SMap.find_put_other m k j v h]

@[simp] theorem SMap.findD_store_same {α : Type} [DecidableEq α] (m : SMap α) (d : α) (k : Nat) (v : α) :
    SMap.findD (SMap.store m d k v) k d = v := by
  unfold SMap.store
  split
  · rename_i h; simp [SMap.findD, h]
  · simp

theorem SMap.findD_store_other {α : Type} [DecidableEq α] (m : SMap α) (d e : α) (k j : Nat) (v : α) (h : j ≠ k) :
    SMap.findD (SMap.store m d k v) j e = SMap.findD m j e := by
  unfold SMap.store
  split
  · simp [SMap.findD, SMap.find_del_other m k j h]
  · exact SMap.findD_put_other m k j v e h

/-! ## Strictly rising keys -/

/-- Every key of a table lies above `a`. -/
theorem SMap.wf_cons {α : Type} (a : Nat) (b : α) (r : SMap α) :
    SMap.wf ((a, b) :: r) = true ↔ (∀ e ∈ r, a < e.1) ∧ SMap.wf r = true := by
  induction r generalizing a b with
  | nil => simp [SMap.wf]
  | cons e r ih =>
    obtain ⟨c, w⟩ := e
    simp only [SMap.wf, Bool.and_eq_true, decide_eq_true_eq, List.mem_cons]
    constructor
    · rintro ⟨h1, h2⟩
      refine ⟨?_, h2⟩
      rintro e (rfl | he)
      · exact h1
      · exact Nat.lt_trans h1 (((ih c w).1 h2).1 e he)
    · rintro ⟨h1, h2⟩
      exact ⟨h1 _ (Or.inl rfl), h2⟩

theorem SMap.mem_put {α : Type} (m : SMap α) (k : Nat) (v : α) (e : Nat × α) (h : e ∈ SMap.put m k v) : e = (k, v) ∨ e ∈ m := by
  induction m with
  | nil => simpa [SMap.put] using h
  | cons x r ih =>
    obtain ⟨a, b⟩ := x
    unfold SMap.put at h
    split at h
    · simpa using h
    · split at h
      · simp only [List.mem_cons] at h ⊢
        rcases h with h | h
        · exact Or.inl h
        · exact Or.inr (Or.inr h)
      · simp only [List.mem_cons] at h ⊢
        rcases h with h | h
        · exact Or.inr (Or.inl h)
        · rcases ih h with h | h
          · exact Or.inl h
          · exact Or.inr (Or.inr h)

/-- Setting an entry keeps the keys strictly rising. -/
theorem SMap.wf_put {α : Type} (m : SMap α) (k : Nat) (v : α) (h : SMap.wf m = true) : SMap.wf (SMap.put m k v) = true := by
  induction m with
  | nil => rfl
  | cons x r ih =>
    obtain ⟨a, b⟩ := x
    have hr := (SMap.wf_cons a b r).1 h
    unfold SMap.put
    split
    · rename_i hk
      refine (SMap.wf_cons k v _).2 ⟨?_, h⟩
      intro e he
      rcases List.mem_cons.1 he with rfl | he
      · exact hk
      · exact Nat.lt_trans hk (hr.1 e he)
    · split
      · rename_i hk; subst hk
        exact (SMap.wf_cons k v r).2 hr
      · rename_i h1 h2
        refine (SMap.wf_cons a b _).2 ⟨?_, ih hr.2⟩
        intro e he
        rcases SMap.mem_put r k v e he with rfl | he
        · simp only; omega
        · exact hr.1 e he

/-- Removing a key keeps the keys strictly rising. -/
theorem SMap.wf_del {α : Type} (m : SMap α) (k : Nat) (h : SMap.wf m = true) : SMap.wf (SMap.del m k) = true := by
  induction m with
  | nil => rfl
  | cons x r ih =>
    obtain ⟨a, b⟩ := x
    have hr := (SMap.wf_cons a b r).1 h
    simp only [SMap.del, List.filter_cons] at ih ⊢
    split
    · exact (SMap.wf_cons a b _).2 ⟨fun e he => hr.1 e (List.mem_of_mem_filter he), ih hr.2⟩
    · exact ih hr.2

theorem SMap.wf_store {α : Type} [DecidableEq α] (m : SMap α) (d : α) (k : Nat) (v : α) (h : SMap.wf m = true) :
    SMap.wf (SMap.store m d k v) = true := by
  unfold SMap.store
  split
  · exact SMap.wf_del m k h
  · exact SMap.wf_put m k v h

/-- A store lists no entry equal to what an unlisted key reads as. -/
theorem SMap.clean_store {α : Type} [DecidableEq α] (m : SMap α) (d : α) (k : Nat) (v : α) (h : ∀ e ∈ m, e.2 ≠ d) :
    ∀ e ∈ SMap.store m d k v, e.2 ≠ d := by
  unfold SMap.store
  split
  · intro e he; exact h e (List.mem_of_mem_filter he)
  · rename_i hv
    intro e he
    rcases SMap.mem_put m k v e he with rfl | he
    · exact hv
    · exact h e he

end Sys2Proof
end

