-- ==== Sys2Proof/Laws/State.lean ====
section
/-!
SUPPORT. Laws of the named updates of the state: what each leaves alone, what is read after a register write, how `run`
answers.
-/
namespace Sys2Proof.Machine

/-! ## How a command answers -/

theorem run_up {s : State} (f : State → State) (h : s.up = true) : run s f = .next ((f s).keep s) := by simp [run, h]
theorem run_down {s : State} (f : State → State) (h : s.up = false) : run s f = .next s := by simp [run, h]
theorem run1_up {s : State} (f : State → State) (h : s.up1 = true) : run1 s f = .next ((f s).keep s) := by simp [run1, h]
theorem run1_down {s : State} (f : State → State) (h : s.up1 = false) : run1 s f = .next s := by simp [run1, h]

/-- A state that agrees with `s` on what `keep` restores is kept as it is. -/
theorem State.keep_of (t s : State) (hp : t.pwr = s.pwr) (hq : t.pending = s.pending) : t.keep s = t := by
  cases t; cases s; simp only at hp hq; subst hp; subst hq; rfl

@[simp] theorem State.keep_self (s : State) : s.keep s = s := rfl
@[simp] theorem State.keep_pending (s o : State) : (s.keep o).pending = o.pending := rfl
@[simp] theorem State.keep_node (s o : State) : (s.keep o).pwr.node = o.pwr.node := rfl
@[simp] theorem State.keep_pwrok (s o : State) : (s.keep o).pwr.pwrok = o.pwr.pwrok := rfl
@[simp] theorem State.keep_perstN (s o : State) : (s.keep o).pwr.perstN = o.pwr.perstN := rfl
@[simp] theorem State.keep_throttleIn (s o : State) : (s.keep o).pwr.throttleIn = o.pwr.throttleIn := rfl
@[simp] theorem State.keep_freezePin (s o : State) : (s.keep o).pwr.freezePin = o.pwr.freezePin := rfl
@[simp] theorem State.keep_queenSel (s o : State) : (s.keep o).pwr.queenSel = o.pwr.queenSel := rfl
@[simp] theorem State.keep_succSel (s o : State) : (s.keep o).pwr.succSel = o.pwr.succSel := rfl
@[simp] theorem State.keep_dpcSel (s o : State) : (s.keep o).pwr.dpcSel = o.pwr.dpcSel := rfl

theorem State.wr_keep (s : State) (r : Reg) (v : Word) (i k : Nat) : (s.wr r v i k).keep s = s.wr r v i k := rfl
theorem State.fSet_keep (s : State) (f : Fld) (v i k : Nat) : (s.fSet f v i k).keep s = s.fSet f v i k := rfl
theorem State.fFlag_keep (s : State) (f : Fld) (b : Bool) (i k : Nat) : (s.fFlag f b i k).keep s = s.fFlag f b i k := rfl
theorem State.bump_keep (s : State) (f : Fld) (n i k : Nat) : (s.bump f n i k).keep s = s.bump f n i k := rfl

/-! ## What each update leaves alone -/

@[simp] theorem State.wr_chans (s : State) (r : Reg) (v : Word) (i k : Nat) : (s.wr r v i k).chans = s.chans := rfl
@[simp] theorem State.wr_home (s : State) (r : Reg) (v : Word) (i k : Nat) : (s.wr r v i k).home = s.home := rfl
@[simp] theorem State.wr_honey (s : State) (r : Reg) (v : Word) (i k : Nat) : (s.wr r v i k).honey = s.honey := rfl
@[simp] theorem State.wr_domes (s : State) (r : Reg) (v : Word) (i k : Nat) : (s.wr r v i k).domes = s.domes := rfl
@[simp] theorem State.wr_q (s : State) (r : Reg) (v : Word) (i k : Nat) : (s.wr r v i k).q = s.q := rfl
@[simp] theorem State.wr_comb (s : State) (r : Reg) (v : Word) (i k : Nat) : (s.wr r v i k).comb = s.comb := rfl
@[simp] theorem State.wr_spires (s : State) (r : Reg) (v : Word) (i k : Nat) : (s.wr r v i k).spires = s.spires := rfl
@[simp] theorem State.wr_cxl (s : State) (r : Reg) (v : Word) (i k : Nat) : (s.wr r v i k).cxl = s.cxl := rfl
@[simp] theorem State.wr_events (s : State) (r : Reg) (v : Word) (i k : Nat) : (s.wr r v i k).events = s.events := rfl
@[simp] theorem State.wr_eventPolicy (s : State) (r : Reg) (v : Word) (i k : Nat) : (s.wr r v i k).eventPolicy = s.eventPolicy := rfl
@[simp] theorem State.wr_poisonList (s : State) (r : Reg) (v : Word) (i k : Nat) : (s.wr r v i k).poisonList = s.poisonList := rfl
@[simp] theorem State.wr_poisonOvf (s : State) (r : Reg) (v : Word) (i k : Nat) : (s.wr r v i k).poisonOvf = s.poisonOvf := rfl
@[simp] theorem State.wr_ry (s : State) (r : Reg) (v : Word) (i k : Nat) : (s.wr r v i k).ry = s.ry := rfl
@[simp] theorem State.wr_fab (s : State) (r : Reg) (v : Word) (i k : Nat) : (s.wr r v i k).fab = s.fab := rfl
@[simp] theorem State.wr_eg (s : State) (r : Reg) (v : Word) (i k : Nat) : (s.wr r v i k).eg = s.eg := rfl
@[simp] theorem State.wr_sec (s : State) (r : Reg) (v : Word) (i k : Nat) : (s.wr r v i k).sec = s.sec := rfl
@[simp] theorem State.wr_bel (s : State) (r : Reg) (v : Word) (i k : Nat) : (s.wr r v i k).bel = s.bel := rfl
@[simp] theorem State.wr_wag (s : State) (r : Reg) (v : Word) (i k : Nat) : (s.wr r v i k).wag = s.wag := rfl
@[simp] theorem State.wr_pwr (s : State) (r : Reg) (v : Word) (i k : Nat) : (s.wr r v i k).pwr = s.pwr := rfl
@[simp] theorem State.wr_cores (s : State) (r : Reg) (v : Word) (i k : Nat) : (s.wr r v i k).cores = s.cores := rfl
@[simp] theorem State.wr_free (s : State) (r : Reg) (v : Word) (i k : Nat) : (s.wr r v i k).free = s.free := rfl
@[simp] theorem State.wr_out (s : State) (r : Reg) (v : Word) (i k : Nat) : (s.wr r v i k).out = s.out := rfl
@[simp] theorem State.wr_pending (s : State) (r : Reg) (v : Word) (i k : Nat) : (s.wr r v i k).pending = s.pending := rfl

@[simp] theorem State.fSet_chans (s : State) (f : Fld) (v i k : Nat) : (s.fSet f v i k).chans = s.chans := rfl
@[simp] theorem State.fSet_home (s : State) (f : Fld) (v i k : Nat) : (s.fSet f v i k).home = s.home := rfl
@[simp] theorem State.fSet_honey (s : State) (f : Fld) (v i k : Nat) : (s.fSet f v i k).honey = s.honey := rfl
@[simp] theorem State.fSet_domes (s : State) (f : Fld) (v i k : Nat) : (s.fSet f v i k).domes = s.domes := rfl
@[simp] theorem State.fSet_q (s : State) (f : Fld) (v i k : Nat) : (s.fSet f v i k).q = s.q := rfl
@[simp] theorem State.fSet_comb (s : State) (f : Fld) (v i k : Nat) : (s.fSet f v i k).comb = s.comb := rfl
@[simp] theorem State.fSet_spires (s : State) (f : Fld) (v i k : Nat) : (s.fSet f v i k).spires = s.spires := rfl
@[simp] theorem State.fSet_cxl (s : State) (f : Fld) (v i k : Nat) : (s.fSet f v i k).cxl = s.cxl := rfl
@[simp] theorem State.fSet_events (s : State) (f : Fld) (v i k : Nat) : (s.fSet f v i k).events = s.events := rfl
@[simp] theorem State.fSet_eventPolicy (s : State) (f : Fld) (v i k : Nat) : (s.fSet f v i k).eventPolicy = s.eventPolicy := rfl
@[simp] theorem State.fSet_poisonList (s : State) (f : Fld) (v i k : Nat) : (s.fSet f v i k).poisonList = s.poisonList := rfl
@[simp] theorem State.fSet_poisonOvf (s : State) (f : Fld) (v i k : Nat) : (s.fSet f v i k).poisonOvf = s.poisonOvf := rfl
@[simp] theorem State.fSet_ry (s : State) (f : Fld) (v i k : Nat) : (s.fSet f v i k).ry = s.ry := rfl
@[simp] theorem State.fSet_fab (s : State) (f : Fld) (v i k : Nat) : (s.fSet f v i k).fab = s.fab := rfl
@[simp] theorem State.fSet_eg (s : State) (f : Fld) (v i k : Nat) : (s.fSet f v i k).eg = s.eg := rfl
@[simp] theorem State.fSet_sec (s : State) (f : Fld) (v i k : Nat) : (s.fSet f v i k).sec = s.sec := rfl
@[simp] theorem State.fSet_bel (s : State) (f : Fld) (v i k : Nat) : (s.fSet f v i k).bel = s.bel := rfl
@[simp] theorem State.fSet_wag (s : State) (f : Fld) (v i k : Nat) : (s.fSet f v i k).wag = s.wag := rfl
@[simp] theorem State.fSet_pwr (s : State) (f : Fld) (v i k : Nat) : (s.fSet f v i k).pwr = s.pwr := rfl
@[simp] theorem State.fSet_cores (s : State) (f : Fld) (v i k : Nat) : (s.fSet f v i k).cores = s.cores := rfl
@[simp] theorem State.fSet_free (s : State) (f : Fld) (v i k : Nat) : (s.fSet f v i k).free = s.free := rfl
@[simp] theorem State.fSet_out (s : State) (f : Fld) (v i k : Nat) : (s.fSet f v i k).out = s.out := rfl
@[simp] theorem State.fSet_pending (s : State) (f : Fld) (v i k : Nat) : (s.fSet f v i k).pending = s.pending := rfl

@[simp] theorem State.fFlag_chans (s : State) (f : Fld) (b : Bool) (i k : Nat) : (s.fFlag f b i k).chans = s.chans := rfl
@[simp] theorem State.fFlag_home (s : State) (f : Fld) (b : Bool) (i k : Nat) : (s.fFlag f b i k).home = s.home := rfl
@[simp] theorem State.fFlag_honey (s : State) (f : Fld) (b : Bool) (i k : Nat) : (s.fFlag f b i k).honey = s.honey := rfl
@[simp] theorem State.fFlag_domes (s : State) (f : Fld) (b : Bool) (i k : Nat) : (s.fFlag f b i k).domes = s.domes := rfl
@[simp] theorem State.fFlag_q (s : State) (f : Fld) (b : Bool) (i k : Nat) : (s.fFlag f b i k).q = s.q := rfl
@[simp] theorem State.fFlag_comb (s : State) (f : Fld) (b : Bool) (i k : Nat) : (s.fFlag f b i k).comb = s.comb := rfl
@[simp] theorem State.fFlag_spires (s : State) (f : Fld) (b : Bool) (i k : Nat) : (s.fFlag f b i k).spires = s.spires := rfl
@[simp] theorem State.fFlag_cxl (s : State) (f : Fld) (b : Bool) (i k : Nat) : (s.fFlag f b i k).cxl = s.cxl := rfl
@[simp] theorem State.fFlag_events (s : State) (f : Fld) (b : Bool) (i k : Nat) : (s.fFlag f b i k).events = s.events := rfl
@[simp] theorem State.fFlag_eventPolicy (s : State) (f : Fld) (b : Bool) (i k : Nat) : (s.fFlag f b i k).eventPolicy = s.eventPolicy := rfl
@[simp] theorem State.fFlag_poisonList (s : State) (f : Fld) (b : Bool) (i k : Nat) : (s.fFlag f b i k).poisonList = s.poisonList := rfl
@[simp] theorem State.fFlag_poisonOvf (s : State) (f : Fld) (b : Bool) (i k : Nat) : (s.fFlag f b i k).poisonOvf = s.poisonOvf := rfl
@[simp] theorem State.fFlag_ry (s : State) (f : Fld) (b : Bool) (i k : Nat) : (s.fFlag f b i k).ry = s.ry := rfl
@[simp] theorem State.fFlag_fab (s : State) (f : Fld) (b : Bool) (i k : Nat) : (s.fFlag f b i k).fab = s.fab := rfl
@[simp] theorem State.fFlag_eg (s : State) (f : Fld) (b : Bool) (i k : Nat) : (s.fFlag f b i k).eg = s.eg := rfl
@[simp] theorem State.fFlag_sec (s : State) (f : Fld) (b : Bool) (i k : Nat) : (s.fFlag f b i k).sec = s.sec := rfl
@[simp] theorem State.fFlag_bel (s : State) (f : Fld) (b : Bool) (i k : Nat) : (s.fFlag f b i k).bel = s.bel := rfl
@[simp] theorem State.fFlag_wag (s : State) (f : Fld) (b : Bool) (i k : Nat) : (s.fFlag f b i k).wag = s.wag := rfl
@[simp] theorem State.fFlag_pwr (s : State) (f : Fld) (b : Bool) (i k : Nat) : (s.fFlag f b i k).pwr = s.pwr := rfl
@[simp] theorem State.fFlag_cores (s : State) (f : Fld) (b : Bool) (i k : Nat) : (s.fFlag f b i k).cores = s.cores := rfl
@[simp] theorem State.fFlag_free (s : State) (f : Fld) (b : Bool) (i k : Nat) : (s.fFlag f b i k).free = s.free := rfl
@[simp] theorem State.fFlag_out (s : State) (f : Fld) (b : Bool) (i k : Nat) : (s.fFlag f b i k).out = s.out := rfl
@[simp] theorem State.fFlag_pending (s : State) (f : Fld) (b : Bool) (i k : Nat) : (s.fFlag f b i k).pending = s.pending := rfl

@[simp] theorem State.bump_chans (s : State) (f : Fld) (n i k : Nat) : (s.bump f n i k).chans = s.chans := rfl
@[simp] theorem State.bump_home (s : State) (f : Fld) (n i k : Nat) : (s.bump f n i k).home = s.home := rfl
@[simp] theorem State.bump_honey (s : State) (f : Fld) (n i k : Nat) : (s.bump f n i k).honey = s.honey := rfl
@[simp] theorem State.bump_domes (s : State) (f : Fld) (n i k : Nat) : (s.bump f n i k).domes = s.domes := rfl
@[simp] theorem State.bump_q (s : State) (f : Fld) (n i k : Nat) : (s.bump f n i k).q = s.q := rfl
@[simp] theorem State.bump_comb (s : State) (f : Fld) (n i k : Nat) : (s.bump f n i k).comb = s.comb := rfl
@[simp] theorem State.bump_spires (s : State) (f : Fld) (n i k : Nat) : (s.bump f n i k).spires = s.spires := rfl
@[simp] theorem State.bump_cxl (s : State) (f : Fld) (n i k : Nat) : (s.bump f n i k).cxl = s.cxl := rfl
@[simp] theorem State.bump_events (s : State) (f : Fld) (n i k : Nat) : (s.bump f n i k).events = s.events := rfl
@[simp] theorem State.bump_eventPolicy (s : State) (f : Fld) (n i k : Nat) : (s.bump f n i k).eventPolicy = s.eventPolicy := rfl
@[simp] theorem State.bump_poisonList (s : State) (f : Fld) (n i k : Nat) : (s.bump f n i k).poisonList = s.poisonList := rfl
@[simp] theorem State.bump_poisonOvf (s : State) (f : Fld) (n i k : Nat) : (s.bump f n i k).poisonOvf = s.poisonOvf := rfl
@[simp] theorem State.bump_ry (s : State) (f : Fld) (n i k : Nat) : (s.bump f n i k).ry = s.ry := rfl
@[simp] theorem State.bump_fab (s : State) (f : Fld) (n i k : Nat) : (s.bump f n i k).fab = s.fab := rfl
@[simp] theorem State.bump_eg (s : State) (f : Fld) (n i k : Nat) : (s.bump f n i k).eg = s.eg := rfl
@[simp] theorem State.bump_sec (s : State) (f : Fld) (n i k : Nat) : (s.bump f n i k).sec = s.sec := rfl
@[simp] theorem State.bump_bel (s : State) (f : Fld) (n i k : Nat) : (s.bump f n i k).bel = s.bel := rfl
@[simp] theorem State.bump_wag (s : State) (f : Fld) (n i k : Nat) : (s.bump f n i k).wag = s.wag := rfl
@[simp] theorem State.bump_pwr (s : State) (f : Fld) (n i k : Nat) : (s.bump f n i k).pwr = s.pwr := rfl
@[simp] theorem State.bump_cores (s : State) (f : Fld) (n i k : Nat) : (s.bump f n i k).cores = s.cores := rfl
@[simp] theorem State.bump_free (s : State) (f : Fld) (n i k : Nat) : (s.bump f n i k).free = s.free := rfl
@[simp] theorem State.bump_out (s : State) (f : Fld) (n i k : Nat) : (s.bump f n i k).out = s.out := rfl
@[simp] theorem State.bump_pending (s : State) (f : Fld) (n i k : Nat) : (s.bump f n i k).pending = s.pending := rfl

@[simp] theorem State.wrCodes_chans (s : State) (r : Reg) (v : Word) (i k : Nat) : (s.wrCodes r v i k).chans = s.chans := rfl
@[simp] theorem State.wrCodes_home (s : State) (r : Reg) (v : Word) (i k : Nat) : (s.wrCodes r v i k).home = s.home := rfl
@[simp] theorem State.wrCodes_honey (s : State) (r : Reg) (v : Word) (i k : Nat) : (s.wrCodes r v i k).honey = s.honey := rfl
@[simp] theorem State.wrCodes_domes (s : State) (r : Reg) (v : Word) (i k : Nat) : (s.wrCodes r v i k).domes = s.domes := rfl
@[simp] theorem State.wrCodes_q (s : State) (r : Reg) (v : Word) (i k : Nat) : (s.wrCodes r v i k).q = s.q := rfl
@[simp] theorem State.wrCodes_comb (s : State) (r : Reg) (v : Word) (i k : Nat) : (s.wrCodes r v i k).comb = s.comb := rfl
@[simp] theorem State.wrCodes_spires (s : State) (r : Reg) (v : Word) (i k : Nat) : (s.wrCodes r v i k).spires = s.spires := rfl
@[simp] theorem State.wrCodes_cxl (s : State) (r : Reg) (v : Word) (i k : Nat) : (s.wrCodes r v i k).cxl = s.cxl := rfl
@[simp] theorem State.wrCodes_events (s : State) (r : Reg) (v : Word) (i k : Nat) : (s.wrCodes r v i k).events = s.events := rfl
@[simp] theorem State.wrCodes_eventPolicy (s : State) (r : Reg) (v : Word) (i k : Nat) : (s.wrCodes r v i k).eventPolicy = s.eventPolicy := rfl
@[simp] theorem State.wrCodes_poisonList (s : State) (r : Reg) (v : Word) (i k : Nat) : (s.wrCodes r v i k).poisonList = s.poisonList := rfl
@[simp] theorem State.wrCodes_poisonOvf (s : State) (r : Reg) (v : Word) (i k : Nat) : (s.wrCodes r v i k).poisonOvf = s.poisonOvf := rfl
@[simp] theorem State.wrCodes_ry (s : State) (r : Reg) (v : Word) (i k : Nat) : (s.wrCodes r v i k).ry = s.ry := rfl
@[simp] theorem State.wrCodes_fab (s : State) (r : Reg) (v : Word) (i k : Nat) : (s.wrCodes r v i k).fab = s.fab := rfl
@[simp] theorem State.wrCodes_eg (s : State) (r : Reg) (v : Word) (i k : Nat) : (s.wrCodes r v i k).eg = s.eg := rfl
@[simp] theorem State.wrCodes_sec (s : State) (r : Reg) (v : Word) (i k : Nat) : (s.wrCodes r v i k).sec = s.sec := rfl
@[simp] theorem State.wrCodes_bel (s : State) (r : Reg) (v : Word) (i k : Nat) : (s.wrCodes r v i k).bel = s.bel := rfl
@[simp] theorem State.wrCodes_wag (s : State) (r : Reg) (v : Word) (i k : Nat) : (s.wrCodes r v i k).wag = s.wag := rfl
@[simp] theorem State.wrCodes_pwr (s : State) (r : Reg) (v : Word) (i k : Nat) : (s.wrCodes r v i k).pwr = s.pwr := rfl
@[simp] theorem State.wrCodes_cores (s : State) (r : Reg) (v : Word) (i k : Nat) : (s.wrCodes r v i k).cores = s.cores := rfl
@[simp] theorem State.wrCodes_free (s : State) (r : Reg) (v : Word) (i k : Nat) : (s.wrCodes r v i k).free = s.free := rfl
@[simp] theorem State.wrCodes_out (s : State) (r : Reg) (v : Word) (i k : Nat) : (s.wrCodes r v i k).out = s.out := rfl
@[simp] theorem State.wrCodes_pending (s : State) (r : Reg) (v : Word) (i k : Nat) : (s.wrCodes r v i k).pending = s.pending := rfl

@[simp] theorem State.emit_csr (s : State) (o : Out) : (s.emit o).csr = s.csr := rfl
@[simp] theorem State.emit_chans (s : State) (o : Out) : (s.emit o).chans = s.chans := rfl
@[simp] theorem State.emit_home (s : State) (o : Out) : (s.emit o).home = s.home := rfl
@[simp] theorem State.emit_honey (s : State) (o : Out) : (s.emit o).honey = s.honey := rfl
@[simp] theorem State.emit_domes (s : State) (o : Out) : (s.emit o).domes = s.domes := rfl
@[simp] theorem State.emit_q (s : State) (o : Out) : (s.emit o).q = s.q := rfl
@[simp] theorem State.emit_comb (s : State) (o : Out) : (s.emit o).comb = s.comb := rfl
@[simp] theorem State.emit_spires (s : State) (o : Out) : (s.emit o).spires = s.spires := rfl
@[simp] theorem State.emit_cxl (s : State) (o : Out) : (s.emit o).cxl = s.cxl := rfl
@[simp] theorem State.emit_events (s : State) (o : Out) : (s.emit o).events = s.events := rfl
@[simp] theorem State.emit_eventPolicy (s : State) (o : Out) : (s.emit o).eventPolicy = s.eventPolicy := rfl
@[simp] theorem State.emit_poisonList (s : State) (o : Out) : (s.emit o).poisonList = s.poisonList := rfl
@[simp] theorem State.emit_poisonOvf (s : State) (o : Out) : (s.emit o).poisonOvf = s.poisonOvf := rfl
@[simp] theorem State.emit_ry (s : State) (o : Out) : (s.emit o).ry = s.ry := rfl
@[simp] theorem State.emit_fab (s : State) (o : Out) : (s.emit o).fab = s.fab := rfl
@[simp] theorem State.emit_eg (s : State) (o : Out) : (s.emit o).eg = s.eg := rfl
@[simp] theorem State.emit_sec (s : State) (o : Out) : (s.emit o).sec = s.sec := rfl
@[simp] theorem State.emit_bel (s : State) (o : Out) : (s.emit o).bel = s.bel := rfl
@[simp] theorem State.emit_wag (s : State) (o : Out) : (s.emit o).wag = s.wag := rfl
@[simp] theorem State.emit_pwr (s : State) (o : Out) : (s.emit o).pwr = s.pwr := rfl
@[simp] theorem State.emit_cores (s : State) (o : Out) : (s.emit o).cores = s.cores := rfl
@[simp] theorem State.emit_free (s : State) (o : Out) : (s.emit o).free = s.free := rfl
@[simp] theorem State.emit_pending (s : State) (o : Out) : (s.emit o).pending = s.pending := rfl

@[simp] theorem State.setChan_csr (s : State) (n : Nat) (x : Channel) : (s.setChan n x).csr = s.csr := rfl
@[simp] theorem State.setChan_home (s : State) (n : Nat) (x : Channel) : (s.setChan n x).home = s.home := rfl
@[simp] theorem State.setChan_honey (s : State) (n : Nat) (x : Channel) : (s.setChan n x).honey = s.honey := rfl
@[simp] theorem State.setChan_domes (s : State) (n : Nat) (x : Channel) : (s.setChan n x).domes = s.domes := rfl
@[simp] theorem State.setChan_q (s : State) (n : Nat) (x : Channel) : (s.setChan n x).q = s.q := rfl
@[simp] theorem State.setChan_comb (s : State) (n : Nat) (x : Channel) : (s.setChan n x).comb = s.comb := rfl
@[simp] theorem State.setChan_spires (s : State) (n : Nat) (x : Channel) : (s.setChan n x).spires = s.spires := rfl
@[simp] theorem State.setChan_cxl (s : State) (n : Nat) (x : Channel) : (s.setChan n x).cxl = s.cxl := rfl
@[simp] theorem State.setChan_events (s : State) (n : Nat) (x : Channel) : (s.setChan n x).events = s.events := rfl
@[simp] theorem State.setChan_eventPolicy (s : State) (n : Nat) (x : Channel) : (s.setChan n x).eventPolicy = s.eventPolicy := rfl
@[simp] theorem State.setChan_poisonList (s : State) (n : Nat) (x : Channel) : (s.setChan n x).poisonList = s.poisonList := rfl
@[simp] theorem State.setChan_poisonOvf (s : State) (n : Nat) (x : Channel) : (s.setChan n x).poisonOvf = s.poisonOvf := rfl
@[simp] theorem State.setChan_ry (s : State) (n : Nat) (x : Channel) : (s.setChan n x).ry = s.ry := rfl
@[simp] theorem State.setChan_fab (s : State) (n : Nat) (x : Channel) : (s.setChan n x).fab = s.fab := rfl
@[simp] theorem State.setChan_eg (s : State) (n : Nat) (x : Channel) : (s.setChan n x).eg = s.eg := rfl
@[simp] theorem State.setChan_sec (s : State) (n : Nat) (x : Channel) : (s.setChan n x).sec = s.sec := rfl
@[simp] theorem State.setChan_bel (s : State) (n : Nat) (x : Channel) : (s.setChan n x).bel = s.bel := rfl
@[simp] theorem State.setChan_wag (s : State) (n : Nat) (x : Channel) : (s.setChan n x).wag = s.wag := rfl
@[simp] theorem State.setChan_pwr (s : State) (n : Nat) (x : Channel) : (s.setChan n x).pwr = s.pwr := rfl
@[simp] theorem State.setChan_cores (s : State) (n : Nat) (x : Channel) : (s.setChan n x).cores = s.cores := rfl
@[simp] theorem State.setChan_free (s : State) (n : Nat) (x : Channel) : (s.setChan n x).free = s.free := rfl
@[simp] theorem State.setChan_out (s : State) (n : Nat) (x : Channel) : (s.setChan n x).out = s.out := rfl
@[simp] theorem State.setChan_pending (s : State) (n : Nat) (x : Channel) : (s.setChan n x).pending = s.pending := rfl

@[simp] theorem State.setSpire_csr (s : State) (n : Nat) (x : Spire) : (s.setSpire n x).csr = s.csr := rfl
@[simp] theorem State.setSpire_chans (s : State) (n : Nat) (x : Spire) : (s.setSpire n x).chans = s.chans := rfl
@[simp] theorem State.setSpire_home (s : State) (n : Nat) (x : Spire) : (s.setSpire n x).home = s.home := rfl
@[simp] theorem State.setSpire_honey (s : State) (n : Nat) (x : Spire) : (s.setSpire n x).honey = s.honey := rfl
@[simp] theorem State.setSpire_domes (s : State) (n : Nat) (x : Spire) : (s.setSpire n x).domes = s.domes := rfl
@[simp] theorem State.setSpire_q (s : State) (n : Nat) (x : Spire) : (s.setSpire n x).q = s.q := rfl
@[simp] theorem State.setSpire_comb (s : State) (n : Nat) (x : Spire) : (s.setSpire n x).comb = s.comb := rfl
@[simp] theorem State.setSpire_cxl (s : State) (n : Nat) (x : Spire) : (s.setSpire n x).cxl = s.cxl := rfl
@[simp] theorem State.setSpire_events (s : State) (n : Nat) (x : Spire) : (s.setSpire n x).events = s.events := rfl
@[simp] theorem State.setSpire_eventPolicy (s : State) (n : Nat) (x : Spire) : (s.setSpire n x).eventPolicy = s.eventPolicy := rfl
@[simp] theorem State.setSpire_poisonList (s : State) (n : Nat) (x : Spire) : (s.setSpire n x).poisonList = s.poisonList := rfl
@[simp] theorem State.setSpire_poisonOvf (s : State) (n : Nat) (x : Spire) : (s.setSpire n x).poisonOvf = s.poisonOvf := rfl
@[simp] theorem State.setSpire_ry (s : State) (n : Nat) (x : Spire) : (s.setSpire n x).ry = s.ry := rfl
@[simp] theorem State.setSpire_fab (s : State) (n : Nat) (x : Spire) : (s.setSpire n x).fab = s.fab := rfl
@[simp] theorem State.setSpire_eg (s : State) (n : Nat) (x : Spire) : (s.setSpire n x).eg = s.eg := rfl
@[simp] theorem State.setSpire_sec (s : State) (n : Nat) (x : Spire) : (s.setSpire n x).sec = s.sec := rfl
@[simp] theorem State.setSpire_bel (s : State) (n : Nat) (x : Spire) : (s.setSpire n x).bel = s.bel := rfl
@[simp] theorem State.setSpire_wag (s : State) (n : Nat) (x : Spire) : (s.setSpire n x).wag = s.wag := rfl
@[simp] theorem State.setSpire_pwr (s : State) (n : Nat) (x : Spire) : (s.setSpire n x).pwr = s.pwr := rfl
@[simp] theorem State.setSpire_cores (s : State) (n : Nat) (x : Spire) : (s.setSpire n x).cores = s.cores := rfl
@[simp] theorem State.setSpire_free (s : State) (n : Nat) (x : Spire) : (s.setSpire n x).free = s.free := rfl
@[simp] theorem State.setSpire_out (s : State) (n : Nat) (x : Spire) : (s.setSpire n x).out = s.out := rfl
@[simp] theorem State.setSpire_pending (s : State) (n : Nat) (x : Spire) : (s.setSpire n x).pending = s.pending := rfl

@[simp] theorem State.setRy_csr (s : State) (n : Nat) (x : RyPort) : (s.setRy n x).csr = s.csr := rfl
@[simp] theorem State.setRy_chans (s : State) (n : Nat) (x : RyPort) : (s.setRy n x).chans = s.chans := rfl
@[simp] theorem State.setRy_home (s : State) (n : Nat) (x : RyPort) : (s.setRy n x).home = s.home := rfl
@[simp] theorem State.setRy_honey (s : State) (n : Nat) (x : RyPort) : (s.setRy n x).honey = s.honey := rfl
@[simp] theorem State.setRy_domes (s : State) (n : Nat) (x : RyPort) : (s.setRy n x).domes = s.domes := rfl
@[simp] theorem State.setRy_q (s : State) (n : Nat) (x : RyPort) : (s.setRy n x).q = s.q := rfl
@[simp] theorem State.setRy_comb (s : State) (n : Nat) (x : RyPort) : (s.setRy n x).comb = s.comb := rfl
@[simp] theorem State.setRy_spires (s : State) (n : Nat) (x : RyPort) : (s.setRy n x).spires = s.spires := rfl
@[simp] theorem State.setRy_cxl (s : State) (n : Nat) (x : RyPort) : (s.setRy n x).cxl = s.cxl := rfl
@[simp] theorem State.setRy_events (s : State) (n : Nat) (x : RyPort) : (s.setRy n x).events = s.events := rfl
@[simp] theorem State.setRy_eventPolicy (s : State) (n : Nat) (x : RyPort) : (s.setRy n x).eventPolicy = s.eventPolicy := rfl
@[simp] theorem State.setRy_poisonList (s : State) (n : Nat) (x : RyPort) : (s.setRy n x).poisonList = s.poisonList := rfl
@[simp] theorem State.setRy_poisonOvf (s : State) (n : Nat) (x : RyPort) : (s.setRy n x).poisonOvf = s.poisonOvf := rfl
@[simp] theorem State.setRy_fab (s : State) (n : Nat) (x : RyPort) : (s.setRy n x).fab = s.fab := rfl
@[simp] theorem State.setRy_eg (s : State) (n : Nat) (x : RyPort) : (s.setRy n x).eg = s.eg := rfl
@[simp] theorem State.setRy_sec (s : State) (n : Nat) (x : RyPort) : (s.setRy n x).sec = s.sec := rfl
@[simp] theorem State.setRy_bel (s : State) (n : Nat) (x : RyPort) : (s.setRy n x).bel = s.bel := rfl
@[simp] theorem State.setRy_wag (s : State) (n : Nat) (x : RyPort) : (s.setRy n x).wag = s.wag := rfl
@[simp] theorem State.setRy_pwr (s : State) (n : Nat) (x : RyPort) : (s.setRy n x).pwr = s.pwr := rfl
@[simp] theorem State.setRy_cores (s : State) (n : Nat) (x : RyPort) : (s.setRy n x).cores = s.cores := rfl
@[simp] theorem State.setRy_free (s : State) (n : Nat) (x : RyPort) : (s.setRy n x).free = s.free := rfl
@[simp] theorem State.setRy_out (s : State) (n : Nat) (x : RyPort) : (s.setRy n x).out = s.out := rfl
@[simp] theorem State.setRy_pending (s : State) (n : Nat) (x : RyPort) : (s.setRy n x).pending = s.pending := rfl

@[simp] theorem State.setCxlPort_csr (s : State) (n : Nat) (x : CxlPort) : (s.setCxlPort n x).csr = s.csr := rfl
@[simp] theorem State.setCxlPort_chans (s : State) (n : Nat) (x : CxlPort) : (s.setCxlPort n x).chans = s.chans := rfl
@[simp] theorem State.setCxlPort_home (s : State) (n : Nat) (x : CxlPort) : (s.setCxlPort n x).home = s.home := rfl
@[simp] theorem State.setCxlPort_honey (s : State) (n : Nat) (x : CxlPort) : (s.setCxlPort n x).honey = s.honey := rfl
@[simp] theorem State.setCxlPort_domes (s : State) (n : Nat) (x : CxlPort) : (s.setCxlPort n x).domes = s.domes := rfl
@[simp] theorem State.setCxlPort_q (s : State) (n : Nat) (x : CxlPort) : (s.setCxlPort n x).q = s.q := rfl
@[simp] theorem State.setCxlPort_comb (s : State) (n : Nat) (x : CxlPort) : (s.setCxlPort n x).comb = s.comb := rfl
@[simp] theorem State.setCxlPort_spires (s : State) (n : Nat) (x : CxlPort) : (s.setCxlPort n x).spires = s.spires := rfl
@[simp] theorem State.setCxlPort_events (s : State) (n : Nat) (x : CxlPort) : (s.setCxlPort n x).events = s.events := rfl
@[simp] theorem State.setCxlPort_eventPolicy (s : State) (n : Nat) (x : CxlPort) : (s.setCxlPort n x).eventPolicy = s.eventPolicy := rfl
@[simp] theorem State.setCxlPort_poisonList (s : State) (n : Nat) (x : CxlPort) : (s.setCxlPort n x).poisonList = s.poisonList := rfl
@[simp] theorem State.setCxlPort_poisonOvf (s : State) (n : Nat) (x : CxlPort) : (s.setCxlPort n x).poisonOvf = s.poisonOvf := rfl
@[simp] theorem State.setCxlPort_ry (s : State) (n : Nat) (x : CxlPort) : (s.setCxlPort n x).ry = s.ry := rfl
@[simp] theorem State.setCxlPort_fab (s : State) (n : Nat) (x : CxlPort) : (s.setCxlPort n x).fab = s.fab := rfl
@[simp] theorem State.setCxlPort_eg (s : State) (n : Nat) (x : CxlPort) : (s.setCxlPort n x).eg = s.eg := rfl
@[simp] theorem State.setCxlPort_sec (s : State) (n : Nat) (x : CxlPort) : (s.setCxlPort n x).sec = s.sec := rfl
@[simp] theorem State.setCxlPort_bel (s : State) (n : Nat) (x : CxlPort) : (s.setCxlPort n x).bel = s.bel := rfl
@[simp] theorem State.setCxlPort_wag (s : State) (n : Nat) (x : CxlPort) : (s.setCxlPort n x).wag = s.wag := rfl
@[simp] theorem State.setCxlPort_pwr (s : State) (n : Nat) (x : CxlPort) : (s.setCxlPort n x).pwr = s.pwr := rfl
@[simp] theorem State.setCxlPort_cores (s : State) (n : Nat) (x : CxlPort) : (s.setCxlPort n x).cores = s.cores := rfl
@[simp] theorem State.setCxlPort_free (s : State) (n : Nat) (x : CxlPort) : (s.setCxlPort n x).free = s.free := rfl
@[simp] theorem State.setCxlPort_out (s : State) (n : Nat) (x : CxlPort) : (s.setCxlPort n x).out = s.out := rfl
@[simp] theorem State.setCxlPort_pending (s : State) (n : Nat) (x : CxlPort) : (s.setCxlPort n x).pending = s.pending := rfl

@[simp] theorem State.setWsrc_csr (s : State) (n : Nat) (x : WSrc) : (s.setWsrc n x).csr = s.csr := rfl
@[simp] theorem State.setWsrc_chans (s : State) (n : Nat) (x : WSrc) : (s.setWsrc n x).chans = s.chans := rfl
@[simp] theorem State.setWsrc_home (s : State) (n : Nat) (x : WSrc) : (s.setWsrc n x).home = s.home := rfl
@[simp] theorem State.setWsrc_honey (s : State) (n : Nat) (x : WSrc) : (s.setWsrc n x).honey = s.honey := rfl
@[simp] theorem State.setWsrc_domes (s : State) (n : Nat) (x : WSrc) : (s.setWsrc n x).domes = s.domes := rfl
@[simp] theorem State.setWsrc_q (s : State) (n : Nat) (x : WSrc) : (s.setWsrc n x).q = s.q := rfl
@[simp] theorem State.setWsrc_comb (s : State) (n : Nat) (x : WSrc) : (s.setWsrc n x).comb = s.comb := rfl
@[simp] theorem State.setWsrc_spires (s : State) (n : Nat) (x : WSrc) : (s.setWsrc n x).spires = s.spires := rfl
@[simp] theorem State.setWsrc_cxl (s : State) (n : Nat) (x : WSrc) : (s.setWsrc n x).cxl = s.cxl := rfl
@[simp] theorem State.setWsrc_events (s : State) (n : Nat) (x : WSrc) : (s.setWsrc n x).events = s.events := rfl
@[simp] theorem State.setWsrc_eventPolicy (s : State) (n : Nat) (x : WSrc) : (s.setWsrc n x).eventPolicy = s.eventPolicy := rfl
@[simp] theorem State.setWsrc_poisonList (s : State) (n : Nat) (x : WSrc) : (s.setWsrc n x).poisonList = s.poisonList := rfl
@[simp] theorem State.setWsrc_poisonOvf (s : State) (n : Nat) (x : WSrc) : (s.setWsrc n x).poisonOvf = s.poisonOvf := rfl
@[simp] theorem State.setWsrc_ry (s : State) (n : Nat) (x : WSrc) : (s.setWsrc n x).ry = s.ry := rfl
@[simp] theorem State.setWsrc_fab (s : State) (n : Nat) (x : WSrc) : (s.setWsrc n x).fab = s.fab := rfl
@[simp] theorem State.setWsrc_eg (s : State) (n : Nat) (x : WSrc) : (s.setWsrc n x).eg = s.eg := rfl
@[simp] theorem State.setWsrc_sec (s : State) (n : Nat) (x : WSrc) : (s.setWsrc n x).sec = s.sec := rfl
@[simp] theorem State.setWsrc_bel (s : State) (n : Nat) (x : WSrc) : (s.setWsrc n x).bel = s.bel := rfl
@[simp] theorem State.setWsrc_pwr (s : State) (n : Nat) (x : WSrc) : (s.setWsrc n x).pwr = s.pwr := rfl
@[simp] theorem State.setWsrc_cores (s : State) (n : Nat) (x : WSrc) : (s.setWsrc n x).cores = s.cores := rfl
@[simp] theorem State.setWsrc_free (s : State) (n : Nat) (x : WSrc) : (s.setWsrc n x).free = s.free := rfl
@[simp] theorem State.setWsrc_out (s : State) (n : Nat) (x : WSrc) : (s.setWsrc n x).out = s.out := rfl
@[simp] theorem State.setWsrc_pending (s : State) (n : Nat) (x : WSrc) : (s.setWsrc n x).pending = s.pending := rfl

@[simp] theorem State.setVec_csr (s : State) (d v : Nat) (x : Vec) : (s.setVec d v x).csr = s.csr := rfl
@[simp] theorem State.setVec_chans (s : State) (d v : Nat) (x : Vec) : (s.setVec d v x).chans = s.chans := rfl
@[simp] theorem State.setVec_home (s : State) (d v : Nat) (x : Vec) : (s.setVec d v x).home = s.home := rfl
@[simp] theorem State.setVec_honey (s : State) (d v : Nat) (x : Vec) : (s.setVec d v x).honey = s.honey := rfl
@[simp] theorem State.setVec_domes (s : State) (d v : Nat) (x : Vec) : (s.setVec d v x).domes = s.domes := rfl
@[simp] theorem State.setVec_q (s : State) (d v : Nat) (x : Vec) : (s.setVec d v x).q = s.q := rfl
@[simp] theorem State.setVec_comb (s : State) (d v : Nat) (x : Vec) : (s.setVec d v x).comb = s.comb := rfl
@[simp] theorem State.setVec_spires (s : State) (d v : Nat) (x : Vec) : (s.setVec d v x).spires = s.spires := rfl
@[simp] theorem State.setVec_cxl (s : State) (d v : Nat) (x : Vec) : (s.setVec d v x).cxl = s.cxl := rfl
@[simp] theorem State.setVec_events (s : State) (d v : Nat) (x : Vec) : (s.setVec d v x).events = s.events := rfl
@[simp] theorem State.setVec_eventPolicy (s : State) (d v : Nat) (x : Vec) : (s.setVec d v x).eventPolicy = s.eventPolicy := rfl
@[simp] theorem State.setVec_poisonList (s : State) (d v : Nat) (x : Vec) : (s.setVec d v x).poisonList = s.poisonList := rfl
@[simp] theorem State.setVec_poisonOvf (s : State) (d v : Nat) (x : Vec) : (s.setVec d v x).poisonOvf = s.poisonOvf := rfl
@[simp] theorem State.setVec_ry (s : State) (d v : Nat) (x : Vec) : (s.setVec d v x).ry = s.ry := rfl
@[simp] theorem State.setVec_fab (s : State) (d v : Nat) (x : Vec) : (s.setVec d v x).fab = s.fab := rfl
@[simp] theorem State.setVec_eg (s : State) (d v : Nat) (x : Vec) : (s.setVec d v x).eg = s.eg := rfl
@[simp] theorem State.setVec_sec (s : State) (d v : Nat) (x : Vec) : (s.setVec d v x).sec = s.sec := rfl
@[simp] theorem State.setVec_bel (s : State) (d v : Nat) (x : Vec) : (s.setVec d v x).bel = s.bel := rfl
@[simp] theorem State.setVec_pwr (s : State) (d v : Nat) (x : Vec) : (s.setVec d v x).pwr = s.pwr := rfl
@[simp] theorem State.setVec_cores (s : State) (d v : Nat) (x : Vec) : (s.setVec d v x).cores = s.cores := rfl
@[simp] theorem State.setVec_free (s : State) (d v : Nat) (x : Vec) : (s.setVec d v x).free = s.free := rfl
@[simp] theorem State.setVec_out (s : State) (d v : Nat) (x : Vec) : (s.setVec d v x).out = s.out := rfl
@[simp] theorem State.setVec_pending (s : State) (d v : Nat) (x : Vec) : (s.setVec d v x).pending = s.pending := rfl

@[simp] theorem State.egPut_csr (s : State) (port link cls dome len : Nat) (e : Bool) (b : EgBody) : (s.egPut port link cls dome len e b).csr = s.csr := rfl
@[simp] theorem State.egPut_chans (s : State) (port link cls dome len : Nat) (e : Bool) (b : EgBody) : (s.egPut port link cls dome len e b).chans = s.chans := rfl
@[simp] theorem State.egPut_home (s : State) (port link cls dome len : Nat) (e : Bool) (b : EgBody) : (s.egPut port link cls dome len e b).home = s.home := rfl
@[simp] theorem State.egPut_honey (s : State) (port link cls dome len : Nat) (e : Bool) (b : EgBody) : (s.egPut port link cls dome len e b).honey = s.honey := rfl
@[simp] theorem State.egPut_domes (s : State) (port link cls dome len : Nat) (e : Bool) (b : EgBody) : (s.egPut port link cls dome len e b).domes = s.domes := rfl
@[simp] theorem State.egPut_q (s : State) (port link cls dome len : Nat) (e : Bool) (b : EgBody) : (s.egPut port link cls dome len e b).q = s.q := rfl
@[simp] theorem State.egPut_comb (s : State) (port link cls dome len : Nat) (e : Bool) (b : EgBody) : (s.egPut port link cls dome len e b).comb = s.comb := rfl
@[simp] theorem State.egPut_spires (s : State) (port link cls dome len : Nat) (e : Bool) (b : EgBody) : (s.egPut port link cls dome len e b).spires = s.spires := rfl
@[simp] theorem State.egPut_cxl (s : State) (port link cls dome len : Nat) (e : Bool) (b : EgBody) : (s.egPut port link cls dome len e b).cxl = s.cxl := rfl
@[simp] theorem State.egPut_events (s : State) (port link cls dome len : Nat) (e : Bool) (b : EgBody) : (s.egPut port link cls dome len e b).events = s.events := rfl
@[simp] theorem State.egPut_eventPolicy (s : State) (port link cls dome len : Nat) (e : Bool) (b : EgBody) : (s.egPut port link cls dome len e b).eventPolicy = s.eventPolicy := rfl
@[simp] theorem State.egPut_poisonList (s : State) (port link cls dome len : Nat) (e : Bool) (b : EgBody) : (s.egPut port link cls dome len e b).poisonList = s.poisonList := rfl
@[simp] theorem State.egPut_poisonOvf (s : State) (port link cls dome len : Nat) (e : Bool) (b : EgBody) : (s.egPut port link cls dome len e b).poisonOvf = s.poisonOvf := rfl
@[simp] theorem State.egPut_ry (s : State) (port link cls dome len : Nat) (e : Bool) (b : EgBody) : (s.egPut port link cls dome len e b).ry = s.ry := rfl
@[simp] theorem State.egPut_fab (s : State) (port link cls dome len : Nat) (e : Bool) (b : EgBody) : (s.egPut port link cls dome len e b).fab = s.fab := rfl
@[simp] theorem State.egPut_sec (s : State) (port link cls dome len : Nat) (e : Bool) (b : EgBody) : (s.egPut port link cls dome len e b).sec = s.sec := rfl
@[simp] theorem State.egPut_bel (s : State) (port link cls dome len : Nat) (e : Bool) (b : EgBody) : (s.egPut port link cls dome len e b).bel = s.bel := rfl
@[simp] theorem State.egPut_wag (s : State) (port link cls dome len : Nat) (e : Bool) (b : EgBody) : (s.egPut port link cls dome len e b).wag = s.wag := rfl
@[simp] theorem State.egPut_pwr (s : State) (port link cls dome len : Nat) (e : Bool) (b : EgBody) : (s.egPut port link cls dome len e b).pwr = s.pwr := rfl
@[simp] theorem State.egPut_cores (s : State) (port link cls dome len : Nat) (e : Bool) (b : EgBody) : (s.egPut port link cls dome len e b).cores = s.cores := rfl
@[simp] theorem State.egPut_free (s : State) (port link cls dome len : Nat) (e : Bool) (b : EgBody) : (s.egPut port link cls dome len e b).free = s.free := rfl
@[simp] theorem State.egPut_out (s : State) (port link cls dome len : Nat) (e : Bool) (b : EgBody) : (s.egPut port link cls dome len e b).out = s.out := rfl
@[simp] theorem State.egPut_pending (s : State) (port link cls dome len : Nat) (e : Bool) (b : EgBody) : (s.egPut port link cls dome len e b).pending = s.pending := rfl

@[simp] theorem State.keep_csr (s : State) (o : State) : (s.keep o).csr = s.csr := rfl
@[simp] theorem State.keep_chans (s : State) (o : State) : (s.keep o).chans = s.chans := rfl
@[simp] theorem State.keep_home (s : State) (o : State) : (s.keep o).home = s.home := rfl
@[simp] theorem State.keep_honey (s : State) (o : State) : (s.keep o).honey = s.honey := rfl
@[simp] theorem State.keep_domes (s : State) (o : State) : (s.keep o).domes = s.domes := rfl
@[simp] theorem State.keep_q (s : State) (o : State) : (s.keep o).q = s.q := rfl
@[simp] theorem State.keep_comb (s : State) (o : State) : (s.keep o).comb = s.comb := rfl
@[simp] theorem State.keep_spires (s : State) (o : State) : (s.keep o).spires = s.spires := rfl
@[simp] theorem State.keep_cxl (s : State) (o : State) : (s.keep o).cxl = s.cxl := rfl
@[simp] theorem State.keep_events (s : State) (o : State) : (s.keep o).events = s.events := rfl
@[simp] theorem State.keep_eventPolicy (s : State) (o : State) : (s.keep o).eventPolicy = s.eventPolicy := rfl
@[simp] theorem State.keep_poisonList (s : State) (o : State) : (s.keep o).poisonList = s.poisonList := rfl
@[simp] theorem State.keep_poisonOvf (s : State) (o : State) : (s.keep o).poisonOvf = s.poisonOvf := rfl
@[simp] theorem State.keep_ry (s : State) (o : State) : (s.keep o).ry = s.ry := rfl
@[simp] theorem State.keep_fab (s : State) (o : State) : (s.keep o).fab = s.fab := rfl
@[simp] theorem State.keep_eg (s : State) (o : State) : (s.keep o).eg = s.eg := rfl
@[simp] theorem State.keep_sec (s : State) (o : State) : (s.keep o).sec = s.sec := rfl
@[simp] theorem State.keep_bel (s : State) (o : State) : (s.keep o).bel = s.bel := rfl
@[simp] theorem State.keep_wag (s : State) (o : State) : (s.keep o).wag = s.wag := rfl
@[simp] theorem State.keep_cores (s : State) (o : State) : (s.keep o).cores = s.cores := rfl
@[simp] theorem State.keep_free (s : State) (o : State) : (s.keep o).free = s.free := rfl
@[simp] theorem State.keep_out (s : State) (o : State) : (s.keep o).out = s.out := rfl

/-! ## Bit fields of numbers -/

theorem bits_lt (x lo w : Nat) : bits x lo w < 2 ^ w := Nat.mod_lt _ (Nat.two_pow_pos w)

/-- A number is its bits above a field, the field, and the bits below it. -/
theorem bits_split (x lo w : Nat) : x = x / 2 ^ (lo + w) * 2 ^ (lo + w) + bits x lo w * 2 ^ lo + x % 2 ^ lo := by
  unfold bits
  have h1 : x = 2 ^ lo * (x / 2 ^ lo) + x % 2 ^ lo := (Nat.div_add_mod _ _).symm
  have h2 : x / 2 ^ lo = 2 ^ w * (x / 2 ^ lo / 2 ^ w) + x / 2 ^ lo % 2 ^ w := (Nat.div_add_mod _ _).symm
  have h3 : x / 2 ^ lo / 2 ^ w = x / 2 ^ (lo + w) := by rw [Nat.div_div_eq_div_mul, Nat.pow_add]
  rw [h3] at h2
  calc x = 2 ^ lo * (x / 2 ^ lo) + x % 2 ^ lo := h1
    _ = 2 ^ lo * (2 ^ w * (x / 2 ^ (lo + w)) + x / 2 ^ lo % 2 ^ w) + x % 2 ^ lo := by rw [← h2]
    _ = _ := by rw [Nat.pow_add]; ring

theorem setBits_eq (x lo w v : Nat) :
    setBits x lo w v = x / 2 ^ (lo + w) * 2 ^ (lo + w) + v % 2 ^ w * 2 ^ lo + x % 2 ^ lo := by
  have h := bits_split x lo w
  unfold setBits
  generalize bits x lo w = b at *
  generalize x / 2 ^ (lo + w) * 2 ^ (lo + w) = c at *
  generalize v % 2 ^ w * 2 ^ lo = d at *
  generalize x % 2 ^ lo = e at *
  omega

/-- A field set to `v` reads as `v` cut to its width. -/
theorem bits_setBits (x lo w v : Nat) : bits (setBits x lo w v) lo w = v % 2 ^ w := by
  rw [setBits_eq]
  unfold bits
  have hl : x % 2 ^ lo < 2 ^ lo := Nat.mod_lt _ (Nat.two_pow_pos lo)
  have : x / 2 ^ (lo + w) * 2 ^ (lo + w) + v % 2 ^ w * 2 ^ lo + x % 2 ^ lo =
      2 ^ lo * (2 ^ w * (x / 2 ^ (lo + w)) + v % 2 ^ w) + x % 2 ^ lo := by rw [Nat.pow_add]; ring
  rw [this, Nat.mul_add_div (Nat.two_pow_pos lo), Nat.div_eq_of_lt hl, Nat.add_zero, Nat.mul_add_mod, Nat.mod_mod]

/-- Bits below a field that is set do not change. -/
theorem bits_setBits_below (x lo w v l u : Nat) (h : l + u ≤ lo) : bits (setBits x lo w v) l u = bits x l u := by
  have e : ∀ y : Nat, bits y l u = bits (y % 2 ^ lo) l u := by
    intro y
    unfold bits
    obtain ⟨m, rfl⟩ : ∃ m, lo = l + u + m := ⟨lo - (l + u), by omega⟩
    have hy : y = 2 ^ (l + u + m) * (y / 2 ^ (l + u + m)) + y % 2 ^ (l + u + m) := (Nat.div_add_mod _ _).symm
    have hq : 2 ^ (l + u + m) * (y / 2 ^ (l + u + m)) = 2 ^ l * (2 ^ u * (2 ^ m * (y / 2 ^ (l + u + m)))) := by
      rw [Nat.pow_add, Nat.pow_add]; ring
    conv_lhs => rw [hy, hq, Nat.mul_add_div (Nat.two_pow_pos l), Nat.mul_add_mod]
  rw [e (setBits x lo w v), e x, setBits_eq]
  congr 1
  have : x / 2 ^ (lo + w) * 2 ^ (lo + w) + v % 2 ^ w * 2 ^ lo + x % 2 ^ lo =
      2 ^ lo * (2 ^ w * (x / 2 ^ (lo + w)) + v % 2 ^ w) + x % 2 ^ lo := by rw [Nat.pow_add]; ring
  rw [this, Nat.mul_add_mod, Nat.mod_mod]

/-- Bits above a field that is set do not change. -/
theorem bits_setBits_above (x lo w v l u : Nat) (h : lo + w ≤ l) : bits (setBits x lo w v) l u = bits x l u := by
  have e : ∀ y : Nat, bits y l u = bits (y / 2 ^ (lo + w)) (l - (lo + w)) u := by
    intro y
    unfold bits
    rw [Nat.div_div_eq_div_mul, ← Nat.pow_add, show lo + w + (l - (lo + w)) = l by omega]
  rw [e (setBits x lo w v), e x]
  congr 1
  rw [setBits_eq]
  have hl : x % 2 ^ lo < 2 ^ lo := Nat.mod_lt _ (Nat.two_pow_pos lo)
  have hv : v % 2 ^ w < 2 ^ w := Nat.mod_lt _ (Nat.two_pow_pos w)
  have hlt : v % 2 ^ w * 2 ^ lo + x % 2 ^ lo < 2 ^ (lo + w) := by
    have h1 : (v % 2 ^ w + 1) * 2 ^ lo ≤ 2 ^ w * 2 ^ lo := Nat.mul_le_mul_right _ hv
    have h2 : 2 ^ w * 2 ^ lo = 2 ^ (lo + w) := by rw [Nat.pow_add]; ring
    have h3 : (v % 2 ^ w + 1) * 2 ^ lo = v % 2 ^ w * 2 ^ lo + 2 ^ lo := by ring
    omega
  rw [Nat.mul_comm (x / 2 ^ (lo + w)), Nat.add_assoc, Nat.mul_add_div (Nat.two_pow_pos _), Nat.div_eq_of_lt hlt, Nat.add_zero]

theorem setBits_lt (x lo w v n : Nat) (hx : x < 2 ^ n) (h : lo + w ≤ n) : setBits x lo w v < 2 ^ n := by
  have hq : x / 2 ^ (lo + w) < 2 ^ (n - (lo + w)) := by
    rw [Nat.div_lt_iff_lt_mul (Nat.two_pow_pos _), ← Nat.pow_add]
    rwa [show n - (lo + w) + (lo + w) = n by omega]
  have hl : x % 2 ^ lo < 2 ^ lo := Nat.mod_lt _ (Nat.two_pow_pos lo)
  have hv : v % 2 ^ w < 2 ^ w := Nat.mod_lt _ (Nat.two_pow_pos w)
  rw [setBits_eq]
  have h1 : (v % 2 ^ w + 1) * 2 ^ lo ≤ 2 ^ w * 2 ^ lo := Nat.mul_le_mul_right _ hv
  have h2 : 2 ^ w * 2 ^ lo = 2 ^ (lo + w) := by rw [Nat.pow_add]; ring
  have h3 : (v % 2 ^ w + 1) * 2 ^ lo = v % 2 ^ w * 2 ^ lo + 2 ^ lo := by ring
  have h4 : (x / 2 ^ (lo + w) + 1) * 2 ^ (lo + w) ≤ 2 ^ (n - (lo + w)) * 2 ^ (lo + w) := Nat.mul_le_mul_right _ hq
  have h5 : 2 ^ (n - (lo + w)) * 2 ^ (lo + w) = 2 ^ n := by rw [← Nat.pow_add]; congr 1; omega
  have h6 : (x / 2 ^ (lo + w) + 1) * 2 ^ (lo + w) = x / 2 ^ (lo + w) * 2 ^ (lo + w) + 2 ^ (lo + w) := by ring
  omega

/-! ## Registers -/

@[simp] theorem State.rd_wr_same (s : State) (r : Reg) (v : Word) (i k : Nat) : (s.wr r v i k).rd r i k = v := by
  simp [State.rd, State.wr]

theorem State.rd_wr_other (s : State) (r p : Reg) (v : Word) (i k j l : Nat) (h : p.addr j l ≠ r.addr i k) :
    (s.wr r v i k).rd p j l = s.rd p j l := by
  simp [State.rd, State.wr, SMap.findD_store_other _ _ _ _ _ _ h]

/-- A field lies in its 32-bit register. -/
def Fld.inReg (f : Fld) : Bool := decide (f.lo ≤ f.hi ∧ f.hi < 32)

theorem State.rd_fSet (s : State) (f : Fld) (v i k : Nat) (h : f.inReg = true) :
    ((s.fSet f v i k).rd f.reg i k).toNat = setBits (s.rd f.reg i k).toNat f.lo (f.hi + 1 - f.lo) v := by
  simp only [Fld.inReg, decide_eq_true_eq] at h
  simp only [State.fSet, State.rd_wr_same, BitVec.toNat_ofNat]
  exact Nat.mod_eq_of_lt (setBits_lt _ _ _ _ 32 (s.rd f.reg i k).isLt (by omega))

/-- A field that is set reads as the value set, cut to its width. -/
theorem State.fN_fSet (s : State) (f : Fld) (v i k : Nat) (h : f.inReg = true) :
    (s.fSet f v i k).fN f i k = v % 2 ^ (f.hi + 1 - f.lo) := by
  rw [State.fN, State.rd_fSet s f v i k h, bits_setBits]

/-- A field of another register does not change. -/
theorem State.fN_wr_other (s : State) (r : Reg) (g : Fld) (v : Word) (i k j l : Nat) (h : g.reg.addr j l ≠ r.addr i k) :
    (s.wr r v i k).fN g j l = s.fN g j l := by
  rw [State.fN, State.rd_wr_other _ _ _ _ _ _ _ _ h, State.fN]

theorem State.fN_fSet_other (s : State) (f g : Fld) (v i k j l : Nat) (h : g.reg.addr j l ≠ f.reg.addr i k) :
    (s.fSet f v i k).fN g j l = s.fN g j l := State.fN_wr_other _ _ _ _ _ _ _ _ h

/-- Another field of the same register does not change. -/
theorem State.fN_fSet_apart (s : State) (f g : Fld) (v i k : Nat) (hr : g.reg = f.reg) (hf : f.inReg = true)
    (h : g.hi < f.lo ∨ f.hi < g.lo) (hg : g.inReg = true) : (s.fSet f v i k).fN g i k = s.fN g i k := by
  have h1 := hf
  have h2 := hg
  simp only [Fld.inReg, decide_eq_true_eq] at h1 h2
  rw [State.fN, hr, State.rd_fSet s f v i k hf, State.fN, hr]
  rcases h with h | h
  · exact bits_setBits_below _ _ _ _ _ _ (by omega)
  · exact bits_setBits_above _ _ _ _ _ _ (by omega)

theorem State.fB_fFlag (s : State) (f : Fld) (b : Bool) (i k : Nat) (h : f.inReg = true) : (s.fFlag f b i k).fB f i k = b := by
  have h2 := h
  simp only [Fld.inReg, decide_eq_true_eq] at h2
  rw [State.fB, State.fFlag, State.fN_fSet _ _ _ _ _ h]
  obtain ⟨m, hm⟩ : ∃ m, f.hi + 1 - f.lo = m + 1 := ⟨f.hi - f.lo, by omega⟩
  have h1 : 1 < 2 ^ (m + 1) := Nat.one_lt_two_pow (by omega)
  cases b
  · simp
  · simp [hm, Nat.mod_eq_of_lt h1]

/-- A counter field that is raised saturates. -/
theorem State.fN_bump (s : State) (f : Fld) (n i k : Nat) (h : f.inReg = true) :
    (s.bump f n i k).fN f i k = min (s.fN f i k + n) (2 ^ (f.hi + 1 - f.lo) - 1) := by
  rw [State.bump, State.fN_fSet _ _ _ _ _ h]
  exact Nat.mod_eq_of_lt (by have := Nat.two_pow_pos (f.hi + 1 - f.lo); omega)

end Sys2Proof.Machine
end

