-- ==== Sys2Proof/Laws/Exec.lean ====
section
/-!
SUPPORT. How every command answers: as `run` or `run1` says, but for the thirteen that take effect without a running device.
-/
namespace Sys2Proof.Machine

/-- Every command answers as `run` says, or as `run1` says where it is a command of domain 1, or is one of the thirteen of
the board. -/
theorem exec_cases (c : Instr) (s : State) :
    (∃ f, exec c s = run s f) ∨ (Domain1Row c ∧ ∃ f, exec c s = run1 s f) ∨ BoardRow c := by
  cases c
  case registerWrite => simp only [exec, execRegisterWrite]; exact Or.inl ⟨_, rfl⟩
  case misalignedCsrAccess => simp only [exec, execMisalignedCsrAccess]; exact Or.inl ⟨_, rfl⟩
  case csrUnmappedAccess => simp only [exec, execCsrUnmappedAccess]; exact Or.inl ⟨_, rfl⟩
  case csrOffDomainAccess => simp only [exec, execCsrOffDomainAccess]; exact Or.inl ⟨_, rfl⟩
  case memrd => simp only [exec, execMemrd]; exact Or.inl ⟨_, rfl⟩
  case memrddata => simp only [exec, execMemrddata]; exact Or.inl ⟨_, rfl⟩
  case meminv => simp only [exec, execMeminv]; exact Or.inl ⟨_, rfl⟩
  case meminvnt => simp only [exec, execMeminvnt]; exact Or.inl ⟨_, rfl⟩
  case memclnevct => simp only [exec, execMemclnevct]; exact Or.inl ⟨_, rfl⟩
  case memspecrd => simp only [exec, execMemspecrd]; exact Or.inl ⟨_, rfl⟩
  case memrdfwd => simp only [exec, execMemrdfwd]; exact Or.inl ⟨_, rfl⟩
  case memwrfwd => simp only [exec, execMemwrfwd]; exact Or.inl ⟨_, rfl⟩
  case memwr => simp only [exec, execMemwr]; exact Or.inl ⟨_, rfl⟩
  case memwrptl => simp only [exec, execMemwrptl]; exact Or.inl ⟨_, rfl⟩
  case biconflict => simp only [exec, execBiconflict]; exact Or.inl ⟨_, rfl⟩
  case birspi => simp only [exec, execBirspi]; exact Or.inl ⟨_, rfl⟩
  case birsps => simp only [exec, execBirsps]; exact Or.inl ⟨_, rfl⟩
  case birspe => simp only [exec, execBirspe]; exact Or.inl ⟨_, rfl⟩
  case birspBlock => simp only [exec, execBirspBlock]; exact Or.inl ⟨_, rfl⟩
  case lockGrant => simp only [exec, execLockGrant]; exact Or.inl ⟨_, rfl⟩
  case policerRelease => simp only [exec, execPolicerRelease]; exact Or.inl ⟨_, rfl⟩
  case biTimeout => simp only [exec, execBiTimeout]; exact Or.inl ⟨_, rfl⟩
  case dramCommandIssue => simp only [exec, execDramCommandIssue]; exact Or.inl ⟨_, rfl⟩
  case dramReadData => simp only [exec, execDramReadData]; exact Or.inl ⟨_, rfl⟩
  case refsbIssue => simp only [exec, execRefsbIssue]; exact Or.inl ⟨_, rfl⟩
  case refreshDue => simp only [exec, execRefreshDue]; exact Or.inl ⟨_, rfl⟩
  case rfmIssue => simp only [exec, execRfmIssue]; exact Or.inl ⟨_, rfl⟩
  case neighbourSet => simp only [exec, execNeighbourSet]; exact Or.inl ⟨_, rfl⟩
  case zqCalibration => simp only [exec, execZqCalibration]; exact Or.inl ⟨_, rfl⟩
  case dqsOscRead => simp only [exec, execDqsOscRead]; exact Or.inl ⟨_, rfl⟩
  case rowCloseIdle => simp only [exec, execRowCloseIdle]; exact Or.inl ⟨_, rfl⟩
  case thermalRead => exact Or.inr (Or.inr (.thermalRead _ _ _))
  case caAlert => simp only [exec, execCaAlert]; exact Or.inl ⟨_, rfl⟩
  case dchCfgWrite => simp only [exec, execDchCfgWrite]; exact Or.inl ⟨_, rfl⟩
  case maintActive => simp only [exec, execMaintActive]; exact Or.inl ⟨_, rfl⟩
  case fullTraining => simp only [exec, execFullTraining]; exact Or.inl ⟨_, rfl⟩
  case maintTraining => simp only [exec, execMaintTraining]; exact Or.inl ⟨_, rfl⟩
  case trainingDone => simp only [exec, execTrainingDone]; exact Or.inl ⟨_, rfl⟩
  case rawRead => simp only [exec, execRawRead]; exact Or.inl ⟨_, rfl⟩
  case rawWrite => simp only [exec, execRawWrite]; exact Or.inl ⟨_, rfl⟩
  case injectWrite => simp only [exec, execInjectWrite]; exact Or.inl ⟨_, rfl⟩
  case checkedRead => simp only [exec, execCheckedRead]; exact Or.inl ⟨_, rfl⟩
  case remapRead => simp only [exec, execRemapRead]; exact Or.inl ⟨_, rfl⟩
  case remapInstall => simp only [exec, execRemapInstall]; exact Or.inl ⟨_, rfl⟩
  case remapInstallDone => simp only [exec, execRemapInstallDone]; exact Or.inl ⟨_, rfl⟩
  case installBlank => simp only [exec, execInstallBlank]; exact Or.inl ⟨_, rfl⟩
  case remapRemove => simp only [exec, execRemapRemove]; exact Or.inl ⟨_, rfl⟩
  case foragerRead => simp only [exec, execForagerRead]; exact Or.inl ⟨_, rfl⟩
  case foragerAccel => simp only [exec, execForagerAccel]; exact Or.inl ⟨_, rfl⟩
  case foragerLapEnd => simp only [exec, execForagerLapEnd]; exact Or.inl ⟨_, rfl⟩
  case vmapZero => simp only [exec, execVmapZero]; exact Or.inl ⟨_, rfl⟩
  case vmapZeroDone => simp only [exec, execVmapZeroDone]; exact Or.inl ⟨_, rfl⟩
  case vmapOn => simp only [exec, execVmapOn]; exact Or.inl ⟨_, rfl⟩
  case ilLock => simp only [exec, execIlLock]; exact Or.inl ⟨_, rfl⟩
  case ctxtRead => simp only [exec, execCtxtRead]; exact Or.inl ⟨_, rfl⟩
  case ctxtWrite => simp only [exec, execCtxtWrite]; exact Or.inl ⟨_, rfl⟩
  case ctxtInvalidate => simp only [exec, execCtxtInvalidate]; exact Or.inl ⟨_, rfl⟩
  case ctxtCmdDone => simp only [exec, execCtxtCmdDone]; exact Or.inl ⟨_, rfl⟩
  case halfPowerDown => simp only [exec, execHalfPowerDown]; exact Or.inl ⟨_, rfl⟩
  case halfPowerDownDone => simp only [exec, execHalfPowerDownDone]; exact Or.inl ⟨_, rfl⟩
  case halfPowerUp => simp only [exec, execHalfPowerUp]; exact Or.inl ⟨_, rfl⟩
  case cacheDisable => simp only [exec, execCacheDisable]; exact Or.inl ⟨_, rfl⟩
  case cacheEnable => simp only [exec, execCacheEnable]; exact Or.inl ⟨_, rfl⟩
  case heatFold => simp only [exec, execHeatFold]; exact Or.inl ⟨_, rfl⟩
  case heatEpochEnd => simp only [exec, execHeatEpochEnd]; exact Or.inl ⟨_, rfl⟩
  case heatSweepDone => simp only [exec, execHeatSweepDone]; exact Or.inl ⟨_, rfl⟩
  case hotListStart => simp only [exec, execHotListStart]; exact Or.inl ⟨_, rfl⟩
  case hotListDone => simp only [exec, execHotListDone]; exact Or.inl ⟨_, rfl⟩
  case mirrorEntry => simp only [exec, execMirrorEntry]; exact Or.inl ⟨_, rfl⟩
  case mirrorTimeout => simp only [exec, execMirrorTimeout]; exact Or.inl ⟨_, rfl⟩
  case agentRegister => simp only [exec, execAgentRegister]; exact Or.inl ⟨_, rfl⟩
  case snoopCtlWrite => simp only [exec, execSnoopCtlWrite]; exact Or.inl ⟨_, rfl⟩
  case agentDownSweepDone => simp only [exec, execAgentDownSweepDone]; exact Or.inl ⟨_, rfl⟩
  case packetFetch => simp only [exec, execPacketFetch]; exact Or.inl ⟨_, rfl⟩
  case fenceRelease => simp only [exec, execFenceRelease]; exact Or.inl ⟨_, rfl⟩
  case commandComplete => simp only [exec, execCommandComplete]; exact Or.inl ⟨_, rfl⟩
  case nop => simp only [exec, execNop]; exact Or.inl ⟨_, rfl⟩
  case queueCreate => simp only [exec, execQueueCreate]; exact Or.inl ⟨_, rfl⟩
  case queueDestroy => simp only [exec, execQueueDestroy]; exact Or.inl ⟨_, rfl⟩
  case queueResume => simp only [exec, execQueueResume]; exact Or.inl ⟨_, rfl⟩
  case doorbellSet => simp only [exec, execDoorbellSet]; exact Or.inl ⟨_, rfl⟩
  case domeCreate => simp only [exec, execDomeCreate]; exact Or.inl ⟨_, rfl⟩
  case domeTeardown => simp only [exec, execDomeTeardown]; exact Or.inl ⟨_, rfl⟩
  case shareJoin => simp only [exec, execShareJoin]; exact Or.inl ⟨_, rfl⟩
  case shareLeave => simp only [exec, execShareLeave]; exact Or.inl ⟨_, rfl⟩
  case cellAlloc => simp only [exec, execCellAlloc]; exact Or.inl ⟨_, rfl⟩
  case cellFree => simp only [exec, execCellFree]; exact Or.inl ⟨_, rfl⟩
  case shareMove => simp only [exec, execShareMove]; exact Or.inl ⟨_, rfl⟩
  case pin => simp only [exec, execPin]; exact Or.inl ⟨_, rfl⟩
  case unpin => simp only [exec, execUnpin]; exact Or.inl ⟨_, rfl⟩
  case migrate => simp only [exec, execMigrate]; exact Or.inl ⟨_, rfl⟩
  case migrateEnd => simp only [exec, execMigrateEnd]; exact Or.inl ⟨_, rfl⟩
  case combInval => simp only [exec, execCombInval]; exact Or.inl ⟨_, rfl⟩
  case combRootSet => simp only [exec, execCombRootSet]; exact Or.inl ⟨_, rfl⟩
  case agentDown => simp only [exec, execAgentDown]; exact Or.inl ⟨_, rfl⟩
  case rekey => simp only [exec, execRekey]; exact Or.inl ⟨_, rfl⟩
  case handleCreate => simp only [exec, execHandleCreate]; exact Or.inl ⟨_, rfl⟩
  case handleDestroy => simp only [exec, execHandleDestroy]; exact Or.inl ⟨_, rfl⟩
  case move => simp only [exec, execMove]; exact Or.inl ⟨_, rfl⟩
  case fill => simp only [exec, execFill]; exact Or.inl ⟨_, rfl⟩
  case moveStrided => simp only [exec, execMoveStrided]; exact Or.inl ⟨_, rfl⟩
  case atomicAdd64 => simp only [exec, execAtomicAdd64]; exact Or.inl ⟨_, rfl⟩
  case convert => simp only [exec, execConvert]; exact Or.inl ⟨_, rfl⟩
  case axpy => simp only [exec, execAxpy]; exact Or.inl ⟨_, rfl⟩
  case reduceInto => simp only [exec, execReduceInto]; exact Or.inl ⟨_, rfl⟩
  case gatherPool => simp only [exec, execGatherPool]; exact Or.inl ⟨_, rfl⟩
  case optStep => simp only [exec, execOptStep]; exact Or.inl ⟨_, rfl⟩
  case attnPartial => simp only [exec, execAttnPartial]; exact Or.inl ⟨_, rfl⟩
  case topk => simp only [exec, execTopk]; exact Or.inl ⟨_, rfl⟩
  case checksum => simp only [exec, execChecksum]; exact Or.inl ⟨_, rfl⟩
  case publish => simp only [exec, execPublish]; exact Or.inl ⟨_, rfl⟩
  case get => simp only [exec, execGet]; exact Or.inl ⟨_, rfl⟩
  case put => simp only [exec, execPut]; exact Or.inl ⟨_, rfl⟩
  case ping => simp only [exec, execPing]; exact Or.inl ⟨_, rfl⟩
  case mailboxGo => simp only [exec, execMailboxGo]; exact Or.inl ⟨_, rfl⟩
  case qctlEnable => simp only [exec, execQctlEnable]; exact Or.inl ⟨_, rfl⟩
  case pguGrant => simp only [exec, execPguGrant]; exact Or.inl ⟨_, rfl⟩
  case throttleChange => exact Or.inr (Or.inr (.throttleChange _))
  case combEnable => simp only [exec, execCombEnable]; exact Or.inl ⟨_, rfl⟩
  case combRecordTake => simp only [exec, execCombRecordTake]; exact Or.inl ⟨_, rfl⟩
  case combFillCommit => simp only [exec, execCombFillCommit]; exact Or.inl ⟨_, rfl⟩
  case combMissTimeout => simp only [exec, execCombMissTimeout]; exact Or.inl ⟨_, rfl⟩
  case combInvGo => simp only [exec, execCombInvGo]; exact Or.inl ⟨_, rfl⟩
  case combInvDone => simp only [exec, execCombInvDone]; exact Or.inl ⟨_, rfl⟩
  case spireSlotStart => simp only [exec, execSpireSlotStart]; exact Or.inl ⟨_, rfl⟩
  case spireCtlWrite => simp only [exec, execSpireCtlWrite]; exact Or.inl ⟨_, rfl⟩
  case srSeedLoad => simp only [exec, execSrSeedLoad]; exact Or.inl ⟨_, rfl⟩
  case windowEnable => simp only [exec, execWindowEnable]; exact Or.inl ⟨_, rfl⟩
  case hdmCommit => simp only [exec, execHdmCommit]; exact Or.inl ⟨_, rfl⟩
  case hdmUncommit => simp only [exec, execHdmUncommit]; exact Or.inl ⟨_, rfl⟩
  case cxlpCfgWrite => simp only [exec, execCxlpCfgWrite]; exact Or.inl ⟨_, rfl⟩
  case cxlLinkUp => simp only [exec, execCxlLinkUp]; exact Or.inl ⟨_, rfl⟩
  case linkRecovery => simp only [exec, execLinkRecovery]; exact Or.inl ⟨_, rfl⟩
  case recoveryTimeout => simp only [exec, execRecoveryTimeout]; exact Or.inl ⟨_, rfl⟩
  case retrain0 => simp only [exec, execRetrain0]; exact Or.inl ⟨_, rfl⟩
  case retrain1 => simp only [exec, execRetrain1]; exact Or.inl ⟨_, rfl⟩
  case linkDown => simp only [exec, execLinkDown]; exact Or.inl ⟨_, rfl⟩
  case hotReset => simp only [exec, execHotReset]; exact Or.inl ⟨_, rfl⟩
  case linkDisable => simp only [exec, execLinkDisable]; exact Or.inl ⟨_, rfl⟩
  case ideIntegrityFailure => simp only [exec, execIdeIntegrityFailure]; exact Or.inl ⟨_, rfl⟩
  case kSetGo => simp only [exec, execKSetGo]; exact Or.inl ⟨_, rfl⟩
  case keyProg => simp only [exec, execKeyProg]; exact Or.inl ⟨_, rfl⟩
  case doeObject => simp only [exec, execDoeObject]; exact Or.inl ⟨_, rfl⟩
  case identify => simp only [exec, execIdentify]; exact Or.inl ⟨_, rfl⟩
  case identifyMemoryDevice => simp only [exec, execIdentifyMemoryDevice]; exact Or.inl ⟨_, rfl⟩
  case getHealthInfo => simp only [exec, execGetHealthInfo]; exact Or.inl ⟨_, rfl⟩
  case getSupportedLogs => simp only [exec, execGetSupportedLogs]; exact Or.inl ⟨_, rfl⟩
  case getLog => simp only [exec, execGetLog]; exact Or.inl ⟨_, rfl⟩
  case getFwInfo => simp only [exec, execGetFwInfo]; exact Or.inl ⟨_, rfl⟩
  case getEventRecords => simp only [exec, execGetEventRecords]; exact Or.inl ⟨_, rfl⟩
  case clearEventRecords => simp only [exec, execClearEventRecords]; exact Or.inl ⟨_, rfl⟩
  case getEventInterruptPolicy => simp only [exec, execGetEventInterruptPolicy]; exact Or.inl ⟨_, rfl⟩
  case setEventInterruptPolicy => simp only [exec, execSetEventInterruptPolicy]; exact Or.inl ⟨_, rfl⟩
  case getPoisonList => simp only [exec, execGetPoisonList]; exact Or.inl ⟨_, rfl⟩
  case injectPoison => simp only [exec, execInjectPoison]; exact Or.inl ⟨_, rfl⟩
  case clearPoison => simp only [exec, execClearPoison]; exact Or.inl ⟨_, rfl⟩
  case getLdInfo => simp only [exec, execGetLdInfo]; exact Or.inl ⟨_, rfl⟩
  case getLdAllocations => simp only [exec, execGetLdAllocations]; exact Or.inl ⟨_, rfl⟩
  case setLdAllocations => simp only [exec, execSetLdAllocations]; exact Or.inl ⟨_, rfl⟩
  case zmCmdPacket => simp only [exec, execZmCmdPacket]; exact Or.inl ⟨_, rfl⟩
  case zmPortCounters => simp only [exec, execZmPortCounters]; exact Or.inl ⟨_, rfl⟩
  case zmLinkRetrain => simp only [exec, execZmLinkRetrain]; exact Or.inl ⟨_, rfl⟩
  case unsupportedMailboxCommand => simp only [exec, execUnsupportedMailboxCommand]; exact Or.inl ⟨_, rfl⟩
  case dataFlit => simp only [exec, execDataFlit]; exact Or.inl ⟨_, rfl⟩
  case idleFlit => simp only [exec, execIdleFlit]; exact Or.inl ⟨_, rfl⟩
  case badFlit => simp only [exec, execBadFlit]; exact Or.inl ⟨_, rfl⟩
  case ctrlCredit => simp only [exec, execCtrlCredit]; exact Or.inl ⟨_, rfl⟩
  case mac => simp only [exec, execMac]; exact Or.inl ⟨_, rfl⟩
  case void => simp only [exec, execVoid]; exact Or.inl ⟨_, rfl⟩
  case spareReq => simp only [exec, execSpareReq]; exact Or.inl ⟨_, rfl⟩
  case spareGo => simp only [exec, execSpareGo]; exact Or.inl ⟨_, rfl⟩
  case resetReq => simp only [exec, execResetReq]; exact Or.inl ⟨_, rfl⟩
  case flitTransmit => simp only [exec, execFlitTransmit]; exact Or.inl ⟨_, rfl⟩
  case ackTimer => simp only [exec, execAckTimer]; exact Or.inl ⟨_, rfl⟩
  case ackRepeat => simp only [exec, execAckRepeat]; exact Or.inl ⟨_, rfl⟩
  case replayTimeout => simp only [exec, execReplayTimeout]; exact Or.inl ⟨_, rfl⟩
  case laneFailing => simp only [exec, execLaneFailing]; exact Or.inl ⟨_, rfl⟩
  case spareDone => simp only [exec, execSpareDone]; exact Or.inl ⟨_, rfl⟩
  case rypCfgWrite => simp only [exec, execRypCfgWrite]; exact Or.inl ⟨_, rfl⟩
  case rypDisable => simp only [exec, execRypDisable]; exact Or.inl ⟨_, rfl⟩
  case partnerDetected => simp only [exec, execPartnerDetected]; exact Or.inl ⟨_, rfl⟩
  case equalisationDone => simp only [exec, execEqualisationDone]; exact Or.inl ⟨_, rfl⟩
  case fecLock => simp only [exec, execFecLock]; exact Or.inl ⟨_, rfl⟩
  case paramDone => simp only [exec, execParamDone]; exact Or.inl ⟨_, rfl⟩
  case trainTimeout => simp only [exec, execTrainTimeout]; exact Or.inl ⟨_, rfl⟩
  case resetIdleEnd => simp only [exec, execResetIdleEnd]; exact Or.inl ⟨_, rfl⟩
  case failedRetry => simp only [exec, execFailedRetry]; exact Or.inl ⟨_, rfl⟩
  case linkReset => simp only [exec, execLinkReset]; exact Or.inl ⟨_, rfl⟩
  case hRd => simp only [exec, execHRd]; exact Or.inl ⟨_, rfl⟩
  case hWr => simp only [exec, execHWr]; exact Or.inl ⟨_, rfl⟩
  case wRd => simp only [exec, execWRd]; exact Or.inl ⟨_, rfl⟩
  case wWr => simp only [exec, execWWr]; exact Or.inl ⟨_, rfl⟩
  case rdData => simp only [exec, execRdData]; exact Or.inl ⟨_, rfl⟩
  case wrAck => simp only [exec, execWrAck]; exact Or.inl ⟨_, rfl⟩
  case err => simp only [exec, execErr]; exact Or.inl ⟨_, rfl⟩
  case pong => simp only [exec, execPong]; exact Or.inl ⟨_, rfl⟩
  case pingPacket => simp only [exec, execPingPacket]; exact Or.inl ⟨_, rfl⟩
  case packetForward => simp only [exec, execPacketForward]; exact Or.inl ⟨_, rfl⟩
  case routeHoldExpiry => simp only [exec, execRouteHoldExpiry]; exact Or.inl ⟨_, rfl⟩
  case msgTimeout => simp only [exec, execMsgTimeout]; exact Or.inl ⟨_, rfl⟩
  case msgNumberReturn => simp only [exec, execMsgNumberReturn]; exact Or.inl ⟨_, rfl⟩
  case owinTimeout => simp only [exec, execOwinTimeout]; exact Or.inl ⟨_, rfl⟩
  case owinEnable => simp only [exec, execOwinEnable]; exact Or.inl ⟨_, rfl⟩
  case iwinEnable => simp only [exec, execIwinEnable]; exact Or.inl ⟨_, rfl⟩
  case handleTableEnable => simp only [exec, execHandleTableEnable]; exact Or.inl ⟨_, rfl⟩
  case queenClaim => simp only [exec, execQueenClaim]; exact Or.inl ⟨_, rfl⟩
  case heartbeat => simp only [exec, execHeartbeat]; exact Or.inl ⟨_, rfl⟩
  case heartbeatMiss => simp only [exec, execHeartbeatMiss]; exact Or.inl ⟨_, rfl⟩
  case lossVote => simp only [exec, execLossVote]; exact Or.inl ⟨_, rfl⟩
  case takeover => simp only [exec, execTakeover]; exact Or.inl ⟨_, rfl⟩
  case queenUpdate => simp only [exec, execQueenUpdate]; exact Or.inl ⟨_, rfl⟩
  case queenCtlWrite => simp only [exec, execQueenCtlWrite]; exact Or.inl ⟨_, rfl⟩
  case bypassRelease => simp only [exec, execBypassRelease]; exact Or.inl ⟨_, rfl⟩
  case egressPick => simp only [exec, execEgressPick]; exact Or.inl ⟨_, rfl⟩
  case shaperRefill => simp only [exec, execShaperRefill]; exact Or.inl ⟨_, rfl⟩
  case shaperCtlWrite => simp only [exec, execShaperCtlWrite]; exact Or.inl ⟨_, rfl⟩
  case keyDeliver => simp only [exec, execKeyDeliver]; exact Or.inr (Or.inl ⟨.keyDeliver _ _ _, _, rfl⟩)
  case getVersion => simp only [exec, execGetVersion]; exact Or.inr (Or.inl ⟨.getVersion, _, rfl⟩)
  case getCertificate => simp only [exec, execGetCertificate]; exact Or.inr (Or.inl ⟨.getCertificate, _, rfl⟩)
  case keyExchange => simp only [exec, execKeyExchange]; exact Or.inr (Or.inl ⟨.keyExchange _ _, _, rfl⟩)
  case spdmRequest => simp only [exec, execSpdmRequest]; exact Or.inr (Or.inl ⟨.spdmRequest _, _, rfl⟩)
  case bindCommit => simp only [exec, execBindCommit]; exact Or.inl ⟨_, rfl⟩
  case linkKeySwitch => simp only [exec, execLinkKeySwitch]; exact Or.inl ⟨_, rfl⟩
  case sweepCell => simp only [exec, execSweepCell]; exact Or.inl ⟨_, rfl⟩
  case teardownDrainDone => simp only [exec, execTeardownDrainDone]; exact Or.inl ⟨_, rfl⟩
  case drainTimeout => simp only [exec, execDrainTimeout]; exact Or.inl ⟨_, rfl⟩
  case teardownRecallDone => simp only [exec, execTeardownRecallDone]; exact Or.inl ⟨_, rfl⟩
  case overwritePassDone => simp only [exec, execOverwritePassDone]; exact Or.inl ⟨_, rfl⟩
  case faultEvent => simp only [exec, execFaultEvent]; exact Or.inl ⟨_, rfl⟩
  case wireFault => simp only [exec, execWireFault]; exact Or.inl ⟨_, rfl⟩
  case faultInject => simp only [exec, execFaultInject]; exact Or.inl ⟨_, rfl⟩
  case brokenClear => simp only [exec, execBrokenClear]; exact Or.inl ⟨_, rfl⟩
  case recNext => simp only [exec, execRecNext]; exact Or.inl ⟨_, rfl⟩
  case recClose => simp only [exec, execRecClose]; exact Or.inl ⟨_, rfl⟩
  case ovfCntRead => simp only [exec, execOvfCntRead]; exact Or.inl ⟨_, rfl⟩
  case quietExpiry => simp only [exec, execQuietExpiry]; exact Or.inl ⟨_, rfl⟩
  case clrCount => simp only [exec, execClrCount]; exact Or.inl ⟨_, rfl⟩
  case claim => simp only [exec, execClaim]; exact Or.inl ⟨_, rfl⟩
  case eoi => simp only [exec, execEoi]; exact Or.inl ⟨_, rfl⟩
  case swtrig => simp only [exec, execSwtrig]; exact Or.inl ⟨_, rfl⟩
  case grpCfgWrite => simp only [exec, execGrpCfgWrite]; exact Or.inl ⟨_, rfl⟩
  case holdoffExpiry => simp only [exec, execHoldoffExpiry]; exact Or.inl ⟨_, rfl⟩
  case msixUnmask => simp only [exec, execMsixUnmask]; exact Or.inl ⟨_, rfl⟩
  case timerExpiry => simp only [exec, execTimerExpiry]; exact Or.inl ⟨_, rfl⟩
  case tmrOwnerWrite => simp only [exec, execTmrOwnerWrite]; exact Or.inl ⟨_, rfl⟩
  case watchdogExpiry => simp only [exec, execWatchdogExpiry]; exact Or.inl ⟨_, rfl⟩
  case watchdogKick => simp only [exec, execWatchdogKick]; exact Or.inl ⟨_, rfl⟩
  case pwrokRise => exact Or.inr (Or.inr (.pwrokRise _ _ _ _))
  case pwrokFall => exact Or.inr (Or.inr (.pwrokFall))
  case rootPllLockTimeout => simp only [exec, execRootPllLockTimeout]; exact Or.inl ⟨_, rfl⟩
  case dramGroupSelect => simp only [exec, execDramGroupSelect]; exact Or.inl ⟨_, rfl⟩
  case readyRise => simp only [exec, execReadyRise]; exact Or.inl ⟨_, rfl⟩
  case perstNAssert => exact Or.inr (Or.inr (.perstNAssert))
  case perstNDeassert => exact Or.inr (Or.inr (.perstNDeassert _))
  case softwareReset => simp only [exec, execSoftwareReset]; exact Or.inl ⟨_, rfl⟩
  case softwareResetBegin => simp only [exec, execSoftwareResetBegin]; exact Or.inr (Or.inl ⟨.softwareResetBegin, _, rfl⟩)
  case freeze => exact Or.inr (Or.inr (.freeze _))
  case zmFreeze => simp only [exec, execZmFreeze]; exact Or.inr (Or.inl ⟨.zmFreeze _, _, rfl⟩)
  case thaw => exact Or.inr (Or.inr (.thaw))
  case zmThaw => simp only [exec, execZmThaw]; exact Or.inr (Or.inl ⟨.zmThaw, _, rfl⟩)
  case tapReset => simp only [exec, execTapReset]; exact Or.inr (Or.inl ⟨.tapReset, _, rfl⟩)
  case tapScan => exact Or.inr (Or.inr (.tapScan _))
  case powerDomainOff => simp only [exec, execPowerDomainOff]; exact Or.inl ⟨_, rfl⟩
  case powerDomainOn => simp only [exec, execPowerDomainOn]; exact Or.inl ⟨_, rfl⟩
  case powerSwitchDone => simp only [exec, execPowerSwitchDone]; exact Or.inr (Or.inl ⟨.powerSwitchDone, _, rfl⟩)
  case refcntRead => simp only [exec, execRefcntRead]; exact Or.inl ⟨_, rfl⟩
  case fwcmdTake => simp only [exec, execFwcmdTake]; exact Or.inl ⟨_, rfl⟩
  case fwcmdDone => simp only [exec, execFwcmdDone]; exact Or.inl ⟨_, rfl⟩
  case coreReset => simp only [exec, execCoreReset]; exact Or.inl ⟨_, rfl⟩
  case coreStart => simp only [exec, execCoreStart]; exact Or.inl ⟨_, rfl⟩
  case mgmtDatagram => simp only [exec, execMgmtDatagram]; exact Or.inr (Or.inl ⟨.mgmtDatagram _, _, rfl⟩)
  case arp => simp only [exec, execArp]; exact Or.inr (Or.inl ⟨.arp _, _, rfl⟩)
  case ndp => simp only [exec, execNdp]; exact Or.inr (Or.inl ⟨.ndp _, _, rfl⟩)
  case icmpEcho => simp only [exec, execIcmpEcho]; exact Or.inr (Or.inl ⟨.icmpEcho _ _ _, _, rfl⟩)
  case mgmtFrameDrop => simp only [exec, execMgmtFrameDrop]; exact Or.inr (Or.inl ⟨.mgmtFrameDrop, _, rfl⟩)
  case csrRead => simp only [exec, execCsrRead]; exact Or.inr (Or.inl ⟨.csrRead _ _, _, rfl⟩)
  case csrWrite => simp only [exec, execCsrWrite]; exact Or.inr (Or.inl ⟨.csrWrite _ _ _, _, rfl⟩)
  case cmdPacket => simp only [exec, execCmdPacket]; exact Or.inr (Or.inl ⟨.cmdPacket _ _, _, rfl⟩)
  case flashWrite => simp only [exec, execFlashWrite]; exact Or.inr (Or.inl ⟨.flashWrite _ _ _, _, rfl⟩)
  case smbReadStartStatus => exact Or.inr (Or.inr (.smbReadStartStatus))
  case smbReadDfsStatus => exact Or.inr (Or.inr (.smbReadDfsStatus))
  case smbNack => exact Or.inr (Or.inr (.smbNack))
  case controlCoreAccess => simp only [exec, execControlCoreAccess]; exact Or.inl ⟨_, rfl⟩
  case spireSelfTestDone => simp only [exec, execSpireSelfTestDone]; exact Or.inl ⟨_, rfl⟩
  case halfPowerUpDone => simp only [exec, execHalfPowerUpDone]; exact Or.inl ⟨_, rfl⟩
  case rootPllLock => simp only [exec, execRootPllLock]; exact Or.inl ⟨_, rfl⟩
  case internalResetEnd => exact Or.inr (Or.inr (.internalResetEnd _))

end Sys2Proof.Machine
end

