-- ==== Sys2Proof/Laws/Memory.lean ====
section
/-!
SUPPORT. The DRAM arrays: a store reads back, leaves every other line alone, and keeps the canonical form.
-/
namespace Sys2Proof.Machine

@[simp] theorem State.chan_setChan (s : State) (n : Nat) (x : Channel) : (s.setChan n x).chan n = x := by
  show (s.chans.set (Fin.ofNat 24 n).val x (Fin.ofNat 24 n).isLt).get (Fin.ofNat 24 n) = x
  rw [Vector.get_eq_getElem]
  exact Vector.getElem_set_self _

theorem State.unlisted_setArray (s : State) (ch : Nat) (m : SMap Stored) (loc : Nat) :
    (s.setChan ch { s.chan ch with array := m }).unlisted ch loc = s.unlisted ch loc := by
  unfold State.unlisted
  rw [State.chan_setChan]
  rfl

theorem State.arrayPut_array (s : State) (ch loc : Nat) (v : Stored) :
    ((s.arrayPut ch loc v).chan ch).array =
      if s.unlisted ch loc = some v then SMap.del (s.chan ch).array (loc / 64) else SMap.put (s.chan ch).array (loc / 64) v := by
  simp [State.arrayPut]

theorem State.arrayPut_unlisted (s : State) (ch loc : Nat) (v : Stored) (x : Nat) :
    (s.arrayPut ch loc v).unlisted ch x = s.unlisted ch x := State.unlisted_setArray s ch _ x

/-- A line that has been stored reads back as it was stored. -/
theorem State.arrayGet_arrayPut (s : State) (ch loc : Nat) (v : Stored) : (s.arrayPut ch loc v).arrayGet ch loc = v := by
  unfold State.arrayGet
  simp only [State.arrayPut_array, State.arrayPut_unlisted]
  split
  · rename_i w h
    split at h
    · rw [SMap.find_del_same] at h; cases h
    · rw [SMap.find_put_same] at h; exact (Option.some.inj h).symm
  · rename_i h
    split at h
    · rename_i hu; rw [hu]
    · rw [SMap.find_put_same] at h; cases h

/-- Storing a line leaves every other line of the channel as it was. -/
theorem State.arrayGet_arrayPut_other (s : State) (ch loc x : Nat) (v : Stored) (h : x / 64 ≠ loc / 64) :
    (s.arrayPut ch loc v).arrayGet ch x = s.arrayGet ch x := by
  have he : ((s.arrayPut ch loc v).chan ch).epoch = (s.chan ch).epoch := by
    simp [State.arrayPut]
  have hf : SMap.find ((s.arrayPut ch loc v).chan ch).array (x / 64) = SMap.find (s.chan ch).array (x / 64) := by
    rw [State.arrayPut_array]
    split
    · exact SMap.find_del_other _ _ _ h
    · exact SMap.find_put_other _ _ _ _ h
  unfold State.arrayGet
  simp only [hf, he, State.arrayPut_unlisted]

/-- Storing a line keeps the canonical form of its channel's arrays. -/
theorem State.arrayWf_arrayPut (s : State) (ch loc : Nat) (v : Stored) (h : s.arrayWf ch = true) :
    (s.arrayPut ch loc v).arrayWf ch = true := by
  have hu : ∀ x, s.unlisted ch (x / 64 * 64) = s.unlisted ch x := by
    intro x
    simp [State.unlisted]
  simp only [State.arrayWf, Bool.and_eq_true, List.all_eq_true, decide_eq_true_eq, State.arrayPut_array,
    State.arrayPut_unlisted] at h ⊢
  obtain ⟨h1, h2⟩ := h
  split
  · exact ⟨SMap.wf_del _ _ h1, fun e he => h2 e (List.mem_of_mem_filter he)⟩
  · rename_i hv
    refine ⟨SMap.wf_put _ _ _ h1, ?_⟩
    intro e he
    rcases SMap.mem_put _ _ _ e he with rfl | he
    · simpa [hu] using hv
    · exact h2 e he

theorem State.reset_arrayWf : ∀ ch < 24, State.reset.arrayWf ch = true := by decide

end Sys2Proof.Machine
end

