-- ==== Sys2Proof/Laws/Power.lean ====
section
/-!
SUPPORT. What start-up, reset and the thermal readings leave alone: the waiting commands, and the straps as PWROK latched
them.
-/
namespace Sys2Proof.Machine

theorem State.raise_pending (s : State) (a b c d e) : (s.raise a b c d e).pending = s.pending := by
  unfold State.raise; split <;> rfl

theorem State.raise_pwr (s : State) (a b c d e) : (s.raise a b c d e).pwr = s.pwr := by
  unfold State.raise; split <;> rfl

/-- A fold keeps what each of its steps keeps. -/
theorem foldl_keeps {α β γ : Type} (g : β → γ) (f : β → α → β) (hf : ∀ b a, g (f b a) = g b) (l : List α) (b : β) :
    g (l.foldl f b) = g b := by
  induction l generalizing b with
  | nil => rfl
  | cons a l ih => simp [ih, hf]

/-- An event record goes to its log, and to the fabric manager's port where its policy asks for it: nothing else moves. -/
theorem State.addEvent_pending (s : State) (l k a) : (s.addEvent l k a).pending = s.pending := by
  unfold State.addEvent
  simp only
  split
  · rw [foldl_keeps (fun s : State => s.pending)]
    intro b a; split <;> rfl
  · rfl

theorem State.addEvent_pwr (s : State) (l k a) : (s.addEvent l k a).pwr = s.pwr := by
  unfold State.addEvent
  simp only
  split
  · rw [foldl_keeps (fun s : State => s.pwr)]
    intro b a; split <;> rfl
  · rfl

theorem State.thermalRead_pending (s : State) (c t) : (s.thermalRead c t).pending = s.pending := by
  unfold State.thermalRead
  simp only
  rw [foldl_keeps (fun s : State => s.pending)]
  · rfl
  · intro b a; simp [State.addEvent_pending, State.raise_pending]

theorem State.thermalRead_pwr (s : State) (c t) : (s.thermalRead c t).pwr = s.pwr := by
  unfold State.thermalRead
  simp only
  rw [foldl_keeps (fun s : State => s.pwr)]
  · rfl
  · intro b a; simp [State.addEvent_pwr, State.raise_pwr]

theorem State.showDpc_pending (s : State) : s.showDpc.pending = s.pending := by
  unfold State.showDpc
  rw [foldl_keeps (fun s : State => s.pending)]
  intro b a; rfl

theorem State.showDpc_pwr (s : State) : s.showDpc.pwr = s.pwr := by
  have g : ∀ (l : List Nat) (s : State),
      (l.foldl (fun s ch => s.fFlag F.DCH_CFG_dpc s.pwr.dpcSel ch) s).pwr = s.pwr := by
    intro l s
    exact foldl_keeps (fun s : State => s.pwr) _ (fun b a => State.fFlag_pwr b _ _ _ _) l s
  exact g _ s

theorem State.startError_pending (s : State) (n) : (s.startError n).pending = s.pending := State.fSet_pending s _ _ _ _

theorem State.bypHold_pending (s : State) (n) : (s.bypHold n).pending = s.pending := State.fSet_pending s _ _ _ _

theorem State.startError_pwr (s : State) (n) : (s.startError n).pwr = s.pwr := State.fSet_pwr s _ _ _ _

theorem State.bypHold_pwr (s : State) (n) : (s.bypHold n).pwr = s.pwr := State.fSet_pwr s _ _ _ _

theorem State.loadChain_pending (s : State) (n) : (s.loadChain n).pending = s.pending := by
  have h : ∀ l, (((s.setChain l).fFlag F.SEC_STATUS_chain_ok n).fFlag F.SEC_STATUS_chain_mismatch (!n)).pending =
      s.pending := by
    intro l; simp only [State.fFlag_pending]; rfl
  exact h _

theorem State.loadChain_pwr (s : State) (n) : (s.loadChain n).pwr = s.pwr := by
  have h : ∀ l, (((s.setChain l).fFlag F.SEC_STATUS_chain_ok n).fFlag F.SEC_STATUS_chain_mismatch (!n)).pwr = s.pwr := by
    intro l; simp only [State.fFlag_pwr]; rfl
  exact h _

theorem State.configure_pending (s : State) : s.configure.pending = s.pending := by
  unfold State.configure; simp only; split <;> rfl

theorem State.configure_pwr (s : State) : s.configure.pwr = s.pwr := by
  unfold State.configure; simp only; split <;> rfl

theorem State.runVersion_pwr (s : State) (v) : (s.runVersion v).pwr = s.pwr := rfl

theorem State.runVersion_pending (s : State) (v) : (s.runVersion v).pending = s.pending := rfl

theorem State.seedSpires_frame (s : State) : s.seedSpires.pending = s.pending ∧ s.seedSpires.pwr = s.pwr := by
  unfold State.seedSpires
  generalize List.range 24 = l
  induction l generalizing s with
  | nil => exact ⟨rfl, rfl⟩
  | cons x r ih => exact ih _

/-- The end of a reset changes of the power state only that no reset holds the device. -/
theorem State.endReset_frame (s : State) :
    s.endReset.pending = s.pending ∧ s.endReset.pwr = { s.pwr with inReset := false } := by
  unfold State.endReset
  exact State.seedSpires_frame _

/-- Step 2 of start-up, once the images have passed, changes of the power state only the step reached. -/
theorem State.lastStep_frame (s : State) (v) :
    (((s.configure.runVersion v).setStep 2).bypHold true).pending = s.pending ∧
    (((s.configure.runVersion v).setStep 2).bypHold true).pwr = { s.pwr with step := 2 } := by
  have h : ∀ u : State, ((u.setStep 2).bypHold true).pending = u.pending ∧
      ((u.setStep 2).bypHold true).pwr = { u.pwr with step := 2 } := by
    intro u
    rw [State.bypHold_pending, State.bypHold_pwr]
    exact ⟨rfl, rfl⟩
  obtain ⟨h1, h2⟩ := h (s.configure.runVersion v)
  rw [h1, h2, State.runVersion_pending, State.runVersion_pwr, State.configure_pending, State.configure_pwr]
  exact ⟨rfl, rfl⟩

/-- Steps 1 and 2 of start-up change of the power state only that no reset holds the device, and the step reached; no
command that waits is touched. -/
theorem State.boot_frame (s : State) (c : BootChk) :
    (s.boot c).pending = s.pending ∧ ∃ n, (s.boot c).pwr = { s.pwr with inReset := false, step := n } := by
  unfold State.boot
  obtain ⟨h1, h2⟩ := s.endReset_frame
  generalize s.endReset = u at *
  simp only
  split
  · refine ⟨?_, 1, ?_⟩
    · simp only [State.startError_pending]; exact h1
    · simp only [State.startError_pwr, State.setStep, h2]
  · have hl := u.loadChain_pending c.leaf
    have hm := u.loadChain_pwr c.leaf
    generalize State.loadChain u c.leaf = x at *
    have hx : x.pending = s.pending := hl.trans h1
    have hy : x.pwr = { s.pwr with inReset := false } := by rw [hm, ← h2]
    split
    · refine ⟨?_, 0, ?_⟩
      · simp only [State.startError_pending]; exact hx
      · simp only [State.startError_pwr, State.setStep, hy]
    · split
      · refine ⟨?_, 1, ?_⟩
        · simp only [State.startError_pending]; exact hx
        · simp only [State.startError_pwr, State.setStep, State.setMeas, hy]
      · obtain ⟨hc, hd⟩ := State.lastStep_frame ((x.setMeas 1 (x.imageDigest 0)).setStep 1)
          (((x.setMeas 1 (x.imageDigest 0)).setStep 1).imageVersion 1)
        refine ⟨hc.trans hx, 2, hd.trans ?_⟩
        simp only [State.setStep, State.setMeas, hy]

theorem State.boot_pending (s : State) (c) : (s.boot c).pending = s.pending := (s.boot_frame c).1

end Sys2Proof.Machine
end

