-- ==== Sys2Proof/Machine/Pins.lean ====
section
/-!
DEFINITION. Balls, regions and the levels of the output pins (R380 - R383, R388). No command reads a level: these functions
say what a state shows outside.
-/
namespace Sys2Proof.Machine

/-! ## Balls (R380, R381) -/

/-- The index of a letter in a run of letters. -/
def letterIndex (l : List Char) (c : Char) : Option Nat := l.findIdx? fun x => x == c

/-- The band of a first letter, and whether it lies in the east half. -/
def bandOf (c : Char) : Option (Nat × Bool) :=
  match letterIndex ['A', 'B', 'C', 'D', 'E', 'F'] c, letterIndex ['G', 'H', 'J', 'K', 'L', 'M'] c with
  | some b, _ => some (b, false)
  | none, some b => some (b, true)
  | none, none => none

-- Log entry 105: DESIGN CHOICE, safe.
/-- The physical row and column of a ball name: band letter, row letter, printed column. -/
def ballAt (band row : Char) (col : Nat) : Option (Nat × Nat) :=
  match bandOf band,
    letterIndex ['A', 'B', 'C', 'D', 'E', 'F', 'G', 'H', 'J', 'K', 'L', 'M', 'N', 'P', 'Q', 'S', 'T', 'U'] row with
  | some (b, east), some i => if 1 ≤ col ∧ col ≤ 54 then some (18 * b + i + 1, if east then 54 + col else col) else none
  | _, _ => none

/-! ## Regions (R382) -/

/-- A region of the grid; a DDR region holds one channel. -/
inductive Region where
  | ddr (ch : Nat)
  | north
  | centre
  | south
  deriving DecidableEq, Repr

-- Log entry 105: DESIGN CHOICE, safe.
/-- The region of a physical place. -/
def regionAt (row col : Nat) : Option Region :=
  if row = 0 ∨ 108 < row ∨ col = 0 ∨ 108 < col then none
  else if col ≤ 30 then some (.ddr ((row - 1) / 9))
  else if 79 ≤ col then some (.ddr (12 + (row - 1) / 9))
  else if row ≤ 36 then some .north
  else if row ≤ 72 then some .centre
  else some .south

/-! ## The control group (R383) -/

/-- The single-ended control signals. -/
inductive CtlPin where
  | pwrok | perstN | ready | freezeN | throttleN
  | bypHold (n : Fin 6)
  | nodeId (n : Fin 6)
  | queenSel | succSel | dpcSel
  | refclkP | refclkN
  | tck | tms | tdi | tdo | trstN
  | spiSck | spiCsN | spiDqs | spiRstN
  | spiDq (n : Fin 8)
  | smbScl | smbSda | smbAlertN
  | mgmtTxP | mgmtTxN | mgmtRxP | mgmtRxN | mgmtModAbs | mgmtLos | mgmtTxFault | mgmtTxDis | mgmtScl | mgmtSda
  deriving DecidableEq, Repr

/-- The row letter of a control signal in band C, and its printed column. -/
def CtlPin.ball : CtlPin → Char × Nat
  | .pwrok => ('A', 31) | .perstN => ('A', 32) | .ready => ('A', 33) | .freezeN => ('A', 34) | .throttleN => ('A', 35)
  | .bypHold n => ('B', 31 + n.val)
  | .nodeId n => ('C', 31 + n.val)
  | .queenSel => ('D', 31) | .succSel => ('D', 32) | .dpcSel => ('D', 33)
  | .refclkP => ('E', 31) | .refclkN => ('E', 32)
  | .tck => ('F', 31) | .tms => ('F', 32) | .tdi => ('F', 33) | .tdo => ('F', 34) | .trstN => ('F', 35)
  | .spiSck => ('G', 31) | .spiCsN => ('G', 32) | .spiDqs => ('G', 33) | .spiRstN => ('G', 34)
  | .spiDq n => ('G', 35 + n.val)
  | .smbScl => ('H', 31) | .smbSda => ('H', 32) | .smbAlertN => ('H', 33)
  | .mgmtTxP => ('J', 31) | .mgmtTxN => ('J', 32) | .mgmtRxP => ('J', 33) | .mgmtRxN => ('J', 34)
  | .mgmtModAbs => ('J', 35) | .mgmtLos => ('J', 36) | .mgmtTxFault => ('J', 37) | .mgmtTxDis => ('J', 38)
  | .mgmtScl => ('J', 39) | .mgmtSda => ('J', 40)

/-- The physical place of a control signal. -/
def CtlPin.place (p : CtlPin) : Option (Nat × Nat) := ballAt 'C' p.ball.1 p.ball.2

/-! ## Levels of outputs (R383, R388) -/

-- Log entry 105: DESIGN CHOICE, safe.
/-- What an output does; `running` where its interface's own standard drives it. -/
inductive PinLevel where
  | highZ | low | high | idle | running
  deriving DecidableEq, Repr

def PinLevel.of (b : Bool) : PinLevel := if b then .high else .low

/-- An output of a device without power drives nothing. -/
def State.driven (s : State) (l : PinLevel) : PinLevel := if s.pwr.pwrok then l else .highZ

-- Log entry 105: DESIGN CHOICE, safe.
/-- READY. -/
def State.readyLevel (s : State) : PinLevel := s.driven (.of (s.readyPin && !s.pwr.inReset))

-- Log entry 105: DESIGN CHOICE, safe.
/-- BYP_HOLD[r]. -/
def State.bypHoldLevel (s : State) (r : Nat) : PinLevel :=
  s.driven (.of (!s.pwr.inReset && bit (s.fN F.RYP_BYP_CTL_hold_state) r))

-- Log entry 105: DESIGN CHOICE, safe.
/-- The SPI flash's outputs: idle in reset once step 1 has read the flash, and frozen. -/
def State.spiLevel (s : State) : PinLevel := s.driven (if s.pwr.inReset || s.pwr.frozen then .idle else .running)

-- Log entry 105: DESIGN CHOICE, safe.
/-- TDO and MGMT_TX run whatever the reset and the freeze. -/
def State.aonLevel (s : State) : PinLevel := s.driven .running

/-- MGMT_TX_DIS. -/
def State.mgmtTxDisLevel (s : State) : PinLevel := s.driven (.of (!s.fB F.GLOBAL_MGMT_CTL_enable))

/-- SMB_ALERT_N, an open drain (R389). -/
def State.smbAlertLevel (s : State) : PinLevel := s.driven (if s.smbAlert then .low else .highZ)

-- Log entry 105: DESIGN CHOICE, safe.
/-- CHn_DRST_N: low in reset; high in self-refresh held by domain 1. -/
def State.drstLevel (s : State) (ch : Nat) : PinLevel :=
  s.driven (if s.pwr.inReset then .low else if s.pwr.frozen || !s.domainOn (7 + ch / 4) then .high else .running)

-- Log entry 105: DESIGN CHOICE, safe.
/-- CHn's CS_N and command outputs: low in reset; in self-refresh CS_N keeps the level JESD79-5 gives it. -/
def State.csLevel (s : State) (ch : Nat) : PinLevel :=
  s.driven (if s.pwr.inReset then .low else if s.pwr.frozen || !s.domainOn (7 + ch / 4) then .idle else .running)

-- Log entry 105: DESIGN CHOICE, safe.
/-- CHn's DQ and CB: high-Z in reset, frozen and off. -/
def State.dqLevel (s : State) (ch : Nat) : PinLevel :=
  s.driven (if s.pwr.inReset || s.pwr.frozen || !s.domainOn (7 + ch / 4) then .highZ else .running)

-- Log entry 105: DESIGN CHOICE, safe.
/-- CHn_HSCL and CHn_HSDA, whose supply is of domain 1: idle in reset; else served (R64). -/
def State.sidebandLevel (s : State) : PinLevel := s.driven (if s.pwr.inReset then .idle else .running)

/-- CHn's CK. -/
def State.ckLevel (s : State) (ch : Nat) : PinLevel :=
  s.driven (if s.pwr.inReset then .low else if s.pwr.frozen || !s.domainOn (7 + ch / 4) then .idle else .running)

/-- A high-speed lane of a port in a domain: electrically idle in reset, frozen and off. -/
def State.laneLevel (s : State) (d : Nat) : PinLevel :=
  s.driven (if s.pwr.inReset || s.pwr.frozen || !s.domainOn d then .idle else .running)

-- Log entry 105: DESIGN CHOICE, safe.
def State.cxlLaneLevel (s : State) (p : Nat) : PinLevel := s.laneLevel (17 + p / 8)
def State.ryLaneLevel (s : State) (p : Nat) : PinLevel := s.laneLevel (ryDomain p)

end Sys2Proof.Machine
end

