-- ==== Sys2Proof/WellFormed.lean ====
section
/-!
DEFINITION. Which commands a sender can form. The operands' types do most of it; what is left is checked here.
-/
namespace Sys2Proof

open Machine

/-- An LD-ID has four bits (R37). -/
def Machine.CxlId.wf (x : CxlId) : Bool := !x.ldKind || decide (x.src.toNat < 16)

/-- A CXL.mem request names a 64-byte line. -/
def Machine.M2S.wf (m : M2S) : Bool := m.id.wf && m.hpa.toNat % 64 == 0

/-- Keys that strictly rise below a bound. -/
def risingBelow (n : Nat) : List (Nat × Byte) → Bool
  | [] => true
  | [x] => decide (x.1 < n)
  | x :: y :: r => decide (x.1 < y.1) && risingBelow n (y :: r)

-- Log entries 4: DESIGN CHOICE, safe; 104: PRESUMED, unsafe.
/-- The well-formedness of a command: MemWr carries every byte enable, a misaligned access is misaligned, the flash found at
PWROK is a table, a flash write writes something, a core's access to the DPA space stays in one line, an IPv4 address has
32 bits. -/
def Instr.wf (i : Instr) : Bool :=
  match i with
  | .registerWrite .. => true
  | .misalignedCsrAccess w z _ => !z.aligned w.off.toNat
  | .csrUnmappedAccess .. => true
  | .csrOffDomainAccess .. => true
  | .memrd m _ => m.wf
  | .memrddata m => m.wf
  | .meminv m => m.wf
  | .meminvnt m => m.wf
  | .memclnevct m => m.wf
  | .memspecrd m => m.wf
  | .memrdfwd m => m.wf
  | .memwrfwd m => m.wf
  | .memwr m d => m.wf && d.be == BitVec.allOnes 64
  | .memwrptl m _ => m.wf
  | .biconflict x => x.id.wf
  | .birspi x => x.id.wf
  | .birsps x => x.id.wf
  | .birspe x => x.id.wf
  | .birspBlock x => x.id.wf
  | .lockGrant => true
  | .policerRelease .. => true
  | .biTimeout => true
  | .dramCommandIssue .. => true
  | .dramReadData .. => true
  | .refsbIssue .. => true
  | .refreshDue .. => true
  | .rfmIssue .. => true
  | .neighbourSet .. => true
  | .zqCalibration .. => true
  | .dqsOscRead .. => true
  | .rowCloseIdle .. => true
  | .thermalRead .. => true
  | .caAlert .. => true
  | .dchCfgWrite .. => true
  | .maintActive .. => true
  | .fullTraining .. => true
  | .maintTraining .. => true
  | .trainingDone .. => true
  | .rawRead .. => true
  | .rawWrite .. => true
  | .injectWrite .. => true
  | .checkedRead .. => true
  | .remapRead .. => true
  | .remapInstall .. => true
  | .remapInstallDone .. => true
  | .installBlank .. => true
  | .remapRemove .. => true
  | .foragerRead .. => true
  | .foragerAccel .. => true
  | .foragerLapEnd .. => true
  | .vmapZero => true
  | .vmapZeroDone => true
  | .vmapOn => true
  | .ilLock => true
  | .ctxtRead .. => true
  | .ctxtWrite .. => true
  | .ctxtInvalidate .. => true
  | .ctxtCmdDone .. => true
  | .halfPowerDown .. => true
  | .halfPowerDownDone .. => true
  | .halfPowerUp .. => true
  | .cacheDisable => true
  | .cacheEnable => true
  | .heatFold .. => true
  | .heatEpochEnd => true
  | .heatSweepDone => true
  | .hotListStart .. => true
  | .hotListDone => true
  | .mirrorEntry .. => true
  | .mirrorTimeout .. => true
  | .agentRegister .. => true
  | .snoopCtlWrite .. => true
  | .agentDownSweepDone => true
  | .packetFetch => true
  | .fenceRelease .. => true
  | .commandComplete .. => true
  | .nop .. => true
  | .queueCreate .. => true
  | .queueDestroy .. => true
  | .queueResume .. => true
  | .doorbellSet .. => true
  | .domeCreate .. => true
  | .domeTeardown .. => true
  | .shareJoin .. => true
  | .shareLeave .. => true
  | .cellAlloc .. => true
  | .cellFree .. => true
  | .shareMove .. => true
  | .pin .. => true
  | .unpin .. => true
  | .migrate .. => true
  | .migrateEnd .. => true
  | .combInval .. => true
  | .combRootSet .. => true
  | .agentDown .. => true
  | .rekey .. => true
  | .handleCreate .. => true
  | .handleDestroy .. => true
  | .move .. => true
  | .fill .. => true
  | .moveStrided .. => true
  | .atomicAdd64 .. => true
  | .convert .. => true
  | .axpy .. => true
  | .reduceInto .. => true
  | .gatherPool .. => true
  | .optStep .. => true
  | .attnPartial .. => true
  | .topk .. => true
  | .checksum .. => true
  | .publish .. => true
  | .get .. => true
  | .put .. => true
  | .ping .. => true
  | .mailboxGo => true
  | .qctlEnable => true
  | .pguGrant => true
  | .throttleChange .. => true
  | .combEnable .. => true
  | .combRecordTake .. => true
  | .combFillCommit .. => true
  | .combMissTimeout .. => true
  | .combInvGo .. => true
  | .combInvDone => true
  | .spireSlotStart .. => true
  | .spireCtlWrite .. => true
  | .srSeedLoad .. => true
  | .windowEnable .. => true
  | .hdmCommit .. => true
  | .hdmUncommit .. => true
  | .cxlpCfgWrite .. => true
  | .cxlLinkUp .. => true
  | .linkRecovery .. => true
  | .recoveryTimeout .. => true
  | .retrain0 .. => true
  | .retrain1 .. => true
  | .linkDown .. => true
  | .hotReset .. => true
  | .linkDisable .. => true
  | .ideIntegrityFailure .. => true
  | .kSetGo .. => true
  | .keyProg .. => true
  | .doeObject .. => true
  | .identify .. => true
  | .identifyMemoryDevice .. => true
  | .getHealthInfo .. => true
  | .getSupportedLogs .. => true
  | .getLog .. => true
  | .getFwInfo .. => true
  | .getEventRecords .. => true
  | .clearEventRecords .. => true
  | .getEventInterruptPolicy .. => true
  | .setEventInterruptPolicy .. => true
  | .getPoisonList .. => true
  | .injectPoison .. => true
  | .clearPoison .. => true
  | .getLdInfo .. => true
  | .getLdAllocations .. => true
  | .setLdAllocations .. => true
  | .zmCmdPacket .. => true
  | .zmPortCounters .. => true
  | .zmLinkRetrain .. => true
  | .unsupportedMailboxCommand .. => true
  | .dataFlit .. => true
  | .idleFlit .. => true
  | .badFlit .. => true
  | .ctrlCredit .. => true
  | .mac .. => true
  | .void .. => true
  | .spareReq .. => true
  | .spareGo .. => true
  | .resetReq .. => true
  | .flitTransmit .. => true
  | .ackTimer .. => true
  | .ackRepeat .. => true
  | .replayTimeout .. => true
  | .laneFailing .. => true
  | .spareDone .. => true
  | .rypCfgWrite .. => true
  | .rypDisable .. => true
  | .partnerDetected .. => true
  | .equalisationDone .. => true
  | .fecLock .. => true
  | .paramDone .. => true
  | .trainTimeout .. => true
  | .resetIdleEnd .. => true
  | .failedRetry .. => true
  | .linkReset .. => true
  | .hRd .. => true
  | .hWr .. => true
  | .wRd .. => true
  | .wWr .. => true
  | .rdData .. => true
  | .wrAck .. => true
  | .err .. => true
  | .pong .. => true
  | .pingPacket .. => true
  | .packetForward => true
  | .routeHoldExpiry => true
  | .msgTimeout .. => true
  | .msgNumberReturn .. => true
  | .owinTimeout .. => true
  | .owinEnable .. => true
  | .iwinEnable .. => true
  | .handleTableEnable => true
  | .queenClaim .. => true
  | .heartbeat .. => true
  | .heartbeatMiss => true
  | .lossVote .. => true
  | .takeover .. => true
  | .queenUpdate .. => true
  | .queenCtlWrite .. => true
  | .bypassRelease .. => true
  | .egressPick .. => true
  | .shaperRefill => true
  | .shaperCtlWrite .. => true
  | .keyDeliver .. => true
  | .getVersion => true
  | .getCertificate => true
  | .keyExchange .. => true
  | .spdmRequest .. => true
  | .bindCommit => true
  | .linkKeySwitch .. => true
  | .sweepCell .. => true
  | .teardownDrainDone .. => true
  | .drainTimeout .. => true
  | .teardownRecallDone .. => true
  | .overwritePassDone .. => true
  | .faultEvent => true
  | .wireFault .. => true
  | .faultInject => true
  | .brokenClear .. => true
  | .recNext => true
  | .recClose .. => true
  | .ovfCntRead .. => true
  | .quietExpiry => true
  | .clrCount => true
  | .claim .. => true
  | .eoi .. => true
  | .swtrig .. => true
  | .grpCfgWrite .. => true
  | .holdoffExpiry .. => true
  | .msixUnmask => true
  | .timerExpiry .. => true
  | .tmrOwnerWrite .. => true
  | .watchdogExpiry .. => true
  | .watchdogKick .. => true
  | .pwrokRise _ _ fl _ => risingBelow (2 ^ 32) fl
  | .pwrokFall => true
  | .rootPllLockTimeout => true
  | .dramGroupSelect => true
  | .readyRise => true
  | .perstNAssert => true
  | .perstNDeassert .. => true
  | .softwareReset => true
  | .softwareResetBegin => true
  | .freeze .. => true
  | .zmFreeze .. => true
  | .thaw => true
  | .zmThaw => true
  | .tapReset => true
  | .tapScan .. => true
  | .powerDomainOff .. => true
  | .powerDomainOn .. => true
  | .powerSwitchDone => true
  | .refcntRead => true
  | .fwcmdTake .. => true
  | .fwcmdDone .. => true
  | .coreReset .. => true
  | .coreStart .. => true
  | .mgmtDatagram .. => true
  | .arp .. => true
  | .ndp .. => true
  | .icmpEcho six ip _ => six || decide (ip.toNat < 2 ^ 32)
  | .mgmtFrameDrop => true
  | .csrRead .. => true
  | .csrWrite .. => true
  | .cmdPacket .. => true
  | .flashWrite _ _ l => !l.isEmpty
  | .smbReadStartStatus => true
  | .smbReadDfsStatus => true
  | .smbNack => true
  | .controlCoreAccess _ a z _ => decide (2 ^ 45 ≤ a.toNat) || decide (a.toNat % 64 + z.bytes ≤ 64)
  | .spireSelfTestDone .. => true
  | .halfPowerUpDone .. => true
  | .rootPllLock => true
  | .internalResetEnd .. => true

end Sys2Proof
end

