-- ==== Sys2Proof/Tests/Slice0.lean ====
section
/-!
SUPPORT. The model's own tests: terms that are not well formed and the check that refuses each, the spec's worked examples,
and, for every statement, states and operands that meet its hypotheses.
-/
namespace Sys2Proof.Tests
open Sys2Proof.Machine

-- One proof at a time: each waiting proof holds a thread and its stack.
set_option Elab.async false

/-! ## States the tests start from -/

/-- The block in service, with no memory behind it. -/
def on : State := { State.reset with
  pwr := { Power.reset with pwrok := true, inReset := false, domains := 0xFFFFF, step := 8, ready := true, rootTime := 1000000000 } }

/-- The block in service with the first DRAM group: four trained channels, a locked layout, and the valid map on. -/
def mem : State := { on with
  csr := [(24, 1#32), (32, 1#32), (1028, 4096#32), (1032, 1#32), (1152, 4068#32), (1156, 131077#32), (1168, 2#32), (1172, 9#32),
    (3145728, 15#32), (3145744, 1044607#32), (16777348, 266642#32), (16842884, 266642#32), (16908420, 266642#32),
    (16973956, 266642#32), (33554436, 7#32)],
  chans := State.reset.chans.mapFinIdx fun i c _ => if i < 4 then { c with
    epoch := 1, metaInit := true, mods := [none], trained := true, rfmInit := 8, rfmMax := 16 } else c }

/-- The state an outcome goes on to. -/
def nxt (r : Result) : State := match r with | .next t => t | _ => State.reset

/-- Whether an outcome is a next state of which `f` holds. -/
def isNext (r : Result) (f : State → Bool) : Bool := match r with | .next t => f t | _ => false

/-- A word with one field filled in. -/
def put (f : Fld) (v : Nat) : Word := BitVec.ofNat 32 (v * 2 ^ f.lo)

/-- The fabric manager's function of port 0 stands, and an access assigns its BAR2. -/
def bar0 : Bar := ⟨0, some 0⟩
def barOn : State := on.setCxlPort 0 { on.cxlPort 0 with fmFunc := true, link0 := { CxlLink.reset with up := true } }
/-- An image, and a start-up, that passes every check. -/
def good : ImgChk := ⟨true, true, true⟩
def boots : BootChk := ⟨good, good, good, true⟩

/-! ## A host, and an agent that holds a line -/

/-- A host's source on link 0 of port 0, and a link of its own that is up. -/
def src0 : CxlId := ⟨0, 0, false, 0, 7, false⟩
def host : State :=
  let s := mem.setCxlLink 0 0 { CxlLink.reset with up := true, width := 3, speed := 1 }
  let s := (s.fFlag F.CXLP_HDM_CTL_committed true 0 0).fFlag F.CXLP_HDM_SRC_any_port true 0 0
  let s := s.fSet F.CXLP_HDM_SIZE_size_256m 16 0 0
  let s := s.setCxlPort 0 { s.cxlPort 0 with ctxt := [(4, ⟨true, ctxtKey 0 src0.src_, 0x30⟩)] }
  { s with domes := { s.domes with st := [(3, .active)] } }
/-- The same with the source registered as agent 2, holding line 5 in state E/M. -/
def agent : State :=
  ({ host with home := { host.home with agents := [(2, BitVec.ofNat 32 (2 ^ 31 + agentKey 0 0 false 0))] } } : State).setAgent 2 5 2
/-- An access in the tracker that waits for its snoop of that agent. -/
def tx5 : Tx := { newTx .rdE (.core 0) 0 5 33 with id := 9, stage := .snoop }
def snooped (k : SnpKind) : State :=
  { agent with home := { agent.home with txs := [tx5], snoops := [⟨some 9, 2, 5, k, 0, 3, false⟩], nextId := 10 } }
def m2s (a : Nat) (m : Meta) : M2S := ⟨src0, BitVec.ofNat 64 a, m⟩
def line5 : CxlLine := ⟨src0, 5⟩

/-! ## A channel in service -/

/-- Channel 0 in service. -/
def ch0 : State := mem.fFlag F.DCH_CFG_enable true 0
def rd0 : RdEnt := ⟨some 9, 0, 0, 0, false, 0, 999999000⟩
def wr0 : WrEnt := ⟨0, 0, Line.zero, 0, 0, false, 0, false, 999999000⟩
def withSub (f : Subch → Subch) (s : State := ch0) : State := s.setSub 0 0 (f (s.sub 0 0))
def coord0 : Coord := ch0.coord 0 0
/-- A read, or a write, of channel-local line 0 waits, its bank's row as given. -/
def reading (rows : SMap Nat) : State := withSub fun x => { x with rq := [rd0], rows := rows }
def writing (rows : SMap Nat) : State := withSub fun x => { x with wq := [wr0], rows := rows }
/-- A read of that line whose burst is due. -/
def flying : State :=
  let s := withSub fun x => { x with flight := [⟨rd0, encodeLine Line.zero, 999999999, false⟩] }
  { s with home := { s.home with txs := [{ tx5 with line := 0, kind := .rdCur, stage := .dram }] } }
/-- Channel 0 under maintenance. -/
def maint0 : State := (mem.fFlag F.DCH_CFG_maint true 0).fFlag F.DCH_STATUS_maint_active true 0

/-! ## The honey cache, page heat, migration -/

/-- Both halves of the cache on, the cache enabled, cells of the cell table as given. -/
def cells (l : List (Nat × Word)) (s : State := mem) : State := l.foldl (fun s e => s.putEntry e.1 e.2) s
def cached : State := { mem with honey := { mem.honey with halfA := .on, halfB := .on } }
def hline (dirty pinned : Bool) : HLine := ⟨0, Line.zero, dirty, pinned, 3, 0⟩
def holding (d p : Bool) : State :=
  (({ cached with honey := { cached.honey with lines := [(0, hline d p)] } } : State)).fFlag F.HONEY_CTL_enable true
/-- A migration of cell 5 to cell 9 in slot 0. -/
def slot0 (st : MigStage) (passes at_ : Nat) (tr : BitVec 1024 := 0) : MigSlot := ⟨5, 0, 9, 3, 16384, st, passes, at_, tr, 0⟩
def moving (m : MigSlot) : State := { mem with honey := { mem.honey with mig := [(0, m)] } }
def sweeping (p : Nat) : State := { mem with honey := { mem.honey with sweep := some p } }

/-! ## Queues and commands -/

/-- A line held dirty in the cache. -/
def cache (line v : Nat) (s : State) : State := { s with honey := { s.honey with
  lines := SMap.put s.honey.lines (honeySet line * 16) ⟨honeyTag line, ⟨BitVec.ofNat 512 v, 0⟩, true, false, 0, 0⟩ } }
/-- Dome 3 in service: its cells 40 and 41, its key, and page tables under which the low PVAs are DPAs. -/
def pool : State :=
  let s := cells [(16, 0x4000), (24, 0x4000), (32, 0x4000), (40, 0x4003), (41, 0x4003)]
  let s := { s with domes := { s.domes with st := [(3, .active)] }, sec := { s.sec with slots := [(6, ⟨.current, 5⟩)] },
                    honey := { s.honey with halfA := .on, halfB := .on } }
  let s := (s.fFlag F.HONEY_CTL_enable true).fFlag F.COMB_CTL_enable true
  let s := (s.fSet F.COMB_ROOTDIR_LO_base_lo 2).fSet F.RYP_HANDLE_BASE_LO_base_lo 2
  let s := (s.fFlag F.RYP_HANDLE_CTL_enable true).fFlag F.RYP_FAB_STATUS_queen_valid true
  (s.fFlag F.RYP_FAB_STATUS_is_queen true).fFlag F.RYP_QUEEN_CTL_solo true
/-- The accesses a requester has made that are complete and not yet taken up. -/
def ansR (o : Origin) (line v : Nat) (p : BitVec 16 := 0) : EngAns := ⟨o, line, false, fullBe, .ok ⟨BitVec.ofNat 512 v, p⟩⟩
def ansW (o : Origin) (line : Nat) (be : BitVec 64) : EngAns := ⟨o, line, true, be, .ok Line.zero⟩
def answered (l : List EngAns) (s : State := pool) : State := { s with home := { s.home with answers := s.home.answers ++ l } }
/-- A command of a Dome of its own, or by subject from Dome 0, and its packet. -/
def pack (ps : List Nat) (op : Nat) : BitVec 512 :=
  BitVec.ofNat 512 (op + 0x1234 * 2 ^ 32 + (ps.zipIdx.map fun e => e.1 * 2 ^ (64 + 64 * e.2)).sum)
def queue3 (head tail : Nat) (mode : Nat := 1) : QDesc :=
  ⟨40 * 65536, 40 * 65536 + 4096, 0, 3, 4, 4, mode, false, 0, 0, 8, head, tail, 0, 0, .active, true⟩
def queued (head tail : Nat) (mode : Nat := 1) : State := { pool with q := { pool.q with desc := [(7, queue3 head tail mode)] } }
def cmdQ (ps : List Nat) (op : Nat) (flags := 0) : Cmd :=
  newCmd (.queue 7) 3 0 (pack ps (op + 256 * flags)) 0
/-- Queue control's table in 256 cells allocated to Dome 0, their entries held in the cache. -/
def tabled : State := (List.range 16).foldl (fun s i => cache (mem.cellEntryAddr 0 / 64 + i)
  ((List.range 16).map fun j => 0x4000 * 2 ^ (32 * j)).sum s) mem

/-! ## Control commands -/

/-- A control command of the mailbox for a subject, held by firmware core 0 in its area 0. -/
def fwCmd (op subj : Nat) (ps : List Nat) : Cmd :=
  { newCmd .mailbox 0 0 (pack (subj :: ps) op) 0 with eng := .fwArea 0 0 }
def held (c : Cmd) (s : State := pool) : State := { s with q := { s.q with cmds := SMap.put s.q.cmds 16384 c } }
def begun (c : Cmd) (s : State := pool) : State := (held c s).putCmd 16384 { c with st := .running }
/-- The cell-table line of a cell in the cache, holding the entries given. -/
def tableLine (cell : Nat) (l : List (Nat × Nat)) (s : State) : State :=
  cache (mem.cellEntryAddr cell / 64) ((l.map fun e => e.2 * 2 ^ (32 * (e.1 % 16))).sum) s
/-- The pool with the entries of cells 0 to 15 and of its own cells in the cache. -/
def fpool : State := tableLine 0 [] (tableLine 32 [(32, 0x4000), (40, 0x4003), (41, 0x4003)] pool)
/-- What firmware reads of Dome 0's tables. -/
def walk : List EngAns := [ansR (.fw 16384) 0x4000 0x180001, ansR (.fw 16384) 0x6000 0x181001, ansR (.fw 16384) 0x6040 0xF]
def grouped : State := { fpool with domes := { fpool.domes with st := [(3, .active), (4, .active)], groups := [(9, ⟨4, [4, 3]⟩)] } }
/-- A cell of Dome 3 under its DRAINING generation, a STAGED key beside it. -/
def rekeying : State := { pool with sec := { pool.sec with slots := [(6, ⟨.current, 5⟩), (7, ⟨.staged, 6⟩)] } }

/-! ## Engines -/

/-- The PVA that is the DPA of line `i` of Dome 3's cell 40. -/
def pva (i : Nat := 0) : Nat := 40 * 65536 + 64 * i
/-- A command of Dome 3 at work on an engine, its accesses under way: to line `i` of cell 40, written or read. -/
def work (eng : Engine) (op : Nat) (ps : List Nat) (beats : List (Nat × Bool) := []) : Cmd :=
  { newCmd (.queue 7) 3 0 (pack ps op) 0 with
    eng := eng, st := .running, beats := beats.map fun b => (pva b.1 / 64, b.2, 40 * 1024 + b.1) }
/-- Its state: two lines of Dome 3's cells in the cache, a leaf that maps them, and the command in context 0. The PVA 2^45 lies
in a page that firmware has refused it. -/
def busy (c : Cmd) (l : List EngAns := []) (s : State := pool) : State :=
  let leaf : Leaf := ⟨0x30, 0, 34, 0, true, true⟩
  answered l { s with
    q := { s.q with cmds := [(0, c)] },
    comb := { s.comb with atc := [(512, leaf), (33 * 512, leaf)], outcomes := [(0, [(2, 2 ^ 29, 0x30)])] } }
def goes (r : State × Prog) : Bool := r.2 == .go
def waits (r : State × Prog) : Bool := r.2 == .wait
def stops (r : State × Prog) : Bool := match r.2 with | .stop _ => true | _ => false
/-- The two lines read and written by data mover 1. -/
def readW (i v : Nat) : EngAns := ansR (.mover 1 0) (40 * 1024 + i) v
def wroteW (i : Nat) (be : BitVec 64) : EngAns := ansW (.mover 1 0) (40 * 1024 + i) be

/-- An operation in slot 0 of Spire 1. -/
def spired (op : Nat) (ps : List Nat) (beats : List (Nat × Bool) := []) : Cmd := work (.spireSlot 1 0) op ps beats
/-- A read, or a write, of line `i` of cell 40 that the Spire has made. -/
def readS (i v : Nat) : EngAns := ansR (.spire 1 0) (40 * 1024 + i) v
def wroteS (i : Nat) (be : BitVec 64) : EngAns := ansW (.spire 1 0) (40 * 1024 + i) be
/-- The operations, each with its packet's parameters. -/
def spireOps : List (Nat × List Nat) := [(0x80, [pva, pva 1, 16]), (0x81, [pva, pva 1, 16, pva 1, 0x3F8000003F800000]),
  (0x82, [pva, pva 1, 16]), (0x84, [pva, pva, 1 + 2 ^ 32, pva + 32, pva 1, 2 ^ 16 + 4 * 2 ^ 32, 1]),
  (0x88, [pva, pva, pva, 1, pva, pva 1, 2 ^ 17]),
  (0x8C, [pva, pva, pva, pva 1, 1 + 2 ^ 16 + 2 ^ 25 + 2 ^ 30 + 2 ^ 40 + (2 ^ 23 - 5) * 2 ^ 41, 0x3F800000 * 2 ^ 32, pva 1 + 32]),
  (0x90, [pva, 2, 1, pva 1, pva 1 + 32]), (0x94, [pva, 64, 0, 0]), (0x98, [pva, pva 1, pva 1, 8, 0x11, 5])]
def loadOf (op : Nat) (c : Cmd) (s : State) : State × Prog :=
  let g := spireOf 1 0
  match op with
  | 0x80 => State.convertLoad 0 g 1 0 c s | 0x81 => State.axpyLoad 0 g 1 0 c s | 0x82 => State.reduceLoad 0 g 1 0 c s
  | 0x84 => State.gatherLoad 0 g 1 0 c s | 0x88 => State.optLoad 0 g 1 0 c s | 0x8C => State.attLoad 0 g 1 0 c s
  | 0x90 => State.topLoad 0 g 1 0 c s | 0x94 => State.crcLoad 0 g 1 0 c s | _ => State.pubLoad 0 g 1 0 c s
def unitOf (op : Nat) (c : Cmd) (s : State) : State × Prog :=
  let g := spireOf 1 0
  match op with
  | 0x80 => State.convertUnit 0 g 1 0 c s | 0x81 => State.axpyUnit 0 g 1 0 c s | 0x82 => State.reduceUnit 0 g 1 0 c s
  | 0x84 => State.gatherUnit 0 g 1 0 c s | 0x88 => State.optUnit 0 g 1 0 c s | 0x8C => State.attUnit 0 g 1 0 c s
  | 0x90 => State.topUnit 0 g 1 0 c s | 0x94 => State.crcUnit 0 g 1 0 c s | _ => State.pubUnit 0 g 1 0 c s

/-- Port 4 in a state, with what else is given of it. -/
def ry (st : RySt) (f : RyPort → RyPort := id) (s : State := pool) : State := s.setRy 4 (f { s.ryPort 4 with st := st })
def hdr (seq : Nat) : FlitHdr := ⟨BitVec.ofNat 12 seq, 0, false, false, 0, 0, 0, 0, 0⟩
def flit (seq : Nat) : Flit := (hdr seq).flit 2 0 0
def key : SMap (BitVec 256) := [(0, 5)]
def packet : Pkt := Pkt.bare 1 0 kPing 0 3 0 0 0 0
def outP : OutPkt := ⟨3, packet, 1, 1, none⟩

/-! ## The fabric -/

/-- A packet of node 1 in context 3.0, and a state in which port 4 has it. -/
def pkt (kind : Nat) (len : Nat := 64) (off : Nat := 0) : Pkt :=
  { Pkt.bare 0 1 kind 0x30 5 off len (if kind < 2 then 1 else 0) 0 with be := fullBe, units := (len + 63) / 64 }
def waits1 (x : Pkt) (base : Option Nat := none) (done : Nat := 0) : InPkt := ⟨vcOf x.kind, x, .fresh, base, done, 0⟩
def came (x : InPkt) (s : State := pool) : State := s.setRy 4 { s.ryPort 4 with st := .active, ready := [x] }
/-- Port 4's requester of that packet, and what it has read and written. -/
def ryO : Origin := .rythar 4 1 5
/-- An entry of the handle table that it has read: by default a handle of Dome 3 for cells 40 and 41. -/
def handled (e : Nat := 1 + 6 + 3 * 16 + 40 * 2 ^ 64 + 2 * 2 ^ 96) (s : State := pool) : State :=
  answered [ansR ryO 0x8000 (e * 2 ^ 128)] s
/-- Inbound window 0 for Dome 3's cells. -/
def windowed : State :=
  let s := ((handled.fSet F.RYP_IWIN_BASE_base_cell 40 0 0).fSet F.RYP_IWIN_SIZE_cells 2 0 0).fSet F.RYP_IWIN_CTL_dome 3 0 0
  let s := ((s.fFlag F.RYP_IWIN_CTL_any_src true 0 0).fFlag F.RYP_IWIN_CTL_r true 0 0).fFlag F.RYP_IWIN_CTL_w true 0 0
  s.fFlag F.RYP_IWIN_CTL_enable true 0 0
/-- A message of command 0 under number 5, a packet of its answer at port 4. -/
def messaged (m : MsgKind) (k : Nat) (status : Nat := 0) : State :=
  let c := work (.mover 1) 0xC0 [2 ^ 32 + 7, 0, pva, 64] [(0, true)]
  let s := busy c [wroteW 0 fullBe]
  let tx : Tx := winTx s c (moverOf 1 0) (apertureBase / 64) false Line.zero 0
  let s := { s with fab := { s.fab with
    msgs := [(5, ⟨m, 0, 1, 7, 0, 64, 0, 0, 0, 0x30, 0, []⟩)],
    owin := match m with | .wrd _ => [⟨tx, 5, 0, 0, none⟩] | .wwr _ => [⟨{ tx with kind := .plainWr }, 5, 0, 0, none⟩] | _ => [] } }
  came (waits1 { pkt k with status := status }) s

/-- Session 0 bound to Domes 0, 3, 4 and 5. -/
def bound : State := { pool with
  sec := { pool.sec with sessions := [(0, ⟨true, 7⟩)], bind := [(0, 7), (3, 7), (4, 7), (5, 7)] },
  domes := { pool.domes with st := [(3, .active), (5, .teardown)] }, cores := { pool.cores with meas := [(2, 9)] } }

/-! ## Every hypothesis can be met: the queue, power, registers -/

theorem wit_StepRunsFront : ({ on with pending := [.smbNack, .thaw] } : State).pending = .smbNack :: [.thaw] := rfl

theorem wit_EmptyQueueTicks : on.pending = [] ∧ on.pwr.pwrok = true ∧ on.pwr.frozen = false ∧ on.pwr.inReset = false ∧
    3 ≤ on.pwr.step := by decide

theorem wit_PowerInvariant : on.PowerInv ∧ ∃ t, step on = .next t := ⟨fun h => by simp [on] at h, _, rfl⟩

theorem wit_StoppedKeepsState : ({ on with pwr := { on.pwr with frozen := true } } : State).pwr.frozen = true ∧
    ¬ Domain1Row (.claim 0) ∧ ¬ BoardRow (.claim 0) ∧ State.reset.pwr.inReset = true :=
  ⟨rfl, (by intro h; cases h), (by intro h; cases h), rfl⟩

theorem wit_StrapsLatched : isNext (exec .thaw on) (fun _ => true) = true ∧ Instr.thaw ≠ .pwrokFall ∧
    State.reset.pwr.pwrok = false ∧ isNext (exec (.pwrokRise ⟨5, true, false, true⟩ true [] boots) State.reset) (fun _ => true) = true :=
  ⟨by decide +kernel, (by intro h; cases h), rfl, by decide +kernel⟩

theorem wit_RegisterSpace : (let s := barOn.barAssign bar0
     barOn.up = true ∧ s.barOpen bar0.port = true ∧
     (let w := BitVec.ofNat 26 (regToWin (R.PGU_LIMIT.addr 0 0))
      AccSize.aligned .b4 (winToReg w.toNat) = true ∧ blockDomain (winToReg w.toNat) = some 1 ∧ s.domainOn 1 = true ∧
      regAt (winToReg w.toNat) = some (R.PGU_LIMIT, 0, 0) ∧ s.writeLocked R.PGU_LIMIT 0 = false ∧
      (writeTable.find? fun e => e.1 == R.PGU_LIMIT.id) = none)) := by decide +kernel

theorem wit_CountedAccesses : on.up = true ∧ (on.barAssign bar0).barOpen bar0.port = false ∧
    (let a := winToReg 0x200000
     AccSize.aligned .b4 a = true ∧ AccSize.aligned .b8 a = true ∧ blockDomain a = none ∧ blockDomain (a + 4) = none) ∧
    (barOn.barAssign bar0).barOpen bar0.port = true ∧
    (let a := winToReg 0x1000000
     let s : State := { barOn with pwr := { barOn.pwr with domains := 1 } }
     AccSize.aligned .b4 a = true ∧ blockDomain a = some 4 ∧ s.up = true ∧
       (s.barAssign bar0).barOpen bar0.port = true ∧ (s.barAssign bar0).domainOn 4 = false) ∧
    (let a := winToReg 0x1000001
     AccSize.aligned .b4 a = false ∧ blockDomain a = some 4 ∧ (barOn.barAssign bar0).domainOn 4 = true) := by decide +kernel

/-! ## CXL.mem -/

/-- The host's link is secure, in containment mode or in skid mode. -/
def sealed (skid : Bool) : State := host.setCxlLink 0 0 { host.cxlLink 0 0 with ideSecure := true, skid := skid }

theorem wit_HostRequestsReachTheHome : host.up = true ∧ host.hears src0.src_ = true ∧
    (host.cxlLink 0 0).ideSecure = false ∧ host.ingress src0.src_ 0x140 = some (0x30, 5) ∧ host.srcDown src0.src_ = false ∧
    host.ingress src0.src_ 0xFFFFFFFF = some (0x30, 0x3FFFFFF) ∧
    State.reset.canHear (.req (m2s 0 .i) .read ⟨.rdS, true, false⟩ none) = false ∧
    (let x : CxlMsg := .req (m2s 0 .i) .read ⟨.rdS, true, false⟩ none
     host.canHear x = true ∧ (sealed false).canHear x = true ∧ ((sealed false).cxlLink 0 0).ideSecure = true ∧
     x.id.mac = false ∧ ((sealed false).cxlLink 0 0).skid = false ∧ ((sealed true).cxlLink 0 0).skid = true ∧
     x.isWrite = false ∧ (sealed true).canHear x = true) ∧
    (let x : CxlMsg := .req { m2s 0 .i with id := { src0 with mac := true } } .read ⟨.rdS, true, false⟩ none
     (sealed true).canHear x = true ∧ x.id.mac = true) := by decide +kernel

theorem wit_RequestsWithoutData : host.up = true ∧ host.hears src0.src_ = true ∧ (host.cxlLink 0 0).ideSecure = false ∧
    host.ingress src0.src_ 0x100000000 = none ∧ host.ingress src0.src_ 0xFFFFFFFF = some (0x30, 0x3FFFFFF) := by decide +kernel

theorem wit_SnoopAnswers : (snooped .inv).up = true ∧ (snooped .inv).hears src0.src_ = true ∧
    ((snooped .inv).cxlLink 0 0).ideSecure = false ∧ (snooped .inv).srcDown src0.src_ = false ∧
    (snooped .inv).agentOf src0.src_ = some 2 ∧ (snooped .inv).agentDown 2 = false ∧
    ((snooped .inv).home.snoops.find? fun n => n.agent == 2 && n.line == 5).isSome = true ∧
    (agent.home.snoops.find? fun n => n.agent == 2 && n.line == 5) = none ∧
    snoopAllows .inv 0 = true ∧ snoopAllows .data 1 = true ∧ snoopAllows .cur 2 = true ∧ snoopAllows .inv 1 = false := by
  decide +kernel

/-- Policer 0 of Dome 3, enabled, with a debt. -/
def broke (act : Bool) : State :=
  host.setBucket .pol 3 { host.bucket .pol 3 with tokens := -1, enable := true, newEnable := true, action := act, holdMax := 4 }
def wTx : Tx := State.hostTx src0.src_ 0x30 5 ⟨.plainWr, false, false⟩ none
def rTx : Tx := State.hostTx src0.src_ 0x30 5 ⟨.rdS, true, false⟩ none
/-- A waiter for line 5, whose turn has come. -/
def ripe (t : Tx) (s : State := host) : State :=
  { s with home := { s.home with ready := [(5, true)], txs := s.home.txs ++ [{ t with id := 12 }] } }

theorem wit_LockGrant : (ripe rTx).up = true ∧ (ripe rTx).prompted = none ∧ (ripe rTx).home.ready = [(5, true)] ∧
    (ripe rTx).locked 5 = false ∧ ((ripe rTx).waiters 5 true).length = 1 ∧ (ripe rTx (snooped .inv)).prompted = none ∧
    (ripe rTx (snooped .inv)).locked 5 = true ∧ (ripe wTx (snooped .inv)).prompted.isSome = true := by decide +kernel

theorem wit_HomeByItself : (snooped .inv).up = true ∧ (snooped .inv).home.snoops ≠ [] ∧
    ((snooped .inv).home.snoops.all fun n => n.tx.isSome) = true ∧
    (let s := { host with home := { host.home with held := [⟨rTx, true, 0⟩] } }
     (s.home.held.find? fun h => s.mayRelease 0 h).isSome = true) ∧
    (host.bucket .pol 3).passable = true ∧ ((broke false).bucket .pol 3).passable = false ∧
    ((broke false).bucket .pol 3).action = false ∧ rTx.kind.isWrite = false ∧
    (broke false).mayHold rTx ((broke false).bucket .pol 3) = true ∧ ((broke true).bucket .pol 3).action = true ∧
    wTx.kind.isWrite = true := by decide +kernel

/-! ## DRAM channels -/

def chooses (c : Choice) (k : DKind) : Bool := match c with | .req y => y.kind == k | _ => false

theorem wit_SchedulerChooses : ch0.up = true ∧ chooses ((reading []).schedule 0 0) .act = true ∧
    chooses ((reading [(coord0.key, coord0.row + 1)]).schedule 0 0) .pre = true ∧
    chooses ((reading [(coord0.key, coord0.row)]).schedule 0 0) .rd = true ∧
    chooses ((writing [(coord0.key, coord0.row)]).schedule 0 0) .wr = true ∧
    (let s := withSub fun x => { x with refDue := [(0, 2)] }
     s.schedule 0 0 = .refresh ∧ s.refRank 0 0 = some 0 ∧ s.refOpen 0 0 0 = []) ∧
    (let s := withSub fun x => { x with raa := [(5, 8)] }
     s.schedule 0 0 = .rfm 5 ∧ s.openIn 0 0 (5 / 32) (5 % 4) = []) ∧
    (let s := withSub fun x => { x with marks := [(5, 7)] }
     s.schedule 0 0 = .neighbour ∧ (s.sub 0 0).nbr = none ∧ s.nbrStart 0 0 = some (5, 7)) := by decide +kernel

theorem wit_SchedulerSteps : (ch0.sub 0 0).quiet ∧ (ch0.schedOn 0 0 = true ∧ (ch0.chan 0).install = none ∧
    (let x := (reading []).sub 0 0
     x.rq = [rd0] ∧ x.wq = [] ∧ SMap.find x.rows coord0.key = none ∧ (reading []).coord 0 rd0.loc = coord0) ∧
    SMap.find ((reading [(coord0.key, coord0.row + 1)]).sub 0 0).rows coord0.key = some (coord0.row + 1) ∧
    (let x := (writing [(coord0.key, coord0.row)]).sub 0 0
     x.rq = [] ∧ x.wq = [wr0] ∧ x.drain = false ∧ SMap.find x.rows coord0.key = some coord0.row) ∧
    (ch0.chan 0).rfmInit = 8 ∧ (ch0.sub 0 0).rows = [] ∧
    ((ch0.setChan 0 { ch0.chan 0 with rfmMax := 0 }).chan 0).rfmMax = 0) := ⟨by unfold Subch.quiet; decide +kernel, by decide +kernel⟩

theorem wit_RefreshAndCalibration : ch0.fB F.DCH_CFG_enable 0 = true ∧ (ch0.chan 0).trained = true ∧
    (ch0.chan 0).selfRefresh = false ∧ 0 < ch0.rankCount 0 ∧ ch0.refPhase 0 0 0 ≤ ch0.pwr.rootTime ∧
    (let s := withSub fun x => { x with hist := [⟨.refsb, 0, 0, 0, 0, ch0.pwr.rootTime - 10⟩] }
     s.calOk 0 0 0 (s.sub 0 0).zqAt (ms 128) = true ∧ s.calOk 0 0 0 (s.sub 0 0).oscAt (ms 32) = true) ∧
    (let s := withSub (fun x => { x with rows := [(0, 3)] }) (ch0.fSet F.DCH_SCHED_CTL_row_close_idle 4094 0)
     s.fN F.DCH_SCHED_CTL_row_close_idle 0 = 4094 ∧ SMap.find (s.sub 0 0).rows 0 = some 3 ∧ (s.sub 0 0).rq = [] ∧
     (s.sub 0 0).wq = [] ∧ SMap.findD (s.sub 0 0).lastCol 0 0 + 4094 * s.ctlTicks ≤ s.pwr.rootTime ∧ s.schedOn 0 0 = true ∧
     (s.sub 0 0).nbr = none ∧ (s.sub 0 0).started = none ∧ (s.sub 0 0).rfmOn = none ∧ s.cmdOk 0 0 .pre 0 0 0 = true) ∧
    (ch0.fSet F.DCH_SCHED_CTL_row_close_idle 4095 0).fN F.DCH_SCHED_CTL_row_close_idle 0 = 4095 := by decide +kernel

theorem wit_ReadsAndAlerts : flying.up = true ∧
    (match (flying.sub 0 0).flight with
      | [f] => decide (f.due ≤ flying.pwr.rootTime) && f.ent.tx == some 9 && !f.spare &&
          ((decodeWords f.beats).all fun d => d.action == 0) && ueMask (decodeWords f.beats) == 0
      | _ => false) = true ∧
    (flying.tx 9).isSome = true ∧ (flying.sub 0 0).alert = false ∧ (flying.chan 0).failed = false ∧
    (let s := withSub fun x => { x with retry := [.wr wr0 999999999] }
     s.pwr.rootTime < 999999999 + s.busyTicks 0 (.wr wr0 999999999)) ∧
    flying.fN F.DCH_CA_CTL_retry_limit 0 < 15 ∧ 1 ≤ flying.fN F.DCH_CA_CTL_retry_limit 0 := by decide +kernel

theorem wit_ChannelService : mem.pwr.pwrok = true ∧ mem.domainOn 7 = true ∧
    (mem.wrCodes R.DCH_CFG 0xFFFFFFFF 0).dchEnableOk 0 0xFFFFFFFF = false ∧
    (let s := mem.fFlag F.DCH_CFG_maint true 0
     s.fB F.DCH_CFG_maint 0 = true ∧ s.drained 0 = true) ∧ flying.drained 0 = false ∧
    mem.fB F.DCH_TRAIN_STATUS_busy 0 = false ∧ mem.fB F.DCH_CFG_speed 0 = mem.fB F.CLK_CTL_fast_dram ∧
    on.fB F.GLOBAL_IL_STATUS_locked = false ∧ mem.fB F.GLOBAL_IL_STATUS_locked = true ∧
    on.fB F.DCH_TRAIN_STATUS_busy 0 = false ∧ on.fB F.DCH_CFG_speed 0 = on.fB F.CLK_CTL_fast_dram ∧
    mem.fB F.DCH_CFG_maint 0 = false ∧
    (let s := on.setChan 0 { on.chan 0 with train := some .full }
     (s.chan 0).train = some .full) ∧
    (let s := on.setChan 0 { on.chan 0 with train := some .maint }
     let s := { s with pwr := { s.pwr with granted := [(⟨3, .train 0⟩, 10)] } }
     (s.chan 0).train = some .maint ∧ s.drained 0 = true ∧ s.hasLeave (.train 0) = true) := by decide +kernel

theorem wit_RawAndRemapOperations : (∀ op ∈ [1, 2, 3, 4],
      let w := BitVec.ofNat 32 (setBits 0 24 3 op)
      let u := maint0.wrCodes R.DCH_RAW_CTL w 0
      let loc := (u.fN F.DCH_RAW_CTL_addr_hi 0 * 2 ^ 32 + u.fN F.DCH_RAW_ADDR_addr_lo 0) * 64
      u.fB F.DCH_CFG_maint 0 = true ∧ u.fB F.DCH_STATUS_maint_active 0 = true ∧ loc < u.chanCap 0) ∧
    mem.fB F.DCH_REMAP_HI_busy 0 = false ∧
    (let s := maint0.setChan 0 { maint0.chan 0 with remap := [(0, ⟨128, false, 0⟩)] }
     SMap.find (s.chan 0).remap (s.fN F.DCH_REMAP_IDX_entry 0) = some ⟨128, false, 0⟩ ∧ s.fB F.DCH_CFG_maint 0 = true) ∧
    (∀ op ∈ [1, 2],
      let u := mem.wrCodes R.DCH_REMAP_HI (BitVec.ofNat 32 (setBits 0 28 3 op)) 0
      let loc := (u.fN F.DCH_REMAP_HI_line_hi 0 * 2 ^ 32 + u.fN F.DCH_REMAP_LO_line_lo 0) * 64
      (mem.chan 0).remapOf loc = none ∧ loc < u.chanCap 0 ∧ SMap.firstFree (mem.chan 0).remap 16 = some 0) ∧
    mem.fB F.DCH_CFG_enable 0 = false ∧
    ((mem.setChan 0 { mem.chan 0 with install := some ⟨0, 64, true⟩ }).chan 0).install.isSome = true := by decide +kernel

def walking : State := (mem.fFlag F.DCH_CFG_enable true 0).fFlag F.DCH_FRG_CTL_enable true 0

theorem wit_ForagerWalk : walking.frgReady 0 ((walking.chan 0).frgNext 16 (walking.chan 0).frgPos) = true ∧
    (let s := walking.setChan 0 { walking.chan 0 with array := [(0, encodeLine Line.zero)] }
     let ds := decodeWords (s.storedGet 0 0)
     (∀ d ∈ ds, d.action = 0) ∧ ueMask ds = 0) ∧
    mem.fB F.DCH_FRG_CTL_accel 0 = false ∧
    mem.fB F.DCH_FRG_CTL_enable 0 = F.DCH_FRG_CTL_enable.on (BitVec.ofNat 32 (setBits 1 1 1 1)) ∧
    (let s := walking.setChan 0 { walking.chan 0 with frgPos := walking.chanCap 0 / 64 }
     s.chanCap 0 ≤ (s.chan 0).frgNext 16 (s.chan 0).frgPos * 64) := by decide +kernel

theorem wit_ValidMapAndLayout :
    (let s := (mem.fFlag F.GLOBAL_VMAP_STATUS_zero_done false)
     s.fB F.GLOBAL_IL_STATUS_locked = true ∧ s.fB F.GLOBAL_VMAP_STATUS_zero_busy = false ∧
       s.fB F.GLOBAL_VMAP_STATUS_zero_done = false) ∧
    (mem.fFlag F.GLOBAL_VMAP_STATUS_zero_busy true).fB F.GLOBAL_VMAP_STATUS_zero_busy = true ∧
    (mem.fFlag F.GLOBAL_VMAP_STATUS_recovery true).fB F.GLOBAL_VMAP_STATUS_recovery = true ∧
    (let s := mem.fFlag F.GLOBAL_IL_STATUS_locked false
     s.fB F.GLOBAL_IL_STATUS_locked = false ∧
       s.layoutRegs.any (fun rs => layoutOk s.memTop s.chanList.length s.hiveBase rs) = true) ∧
    (let s := { on with pwr := { on.pwr with ready := false } }
     s.layoutRegs.any (fun rs => !layoutOk s.memTop s.chanList.length s.hiveBase rs) = true ∧ s.pwr.ready = false) := by
  decide +kernel

/-! ## The codes -/

theorem wit_SyndromeActions : syndrome 0 = 0 ∧ syndrome 1 = 0x07 ∧ syndrome (1#40 <<< 32) = 1 ∧ syndrome (1#40 <<< 39) = 0x70 ∧
    syndrome 3 = 0x0C ∧ syndrome (0x64#40 <<< 32) = 0x64 ∧ syndrome (0x68#40 <<< 32) = 0x68 ∧ syndrome (0x1F#40 <<< 32) = 0x1F ∧
    syndrome (0x7F#40 <<< 32) = 0x7F := by decide +kernel

/-- The worked example of chapter 4: an encoding and three faults on read. -/
theorem test_code_example : encodeBeat 0x80000003 true = 0x9E80000003 ∧
    decodeBeat 0x9E80000001 = ⟨0x80000003, true, 0x0B, 1⟩ ∧ decodeBeat 0x1E80000003 = ⟨0x80000003, true, 0x70, 1⟩ ∧
    decodeBeat 0x9E80000000 = ⟨0x80000000, true, 0x0C, 2⟩ := by decide +kernel

/-! ## CXL ports -/

theorem wit_CxlPortTables :
    mem.fB F.CXLP_CTXT_CMD_busy 0 = false ∧
    (let x : CtxtCmd := ⟨1, 4, 5, 0x30⟩
     (host.cxlPort 0).ctxt.any (fun e => e.1 != x.idx && e.2.valid && e.2.key == x.key) = false ∧ domeOf x.ctx ≠ 0 ∧
       host.domeSt (domeOf x.ctx) = .active) ∧
    (host.domeSt (domeOf 0x40) != .active) = true ∧
    (host.cxlPort 0).ctxt.any (fun e => e.1 != 5 && e.2.valid && e.2.key == ctxtKey 0 src0.src_) = true ∧
    mem.fB F.CXLP_HDM_CTL_committed 0 1 = false ∧ host.fB F.CXLP_HDM_CTL_committed 0 0 = true ∧
    ((mem.fSet F.CXLP_HDM_CTL_ig 0 0 31).fSet F.CXLP_HDM_CTL_iw 0 0 31).hdmRefused 31 = true ∧
    (let s := (mem.fSet F.CXLP_HDM_SIZE_size_256m 16 0 1).fFlag F.CXLP_HDM_SRC_any_port true 0 1
     ((s.fSet F.CXLP_HDM_CTL_ig 0 0 1).fSet F.CXLP_HDM_CTL_iw 0 0 1).hdmRefused 1 = false) ∧
    (mem.fFlag F.CXLP_CFG_enable true 0).fB F.CXLP_CFG_enable 0 = true ∧ F.CXLP_CFG_enable.on 1 = true ∧
    F.CXLP_CFG_enable.on 0 = false ∧ (mem.fFlag F.CXLP_CFG_enable false 0).fB F.CXLP_CFG_enable 0 = false ∧
    ((mem.fSet F.CXLP_CFG_mode (F.CXLP_CFG_mode.of 1) 0).fN F.CXLP_CFG_mode 0 ≠ 3) := by decide +kernel

theorem wit_CxlLinks : (let s := mem.fFlag F.CXLP_CFG_enable true 0
      s.fB F.CXLP_CFG_enable 0 = true ∧ (s.cxlPort 0).bifurcate = false ∧ (s.cxlLink 0 0).up = false) ∧
    (host.cxlLink 0 0).up = true ∧ (host.cxlLink 0 0).recovery = none ∧
    ((host.setCxlLink 0 0 { host.cxlLink 0 0 with recovery := some 5 }).cxlLink 0 0).recovery.isSome = true := by decide +kernel

/-- The device reset has drawn Dome 0's key, and a session bound to Dome 0 is open. -/
def manager : State := { host with sec := { host.sec with sessions := [(0, ⟨true, 5⟩)], bind := [(0, 5)] } }
/-- The keys of set 0 of the CXL.mem stream and of CXL.io stream 4, and a mailbox with its Error bit. -/
def keyed : State := host.setCxlLink 0 0 { host.cxlLink 0 0 with
  ideKeys := [(0, 7), (1, 8)], ioKeys := [(48, 1), (49, 2), (52, 3), (53, 4), (56, 5), (57, 6)], doeErr := [0] }

theorem wit_IdeAndDoe : (host.cxlLink 0 0).up = true ∧ manager.mayKey 0 0 0 = true ∧ host.mayKey 0 0 0 = false ∧
    (SMap.find (keyed.cxlLink 0 0).ideKeys (0 * 2)).isSome = true ∧ (SMap.find (keyed.cxlLink 0 0).ideKeys (0 * 2 + 1)).isSome = true ∧
    (∀ j < 3, ∀ dir < 2, (SMap.find (keyed.cxlLink 0 0).ioKeys (((4 * 3 + j) * 2 + 0) * 2 + dir)).isSome = true) ∧
    host.hasFunc 0 0 (.dev 0) = true ∧ (keyed.cxlLink 0 0).doeErr.contains (Func.idx (.dev 0)) = true ∧
    (host.cxlLink 0 0).doeErr.contains (Func.idx (.dev 0)) = false := by decide +kernel

/-! ## The honey cache, page heat, migration, agents -/

theorem wit_CacheControl : State.reset.honey.halfOf 0 = .off ∧ cached.honey.halfOf 1 = .on ∧ cached.halfBusy = false ∧
    (cached.halfKeys 1).any (fun k => (SMap.find cached.honey.lines k).any fun x => x.pinned) = false ∧
    ((holding false true).halfKeys 0).any (fun k => (SMap.find (holding false true).honey.lines k).any fun x => x.pinned) = true ∧
    ({ cached with honey := { cached.honey with halfA := .off } } : State).halfBusy = false ∧
    ({ cached with honey := { cached.honey with halfA := .rising } } : State).halfBusy = true ∧
    ({ cached with honey := { cached.honey with halfA := .flushing } } : State).honey.halfOf 0 = .flushing ∧
    (mem.fFlag F.HONEY_CTL_enable false).fB F.HONEY_CTL_enable = false ∧
    (holding false false).fB F.HONEY_CTL_enable = true ∧
    (∀ e ∈ (holding false false).honey.lines, e.2.dirty = false ∧ e.2.pinned = false) ∧
    (∃ e ∈ (holding true false).honey.lines, e.2.dirty = true ∨ e.2.pinned = true) := by decide +kernel

theorem wit_HeatAndMigration : mem.honey.sweep = none ∧ mem.locked (mem.heatAddr 5 / 64) = false ∧
    (let t : Tx := { tx5 with line := mem.heatAddr 5 / 64 }
     ({ mem with home := { mem.home with txs := [t] } } : State).locked (mem.heatAddr 5 / 64) = true) ∧
    mem.fN F.HONEY_HEAT_EPOCH_length ≠ 0 ∧ (sweeping 6).honey.sweep.isSome = true ∧
    (let s := sweeping mem.tenantCells
     s.honey.sweep = some s.tenantCells ∧ (State.halveOn s.tenantCells s).honey.sweep = some s.tenantCells) ∧
    (let s := sweeping (mem.tenantCells - 1)
     (State.halveOn 1 s).honey.sweep = some mem.tenantCells) ∧
    mem.honey.hot = none ∧ F.HONEY_HOT_CTL_n.of 0x40000000 = 0 ∧ (4096 < F.HONEY_HOT_CTL_n.of 0x40001FFF) ∧
    (let s := (cells [(0, 0x4000)]).wrCodes R.HONEY_HOT_CTL 0x40001000
     s.dome0Range 0 (8 * 4096) = true ∧ F.HONEY_HOT_CTL_n.of 0x40001000 = 4096 ∧ F.HONEY_HOT_CTL_target_kind.of 0x40001000 = 0) ∧
    (let s := { mem with honey := { mem.honey with hot := some ⟨0, 3, 5, 0, 0, true⟩ },
                         pwr := { mem.pwr with granted := [(⟨6, .hot⟩, 8)] } }
     s.honey.hot.isSome = true ∧ s.hasLeave .hot = true) := by decide +kernel

theorem wit_HeatAndMigration_slots :
    trackedLines (slot0 .copied 1 1024) ≤ min 1024 (mem.fN F.HONEY_MIG_CTL_final_lines) ∧
    SMap.find (moving (slot0 .copied 1 1024)).honey.mig 0 = some (slot0 .copied 1 1024) ∧
    min 1024 (mem.fN F.HONEY_MIG_CTL_final_lines) < trackedLines (slot0 .copied 1 1024 (~~~0)) ∧
    (slot0 .copied 1 1024 (~~~0)).passes ≤ mem.fN F.HONEY_MIG_CTL_max_passes ∧
    (let s := moving (slot0 .mirror 1 1024)
     SMap.find s.honey.mig 0 = some (slot0 .mirror 1 1024) ∧ 1024 ≤ (slot0 .mirror 1 1024).at_ ∧
       (slot0 .mirror 1 1024).tracker = 0 ∧ s.migQuiet 0 = true ∧ s.fN F.HONEY_MIG_CTL_mirror_timeout ≠ 0 ∧ s.entryFree 5 = true) ∧
    (let s := moving (slot0 .lost 1 1024)
     SMap.find s.honey.mig 0 = some (slot0 .lost 1 1024) ∧ s.entryFree 5 = true ∧ (slot0 .lost 1 1024).cmd ≠ 20000) := by
  decide +kernel

/-- Agent 2's slot under a sweep, for an AGENT_DOWN in context 16384 that gives room for one record. -/
def downed (cap : Nat) : State := { agent with
  home := { agent.home with sweeps := [⟨2, some 16384⟩] },
  q := { agent.q with cmds := [(16384, newCmd .mailbox 0 0 (BitVec.ofNat 512 (cap * 2 ^ 256)) 0)] } }

theorem wit_SnoopAgents : (let x : Word := 0x80000000 &&& agentMask
      x.getLsbD 31 = true ∧ mem.sweepBusy (mem.fN F.SNOOP_AGENT_IDX_agent) = false ∧
      ∀ b < 32, b ≠ mem.fN F.SNOOP_AGENT_IDX_agent → ¬ (mem.agentOn b = true ∧ mem.agentCfg b = x)) ∧
    ((0 : Word) &&& agentMask).getLsbD 31 = false ∧ mem.agentEntries 0 = [] ∧
    (let s := agent.fSet F.SNOOP_AGENT_IDX_agent 2
     s.agentEntries (s.fN F.SNOOP_AGENT_IDX_agent) ≠ []) ∧
    F.SNOOP_CTL_enable.on 0 ≠ (mem.fFlag F.SNOOP_CTL_enable true).fB F.SNOOP_CTL_enable ∧ mem.home.filter = [] ∧
    agent.home.filter ≠ [] ∧
    (let s := { agent with home := { agent.home with sweeps := [⟨2, none⟩] } }
     s.lostLines 2 ≠ [] ∧ ∀ l ∈ s.lostLines 2, s.locked l.line = false) ∧
    (let s := downed 4
     s.cmd 16384 = some (newCmd .mailbox 0 0 (BitVec.ofNat 512 (4 * 2 ^ 256)) 0) ∧ s.lostLines 2 ≠ [] ∧
       (newCmd .mailbox 0 0 (BitVec.ofNat 512 (4 * 2 ^ 256)) 0).p 3 = 4 ∧ ∀ l ∈ s.lostLines 2, s.locked l.line = false) ∧
    (∃ l ∈ (snooped .data).lostLines 2, (snooped .data).locked l.line = true) := by decide +kernel

theorem wit_QueueControl : pool.nextTurn = none ∧ (queued 0 1).nextTurn = some (7, 1) ∧
    SMap.find (queued 0 1).q.desc 7 = some (queue3 0 1) ∧ (queued 0 1).canFetch 7 (queue3 0 1) = true ∧
    SMap.firstFree (queued 0 1).q.cmds 16384 = some 0 ∧
    (answered [ansR (.queue 7) (40 * 1024) 0x40] (queued 0 1)).engAns (.queue 7) (40 * 1024) false fullBe =
      some (ansR (.queue 7) (40 * 1024) 0x40) ∧
    (⟨BitVec.ofNat 512 0x40, 0⟩ : Line).anyPoison = false ∧ (⟨0, 1⟩ : Line).anyPoison = true ∧
    (answered [⟨.queue 7, 40 * 1024 + 15, false, fullBe, .no .retired⟩] (queued 15 0)).engAns (.queue 7) (40 * 1024 + 15) false
      fullBe = some ⟨.queue 7, 40 * 1024 + 15, false, fullBe, .no .retired⟩ ∧ (queued 15 0).nextTurn = some (7, 1) ∧
    mem.fB F.QCTL_MBX_CMD_busy = false ∧ (mem.fFlag F.QCTL_MBX_CMD_busy true).fB F.QCTL_MBX_CMD_busy = true ∧
    mem.fB F.QCTL_CTL_enable = false ∧ mem.dome0Cell mem.descBase = false := by decide +kernel

theorem wit_QueueControlEnable : ((List.range 256).all fun j => decide (tabled.descBase + j * 65536 < tabled.memTop) &&
    tabled.dome0Cell (tabled.descBase + j * 65536)) = true := by decide +kernel

theorem wit_Admission : opMasks (cmdQ [] 0xE0).opcode = none ∧
    (opMasks (cmdQ [1] 0).opcode).any (fun m => !(cmdQ [] 0).formatBad m && (cmdQ [2 ^ 63] 0).formatBad m) = true ∧
    (opMasks (cmdQ [] 0x01).opcode).any (fun m => !(cmdQ [] 0x01).formatBad m) = true ∧ opZ 0x01 = true ∧ (cmdQ [] 0x01).dome ≠ 0 ∧
    isControl 0 = true ∧ (cmdQ [4] 0).pb 0 0 12 ≠ 0 ∧
    (opMasks (cmdQ [4] 0).opcode).any (fun m => !(cmdQ [4] 0).formatBad m) = true ∧
    (cmdQ [64, 128, 0] 0x40).zeroCount = true ∧ (cmdQ [64, 128, 64] 0x40).zeroCount = false ∧
    pool.rangeExceeds (cmdQ [64, 128, 64] 0x40) = false ∧
    pool.rangeExceeds (cmdQ [2 ^ 52 - 8, 128, 64] 0x40) = true ∧
    pool.admission (cmdQ [] 0 1) = none ∧ (cmdQ [] 0 1).fence = true ∧ (cmdQ [] 0).fence = false ∧
    (let c := { cmdQ [] 0 1 with st := .fence }
     let s := { pool with q := { pool.q with cmds := [(0, c)] } }
     s.cmd 0 = some c ∧ s.heldBack c = false ∧ (∀ e ∈ s.q.cmds, e.2.src = c.src → c.seq ≤ e.2.seq)) ∧
    (let c := { cmdQ [] 0 1 with st := .fence, seq := 1 }
     let s := { pool with q := { pool.q with cmds := [(0, c), (1, cmdQ [] 0)] } }
     ∃ e ∈ s.q.cmds, e.2.src = c.src ∧ e.2.seq < c.seq) := by decide +kernel

/-- A command of queue 7 that ends, its completion so far. -/
def ending (pos aux : Nat) (mode : Nat := 1) : State :=
  { queued 1 1 mode with q := { (queued 1 1 mode).q with cmds := [(0, { cmdQ [] 0 with st := .done, pos := pos, aux := aux })] } }
def reply3 : EngWr := qWrite 0x30 (40 * 65536 + 4096) 16 (replyBits (cmdQ [] 0).tag 1 0 1 0)

theorem wit_CommandCompletes :
    (let c := { newCmd .mailbox 0 0 (pack [] 0) 0 with st := .done }
     c.ofQueue = none ∧ c.st = .done) ∧
    (∀ p < 3, (ending p 1).busyFor 0 = false ∧ ((ending p 1).cmd 0).isSome = true) ∧
    (cmdQ [] 0).src = .queue 7 ∧ (queue3 1 1).mode % 2 = 1 ∧ (queue3 1 1 2).mode % 2 = 0 ∧ (cmdQ [] 0).quiet = false ∧
    (answered [ansW (.comp 7 0) (reply3).line (reply3).be] (ending 1 1)).engAns (.comp 7 0) (reply3).line true
      (reply3).be = some (ansW (.comp 7 0) (reply3).line (reply3).be) ∧
    (ending 1 1).engAns (.comp 7 0) (reply3).line true (reply3).be = none := by decide +kernel

theorem find_put (l : SMap Cmd) (h : l = []) (c : Cmd) : SMap.find (SMap.put l 16384 c) 16384 = some c := by subst h; rfl

theorem held_holds (op subj : Nat) (ps : List Nat) (s : State) (h : (fwCmd op subj ps).opcode = op) (hr : s.q.tcmReply = [])
    (hc : s.q.cmds = []) : (held (fwCmd op subj ps) s).FwHolds 16384 op (fwCmd op subj ps) :=
  ⟨find_put _ hc _, ⟨0, 0, rfl⟩, h, .inl rfl, by simp only [held, hr]; rfl⟩

theorem wit_SubjectCheck : (∀ op ∈ [0x00, 0x01, 0x02, 0x03, 0x04, 0x08, 0x09, 0x0A, 0x0B, 0x10, 0x11, 0x12, 0x14, 0x15, 0x18, 0x19,
      0x1C, 0x1D, 0x20, 0x24, 0x28, 0x29], (fwCmd op 3 []).opcode = op) ∧ pool.q.tcmReply = [] ∧ pool.q.cmds = [] ∧
    pool.domeSt (fwCmd 0 3 []).subject = .active ∧ pool.domeSt (fwCmd 0 4 []).subject = .free ∧
    ({ pool with domes := { pool.domes with st := [(4, .teardown)] } } : State).domeSt (fwCmd 0 4 []).subject = .teardown := by
  decide +kernel

theorem maps_low (s : State) (o : Origin) (pva : Nat) (hp : pva = 32 * 65536) (h1 : s.dome0Cell 0x180000 = true)
    (h2 : s.dome0Cell 0x181000 = true) (g1 : s.gotLine o 0x6000 ⟨BitVec.ofNat 512 0x181001, 0⟩)
    (g2 : s.gotLine o 0x6040 ⟨BitVec.ofNat 512 0xF, 0⟩) : s.Maps o pva [43, 34, 25, 16] 0x180000 pva true true := by
  have e1 : pva / 2 ^ 34 % 512 = 0 := by subst hp; decide
  have e2 : pva / 2 ^ 43 % 512 = 0 := by subst hp; decide
  have e3 : bits 0xF 12 33 * 4096 + pva % 2 ^ 34 = pva := by rw [hp]; decide +kernel
  have hl := State.Maps.leaf (s := s) (o := o) (pva := pva) (sh := 34) (rest := [25, 16]) (t := 0x181000) (e := 0xF) h2
    (by rw [e1]; exact ⟨_, g2, by decide +kernel⟩) (by decide +kernel) (by decide +kernel) (by decide +kernel)
    (by decide +kernel) (by decide) (by decide +kernel)
  rw [e3] at hl
  exact .table (e := 0x181001) h1 (by rw [e2]; exact ⟨_, g1, by decide +kernel⟩) (by decide +kernel) (by decide +kernel)
    (by decide +kernel) (by decide +kernel) (by decide +kernel) (by decide) hl

/-- The 64-byte image of a queue of Dome 3, and firmware's read of it. -/
def image3 : Nat := 40 * 65536 + 3 * 2 ^ 192 + 4 * 2 ^ 208 + 4 * 2 ^ 216 + 2 * 2 ^ 224 + 8 * 2 ^ 240
def creating : State := answered (ansR (.fw 16384) 0x8000 image3 :: walk) (begun (fwCmd 0x01 3 [7, 32 * 65536]) fpool)

theorem wit_image : creating.fwReadLine (.fw 16384) 0 (32 * 65536) image3 :=
  ⟨by decide, 32 * 65536, true, ⟨BitVec.ofNat 512 image3, 0⟩,
    ⟨by decide +kernel, 0x180001, ⟨⟨BitVec.ofNat 512 0x180001, 0⟩, by unfold State.gotLine; decide +kernel, by decide +kernel⟩,
      by decide +kernel, by decide +kernel, by decide +kernel,
      maps_low _ _ _ rfl (by decide +kernel) (by decide +kernel) (by unfold State.gotLine; decide +kernel)
        (by unfold State.gotLine; decide +kernel)⟩,
    by decide, by decide +kernel, by unfold State.gotLine; decide +kernel, rfl, by decide +kernel⟩

theorem wit_QueueAndDomeCommands :
    (let d := descOf image3
     imageBad image3 3 = false ∧ SMap.find pool.q.desc 7 = none ∧ d.ringBase + 64 * 2 ^ d.ringLog2 ≤ pool.hiveBase ∧ d.mode = 2 ∧
      d.countAddr + 8 ≤ pool.hiveBase) ∧
    (let c := fwCmd 0x02 3 [7]
     c.aux = 0 ∧ c.src ≠ .queue 7 ∧ (queued 0 1).inflight 7 = 0 ∧ c.pb 1 0 18 = 7 ∧
      ({ queued 0 1 with q := { (queued 0 1).q with cmds := [(0, cmdQ [] 0)] } } : State).inflight 7 ≠ 0) ∧
    (let c := fwCmd 0x04 3 [40 * 65536]
     (begun c).area (c.pb 1 0 45) = .tenant ∧
      (match ((begun c).fwEntry 40).2 with | .inl e => ownedBy e 3 && !ownedBy e 4 | _ => false) = true) ∧
    (let c := fwCmd 0x08 4 []
     (begun c).queenAgrees .ok = true ∧ SMap.findD pool.fab.registry 4 .free = .free ∧ c.subject ≠ 0) ∧
    pool.home.txs = [] ∧ pool.copying = false ∧ (fwCmd 0x0A 3 [9]).pos = 0 ∧ bit ((fwCmd 0x0A 3 [9 + 256]).p 1) 8 = true ∧
    SMap.find pool.domes.groups ((fwCmd 0x0A 3 [9]).pb 1 0 8) = none ∧ bit ((fwCmd 0x0A 3 [9]).p 1) 8 = false ∧
    SMap.find grouped.domes.groups 9 = some ⟨4, [4, 3]⟩ ∧ (begun (fwCmd 0x0B 4 [9]) grouped).groupOwns 9 = false ∧
    (begun (fwCmd 0x0B 4 [9]) (cells [(50, 0x5009)] grouped)).groupOwns 9 = true := by decide +kernel

/-- The list of cells 0 and 1 is written, and two cells of Dome 3 are found. -/
def listed : List EngAns := ansW (.fw 16384) 0x8000 (rangeBe 0 8) :: walk
def allocCmd : Cmd := fwCmd 0x10 3 [2, 0, 32 * 65536]
def allocating : State := answered listed (begun allocCmd fpool)
def chosen : State :=
  (allocating.queenAsk .ok).1.putCmd 16384 { allocCmd with st := .running, pos := 2, part := [[0, 1]] }

theorem wit_list : chosen.fwWroteLine (.fw 16384) 0 (32 * 65536) 8 (2 ^ 32) :=
  ⟨by decide, by decide, 32 * 65536, true,
    ⟨by decide +kernel, 0x180001, ⟨⟨BitVec.ofNat 512 0x180001, 0⟩, by unfold State.gotLine; decide +kernel, by decide +kernel⟩,
      by decide +kernel, by decide +kernel, by decide +kernel,
      maps_low _ _ _ rfl (by decide +kernel) (by decide +kernel) (by unfold State.gotLine; decide +kernel)
        (by unfold State.gotLine; decide +kernel)⟩,
    by decide +kernel, ⟨Line.zero, by decide +kernel⟩⟩

def shows (s : State) (cell : Nat) (e : Word) : Bool :=
  match s.honey.lookup (s.cellEntryAddr cell / 64) with
  | some (_, x) => !x.data.poison.getLsbD (s.cellEntryAddr cell % 64 / 4) && x.data.word (s.cellEntryAddr cell % 64 / 4) == e &&
      !ceCorrupt e
  | none => false

theorem shows_shown (s : State) (cell : Nat) (e : Word) (h : shows s cell e = true) : s.cellShown cell e := by
  unfold shows at h
  split at h
  · rename_i k x hl
    simp only [Bool.and_eq_true, Bool.not_eq_true', beq_iff_eq] at h
    exact ⟨k, x, hl, h.1.1, h.1.2, h.2⟩
  · simp at h

theorem wit_CellAlloc :
    (∀ z ∈ [0, 1], shows chosen z 0 = true) ∧ (∀ z ∈ [0, 1], chosen.entryOpen z) ∧
    bit (allocCmd.p 2) 5 = false ∧ allocating.queenAgrees .ok = true ∧
    (let w := (allocating.queenAsk .ok).1
     w.currentGen 3 = some 0 ∧ w.chooseCells (allocCmd.p 1) (allocCmd.p 2) = some [0, 1]) ∧
    ((chosen.looked [0, 1]).takeCells 3 0 [0, 1]).home.txs = [] := by
  unfold State.entryOpen
  decide +kernel

/-- Dome 3 anchors group 9. -/
def anchored (c : Cmd) : State := begun c { fpool with domes := { fpool.domes with groups := [(9, ⟨3, [3]⟩)] } }

theorem wit_CellCommands :
    (let u := begun (fwCmd 0x11 3 [40, 2]) fpool
     (∀ z ∈ [40, 41], u.entryOpen z ∧ shows u z 0x4003 = true ∧ ownedBy 0x4003 3 = true ∧ u.pageCell z = false ∧
       ceMigrating 0x4003 = false) ∧ u.sec.sweeps = [] ∧
     (List.foldl (fun (t : State) z => match t.cellEntry z with | some e => t.releaseCell z e | none => t) (u.looked [40, 41])
       [40, 41]).home.txs = []) ∧
    (let c := fwCmd 0x12 3 [40, 1, 9]
     let w := ((anchored c).queenAsk .ok).1.putCmd 16384 { c with st := .running, pos := 2 }
     (anchored c).queenAgrees .ok = true ∧ SMap.find w.domes.groups 9 = some ⟨3, [3]⟩ ∧ bit (c.p 3) 8 = false ∧
       bit ((fwCmd 0x12 3 [40, 1, 9 + 256]).p 3) 8 = true ∧ (anchored c).entryOpen 40 ∧ w.entryOpen 40 ∧ shows w 40 0x4003 = true ∧
       w.pageCell 40 = false ∧ ownedBy 0x4003 3 = true ∧ ceAllocated 0x5009 = true ∧ ceGroup 0x5009 = true ∧
       ceOwner 0x5009 % 256 = 9 ∧ (w.looked [40]).home.txs = []) := by
  unfold State.entryOpen
  decide +kernel

/-- Every line of cell 40 pinned in way 0, and the entries of cells 40 and 41. -/
def pinnedRow : SMap HLine :=
  (List.range 1024).map fun i => (honeySet (40 * 1024 + i) * 16, ⟨honeyTag (40 * 1024 + i), Line.zero, false, true, 3, 0⟩)
def pinning (e : Nat) : State :=
  let s := tableLine 32 [(40, e), (41, 0x4003)] { pool with honey := { pool.honey with ways := [(3, 0x1FFFC)] } }
  { s with honey := { s.honey with lines := pinnedRow ++ s.honey.lines } }

theorem find_row (f : Nat → HLine) (g : Nat → Nat) (r : SMap HLine) (l : List Nat) (i : Nat) (hi : i ∈ l)
    (hg : ∀ j ∈ l, g i = g j → i = j) : SMap.find (l.map (fun j => (g j, f j)) ++ r) (g i) = some (f i) := by
  induction l with
  | nil => simp at hi
  | cons a l ih =>
    simp only [List.map_cons, List.cons_append, SMap.find]
    split
    · rename_i h
      rw [hg a (by simp) h]
    · rename_i h
      refine ih ?_ fun j hj => hg j (by simp [hj])
      rcases List.mem_cons.mp hi with rfl | h'
      · exact absurd rfl h
      · exact h'

theorem set_row (i : Nat) (h : i < 1024) : honeySet (40 * 1024 + i) = 40 * 1024 + i := by
  unfold honeySet bits
  rw [Nat.mod_eq_of_lt (by omega), Nat.div_eq_of_lt (by omega)]
  simp

theorem lookup_row (r : SMap HLine) (h : Honey) (hl : h.lines = pinnedRow ++ r) (i : Nat) (hi : i < 1024) :
    h.lookup (40 * 1024 + i) = some (honeySet (40 * 1024 + i) * 16, ⟨honeyTag (40 * 1024 + i), Line.zero, false, true, 3, 0⟩) := by
  have hf := find_row (fun i => ⟨honeyTag (40 * 1024 + i), Line.zero, false, true, 3, 0⟩) (fun i => honeySet (40 * 1024 + i) * 16)
    r (List.range 1024) i (List.mem_range.mpr hi) (by
      intro j hj h
      have := List.mem_range.mp hj
      simp only [set_row i hi, set_row j this] at h
      omega)
  unfold Honey.lookup
  rw [show List.range 16 = 0 :: (List.range 15).map Nat.succ from List.range_succ_eq_map]
  simp only [List.findSome?_cons, Nat.add_zero, hl]
  unfold pinnedRow
  rw [hf]
  simp

def pinCmd40 : Cmd := fwCmd 0x14 3 [40]
def pinState : State := ((begun pinCmd40 (pinning 0x4003)).fwEntry 40).1

theorem pin_lines : pinState.honey.lines = pinnedRow ++ (pinning 0x4003).honey.lines.drop 1024 := by decide +kernel

theorem wit_pinned : (∀ line ∈ cellLines 40, ∃ n x, pinState.honey.lookup line = some (n, x) ∧ x.pinned = true) ∧
    pinState.pinBusy 40 3 0x4003 = false := by
  have h : ∀ line ∈ cellLines 40, ∃ n x, pinState.honey.lookup line = some (n, x) ∧ x.pinned = true := by
    intro line hl
    simp only [cellLines, List.mem_map, List.mem_range] at hl
    obtain ⟨i, hi, rfl⟩ := hl
    exact ⟨_, _, lookup_row _ _ pin_lines i hi, rfl⟩
  refine ⟨h, ?_⟩
  unfold State.pinBusy
  rw [Bool.or_eq_false_iff]
  refine ⟨by decide +kernel, List.any_eq_false.mpr fun line hl => ?_⟩
  obtain ⟨n, x, e, p⟩ := h line hl
  simp [State.linePinned, e, p]

theorem wit_Pin : (pinState.reaches 0x4003 3 = true) ∧ pinState.entryOpen 40 ∧ shows (begun pinCmd40 (pinning 0x4003)) 40 0x4003 = true ∧
    cePinned 0x4003 = false ∧ pinState.keyLive (40 * 1024) 0x4003 = true ∧ pinState.cellChans 40 = none ∧
    (begun pinCmd40 (pinning 0x4003)).behind 16384 pinCmd40 [0x14] = false ∧ cePinned 0x14003 = true ∧
    shows (begun (fwCmd 0x15 3 [40]) (pinning 0x14003)) 40 0x14003 = true ∧ (pinning 0x14003).reaches 0x14003 3 = true := by
  unfold State.entryOpen
  decide +kernel

theorem wit_Migrate :
    (let c := fwCmd 0x18 3 [40, 41 * 65536]
     let w := ((begun c fpool).fwEntry 40).1
     let v := w.putCmd 16384 { c with st := .running, pos := 2 }
     let x := (v.fwEntry 41).1
     shows (begun c fpool) 40 0x4003 = true ∧ w.reaches 0x4003 3 = true ∧ w.entryOpen 40 ∧ c.p 1 < (begun c fpool).tenantCells ∧
       c.pb 2 45 6 = w.pwr.node ∧ c.pb 2 16 29 = 41 ∧ 41 < w.tenantCells ∧ shows v 41 0x4003 = true ∧
       SMap.firstFree x.honey.mig 16 = some 0 ∧ ceMigrating 0x4003 = false ∧ x.pageCell 40 = false ∧ x.pageCell 41 = false) ∧
    (let m := { slot0 .mirror 1 1024 with cmd := 20000 }
     let u := begun (fwCmd 0x19 3 [5]) { fpool with honey := { fpool.honey with mig := [(0, m)] } }
     u.slotOf 5 = some (0, m) ∧ u.entryOpen 5) ∧
    (slot0 .copyWait 0 0).stage ≠ .mirror ∧ (slot0 .mirror 1 0).cmd ≠ 20000 ∧ (begun (fwCmd 0x19 3 [5])).slotOf 5 = none ∧
    (let u : State := { pool with honey := { pool.honey with migAborted := [(5, stTimeout)] } }
     (u.honey.migAborted.find? fun x => x.1 == 5) = some (5, stTimeout)) := by
  unfold State.entryOpen
  decide +kernel

/-- Firmware has read entry 1 of the handle table, and its write of the entry is done. -/
def handling (op : Nat) (ps : List Nat) (e : Nat) : State :=
  answered [ansR (.fw 16384) 0x8000 (e * 2 ^ 128), ansW (.fw 16384) 0x8000 (rangeBe 16 16)] (begun (fwCmd op 3 ps) fpool)

theorem wit_handle : (handling 0x28 [40, 2, 1] 0).handleShown (.fw 16384) 1 0 ∧
    (handling 0x29 [1] 49).handleShown (.fw 16384) 1 49 ∧
    (∀ v, (handling 0x28 [40, 2, 1] 0).gotWrite (.fw 16384) (fwWr 0 (0x200000 + 16 * 1) 16 v)) ∧
    ∀ v, (handling 0x29 [1] 49).gotWrite (.fw 16384) (fwWr 0 (0x200000 + 16 * 1) 16 v) :=
  ⟨⟨⟨BitVec.ofNat 512 0, 0⟩, by unfold State.gotLine; decide +kernel, by decide +kernel, by decide +kernel⟩,
    ⟨⟨BitVec.ofNat 512 (49 * 2 ^ 128), 0⟩, by unfold State.gotLine; decide +kernel, by decide +kernel, by decide +kernel⟩,
    fun _ => ⟨Line.zero, (by decide +kernel : ((handling 0x28 [40, 2, 1] 0).engAns (.fw 16384) ((0x200000 + 16 * 1) / 64) true
      (rangeBe ((0x200000 + 16 * 1) % 64) 16)).map EngAns.res = some (.ok Line.zero))⟩,
    fun _ => ⟨Line.zero, (by decide +kernel : ((handling 0x29 [1] 49).engAns (.fw 16384) ((0x200000 + 16 * 1) / 64) true
      (rangeBe ((0x200000 + 16 * 1) % 64) 16)).map EngAns.res = some (.ok Line.zero))⟩⟩

/-- A packet of handle 1 resolved at port 4. -/
def resolved : State := pool.setRy 4 { pool.ryPort 4 with ready := [⟨0, Pkt.bare 1 0 0 0x30 3 0 64 1 0, .passed, some 0, 0, 0⟩] }

theorem wit_MaintenanceCommands : pool.comb.inval = none ∧ pool.fB F.COMB_CTL_enable = true ∧
    (let c := fwCmd 0x1D 3 [0, 0x180000]
     let u := answered [ansW (.fw 16384) 0x4006 (rangeBe 0 8)] (begun c)
     let e := fwWr 0 (u.rootDir + 8 * 0x30) 8 (0x180000 + 1)
     BitVec.ofNat 16 (c.subject * 16 + c.pb 1 0 4) = 0x30 ∧ c.pb 2 0 45 = 0x180000 ∧ u.owinFor 0 e.line = none ∧
       (u.engAns (.fw 16384) e.line true e.be).map EngAns.res = some (.ok Line.zero) ∧ u.comb.inval = none) ∧
    (let c := fwCmd 0x24 3 [40, 2]
     let u := begun c rekeying
     c.subject = 3 ∧ c.p 1 + c.p 2 ≤ u.tenantCells ∧
      (([0, 1] : List Nat).find? fun g => (u.keySlot 3 g).st == .staged) = some 1 ∧ u.sec.rekeyRun = [] ∧
      (let slots := SMap.put (SMap.put u.sec.slots 7 { u.keySlot 3 1 with st := .current }) 6 { u.keySlot 3 0 with st := .draining }
       let w := { u with sec := { u.sec with slots := slots } }
       w.rekeyCells 3 0 0 ≠ [] ∧ w.rekeyCells 3 40 2 ≠ [])) ∧
    (let u := handling 0x28 [40, 2, 1] 0
     (∀ z ∈ [40, 40, 41], shows u z 0x4003 = true) ∧ (u.looked [40, 40, 41]).reaches 0x4003 3 = true ∧ ceAllocated 0x4003 = true ∧
       u.behind 16384 (fwCmd 0x28 3 [40, 2, 1]) [0x28, 0x29] = false ∧ u.fB F.RYP_HANDLE_CTL_enable = true ∧
       heValid 0 = false ∧ u.handleBase = 0x200000 ∧ u.owinFor 0 ((u.handleBase + 16 * 1) / 64) = none) ∧
    (let u := handling 0x29 [1] 49
     (fwCmd 0x29 3 [1]).pb 1 0 32 = 1 ∧ u.behind 16384 (fwCmd 0x29 3 [1]) [0x28, 0x29] = false ∧ heValid 49 = true ∧ heGen 49 = 0 ∧
       heDome 49 = 3 ∧ u.handleBase = 0x200000 ∧ (u.forgetHandle 1).handleOpen 1 = false) ∧
    resolved.handleOpen 1 = true ∧
    (let s := { pool with comb := { pool.comb with inval := some ⟨0, 0x30, 0, 1, 1, none⟩ } }
     s.comb.inval.isSome = true ∧ s.oldBeats 1 = false) := by decide +kernel

/-! ## Movers -/

/-- A copy of 8 bytes of line 0 to line 1, as one move and as one element of two. -/
def moveC (n : Nat) : Cmd := work (.mover 1) 0x40 [pva, pva 1, n] [(0, false), (1, true)]
def stridedC (n : Nat) : Cmd := work (.mover 1) 0x42 [pva, pva 1, 8, n, 8, 8] [(0, false), (1, true)]
def copying (c : Cmd) : State := busy c [readW 0 0x11, wroteW 1 (rangeBe 0 8), wroteW 1 fullBe]

theorem one_line {s : State} {k : Nat} {c : Cmd} {e : Eng} {a line j v : Nat} {l : Line} (hj : j ≠ 0) (hk : j ≤ 64 - a % 64)
    (h : s.beatRead k c e a line l) (hm : bits (lineMarks l).toNat (a % 64) j = 0)
    (hv : bits l.data.toNat (8 * (a % 64)) (8 * j) = v) : s.BytesRead k c e a j v := by
  have r := State.BytesRead.line (v := 0) hj (Nat.min_eq_left hk).symm h hm (by rw [Nat.sub_self]; exact .nil)
  simpa only [hv, Nat.zero_mul, Nat.add_zero] using r

theorem wit_copyUnits :
    (copying (moveC 8)).MoverRuns 0 0x40 (moveC 8) 1 ∧ (copying (stridedC 2)).MoverRuns 0 0x42 (stridedC 2) 1 ∧
    (copying (moveC 8)).BytesRead 0 (moveC 8) (moverOf 1 0) pva 8 0x11 ∧
    (copying (stridedC 2)).BytesRead 0 (stridedC 2) (moverOf 1 0) pva 8 0x11 ∧
    (copying (moveC 8)).beatWrote 0 (moveC 8) (moverOf 1 0) (pva 1) ⟨0x11, 0⟩ (rangeBe 0 8) ∧
    (copying (stridedC 2)).beatWrote 0 (stridedC 2) (moverOf 1 0) (pva 1) ⟨0x11, 0⟩ (rangeBe 0 8) := by
  have hr : ∀ c ∈ [moveC 8, stridedC 2], (copying c).BytesRead 0 c (moverOf 1 0) pva 8 0x11 := by
    intro c hc
    refine one_line (line := 40 * 1024) (l := ⟨BitVec.ofNat 512 0x11, 0⟩) (by decide) (by decide) ?_ (by decide +kernel)
      (by decide +kernel)
    unfold State.beatRead State.gotLine
    simp only [List.mem_cons, List.not_mem_nil, or_false] at hc
    obtain rfl | rfl := hc <;> decide +kernel
  refine ⟨?_, ?_, hr _ (by simp), hr _ (by simp), ⟨40 * 1024 + 1, ?_, ?_, Line.zero, ?_⟩, ⟨40 * 1024 + 1, ?_, ?_, Line.zero, ?_⟩⟩
  all_goals first
    | decide +kernel
    | (unfold State.MoverRuns; decide +kernel)

theorem wit_MoverCommands :
    (∀ c ∈ [moveC 8, moveC 128], goes (State.moveWork c 0 (moverOf 1 0) (copying c)) = true) ∧
    (State.moveWork (moveC 8) 0 (moverOf 1 0) (copying (moveC 8))).1.cmdPos 0 = 8 ∧
    (∀ n ∈ [1, 2], goes (State.stridedWork (stridedC n) 0 (moverOf 1 0) (copying (stridedC n))) = true) ∧
    (let c := work (.mover 1) 0x40 [pva, pva 1, 64]
     waits (State.moveWork c 0 (moverOf 1 0) (busy c)) = true) ∧
    (let c := work (.mover 1) 0x40 [2 ^ 45, pva 1, 64]
     stops (State.moveWork c 0 (moverOf 1 0) (busy c)) = true) ∧
    (let c := work (.mover 1) 0x41 [pva 1, 64, 0x0807060504030201] [(1, true)]
     let v := ((List.range 8).map fun i => 0x0807060504030201 * 2 ^ (64 * i)).sum
     v < 2 ^ (8 * 64) ∧ (∀ i < 64, bits v (8 * i) 8 = bits (c.p 2) (8 * ((c.p 0 + i) % 8)) 8) ∧
       (copying c).ownLine 0 (pva 1) true = some (40 * 1024 + 1) ∧ (copying c).owinFor c.ctx (40 * 1024 + 1) = none ∧
       goes (State.fillWork c 0 (moverOf 1 0) (copying c)) = true) ∧
    (let c := moveC 8
     (((copying c).unitEnd 0 (c.unit 0)).doubt c stOK) = []) ∧
    (let c := work (.mover 1) 0x48 [pva, 5] [(0, true)]
     let s := busy c [⟨.mover 1 0, 40 * 1024, true, fullBe, .ok ⟨0x11, 0⟩⟩]
     s.ownLine 0 pva true = some (40 * 1024) ∧ s.owinFor c.ctx (40 * 1024) = none ∧ (⟨0x11, 0⟩ : Line).badWord 0 = false ∧
       (s.engAns (.mover 1 0) (40 * 1024) true fullBe).map EngAns.res = some (.ok ⟨0x11, 0⟩)) := by
  decide +kernel

/-- ATOMIC_ADD64 with its line read under the lock. -/
def adding : State :=
  let c := work (.mover 1) 0x48 [pva, 5] [(0, true)]
  let s := busy c
  { s with home := { s.home with nextId := 10, txs := [{ newTx .plainWr (.mover 1 0) 0x30 (40 * 1024) 28 with
    id := 9, be := fullBe, upd := true, stage := .engine, got := some (.ok ⟨0x11, 0⟩) }] } }

theorem wit_AtomicAdd : adding.engAns (.mover 1 0) (40 * 1024) true fullBe = none ∧
    (adding.engTx (.mover 1 0) (40 * 1024) true fullBe).any (fun t => t.stage == .engine && t.got == some (.ok ⟨0x11, 0⟩)) = true ∧
    (let x := adding.engFinish (.mover 1 0) (40 * 1024) ((⟨0x11, 0⟩ : Line).setSlot8 0 0x16)
     x.cmd 0 = adding.cmd 0 ∧ (x.engAns (.mover 1 0) (40 * 1024) true fullBe).map EngAns.res = some (.ok ⟨0x11, 0⟩)) := by decide +kernel

/-- A GET or a PUT of 64 bytes of a handle of node 1, in a Dome with handle mode; without. -/
def remoteC (op : Nat) : Cmd := work (.mover 1) op [2 ^ 32 + 1, 0, pva, 64] [(0, false)]
def noHandles : State := { busy (remoteC 0xC0) with fab := { pool.fab with modes := [(3, 0)] } }

theorem wit_Remote : bit (noHandles.domeMode 3).toNat 0 = false ∧ bit (pool.domeMode 3).toNat 0 = true ∧
    (∀ op ∈ [0xC0, 0xC1], (remoteC op).p 3 = 64 ∧ (busy (remoteC op)).cmd 0 = some (remoteC op) ∧ (remoteC op).opcode = op) ∧
    pool.freeMsg = some 0 ∧ pool.fab.msgs = [] ∧ (work (.mover 1) 0xC4 [0]).rNode = pool.pwr.node ∧
    (work (.mover 1) 0xC4 [2 ^ 32]).rNode ≠ pool.pwr.node := by decide +kernel

theorem wit_PutReads : (busy (remoteC 0xC1) [readW 0 0x11]).BytesRead 0 (remoteC 0xC1) (moverOf 1 0) ((remoteC 0xC1).p 2) 64 0x11 := by
  rw [show (remoteC 0xC1).p 2 = pva by decide +kernel]
  refine one_line (line := 40 * 1024) (l := ⟨BitVec.ofNat 512 0x11, 0⟩) (by decide) (by decide) ?_ (by decide +kernel)
    (by decide +kernel)
  unfold State.beatRead State.gotLine
  decide +kernel

/-! ## Spires -/

theorem wit_SpireRuns : ∀ e ∈ spireOps, (busy (spired e.1 e.2)).SpireRuns 0 e.1 (spired e.1 e.2) 1 0 := by
  unfold State.SpireRuns
  decide +kernel

/-- What reading ahead and a unit of work come to: at the start, with operands read, and from a page refused. -/
theorem wit_SpireOperations :
    (∀ e ∈ spireOps, let c := spired e.1 e.2
      let t := loadOf e.1 c (busy c)
      stops t = false ∧ (t.1.cmd 0).any (fun x => x.wbuf == [] && waits (unitOf e.1 x t.1)) = true) ∧
    (∀ e ∈ spireOps, e.1 ∈ [0x80, 0x81, 0x90, 0x94] → let c := { spired e.1 e.2 with ahead := 100 }
      let t := loadOf e.1 c (busy c)
      goes t = true ∧ (t.1.cmd 0).any (fun x => x.wbuf == [] && goes (unitOf e.1 x t.1)) = true ∧
      stops (loadOf e.1 (spired e.1 (2 ^ 45 :: e.2.tail)) (busy (spired e.1 (2 ^ 45 :: e.2.tail)))) = true) ∧
    (∀ op ∈ [0x8C, 0x98], ∀ e ∈ spireOps, e.1 = op → let c := spired op (2 ^ 45 :: e.2.tail)
      let t := loadOf op c (busy c)
      goes t = true ∧ (t.1.cmd 0).any (fun x => x.wbuf == [] && stops (unitOf op x t.1)) = true) := by decide +kernel

/-- Results that lie in the buffer, and a line of them written. -/
def drained (n : Nat) (more : List (Nat × Nat × Nat)) : State :=
  busy { spired 0x80 [pva, pva 1, 16] [(1, true)] with ahead := 100, wbuf := (0, pva 1, n) :: more } [wroteS 1 fullBe]

theorem wit_SpireWrites : (∀ n ∈ [64, 128],
    let w := (State.scrGet 0 1 0 3 (drained n []) 0 64).1
    w.ownLine 0 (pva 1) true = some (40 * 1024 + 1) ∧ w.owinFor 0x30 (40 * 1024 + 1) = none ∧
      (w.engAns (.spire 1 0) (40 * 1024 + 1) true fullBe).map EngAns.res = some (.ok Line.zero) ∧
      (((w.offChan (spireOf 1 0) (40 * 1024 + 1)).takeBeats 0 (spireOf 1 0) true).cmd 0).isSome = true) ∧
    min 64 (64 - pva 1 % 64) = 64 ∧ min 128 (64 - pva 1 % 64) = 64 := by decide +kernel

/-- Operations late in their work. -/
def gathered (full : Bool) : Cmd := { spired 0x84 [pva, pva, 1 + 2 ^ 32, pva + 32, pva 1, 2 ^ 16 + 4 * 2 ^ 32, 1] with
  part := [[1]], aux := 1, result := if full then 2 ^ 32 + 1 else 1 }
def attended (pos aux : Nat) (l : List Nat) : Cmd := { spired 0x8C [pva, pva, pva, pva 1,
  1 + 2 ^ 16 + 2 ^ 25 + 2 ^ 30 + 2 ^ 40 + (2 ^ 23 - 5) * 2 ^ 41, 0x3F800000 * 2 ^ 32, pva 1 + 32] with
  part := [[1, 0], [], l], pos := pos, aux := aux }
def published (aux pos : Nat) : Cmd := { spired 0x98 [pva, pva 1, pva 1, 8, 0x11, 5] [(0, true)] with
  aux := aux, pos := pos, ahead := 8 }

theorem wit_SpireSteps :
    (let c := spired 0x82 [pva, pva 1, 16] [(1, true)]
     let s := busy { c with ahead := 100 } [⟨.spire 1 0, 40 * 1024 + 1, true, fullBe, .ok Line.zero⟩]
     c.p 1 + c.pos * (fmtBits c.fo / 8) = pva 1 ∧ s.ownLine 0 (pva 1) true = some (40 * 1024 + 1) ∧
       s.owinFor c.ctx (40 * 1024 + 1) = none ∧
       (s.engAns (.spire 1 0) (40 * 1024 + 1) true fullBe).map EngAns.res = some (.ok Line.zero)) ∧
    (∀ b ∈ [true, false], (gathered b).phase = 1 ∧ (gathered b).gBags ≤ (gathered b).aux ∧ (gathered b).wbuf = [] ∧
      (gathered b).part.getD 3 [] = []) ∧ 2 ^ 32 ≤ (gathered true).result ∧ (gathered true).poison = false ∧
    (attended 1 0 []).phase = 1 ∧ (attended 1 0 []).pb 4 0 16 ≤ (attended 1 0 []).pos ∧ (attended 1 0 []).part.getD 1 [] = [] ∧
    (∃ t < 8, ∃ a < 8, (attended 0 a [t]).attSkip t a = true ∧ (attended 0 a [t]).pos < (attended 0 a [t]).pb 4 0 16) ∧
    (let c := published 0 0
     let s := busy c [⟨.spire 1 0, 40 * 1024, true, fullBe, .ok ⟨0x11, 0⟩⟩]
     c.units ≤ c.ahead ∧ s.ownLine 0 (c.p 0) true = some (40 * 1024) ∧ s.owinFor c.ctx (40 * 1024) = none ∧
       (⟨0x11, 0⟩ : Line).badWord (c.p 0 % 64) = false ∧ ((⟨0x11, 0⟩ : Line).slot8 (c.p 0 % 64 / 8)).toNat = c.p 4 ∧
       ((⟨0x12, 0⟩ : Line).slot8 (c.p 0 % 64 / 8)).toNat ≠ c.p 4 ∧
       (s.engAns (.spire 1 0) (40 * 1024) true fullBe).map EngAns.res = some (.ok ⟨0x11, 0⟩) ∧
       (((s.offChan (spireOf 1 0) (40 * 1024)).unitEnd 0 (spireOf 1 0)).cmd 0).isSome = true) ∧
    (published 1 0).pos < (published 1 0).pb 3 0 40 ∧ (published 1 8).pb 3 0 40 ≤ (published 1 8).pos ∧
    (busy (published 1 8) [wroteS 0 (rangeBe 0 8)]).ownLine 0 ((published 1 8).p 0) true = some (40 * 1024) ∧
    ((busy (published 1 8) [wroteS 0 (rangeBe 0 8)]).engAns (.spire 1 0) (40 * 1024) true (rangeBe 0 8)).map EngAns.res =
      some (.ok Line.zero) := by decide +kernel

/-- A unit of REDUCE_INTO with its destination line read under the lock. -/
def reducing : State :=
  let s := busy { spired 0x82 [pva, pva 1, 16] [(1, true)] with ahead := 100 }
  { s with home := { s.home with nextId := 10, txs := [{ newTx .plainWr (.spire 1 0) 0x30 (40 * 1024 + 1) 30 with
    id := 9, be := fullBe, upd := true, stage := .engine, got := some (.ok Line.zero) }] } }

/-- GATHER_POOL with index 5 of an element in the buffer, past the end of a table of one row. -/
def pastEnd : Cmd :=
  { spired 0x84 [pva, pva, 1 + 2 ^ 32, pva + 32, pva 1, 2 ^ 16 + 4 * 2 ^ 32, 1] with part := [[1], [], [5, 0], [], [], [0, 0, 0, 0]] }

theorem wit_SpireUnits : (({ spired 0x80 [pva, pva 1, 16] with ahead := 100 } : Cmd).fed = true) ∧
    (spired 0x81 [pva, pva 1, 16, pva 1, 0x3F8000003F800000]).readsY = true ∧
    (let c := spired 0x81 [pva, pva 1, 16, pva 1, 0x3F800000]
     c.readsY = false ∧ ((busy c).laneElems 0 1 0 c.axX c.fa (c.p 0) c.pos (c.axLen c.pos)).2.length = c.axLen c.pos) := by decide +kernel

theorem wit_ReduceUnit : (let c := spired 0x82 [pva, pva 1, 16] [(1, true)]
     let t := reducing.laneElems 0 1 0 c.rdX c.fa (c.p 0) c.pos (c.cvLen c.pos)
     let r := reduceLine (t.1.spire 1) c Line.zero 0 t.2
     let w := ((((t.1.setSpire 1 r.2.2).addExc 1 r.2.1).offChan (spireOf 1 0) (40 * 1024 + 1)).engFinish (.spire 1 0) (40 * 1024 + 1)
       (Line.zero.merge ⟨BitVec.ofNat 512 r.1.2.2.1, markPoison 0 r.1.2.1 r.1.2.2.2⟩ (rangeBe 0 r.1.2.1))).noteBeat 0 (spireOf 1 0)
         (pva 1) true (40 * 1024 + 1)
     (w.engAns (.spire 1 0) (40 * 1024 + 1) true fullBe).map EngAns.res = some (.ok Line.zero) ∧
       reducing.ownLine 0 (pva 1) true = some (40 * 1024 + 1)) := by decide +kernel

theorem wit_AttStep : flt (fInf true) fOne = true ∧ flt (fInf false) fOne = false := by decide +kernel

theorem wit_GatherIndex : (let c := pastEnd
     let r : Run := ⟨c.gIdxLane, recAt c.gIdx (c.pt 5 3) (c.p 1 + 0 * c.gIdx), c.p 1 + 0 * c.gIdx, c.gIdx⟩
     let s := (busy c).putRun 1 0 r 5 0 false
     (s.getRun 0 1 0 r).2 = (5, 0) ∧ ((s.getRun 0 1 0 r).1.cmd 0).isSome = true ∧ bits (c.pt 2 1) 0 c.gIdx = 0 ∧
       5 = bits (c.pt 2 0) 0 (8 * c.gIdx) ∧ c.pb 6 0 40 ≤ 5) := by decide +kernel

theorem wit_TopAndOpt : (let l : List (Nat × Nat) := [(3, 0), (2, 1)]
     l.Pairwise (fun a b => b.1 ≤ a.1) ∧ l.reverse.Pairwise (fun a b => a.1 ≤ b.1) ∧ ∃ x ∈ l, x.1 = 2) ∧
    (spired 0x88 [0, 0, 0, 0, 0, 0, 0]).optAlg = 0 ∧ (spired 0x88 [0, 0, 0, 0, 0, 0, 2 ^ 16]).optAlg = 1 ∧
    2 ≤ (spired 0x88 [0, 0, 0, 0, 0, 0, 2 ^ 17]).optAlg := by decide +kernel

theorem wit_SpireControl :
    (let c := { spired 0x80 [pva, pva 1, 16] with eng := .spireQ 1, st := .queued }
     let s := (busy c).setSpire 1 { pool.spire 1 with opq := [0] }
     (s.spire 1).opq = [] ++ 0 :: [] ∧ SMap.firstFree (s.spire 1).slots 4 = some 0 ∧ s.cmd 0 = some c ∧ c.eng = .spireQ 1 ∧
      c.st = .queued ∧ (c.heavy = true → c.leave = true) ∧ s.heldBack c = false ∧ (s.spire 1).opq ≠ [] ∧
      (s.spire 0).opq = [] ∧ (s.spire 0).slots = []) ∧
    F.SPIRE_CTL_enable.on 1 = true ∧ F.SPIRE_CTL_enable.on 0 = false ∧ (1 : Word) ++ pool.rd R.SPIRE_SR_SEED_LO 1 ≠ 0#64 ∧
    (pool.fSet F.SPIRE_WIN_SIZE_cells 2 0 5).winOk 5 (F.SPIRE_WIN_CTL_fmt.of (1 ||| 1)) = true ∧
    pool.winOk 5 (F.SPIRE_WIN_CTL_fmt.of (1 ||| 1)) = false := by decide +kernel

/-! ## Power grants, Comb service, mailboxes -/

theorem wit_HeavyCosts : (let u := barOn.barAssign bar0
    barOn.up = true ∧ u.barOpen bar0.port = true ∧ u.domainOn 1 = true ∧
      winToReg (BitVec.ofNat 26 (regToWin (R.PGU_COST_VAL.addr 0 0))).toNat = R.PGU_COST_VAL.addr 0 0 ∧ u.fN F.PGU_COST_IDX_kind < 9 ∧
      ((barOn.fSet F.PGU_COST_IDX_kind 9).barAssign bar0).fN F.PGU_COST_IDX_kind = 9) := by decide +kernel

/-- A request waits for leave, beside a grant of cost `g`, under a limit. -/
def asked (g limit : Nat) : State :=
  ({ mem with pwr := { mem.pwr with queue := [⟨6, .hot⟩], granted := if g = 0 then [] else [(⟨0, .cmd 9⟩, g)] } } : State).fSet
    F.PGU_LIMIT_limit limit

theorem wit_PowerGrants : (asked 0 2240).pwr.queue = ⟨6, .hot⟩ :: [] ∧
    (let fits := fun (s : State) => decide (s.fN F.PGU_BASE_base + s.granted + s.pguCost 6 ≤ s.pguLimit)
     fits (asked 0 2240) = true ∧ fits (asked 0 1440) = false ∧ fits (asked 800 2240) = false) ∧
    (asked 0 1440).granted = 0 ∧ (asked 800 2240).granted ≠ 0 ∧ mem.pwr.frozen = false ∧
    ({ mem with pwr := { mem.pwr with frozen := true } } : State).pwr.frozen = true := by decide +kernel

/-- A miss of Dome 3 pends as record 2, with core 0's window filled in for it. -/
def missing (stale pre taken : Bool) (out : Nat) (size : Nat := 0) : State :=
  let s := { pool with comb := { pool.comb with miss := [(2, ⟨0x30, 40, false, pre, 1, 0, 0, taken, stale, if pre then [] else [0], 0⟩)] } }
  (((s.fSet F.COMB_FW_FILL0_miss_id 2 0 0).fSet F.COMB_FW_FILL0_outcome out 0 0).fSet F.COMB_FW_FILL1_dpa 40 0 0).fSet
    F.COMB_FW_FILL1_size size 0 0

theorem wit_CombService :
    pool.fB F.COMB_CTL_enable = true ∧ mem.fB F.COMB_CTL_enable = false ∧ mem.dome0Cell mem.rootDir = false ∧
    (∀ e ∈ (missing false false true 0).comb.miss, e.2.taken = true) ∧
    (∃ e ∈ (missing false false false 0).comb.miss, e.2.taken = false) ∧
    (let f := fun (s : State) => ((s.wrCodes R.COMB_FW_FILL2 0x80000003 0 0).fN F.COMB_FW_FILL0_miss_id 0 0,
        (s.wrCodes R.COMB_FW_FILL2 0x80000003 0 0).fN F.COMB_FW_FILL0_outcome 0 0,
        (s.wrCodes R.COMB_FW_FILL2 0x80000003 0 0).fN F.COMB_FW_FILL1_size 0 0)
     f (missing false false true 0) = (2, 0, 0) ∧ f (missing true false true 1) = (2, 1, 0) ∧ f (missing false false true 2) = (2, 2, 0) ∧
      f (missing false false true 3) = (2, 3, 0) ∧ f (missing false false true 4) = (2, 4, 0) ∧
      f (missing false false true 0 3) = (2, 0, 3)) ∧
    SMap.find pool.comb.miss 2 = none ∧
    ((SMap.find (missing true false true 1).comb.miss 2).any fun m => m.stale) = true ∧
    ((SMap.find (missing false false true 1).comb.miss 2).any fun m => !m.stale && !m.prefetch) = true ∧
    ((SMap.find (missing false true true 1).comb.miss 2).any fun m => m.prefetch && m.waiters.isEmpty) = true ∧
    pool.fN F.COMB_CTL_miss_timeout ≠ 0 ∧
    (let t := pool.wrCodes R.COMB_INV_CMD 1
     t.comb.inval = none ∧ t.fN F.COMB_INV_CTX_scope = 0) ∧
    (let t := (pool.fSet F.COMB_INV_PAGES_LO_pages_lo 1).wrCodes R.COMB_INV_CMD 1
     0 < t.fN F.COMB_INV_PAGES_LO_pages_lo ∧ t.fN F.COMB_INV_START_LO_vpn_lo + t.fN F.COMB_INV_PAGES_LO_pages_lo ≤ 2 ^ 36) ∧
    (let t := (pool.fSet F.COMB_INV_PAGES_HI_pages_hi 31).wrCodes R.COMB_INV_CMD 1
     2 ^ 36 < t.fN F.COMB_INV_PAGES_HI_pages_hi * 2 ^ 32) ∧
    ((pool.fSet F.COMB_INV_CTX_scope 3).wrCodes R.COMB_INV_CMD 1).fN F.COMB_INV_CTX_scope = 3 := by decide +kernel

theorem wit_MailboxReplies : host.up = true ∧ host.hasFunc 0 0 .fm = true ∧ host.hasFunc 0 0 (.dev 0) = true ∧
    host.hasFunc 3 0 (.dev 0) = false ∧ host.hasFunc 0 1 .fm = false ∧
    (let s := { host with events := host.events.set 2 ⟨[⟨1, 5, 7⟩], false, 0⟩ }
     (∀ h ∈ [7], ∃ r ∈ (s.events.get 2).recs, r.handle = h) ∧ (∀ r ∈ (s.events.get 2).recs, r.handle ≠ 8)) ∧
    5 * 64 < host.memTop ∧ host.memTop ≤ (2 ^ 38) * 64 ∧
    (host.setCxlPort 0 { host.cxlPort 0 with mode := 1 }).hasFunc 0 0 .fm = true ∧
    ((host.setCxlPort 0 { host.cxlPort 0 with mode := 1 }).cxlPort 0).mode = 1 ∧
    host.fB F.QCTL_MBX_CMD_busy = false ∧ (host.fFlag F.QCTL_MBX_CMD_busy true).fB F.QCTL_MBX_CMD_busy = true ∧
    (host.cxlLink 0 0).up = true ∧ (host.cxlLink 1 0).up = false := by decide +kernel

/-! ## The Rythar link -/

theorem wit_LinkReceive : (ry .active).up = true ∧ ((ry .active).ryPort 4).st = .active ∧ ((ry .down).ryPort 4).st = .down ∧
    ((ry .reset).ryPort 4).st = .reset ∧ (hdr 0).ackValid = false ∧
    (let r := (ry .active).ryPort 4
     (r.exp + 4096 - 0) % 4096 = 0 ∧ (r.exp + 4096 - 4000) % 4096 = 96 ∧ (r.exp + 4096 - 2049) % 4096 = 2047 ∧
      (r.exp + 4096 - 2048) % 4096 = 2048) ∧
    (let r := ((ry .spare).ackIn 4 0 true false).ryPort 4
     r.st = .spare ∧ (r.exp + 4096 - 0) % 4096 = 0) ∧
    ((ry .active).ryPort 4).keys = [] ∧ ((ry .active fun r => { r with keys := key }).ryPort 4).keys ≠ [] ∧
    ((ry .active fun r => { r with keys := key, epochLen := 1 }).ryPort 4).epochLen ≠ 0 ∧
    ((ry .active).ryPort 4).tagFails = 0 ∧ ((ry .active fun r => { r with tagFails := 1 }).ryPort 4).tagFails ≠ 0 := by
  decide +kernel

/-- A flit of kind 3. -/
theorem wit_flitBad : flitBad (3 * 2 ^ 32) = true := by
  have h : (bits (3 * 2 ^ 32) 32 2 == 3) = true := by decide +kernel
  unfold flitBad
  rw [h, Bool.or_true, Bool.true_or, Bool.true_or]

/-- A MAC flit whose tag verifies, and one whose tag does not. -/
theorem wit_tags (r : RyPort) (k : BitVec 256) (h : SMap.find r.keys 0 = some k) :
    r.tagOk { (hdr 0).flit 2 1 0 with payload := (epochTag k r.rxIv r.inbuf).setWidth 2048 } = true ∧
    r.tagOk { (hdr 0).flit 2 1 0 with payload := (epochTag k r.rxIv r.inbuf + 1).setWidth 2048 } = false := by
  have e : ∀ t : BitVec 128, (t.setWidth 2048).extractLsb' 0 128 = t := fun t => by
    ext i hi
    simp only [BitVec.getElem_extractLsb', BitVec.getLsbD_setWidth, Nat.zero_add]
    rw [decide_eq_true (by omega), Bool.true_and, BitVec.getLsbD_eq_getElem hi]
  have n : ∀ t : BitVec 128, t + 1 ≠ t := fun t => by
    intro h
    simp at h
  constructor
  · simp only [RyPort.tagOk, FlitHdr.flit, hdr, h, e, beq_self_eq_true, Fin.val_zero]
  · simp only [RyPort.tagOk, FlitHdr.flit, hdr, h, e, Fin.val_zero, beq_eq_false_iff_ne]
    exact n _

theorem wit_LinkSend : ((ry .active).ryPort 4).paused = false ∧ ((ry .active fun r => { r with paused := true }).ryPort 4).paused = true ∧
    ((ry .active fun r => { r with replayFrom := some 7 }).ryPort 4).replayFrom = some 7 ∧
    ((ry .active).ryPort 4).replayFrom = none ∧
    2047 ≤ ((ry .active fun r => { r with sent := List.replicate 2047 ⟨flit 0, true, none⟩ }).ryPort 4).sent.length ∧
    (let s := ry .active fun r => { r with ctrl := [(0, 0)] }
     (s.makeRoom 4).2 = true ∧ ((s.makeRoom 4).1.ryPort 4).ctrl = [(0, 0)] ∧ (s.ryPort 4).keys = []) ∧
    (let s := ry .active fun r => { r with keys := key, txEpoch := 31 }
     (s.makeRoom 4).2 = true ∧ 31 ≤ (s.ryPort 4).txEpoch) ∧
    (let s := ry .active fun r => { r with keys := key, txEpoch := 3 }
     (s.makeRoom 4).2 = true ∧ 0 < (s.ryPort 4).txEpoch ∧ ((s.ryPort 4).ctrl.isEmpty && (s.ryPort 4).nextOut.isNone) = true ∧
      (s.ryPort 4).retReq + (s.ryPort 4).retRsp + (s.ryPort 4).retBulk + (s.ryPort 4).retMgt = 0) ∧
    (let s := ry .active fun r => { r with outq := [outP], credMgt := 4 }
     (s.makeRoom 4).2 = true ∧ (s.ryPort 4).nextOut = some outP ∧ ((s.makeRoom 4).1.ryPort 4).ctrl = []) ∧
    (let s := ry .active fun r => { r with retBulk := 2 }
     (s.makeRoom 4).2 = true ∧ ((s.ryPort 4).ctrl.isEmpty && (s.ryPort 4).nextOut.isNone) = true ∧
      (s.ryPort 4).retReq + (s.ryPort 4).retRsp + (s.ryPort 4).retBulk + (s.ryPort 4).retMgt ≠ 0) ∧
    ((ry .active).makeRoom 4).2 = true ∧ ((ry .active fun r => { r with unacked := 1 }).ryPort 4).unacked ≠ 0 ∧
    ((ry .active).ryPort 4).unacked = 0 ∧ ((ry .active fun r => { r with sent := [⟨flit 0, false, none⟩] }).ryPort 4).sent =
      ⟨flit 0, false, none⟩ :: [] ∧
    max 1 ((ry .active).fN F.RYP_REPLAY_CTL_replay_limit 4) ≤ ((ry .active fun r => { r with rounds := 99 }).ryPort 4).rounds ∧
    ((ry .active).ryPort 4).rounds < max 1 ((ry .active).fN F.RYP_REPLAY_CTL_replay_limit 4) := by decide +kernel

theorem wit_LinkTraining : F.RYP_CFG_enable.on 1 = true ∧ F.RYP_CFG_enable.on 0 = false ∧
    (((ry .failed).wrCodes R.RYP_CFG 0 4).ryPort 4).st = .failed ∧ (((ry .train).wrCodes R.RYP_CFG 0 4).ryPort 4).st ≠ .failed ∧
    F.RYP_LINK_CTL_reset.on ((pool.rd R.RYP_LINK_CTL 4 &&& ~~~2#32) ||| 0#32) = false ∧
    F.RYP_LINK_CTL_disable.on (pool.rd R.RYP_LINK_CTL 4 ||| 1#32) = false ∧
    (∀ st ∈ [RySt.detect, .train, .align, .param, .reset, .failed, .active, .spare], ((ry st).ryPort 4).st = st) ∧
    pool.pwr.node = 0 ∧ pool.fB F.RYP_CFG_enc_required 4 = false ∧
    (let n := max 1 (pool.fN F.RYP_LINK_CTL_train_retries 4)
     n ≤ ((ry .detect fun r => { r with attempts := n - 1 }).ryPort 4).attempts + 1 ∧ ((ry .detect).ryPort 4).attempts + 1 < n) ∧
    ((ry .failed).wrCodes R.RYP_CFG 1 4).fB F.RYP_CFG_enable 4 = true ∧ pool.fB F.RYP_LINK_CTL_disable 4 = false ∧
    pool.fN F.RYP_SPARE_CTL_threshold 4 ≠ 0 ∧ ((ry .active).ryPort 4).sparing = none ∧ ((ry .active).ryPort 4).spareLocked = true ∧
    pool.fN F.RYP_LINK_STATUS_spared_lane 4 ≠ 3 ∧ ((ry .active fun r => { r with spareLocked := false }).ryPort 4).spareLocked = false ∧
    pool.fB F.RYP_LINK_STATUS_spare_used 4 = false ∧ (pool.fFlag F.RYP_LINK_STATUS_spare_used true 4).fB F.RYP_LINK_STATUS_spare_used 4 = true ∧
    ((ry .spare fun r => { r with sparing := some 3 }).ryPort 4).sparing = some 3 := by decide +kernel

theorem wit_LinkControl :
    (∀ op ∈ [4, 5, 14], let r := (ry .active fun r => { r with ctrl := [(op, 0)] }).ryPort 4
      r.ctrl = (op, 0) :: [] ∧ r.keys = [] ∧ r.txEpoch = 0 ∧ r.replayFrom = none ∧
        ((ry .active fun r => { r with ctrl := [(op, 0)] }).makeRoom 4).2 = true) ∧
    (let s := (ry .active fun r => { r with corrs := [(pool.pwr.refTime, 3, 100000)] }).fSet F.RYP_SPARE_CTL_threshold 5 4
     s.fN F.RYP_SPARE_CTL_threshold 4 ≤ s.corrected 4 3 ∧ s.fN F.RYP_SPARE_CTL_threshold 4 ≠ 0) ∧
    ((ry .active fun r => { r with sparing := some 2, moving := true }).ryPort 4).moving = true ∧
    ((ry .active fun r => { r with paused := true }).ryPort 4).paused = true ∧
    (pool.fFlag F.RYP_LINK_STATUS_spare_used true 4).fN F.RYP_LINK_STATUS_spared_lane 4 = 0 := by decide +kernel

/-! ## The Rythar fabric and egress -/

theorem wit_FabricRequests :
    (∀ k ∈ [kHRd, kHWr, kWRd, kWWr],
      (let s := came (waits1 (pkt k)) windowed
       s.pktAt 4 k = some 0 ∧ (s.waitingPkts 4)[0]? = some (waits1 (pkt k)) ∧ (waits1 (pkt k)).base = none ∧
       s.bel.active = false ∧ ((s.policePkt 4 0 (waits1 (pkt k)) (k == 1 || k == 3)).2).gate = .passed)) ∧
    (let s := (came (waits1 (pkt kHRd)) windowed)
     (s.setBucket .pol (20 * 4096 + 3) { s.bucket .pol 0 with tokens := -1, enable := true }).policePkt 4 0 (waits1 (pkt kHRd)) false |>.2.gate) =
      .held ∧
    ((windowed.bucket .pol (20 * 4096 + 3)).passable = true) ∧
    ({ windowed.bucket .pol 0 with tokens := -1, enable := true, action := true } : Bucket).passable = false ∧
    (windowed.handleCheck 4 (pkt kHRd) false).2 = .dpa (40 * 65536) ∧ (windowed.handleCheck 4 (pkt kHWr) true).2 = .dpa (40 * 65536) ∧
    (windowed.winCheck 4 (pkt kWRd) false).2 = .dpa (40 * 65536) ∧ (windowed.winCheck 4 (pkt kWWr) true).2 = .dpa (40 * 65536) ∧
    (pool.handleCheck 4 (pkt kHRd) false).2 = .wait ∧
    (let s := { windowed with sec := { windowed.sec with armed := [3] } }
     (s.handleCheck 4 (pkt kHRd) false).2 = .discard 3 ∧ (s.winCheck 4 (pkt kWRd) false).2 = .discard 3) ∧
    (let s := { windowed with domes := { windowed.domes with st := [(3, .teardown)] } }
     (s.handleCheck 4 (pkt kHRd) false).2 = .err stTeardown) ∧
    (windowed.handleCheck 4 (pkt kHRd 64 (2 * 65536)) false).2 = .err stLength ∧
    ((handled (1 + 3 * 16 + 40 * 2 ^ 64 + 2 * 2 ^ 96)).handleCheck 4 (pkt kHRd) false).2 = .err stDenied ∧
    ((handled (1 + 6 + 3 * 16 + 2 ^ 32)).handleCheck 4 (pkt kHRd) false).2 = .err stDenied ∧
    (windowed.winCheck 4 { pkt kWRd with ctx := 0x40 } false).2 = .err stDenied ∧ (pool.winCheck 4 (pkt kWRd) false).2 = .err stDenied := by
  decide +kernel

theorem wit_handleRead : windowed.handleShown ryO 1 (1 + 6 + 3 * 16 + 40 * 2 ^ 64 + 2 * 2 ^ 96) :=
  ⟨⟨BitVec.ofNat 512 ((1 + 6 + 3 * 16 + 40 * 2 ^ 64 + 2 * 2 ^ 96) * 2 ^ 128), 0⟩, by unfold State.gotLine; decide +kernel,
    by decide +kernel, by decide +kernel⟩

/-- A request that has passed its checks, its bytes read or written. -/
def served (k : Nat) (done : Nat := 0) : State :=
  came (waits1 (pkt k) (some (40 * 65536)) done) (answered [ansR ryO (40 * 1024) 7, ansW ryO (40 * 1024) fullBe])

theorem fetch_one {s : State} {o : Origin} {a v : Nat} {l : Line} (ha : a % 64 = 0) (h : s.gotLine o (a / 64) l)
    (hv : bits l.data.toNat (8 * (a % 64)) (8 * 64) = v) (hm : bits (lineMarks l).toNat (a % 64) 64 = 0) :
    s.Fetched o a 64 v 0 := by
  have r := State.Fetched.line (s := s) (o := o) (a := a) (n := 64) (j := 64) (v := 0) (m := 0) (by decide) (by rw [ha]; decide) h
    .nil
  simpa only [hv, hm, Nat.zero_mul, Nat.add_zero] using r

theorem wit_served : (∀ k ∈ [kHRd, kWRd], (served k).Fetched ryO (40 * 65536) 64 7 0) ∧
    (∀ k ∈ [kHRd, kHWr, kWRd, kWWr], (served k).pktIs 4 k 0 (waits1 (pkt k) (some (40 * 65536)))) ∧
    ((served kHWr).engAns ryO (40 * 1024) true (rangeBe 0 64)).map EngAns.res = some (.ok Line.zero) ∧
    ((served kWWr).engAns ryO (40 * 1024) true (pkt kWWr).be).map EngAns.res = some (.ok Line.zero) ∧
    ((served kHRd 64).waitingPkts 4)[0]? = some (waits1 (pkt kHRd) (some (40 * 65536)) 64) := by
  refine ⟨fun k hk => fetch_one (l := ⟨BitVec.ofNat 512 7, 0⟩) (by decide) ?_ (by decide +kernel)
    (by decide +kernel), ?_⟩
  · unfold State.gotLine
    simp only [List.mem_cons, List.not_mem_nil, or_false] at hk
    obtain rfl | rfl := hk <;> decide +kernel
  · unfold State.pktIs
    decide +kernel

theorem wit_FabricAnswers :
    (∀ e ∈ [(MsgKind.get, kRdData), (.wrd 0, kRdData), (.put, kWrAck), (.wwr 0, kWrAck), (.mig 0 5 none, kWrAck), (.ping, kPong),
        (.get, kErr), (.wwr 0, kErr), (.mig 0 5 none, kErr)],
      (messaged e.1 e.2).pktAt 4 e.2 = some 0 ∧ domeOf (pkt e.2).ctx ∉ (messaged e.1 e.2).sec.armed ∧
      (SMap.find (messaged e.1 e.2).fab.msgs 5).any (fun m => m.kind == e.1) = true) ∧
    SMap.find pool.fab.msgs 5 = none ∧ (messaged .ping kErr stStale).pktAt 4 kErr = some 0 ∧
    (messaged .ping kErr stStale).fB F.RYP_FAB_STATUS_is_queen = true ∧ mem.fB F.RYP_FAB_STATUS_is_queen = false ∧
    (came (waits1 (pkt kPing))).pktAt 4 kPing = some 0 ∧
    (let s := messaged .get kRdData
     let c := work (.mover 1) 0xC0 [2 ^ 32 + 7, 0, pva, 64] [(0, true)]
     s.cmd 0 = some c ∧ 64 ≤ 64 - pva % 64 ∧ c.p 2 + (0 - c.p 1) + 0 = pva ∧ s.ownLine 0 pva true = some (40 * 1024) ∧
       s.owinFor c.ctx (40 * 1024) = none ∧
       (s.engAns (.mover 1 0) (40 * 1024) true (rangeBe 0 64)).map EngAns.res = some (.ok Line.zero)) ∧
    ((messaged (.wrd 0) kErr).fab.owin.find? fun y => y.msg == 5 && y.ans.isNone).isSome = true := by decide +kernel

/-- A packet for node 1 waits to be forwarded; port 4 is ACTIVE with credit. -/
def routed (mask : Nat) (inp : Option Nat) : State :=
  let s := ry .active fun r => { r with credMgt := 200 }
  let s := match inp with
    | some p => s.fSet F.RYP_ROUTE_mask mask p 1
    | none => s.fSet F.RYP_ORIGIN_ROUTE_mask mask 0 1
  { s with fab := { s.fab with fwd := [⟨{ packet with dst := 1 }, inp, inp.isSome, 6, 0⟩] } }

theorem wit_ForwardingAndWindows :
    (∀ i ∈ [none, some 5], (routed 16 i).route ⟨{ packet with dst := 1 }, i, i.isSome, 6, 0⟩ = some 4 ∧
      (routed 0 i).usable ⟨{ packet with dst := 1 }, i, i.isSome, 6, 0⟩ = []) ∧
    F.RYP_OWIN_CTL_enable.on 1 = true ∧ pool.fN F.RYP_OWIN_SIZE_cells 0 3 = 0 ∧
    (let s := (pool.fSet F.RYP_OWIN_BASE_base_cell (apertureBase / 65536) 0 3).fSet F.RYP_OWIN_SIZE_cells 2 0 3
     let b := s.fN F.RYP_OWIN_BASE_base_cell 0 3
     apertureBase ≤ b * 65536 ∧ (b + s.fN F.RYP_OWIN_SIZE_cells 0 3) * 65536 ≤ dpaTop ∧ s.fN F.RYP_OWIN_SIZE_cells 0 3 ≠ 0 ∧
      F.RYP_OWIN_CTL_node.of (put F.RYP_OWIN_CTL_node 5) ≠ s.pwr.node ∧
      ∀ x < 64, x ≠ 3 → s.fB F.RYP_OWIN_CTL_enable 0 x = false) ∧
    (let v : Word := put F.RYP_IWIN_CTL_enable 1 ||| put F.RYP_IWIN_CTL_dome 3
     F.RYP_IWIN_CTL_enable.on v = true ∧ F.RYP_IWIN_CTL_dome.of v ≠ 0 ∧ windowed.fN F.RYP_IWIN_SIZE_cells 0 0 ≠ 0 ∧
      (windowed.fN F.RYP_IWIN_BASE_base_cell 0 0 + windowed.fN F.RYP_IWIN_SIZE_cells 0 0) * 65536 ≤ windowed.hiveBase ∧
      windowed.fN F.RYP_IWIN_SIZE_cells 0 1 = 0) ∧
    mem.fB F.RYP_HANDLE_CTL_enable = false ∧ mem.dome0Cell mem.handleBase = false ∧
    (∀ k < 16, tabled.handleBase + k * 65536 < tabled.memTop ∧ tabled.dome0Cell (tabled.handleBase + k * 65536) = true) ∧
    tabled.fB F.RYP_HANDLE_CTL_enable = false := by decide +kernel

theorem wit_QueenNode : (came (waits1 (pkt kQueen))).pktAt 4 kQueen = some 0 ∧ pool.isQueen = true ∧ mem.isQueen = false ∧
    pool.fB F.RYP_FAB_STATUS_queen_valid = true ∧ (pool.fSet F.RYP_FAB_STATUS_term 3).term = 3 ∧
    ({ pool with pwr := { pool.pwr with node := 5 } } : State).pwr.node = 5 ∧
    (let s := mem.fFlag F.RYP_FAB_STATUS_queen_valid true
     s.isQueen = false ∧ s.fB F.RYP_FAB_STATUS_queen_valid = true ∧ s.fab.missed + 1 < max 1 (s.fN F.RYP_QUEEN_CTL_hb_miss) ∧
      (let s := { s with fab := { s.fab with missed := 99 } }
       max 1 (s.fN F.RYP_QUEEN_CTL_hb_miss) ≤ s.fab.missed + 1 ∧ s.fB F.RYP_FAB_STATUS_is_succ = false ∧
        (s.fFlag F.RYP_FAB_STATUS_is_succ true).fB F.RYP_FAB_STATUS_is_succ = true)) ∧
    (let s := mem.fFlag F.RYP_FAB_STATUS_is_succ true
     ({ s with fab := { s.fab with votes := [1, 2, 0] } } : State).enoughVotes = true ∧
      ({ s with fab := { s.fab with votes := [1] } } : State).enoughVotes = false) ∧
    (let s := pool.fFlag F.RYP_QUEEN_CTL_solo false
     s.isQueen = true ∧ s.fB F.RYP_QUEEN_CTL_solo = false ∧ s.fB F.RYP_FAB_STATUS_alloc_stopped = false) := by decide +kernel

/-- An item for a host on link 0 of port 0. -/
def item (express : Bool) : EgItem := ⟨0, 0, 2, 3, 64, express, 1, .s2m src0.src_ .cmp 5 Line.zero⟩
def queuedItem (express : Bool) : State := { host with eg := { host.eg with items := [item express], nextSeq := 2 } }

theorem wit_EgressScheduling : (queuedItem false).canStart 0 0 = true ∧ (queuedItem false).canStart 1 0 = false ∧
    ((queuedItem false).pick 0 0 15).2 = some (item false) ∧ (host.pick 0 0 15).2 = none ∧
    (queuedItem true).expressPick 0 0 = some (item true) ∧ (queuedItem true).creditOk 15 (item true) = true ∧
    ((queuedItem false).classPick 0 0 2 15).2 = some (item false) ∧
    (let s := queuedItem false
     (∀ y ∈ s.eg.items, y.port = 0 → y.link = 0 → y = item false) ∧ item false ∈ s.eg.items ∧ s.creditOk 15 (item false) = true ∧
       (s.bucket .port 0).passable = true ∧ (s.bucket .svc 2).passable = true ∧ (s.bucket .sub 3).passable = true ∧
       s.strict 0 2 = false ∧
       ({ s with eg := { s.eg with classCfg := [(2, 0x1FF)] } } : State).strict 0 2 = true) ∧
    host.shaperSel = some (.sub, 0) ∧ F.SHAPER_CTL_refused.on (put F.SHAPER_CTL_enable 1) = false ∧
    F.SHAPER_CTL_enable.on (put F.SHAPER_CTL_enable 1) = true ∧ (host.bucket .sub 0).newRate = 0 ∧
    ((host.setBucket .sub 0 { host.bucket .sub 0 with newRate := 5 }).bucket .sub 0).newRate ≠ 0 ∧
    (5 % 4096) ∉ host.eg.resetDomes := by decide +kernel

/-! ## The security root and teardown -/

/-- A KEY_DELIVER payload. -/
def kd (d kind gen p k1 k2 : Nat) : BitVec 640 :=
  BitVec.ofNat 640 (d * 2 ^ 16 + kind * 2 ^ 32 + gen * 2 ^ 40 + p * 2 ^ 48 + k1 * 2 ^ 64 + k2 * 2 ^ 320)

theorem wit_SecurityRoot : bound.up1 = true ∧ bound.pwr.frozen = false ∧
    ({ bound with pwr := { bound.pwr with frozen := true } } : State).pwr.frozen = true ∧
    bound.sessBound 1 3 = false ∧ bound.sessBound 0 3 = true ∧ kdFormatBad (kd 3 2 0 0 1 2) = true ∧
    kdFormatBad (kd 0 1 0 4 1 0) = false ∧ kdBytes (kd 0 1 0 4 1 0) 4 1 = 1 ∧ kdFormatBad (kd 3 0 1 0 1 2) = false ∧
    kdBytes (kd 3 0 1 0 1 2) 4 1 ≠ 1 ∧ bound.linkKeyBusy 4 0 = false ∧
    (bound.setRy 4 { bound.ryPort 4 with keys := key }).linkKeyBusy 4 0 = true ∧
    bound.domeSt 4 = .free ∧ bound.domeSt 5 = .teardown ∧ bound.domeSt 3 = .active ∧ (bound.keySlot 3 0).st ≠ .empty ∧
    (bound.keySlot 3 1).st = .empty ∧ bound.queenAgrees .ok = true ∧ bits (kd 3 0 1 0 1 2).toNat 16 12 = 3 ∧
    bits (kd 3 0 1 0 1 2).toNat 40 1 = 1 ∧ bits (kd 3 0 1 0 1 2).toNat 48 4 = 0 ∧
    SMap.firstFree bound.sec.sessions 256 = some 1 ∧
    SMap.firstFree ((List.range 256).map fun k => (k, (⟨true, 0⟩ : Session))) 256 = none ∧
    (SMap.find bound.sec.sessions 0).isSome = true ∧ SMap.find bound.cores.meas 2 = some 9 := by decide +kernel

/-- A sweep of cell 40 with its leave, at a line. -/
def swept (ptr : Nat) : State := { rekeying with
  sec := { rekeying.sec with sweeps := [⟨16384, 3, 40, ptr⟩] },
  pwr := { rekeying.pwr with granted := [(⟨7, .sweep 40⟩, 0)] } }
/-- The same with the line read under its lock. -/
def sweptLine (ptr : Nat) : State := { swept ptr with home := { (swept ptr).home with
  nextId := 10
  txs := [{ newTx .rdCur (.sweep 40) 0 (40 * 1024 + ptr) 35 with
    id := 9, maint := true, upd := true, stage := .engine, got := some (.ok Line.zero) }] } }
/-- A state with its channels under maintenance. -/
def shut (s : State) : State := (List.range 4).foldl (fun s c => s.fFlag F.DCH_CFG_maint true c) s

def lost (c : Channel) : Channel := { c with failed := true }

theorem wit_BindingsAndSweeps :
    (let t := (pool.fSet F.SEC_DOME_IDX_dome 4).wrCodes R.SEC_BIND_CTL 1
     t.fN F.SEC_DOME_IDX_dome = 4 ∧ t.domeSt 4 = .free) ∧
    (let t := (pool.fSet F.SEC_DOME_IDX_dome 3).wrCodes R.SEC_BIND_CTL 1
     t.domeSt (t.fN F.SEC_DOME_IDX_dome) ≠ .free) ∧
    SMap.find (pool.ryPort 4).keys 1 = none ∧ (pool.ryPort 4).txGen = 0 ∧
    (let r := (ry .active fun r => { r with keys := [(1, 5)] }).ryPort 4
     SMap.find r.keys (1 - r.txGen) ≠ none ∧ r.txEpoch = 0) ∧
    ((ry .active fun r => { r with keys := [(1, 5)], txEpoch := 3 }).ryPort 4).txEpoch ≠ 0 ∧
    (swept 5).hasLeave (.sweep 40) = true ∧ (swept 5).slotOf 40 = none ∧ rekeying.hasLeave (.sweep 40) = false ∧
    ((swept 5).sec.sweeps.find? fun y => y.cell == 40) = some ⟨16384, 3, 40, 5⟩ ∧
    (((swept 1024).sweepStart ⟨16384, 3, 40, 1024⟩).sec.sweeps.find? fun y => y.cell == 40) = some ⟨16384, 3, 40, 0⟩ ∧
    ((swept 1024).loadEntry 40 (.of 35)).2 = some (some 0x4003) ∧ (swept 1024).entryFree 40 = true ∧
    ({ swept 1024 with home := { (swept 1024).home with txs := [{ tx5 with line := mem.cellEntryAddr 40 / 64 }] } } :
      State).entryFree 40 = false ∧
    ((swept 1024).sec.sweeps.find? fun y => y.cell == 40) = some ⟨16384, 3, 40, 1024⟩ ∧
    (∀ p ∈ [5, 1023], let s := sweptLine p
      ((s.engTx (.sweep 40) (40 * 1024 + p) false fullBe).any fun t => t.stage == .engine && t.got == some (.ok Line.zero)) = true ∧
      s.engAns (.sweep 40) (40 * 1024 + p) false fullBe = none ∧
      (s.locate ((40 * 1024 + p) * 64)).any (fun x => s.chSt x.1 == .ok) = true) ∧
    (answered [ansR (.sweep 40) (40 * 1024 + 5) 0] (swept 5)).engAns (.sweep 40) (40 * 1024 + 5) false fullBe ≠ none ∧
    (let s := cache (((swept 5).validByteAddr (40 * 1024 + 5)) / 64) 0 ((swept 5).fFlag F.GLOBAL_VMAP_STATUS_on true)
     (s.loadValid (40 * 1024 + 5) (.of 35)).2 = some false) ∧
    ((cache (((swept 5).validByteAddr (40 * 1024 + 5)) / 64) (2 ^ 512 - 1) (swept 5)).loadValid (40 * 1024 + 5) (.of 35)).2 ≠
      some false := by decide +kernel

theorem wit_SweepChannels :
    (let s := shut (swept 5)
     (s.locate ((40 * 1024 + 5) * 64)).any (fun x => s.chSt x.1 == .maint) = true) ∧
    (let s := { swept 5 with chans := (swept 5).chans.map lost }
     (s.locate ((40 * 1024 + 5) * 64)).any (fun x => s.chSt x.1 == .failed) = true) := by decide +kernel

def td (step : Nat) (ow : Bool) : Teardown := ⟨none, 10000, ow, 0, step, 0, 0, false, [40, 41], 0⟩
def torn (step : Nat) (ow : Bool := false) : State :=
  ({ pool with sec := { pool.sec with teardowns := [(3, td step ow)] }, domes := { pool.domes with st := [(3, .teardown)] } } : State).fFlag
    F.RYP_HANDLE_CTL_enable false

theorem wit_TeardownSteps :
    (fwCmd 0x09 0 []).subject = 0 ∧ pool.domeSt (fwCmd 0x09 4 []).subject = .free ∧ (fwCmd 0x09 4 []).pos = 0 ∧
    (torn 1).domeSt (fwCmd 0x09 3 []).subject = .teardown ∧ pool.domeSt (fwCmd 0x09 3 []).subject = .active ∧
    (begun (fwCmd 0x09 3 [])).queenAgrees .ok = true ∧
    SMap.find (torn 1).sec.teardowns 3 = some (td 1 false) ∧ (torn 1).honey.mig = [] ∧ (torn 1).tdDrained 3 (td 1 false) = true ∧
    ({ torn 1 with q := { (torn 1).q with cmds := [(0, cmdQ [] 0)] } } : State).tdDrained 3 (td 1 false) = false ∧
    ({ torn 3 with home := { (torn 3).home with snoops := [⟨none, 2, 40 * 1024, .inv, 0, 3, false⟩] } } : State).tdSnoops 3 ≠ [] ∧
    (torn 3).tdSnoops 3 = [] ∧ (torn 3).tdHeld 3 = [] ∧ (torn 3).comb.inval = none ∧ (torn 3).fB F.RYP_HANDLE_CTL_enable = false ∧
    (let w := (torn 4).tdRelease ((torn 4).tdCells 3)
     w.tdCells 3 = [] ∧ w.copying = false) ∧
    ({ torn 4 with chans := (torn 4).chans } : State).tdCells 3 = [40, 41] ∧
    (torn 5).drainedTo 0 = true ∧
    ({ torn 5 with home := { (torn 5).home with txs := [tx5] } } : State).drainedTo 10 = false ∧
    ({ torn 6 with comb := { pool.comb with inval := some ⟨0, 0x30, 0, 1, 1, none⟩ } } : State).comb.inval ≠ none ∧
    ((torn 6).fFlag F.RYP_HANDLE_CTL_enable true).fB F.RYP_HANDLE_CTL_enable = true ∧
    SMap.find (torn 7 true).sec.teardowns 3 = some (td 7 true) ∧
    SMap.find (State.tdGo 3 6 { torn 1 with sec := { (torn 1).sec with teardowns := [(3, td 9 true)] } }).sec.teardowns 3 =
      some (td 9 true) ∧
    (let s := { torn 9 true with pwr := { (torn 9 true).pwr with granted := [(⟨8, .overwrite 3⟩, 0)] } }
     SMap.find s.sec.teardowns 3 = some (td 9 true) ∧ s.hasLeave (.overwrite 3) = true) := by decide +kernel

/-! ## The Belfry and the Waggle -/

def evt (n : Nat) (addr : Option Nat := none) : FaultEvt := ⟨n, 0x30, 3, addr, 0, 1, false⟩
def rec1 (seq : Nat) (read : Bool := false) (arch : Option Nat := none) : FaultRec :=
  ⟨3, 1, none, false, 3, 0x30, 0, 1, 0, seq, 0, arch, read⟩
def bel (f : Belfry → Belfry) (s : State := pool) : State := { s with bel := f s.bel }

theorem wit_FaultsAndRecords :
    (let s := bel fun b => { b with evts := [evt 9, evt 3] }
     ∀ e ∈ s.bel.evts, s.srcDriven e.src = true ∧ s.srcBroken e.src = false) ∧ mem.srcDriven 3 = true ∧
    ({ mem with pwr := { mem.pwr with domains := 1 } } : State).srcDriven 3 = false ∧ mem.srcBroken 3 = false ∧
    (bel fun b => { b with pairs := [(3, ⟨true, true⟩)] }).srcBroken 3 = true ∧
    (let s := pool.fSet F.BELFRY_SRC_IDX_source 3
     s.fN F.BELFRY_SRC_IDX_source = 3 ∧ (srcInfo 3).isSome = true ∧
      F.BELFRY_SRC_CFG_broken.on (s.srcCfg 3 ||| 0x40000000) = false) ∧
    (let s := bel (fun b => { b with pairs := [(3, ⟨true, true⟩)] }) (pool.fSet F.BELFRY_SRC_IDX_source 3)
     s.srcBroken (s.fN F.BELFRY_SRC_IDX_source) = true ∧ (srcInfo (s.fN F.BELFRY_SRC_IDX_source)).isSome = true ∧
      isNext (exec (.brokenClear false) s) (fun t => !t.srcBroken 3) = true) ∧
    (evt 3).wire = false ∧ SMap.firstFree pool.bel.recs 512 = some 0 ∧
    SMap.firstFree ((List.range 512).map fun k => (k, rec1 k)) 512 = none := by decide +kernel

theorem wit_FaultsAndRecords_records :
    oldestRec (((bel fun b => { b with recs := [(0, rec1 5), (1, rec1 4)] }).recTidy.bel.recs).filter fun e => !e.2.read) =
      some (1, rec1 4) ∧
    (∀ e ∈ (bel fun b => { b with recs := [(0, rec1 5 true)] }).recTidy.bel.recs, e.2.read = true) ∧
    SMap.find (bel fun b => { b with recs := [(0, rec1 5)] }).recTidy.bel.recs 0 = some (rec1 5) ∧ (rec1 5).arch = none ∧
    SMap.find pool.recTidy.bel.recs 0 = none ∧
    (let s := bel (fun b => { b with recs := [(0, rec1 5 true (some 2))] }) pool
     let s := { s with home := { s.home with txs := [{ tx5 with origin := .device, line := s.archiveAddr 2 / 64 }] } }
     (SMap.find s.recTidy.bel.recs 0).any (fun r => r.arch == some 2) = true) ∧
    (bel fun b => { b with active := true }).quietRuns = true ∧ pool.quietRuns = false ∧
    (bel fun b => { b with active := true }).bel.active = true ∧ pool.bel.active = false := by decide +kernel

/-- Waggle source 130 at level 9 for core 5, with an event counted. -/
def wag (f : Waggle → Waggle) (s : State := pool) : State := { s with wag := f s.wag }
def src130 : WSrc := ⟨true, false, 2, 9, 0x20, 1, 0⟩
def raised : State := wag fun w => { w with srcs := [(130, src130)] }

theorem wit_InterruptsAndTimers : raised.claimPick 5 = some 130 ∧ raised.claimPick 6 = none ∧
    ((raised.setWsrc 130 { src130 with count := 0, lastCore := 5 }).wgroup 2).holdoff = 0 ∧
    (((raised.setWgroup 2 ⟨50, 3, none, false⟩).setWsrc 130 { src130 with count := 0, lastCore := 5 }).wgroup 2).holdoff ≠ 0 ∧
    (raised.setWgroup 2 ⟨50, 3, none, false⟩).claimPick 5 = some 130 ∧ 128 ≤ (128#12).toNat ∧ (127#12).toNat < 128 := by decide +kernel

def tmr (o : Nat) (run periodic : Bool) : Timer := ⟨o, false, periodic, run, 5, 5, 0⟩
def timed (o : Nat) (run := false) (periodic := false) : State := wag fun w => { w with timers := [(3, tmr o run periodic)] }

theorem wit_InterruptsAndTimers_groups :
    (let v := put F.WAGGLE_GRP_CFG_holdoff 50 ||| put F.WAGGLE_GRP_CFG_timer 3
     F.WAGGLE_GRP_CFG_holdoff.of v ≠ 0 ∧ F.WAGGLE_GRP_CFG_timer.of v = 3 ∧ ((timed 0).timer 3).owner ≠ 0x1000 + 0 ∧
      ((timed 0x1000).timer 3).owner = 0x1000 + 0 ∧ F.WAGGLE_GRP_CFG_holdoff.of 0 = 0 ∧ pool.fN F.WAGGLE_GRP_IDX_group = 0) ∧
    pool.vecIdx = (0, 0) ∧ (pool.vec 0 0).port < 16 ∧ (pool.vec 0 0).link < 2 ∧ (pool.vec 0 0).dest < 4096 ∧
    (pool.vec 0 0).pending = false ∧
    ((pool.setVec 0 0 { pool.vec 0 0 with pending := true }).vec 0 0).pending = true ∧
    ((timed 0).timer 3).run = false ∧ ((timed 0 true true).timer 3) = tmr 0 true true ∧ ((timed 0 true false).timer 3) = tmr 0 true false ∧
    (let s := (timed 5).fSet F.WAGGLE_TMR_IDX_timer 3
     s.fN F.WAGGLE_TMR_IDX_timer = 3 ∧ (s.timer 3).owner = 5 ∧ F.WAGGLE_TMR_OWNER_owner.of (put F.WAGGLE_TMR_OWNER_owner 7) = 7 ∧
      F.WAGGLE_TMR_OWNER_owner.of 0 = 0 ∧ s.timerHeld 3 = false ∧ (s.setWgroup 2 ⟨50, 3, none, false⟩).timerHeld 3 = true) := by
  decide +kernel

theorem wit_EndOfInterrupt : (5, 130) ∈ (wag fun w => { w with service := [(5, 130)] }).wag.service ∧ (5, 130) ∉ pool.wag.service := by
  decide +kernel

/-! ## Cores, power, management -/

/-- A command of the mailbox waits for firmware. -/
def waiting : State :=
  let c := { newCmd .mailbox 0 0 (pack [0] 0) 0 with eng := .fwBuffer }
  { pool with q := { pool.q with cmds := [(16384, c)], fwBuf := [16384] }, cores := { pool.cores with running := 0xFF00FF } }
/-- The same in area 2 of core 1, its reply written. -/
def repliedC : State :=
  let c := { newCmd .mailbox 0 0 (pack [0] 0) 0 with eng := .fwArea 1 2 }
  { pool with q := { pool.q with cmds := [(16384, c)], areas := [(18, 16384)], tcmReply := [(16384, 5)] } }

/-- A flash with a valid header and the three images' headers. -/
def flashed : SMap Byte :=
  [(0, 0x5A), (1, 0x4D), (2, 0x39), (3, 0x36), (4, 1), (5, 0), (6, 0), (7, 0), (8, 0xC9), (9, 0xD7), (10, 2), (11, 0x28),
   (0x1000, 4), (0x1001, 0), (0x1002, 20), (0x1003, 0), (0x1018, 0), (0x1019, 0),
   (0x20000, 0x5A), (0x20001, 0x49), (0x20002, 0x4D), (0x20003, 0x47), (0x20004, 0), (0x20008, 0), (0x20009, 0), (0x2000A, 0), (0x2000B, 0),
   (0x100000, 0x5A), (0x100001, 0x49), (0x100002, 0x4D), (0x100003, 0x47), (0x100004, 1), (0x100008, 0), (0x100009, 0), (0x10000A, 0), (0x10000B, 0),
   (0x500000, 0x5A), (0x500001, 0x49), (0x500002, 0x4D), (0x500003, 0x47), (0x500004, 2), (0x500008, 0), (0x500009, 0), (0x50000A, 0), (0x50000B, 0)]
def withFlash (s : State) : State := { s with cores := { s.cores with flash := flashed } }

theorem wit_ControlCores : waiting.fwNext = some 16384 ∧ pool.fwNext = none ∧
    ((List.range 16).find? fun a => (SMap.find waiting.q.areas (1 * 16 + a)).isNone) = some 0 ∧ (waiting.cmd 16384).isSome = true ∧
    F.GLOBAL_FWCMD_DONE_area.of 2 = 2 ∧ SMap.find repliedC.q.areas (1 * 16 + 2) = some 16384 ∧ (repliedC.cmd 16384).isSome = true ∧
    SMap.find repliedC.q.tcmReply 16384 = some 5 ∧
    (pool.fSet F.GLOBAL_CORE_WDT_timeout_ms 9 0 5).fN F.GLOBAL_CORE_WDT_timeout_ms 0 5 ≠ 0 ∧ bit (pool.fN F.GLOBAL_CORE_RST_hold) 5 = false ∧
    pool.fN F.GLOBAL_CORE_WDT_timeout_ms 0 5 = 0 ∧ F.GLOBAL_CORE_RST_hold.of 0xFF % 256 = 255 ∧ F.GLOBAL_CORE_RST_hold.of 0x10F % 256 ≠ 255 ∧
    bit (F.GLOBAL_CORE_RST_hold.of 0x10F) 8 = true ∧ pool.cores.running.getLsbD 3 = false ∧ 3 ≤ pool.pwr.step ∧
    (withFlash pool).imageOk 1 good = true ∧ pool.imageOk 1 good = false := by decide +kernel

theorem wit_ControlCores_accesses : waiting.cores.running.getLsbD 16 = true ∧ pool.cores.running.getLsbD 16 = false ∧
    waiting.owinFor 0 (32 * 1024) = none ∧
    touchesPoison Line.zero 0 8 = false ∧ touchesPoison Line.poisoned 0 8 = true ∧ beSpan (rangeBe 0 8) = (0, 8) ∧
    (let s := (((waiting.fSet F.RYP_OWIN_BASE_base_cell (apertureBase / 65536) 0 3).fSet F.RYP_OWIN_SIZE_cells 2 0 3).fSet
       F.RYP_OWIN_CTL_node 5 0 3).fFlag F.RYP_OWIN_CTL_enable true 0 3
     (s.owinFor 0 (apertureBase / 64)).isSome = true ∧ apertureBase + 8 ≤ 2 ^ 45) ∧
    40 * 65536 + 8 ≤ 2 ^ 45 ∧ (40 * 65536) % 64 + 8 ≤ 64 ∧ (2 ^ 45 : Nat) ≤ (BitVec.ofNat 48 (2 ^ 45)).toNat ∧
    2 ^ 45 + 2 ^ 26 ≤ (BitVec.ofNat 48 (2 ^ 46)).toNat := by decide +kernel

theorem wit_PowerAndStartUp_reset : mem.pwr.pwrok = true ∧ State.reset.pwr.pwrok = false ∧
    ({ mem with pwr := { mem.pwr with perstN := false, inReset := true } } : State).pwr.perstN = false ∧ mem.up = true ∧
    mem.fB F.GLOBAL_SW_RST_pending = false ∧ (mem.fFlag F.GLOBAL_SW_RST_pending true).fB F.GLOBAL_SW_RST_pending = true ∧ mem.up1 = true ∧
    ({ mem with pwr := { mem.pwr with swResetAt := some 5 } } : State).pwr.swResetAt = some 5 ∧
    mem.headerOk = false ∧ (withFlash mem).headerOk = true ∧ (withFlash mem).cfgRecs ≠ none ∧
    ((withFlash mem).loadChain true).imageOk 0 good = true ∧ ((withFlash mem).loadChain true).imageOk 0 ⟨false, true, true⟩ = false ∧
    (withFlash mem).imageOk 1 ⟨true, false, true⟩ = false ∧ (withFlash mem).imageOk 1 good = true ∧
    (withFlash mem).imageOk 2 good = true := by decide +kernel

theorem wit_PowerAndStartUp : ({ mem with pwr := { mem.pwr with step := 2 } } : State).pwr.step = 2 ∧ mem.fN F.START_STATUS_error = 0 ∧
    mem.pwr.step ≠ 2 ∧ (∀ ch < 24, (mem.chan ch).train = none) ∧ ({ mem with pwr := { mem.pwr with step := 3 } } : State).pwr.step = 3 ∧
    (let s := ({ pool with pwr := { pool.pwr with step := 4 } } : State).fFlag F.GLOBAL_VMAP_STATUS_zero_done true
     ((s.fFlag F.GLOBAL_VMAP_STATUS_on true).fFlag F.QCTL_CTL_enable true).startStep = 7) ∧ mem.startStep ≠ 7 ∧
    ((mem.setSpire 3 { mem.spire 3 with selfTest := true }).spire 3).selfTest = true := by decide +kernel

theorem wit_FreezeAndDomains : State.reset.up1 = false ∧ mem.up1 = true ∧ mem.pwr.frozen = false ∧ 3 ≤ mem.pwr.step ∧ mem.srActs 0 = true ∧
    (let s : State := { mem with pwr := { mem.pwr with frozen := true } }
     s.up1 = true ∧ s.pwr.frozen = true ∧ s.pwr.tapFreeze = false ∧ s.pwr.freezePin = false) ∧
    mem.pwr.switching = none ∧ bit (mem.fN F.PWR_DOM_CTL_on_7_20) 6 = true ∧ mem.offOk (7 + 6) = false ∧
    ((List.range 6).foldl (fun s n => s.fFlag F.SPIRE_CTL_enable false n) mem).offOk (7 + 6) = true ∧
    bit ((mem.fSet F.PWR_DOM_CTL_on_7_20 0).fN F.PWR_DOM_CTL_on_7_20) 6 = false ∧ mem.onOk (7 + 6) = true := by decide +kernel

theorem wit_Management : bound.mgmtOk 0 = true ∧ bound.mgmtOk 1 = false ∧ bound.pwr.frozen = false ∧ csrAddrBad 0x300104 = false ∧
    csrAddrBad 0x300105 = true ∧ bound.fB F.QCTL_MBX_CMD_busy = false ∧ (bound.fFlag F.QCTL_MBX_CMD_busy true).fB F.QCTL_MBX_CMD_busy = true ∧
    bound.flashDenied 0 4 = true ∧ bound.flashDenied 0x10000 4 = false ∧ bound.flashBadCrc 0x10000 4 [1, 2, 3, 4] = false ∧
    bound.fB F.GLOBAL_MGMT_CTL_enable = true ∧ (bound.fFlag F.GLOBAL_MGMT_CTL_enable false).fB F.GLOBAL_MGMT_CTL_enable = false ∧
    (let r : Resp := ⟨4, 0, [0x12]⟩
     SMap.find ({ bound with cores := { bound.cores with lastResp := [(5, (9, r))] } } : State).cores.lastResp 5 = some (9, r)) ∧
    SMap.find bound.cores.lastResp 5 = none ∧ bound.cores.mgmtCmd ≠ some (5, 9) ∧
    (bound.mgmtServe 0 .version).2.isSome = true ∧ (bound.mgmtServe 0 (.cmdPacket 0)).2 = none ∧
    (withFlash bound).myIp4 = some 0xFFFFFFFF ∧ (withFlash bound).myIp6 = some (2 ^ 128 - 1) ∧ bound.myIp4 = none := by decide +kernel

/-! ## Terms that are not well formed, one for each check -/

/-- A request of logical device 3 on port 0. -/
def ldReq : M2S := ⟨⟨0, 0, true, 3, 0, false⟩, 64, .noOp⟩

theorem test_wf_ok : Instr.wf (.memrd ldReq none) = true := by decide
theorem test_wf_ld : Instr.wf (.memrd { ldReq with id := ⟨0, 0, true, 16, 0, false⟩ } none) = false := by decide
theorem test_wf_ld_answer : Instr.wf (.biconflict ⟨⟨0, 0, true, 16, 0, false⟩, 0⟩) = false ∧ Instr.wf (.birspi ⟨⟨0, 0, true, 16, 0, false⟩, 0⟩) = false ∧
    Instr.wf (.birsps ⟨⟨0, 0, true, 16, 0, false⟩, 0⟩) = false ∧ Instr.wf (.birspe ⟨⟨0, 0, true, 16, 0, false⟩, 0⟩) = false ∧
    Instr.wf (.birspBlock ⟨⟨0, 0, true, 16, 0, false⟩, 0⟩) = false := by decide
theorem test_wf_hpa_line : Instr.wf (.memrddata { ldReq with hpa := 65 }) = false ∧ Instr.wf (.meminv { ldReq with hpa := 65 }) = false ∧
    Instr.wf (.meminvnt { ldReq with hpa := 65 }) = false ∧
    Instr.wf (.memclnevct { ldReq with hpa := 65 }) = false ∧ Instr.wf (.memspecrd { ldReq with hpa := 65 }) = false ∧
    Instr.wf (.memrdfwd { ldReq with hpa := 65 }) = false ∧ Instr.wf (.memwrfwd { ldReq with hpa := 65 }) = false ∧
    Instr.wf (.memwrptl { ldReq with hpa := 65 } ⟨0, 1, false⟩) = false := by decide
theorem test_wf_enables : Instr.wf (.memwr ldReq ⟨0, 1, false⟩) = false := by decide
theorem test_wf_misaligned : Instr.wf (.misalignedCsrAccess ⟨bar0, 4⟩ .b4 none) = false := by decide
theorem test_wf_flash_order : risingBelow (2 ^ 32) [(5, 1), (5, 2)] = false ∧ risingBelow (2 ^ 32) [(2 ^ 32, 1)] = false := by decide
theorem test_wf_ipv4 : Instr.wf (.icmpEcho false 0x100000000 []) = false := by decide
theorem test_wf_flash_empty : Instr.wf (.flashWrite 0 0 []) = false := by decide
theorem test_wf_core_line : Instr.wf (.controlCoreAccess 0 60 .b8 none) = false := by decide

/-! ## The worked examples of the spec -/

/-- Chapter 3: one line on CH11, with 32 Gb devices in two 4-high ranks. -/
theorem test_coord_example : coordOf 17 4 0x6AB040 = ⟨1, 5, 1, 43, 13, 0⟩ := by decide

/-- Chapter 9: a gradient block to MXFP4-E2M1. -/
theorem test_mx_example : mxQuant 6 (List.replicate 6 .rne) [0x3F400000, 0xBE980000, 0x3DD00000, 0x3D000000, 0x3D800000, 0x3E200000] =
    (0x7C, [7, 0xC, 2, 0, 1, 2], Exc.none) := by decide +kernel

/-- Chapter 9: FP16 values to FP8-E4M3. -/
theorem test_fp8_example : (roundOut 3 true .rne false 0x43E60000).1 = 0x7E ∧ (roundOut 3 false .rne false 0x43E60000).1 = 0x7E ∧
    (roundOut 3 true .rne false 0x43EB0000).1 = 0x7E ∧ roundOut 3 false .rne false 0x43EB0000 = (0x7F, ⟨1, 1, 0, 0⟩) ∧
    (roundOut 3 true .rne false 0xBA800000).1 = 0x80 ∧ (roundOut 3 true .rne false 0x3C400000).1 = 0x06 := by decide +kernel

/-- Chapter 20: node 27, the queen. -/
theorem test_node_example : { on with pwr := { on.pwr with node := 27, queenSel := true, dpcSel := true } }.nodeShown = 0x51B := by
  decide +kernel

/-- Chapter 11: decoder 5 of a host on CX3. -/
def hdm5 : State := ((((on.wr R.CXLP_HDM_BASE_LO 0x400 0 5).wr R.CXLP_HDM_SIZE 0x1000 0 5).wr R.CXLP_HDM_DPA 0x8000 0 5).wr R.CXLP_HDM_SRC
  0xC02C 0 5).wr R.CXLP_HDM_CTL 0x423 0 5

theorem test_hdm_example : hdm5.hdmMatch ⟨3, 0, false, 0x2C, 0, true⟩ 0x004001234567 = some 5 ∧
    hdm5.hdmDpa 5 0x004001234567 = 0x08000048D567 := by decide +kernel

/-- Chapter 2: a striped and an affinity region over 24 channels. -/
def tiled : State := ((((((on.wr R.GLOBAL_ILR_SIZE 245760).wr R.GLOBAL_ILR_CTL 1).wr R.GLOBAL_ILR_BASE 245760 0 1).wr R.GLOBAL_ILR_SIZE
  146616 0 1).wr R.GLOBAL_ILR_CTL 3 0 1).fSet F.GLOBAL_POP_dram_groups 63)

theorem test_locate_example : tiled.locate 0x0A013040 = some (11, 0x006AB040) ∧
    tiled.locate 0x0F00001F0000 = some (7, 0x00A000010000) := by decide +kernel

/-- Chapter 19: BF03 and GK37, and the strap NODE_ID[0] at CC31 in the centre region. -/
theorem test_ball_example : ballAt 'B' 'F' 3 = some (24, 3) ∧ ballAt 'G' 'K' 37 = some (10, 91) ∧
    (CtlPin.nodeId 0).place = some (39, 31) ∧ regionAt 39 31 = some .centre ∧ regionAt 24 3 = some (.ddr 2) := by decide

/-! ## The codes at the ends of their ranges -/

theorem wit_CodeCorrectsOneDetectsTwo : decodeBeat (encodeBeat 0xFFFFFFFF true ^^^ (1#40 <<< 39)) = ⟨0xFFFFFFFF, true, 0x70, 1⟩ ∧
    (decodeBeat (encodeBeat 0 false ^^^ (1#40 <<< 0) ^^^ (1#40 <<< 39))).action = 2 := by decide +kernel

theorem wit_FilterEntries : filterLine (filterSet (2 ^ 39 - 1)) (filterTag (2 ^ 39 - 1)) = 2 ^ 39 - 1 ∧
    filterDecode (filterEncode (2 ^ 24 - 1) 3 ^^^ (1#32 <<< 31)) = some (2 ^ 24 - 1, 3) ∧
    filterDecode (filterEncode 0 0 ^^^ (1#32 <<< 0) ^^^ (1#32 <<< 31)) = none := by decide +kernel

end Sys2Proof.Tests
end

section
/-!
PROOFS. The DRAM code's decoder (R80 - R82): the weight of a syndrome tells which columns of the check matrix it can equal,
and one equation of `decodeBeat` for each row of R82's table.
-/
namespace Sys2Proof.Machine

/-! ## The weight of a syndrome -/

/-- How many bits of a syndrome are 1 (R80). -/
def syndromeWeight (s : BitVec 7) : Nat := ((List.range 7).filter fun i => s.getLsbD i).length

/-- The columns of the check bits c0 to c6, as `decodeBeat` lists them. -/
abbrev checkCols : List Nat := [0x01, 0x02, 0x04, 0x08, 0x10, 0x20, 0x40]

theorem syndromeWeight_le_seven (s : BitVec 7) : syndromeWeight s ≤ 7 := List.length_filter_le _ _

theorem syndromeWeight_pos : ∀ s : BitVec 7, s ≠ 0 → 0 < syndromeWeight s := by decide

theorem ne_zero_of_syndromeWeight_pos {s : BitVec 7} (h : 0 < syndromeWeight s) : s ≠ 0 := by
  rintro rfl
  exact absurd h (by decide)

/-- The check-bit columns are the values of weight 1 (R80). -/
theorem mem_checkCols_iff : ∀ s : BitVec 7, s.toNat ∈ checkCols ↔ syndromeWeight s = 1 := by decide

/-- The data and poison columns and the two unused values are the 35 values of weight 3 (R80). -/
theorem syndromeWeight_eq_three_iff : ∀ s : BitVec 7,
    syndromeWeight s = 3 ↔ s.toNat ∈ dataCols ∨ s = 0x70 ∨ s = 0x64 ∨ s = 0x68 := by decide

theorem mem_dataCols_iff (n : Nat) : n ∈ dataCols ↔ ∃ i < 32, n = dataCols.getD i 0 := by
  constructor
  · intro h
    obtain ⟨i, hi, rfl⟩ := List.mem_iff_getElem.1 h
    exact ⟨i, hi, (List.getD_eq_getElem _ _ hi).symm⟩
  · rintro ⟨i, hi, rfl⟩
    exact List.getD_eq_getElem dataCols 0 hi ▸ List.getElem_mem hi

theorem idxOf?_dataCols : ∀ i < 32, dataCols.idxOf? (dataCols.getD i 0) = some i := by decide

/-! ## The decoder, one equation for each row of R82's table -/

section
variable {b : BitVec 40}

theorem decodeBeat_of_syndrome_zero (h : syndrome b = 0) :
    decodeBeat b = ⟨b.setWidth 32, b.getLsbD 39, syndrome b, 0⟩ := by
  simp [decodeBeat, h]

theorem decodeBeat_of_weight_one (h : syndromeWeight (syndrome b) = 1) :
    decodeBeat b = ⟨b.setWidth 32, b.getLsbD 39, syndrome b, 1⟩ := by
  have hne : syndrome b ≠ 0 := ne_zero_of_syndromeWeight_pos (by omega)
  have hmem : checkCols.contains (syndrome b).toNat := List.contains_iff_mem.2 ((mem_checkCols_iff _).2 h)
  rw [decodeBeat, if_neg hne, if_pos hmem]

/-- A syndrome of weight other than 0 and 1, and not the poison column, goes to the data columns. -/
theorem decodeBeat_of_weight_two_le (h : 2 ≤ syndromeWeight (syndrome b)) (hp : syndrome b ≠ 0x70) :
    decodeBeat b = (dataCols.idxOf? (syndrome b).toNat).elim ⟨b.setWidth 32, b.getLsbD 39, syndrome b, 2⟩
      fun i => ⟨b.setWidth 32 ^^^ (1#32 <<< i), b.getLsbD 39, syndrome b, 1⟩ := by
  have hne : syndrome b ≠ 0 := ne_zero_of_syndromeWeight_pos (by omega)
  have hmem : ¬ checkCols.contains (syndrome b).toNat := fun hc => by
    have := (mem_checkCols_iff _).1 (List.contains_iff_mem.1 hc)
    omega
  rw [decodeBeat, if_neg hne, if_neg hmem, if_neg hp]
  cases dataCols.idxOf? (syndrome b).toNat <;> rfl

theorem decodeBeat_of_poison_column (h : syndrome b = 0x70) :
    decodeBeat b = ⟨b.setWidth 32, !b.getLsbD 39, syndrome b, 1⟩ := by
  simp [decodeBeat, h]

theorem decodeBeat_of_data_column {i : Nat} (hi : i < 32) (h : (syndrome b).toNat = dataCols.getD i 0) :
    decodeBeat b = ⟨b.setWidth 32 ^^^ (1#32 <<< i), b.getLsbD 39, syndrome b, 1⟩ := by
  have hmem : (syndrome b).toNat ∈ dataCols := (mem_dataCols_iff _).2 ⟨i, hi, h⟩
  have hw : syndromeWeight (syndrome b) = 3 := (syndromeWeight_eq_three_iff _).2 (.inl hmem)
  have hp : syndrome b ≠ 0x70 := fun h70 => absurd hmem (by rw [h70]; decide)
  rw [decodeBeat_of_weight_two_le (by omega) hp, h, idxOf?_dataCols i hi, Option.elim_some]

/-- A syndrome of weight 2 or more that is no column is uncorrectable. -/
theorem decodeBeat_of_no_column (hw : 2 ≤ syndromeWeight (syndrome b)) (hp : syndrome b ≠ 0x70)
    (hd : (syndrome b).toNat ∉ dataCols) :
    decodeBeat b = ⟨b.setWidth 32, b.getLsbD 39, syndrome b, 2⟩ := by
  rw [decodeBeat_of_weight_two_le hw hp, List.idxOf?_eq_none_iff.2 hd, Option.elim_none]

end

/-! ## R82's table -/

/-- The rows of R82's table that are uncorrectable. -/
def SyndromeUncorrectable (s : BitVec 7) : Prop :=
  s = 0x64 ∨ s = 0x68 ∨ syndromeWeight s = 5 ∨ syndromeWeight s = 7 ∨ (s ≠ 0 ∧ syndromeWeight s % 2 = 0)

/-- The uncorrectable rows hold no column of the check matrix: their weight is neither 1 nor 3, or they are the two values of
weight 3 that R80 leaves unused. -/
theorem SyndromeUncorrectable.no_column {s : BitVec 7} (h : SyndromeUncorrectable s) :
    2 ≤ syndromeWeight s ∧ s ≠ 0x70 ∧ s.toNat ∉ dataCols := by
  obtain rfl | rfl | h := h
  · decide
  · decide
  · have hw : 2 ≤ syndromeWeight s ∧ syndromeWeight s ≠ 3 := by
      obtain h5 | h7 | ⟨hne, heven⟩ := h
      · omega
      · omega
      · have := syndromeWeight_pos s hne
        omega
    have hcol := (syndromeWeight_eq_three_iff s).not.1 hw.2
    exact ⟨hw.1, fun h70 => hcol (.inr (.inl h70)), fun hd => hcol (.inl hd)⟩

/-- Every syndrome falls under a row: an odd weight is 1, 3, 5 or 7, and R80 accounts for each value of weight 3. -/
theorem syndrome_rows_exhaustive (s : BitVec 7) :
    s = 0 ∨ syndromeWeight s = 1 ∨ (∃ i < 32, s.toNat = dataCols.getD i 0) ∨ s = 0x70 ∨ SyndromeUncorrectable s := by
  have hweight : syndromeWeight s % 2 = 0 ∨ syndromeWeight s = 1 ∨ syndromeWeight s = 3 ∨ syndromeWeight s = 5 ∨
      syndromeWeight s = 7 := by
    have := syndromeWeight_le_seven s
    omega
  obtain heven | h1 | h3 | h5 | h7 := hweight
  · by_cases h0 : s = 0
    · exact .inl h0
    · simp only [SyndromeUncorrectable, ne_eq, h0, not_false_eq_true, heven, and_self, or_true]
  · exact .inr (.inl h1)
  · obtain hd | hp | hu | hu := (syndromeWeight_eq_three_iff s).1 h3
    · exact .inr (.inr (.inl ((mem_dataCols_iff _).1 hd)))
    · simp [hp]
    · simp [SyndromeUncorrectable, hu]
    · simp [SyndromeUncorrectable, hu]
  · simp [SyndromeUncorrectable, h5]
  · simp [SyndromeUncorrectable, h7]

/-- Settles O21: the weight of the syndrome and R80's columns tell the rows of R82's table apart, and the decoder takes each
row's action. -/
theorem syndromeActions : Obligations.SyndromeActions := by
  rintro b _ _ _ _ rfl rfl rfl rfl
  refine ⟨decodeBeat_of_syndrome_zero, decodeBeat_of_weight_one, fun i => decodeBeat_of_data_column,
    decodeBeat_of_poison_column, fun h => ?_, syndrome_rows_exhaustive _⟩
  obtain ⟨hw, hp, hd⟩ := SyndromeUncorrectable.no_column h
  exact decodeBeat_of_no_column hw hp hd

end Sys2Proof.Machine
end

section
/-!
PROOFS. Control commands that check their subject's state (R407): what firmware does first with a command it holds, and the
commands whose meaning is that check followed by a rule of their own.
-/
namespace Sys2Proof.Machine

/-! ## The check of a subject's state -/

theorem State.subjectBad_of_free {s : State} {c : Cmd} (h : s.domeSt c.subject = .free) : s.subjectBad c = some stDenied := by
  simp only [State.subjectBad, h]

theorem State.subjectBad_of_teardown {s : State} {c : Cmd} (h : s.domeSt c.subject = .teardown) :
    s.subjectBad c = some stTeardown := by
  simp only [State.subjectBad, h]

/-- Only the Domes and the subject's number decide the check: a command begun, in its place in the table, checks the same. -/
theorem State.subjectBad_putCmd_running (s : State) (k : Nat) (c : Cmd) :
    (s.putCmd k { c with st := .running }).subjectBad { c with st := .running } = s.subjectBad c := rfl

/-- A command held and not begun, of a subject the check stops, is replied to at once: its own rule `f` does nothing. -/
theorem State.control_of_subjectBad {s : State} {k op st : Nat} {c : Cmd} (f : State → Cmd → State × Ctl)
    (hold : s.FwHolds k op c) (hq : c.st = .queued) (hbad : s.subjectBad c = some st) :
    s.control k op true f = (s.putCmd k { c with st := .running }).fwReply k st 0 := by
  obtain ⟨hcmd, ⟨n, a, harea⟩, hop, -, hreply⟩ := hold
  have hrun := (State.subjectBad_putCmd_running s k c).trans hbad
  rw [harea] at hrun
  simp [State.control, hcmd, harea, hop, hq, hreply, hrun]

/-! ## The commands under the check -/

/-- The command `i` of context `k` is the control command of opcode `op` under R407, whatever its own rule is. -/
def ChecksSubject (i : Instr) (k op : Nat) : Prop :=
  ∃ f : State → Cmd → State × Ctl, ∀ s, exec i s = run s fun s => s.control k op true f

theorem ChecksSubject.exec_of_subjectBad {i : Instr} {k op st : Nat} {s : State} {c : Cmd} (hi : ChecksSubject i k op)
    (hup : s.up = true) (hold : s.FwHolds k op c) (hq : c.st = .queued) (hbad : s.subjectBad c = some st) :
    exec i s = .next (((s.putCmd k { c with st := .running }).fwReply k st 0).keep s) := by
  obtain ⟨f, hexec⟩ := hi
  rw [hexec, run_up _ hup, State.control_of_subjectBad f hold hq hbad]

/-- The commands that name no check of their own on the subject's state (R407), each with its opcode. -/
abbrev subjectCheckedCommands (k : Fin 16385) (a : QAns) (x y : Bool) : List (Instr × Nat) :=
  [(.nop k, 0x00), (.queueDestroy k, 0x02), (.queueResume k, 0x03), (.doorbellSet k, 0x04), (.shareJoin k, 0x0A),
    (.shareLeave k, 0x0B), (.cellAlloc k a, 0x10), (.cellFree k, 0x11), (.shareMove k a, 0x12), (.pin k, 0x14),
    (.unpin k, 0x15), (.migrate k a x y, 0x18), (.migrateEnd k, 0x19), (.combInval k, 0x1C), (.agentDown k, 0x20),
    (.handleCreate k, 0x28), (.handleDestroy k, 0x29)]

/-- Each command's meaning is `State.control` with the check on and the command's own rule after it. -/
theorem checksSubject_of_mem (k : Fin 16385) (a : QAns) (x y : Bool) :
    ∀ e ∈ subjectCheckedCommands k a x y, ChecksSubject e.1 k e.2 := by
  rw [← List.forall_iff_forall_mem]
  and_intros <;> exact ⟨_, fun _ => rfl⟩

/-- Settles O33: each listed command checks its subject first, and the check's status is the reply. -/
theorem subjectCheck : Obligations.SubjectCheck := by
  intro s k c a x y hup e he hold hq
  have hcheck := checksSubject_of_mem k a x y e he
  exact ⟨fun hfree => hcheck.exec_of_subjectBad hup hold hq (State.subjectBad_of_free hfree),
    fun htd => hcheck.exec_of_subjectBad hup hold hq (State.subjectBad_of_teardown htd)⟩

end Sys2Proof.Machine
end

section
/-!
PROOFS. End of interrupt (R336): the running level of a core as a maximum over what is in service there, and the two answers
of EOI.
-/
namespace Sys2Proof.Machine

/-! ## The running level -/

/-- The levels of the sources in service at a core. -/
def State.serviceLevels (s : State) (k : Nat) : List Nat :=
  (s.wag.service.filter fun e => e.1 == k).map fun e => (s.wsrc e.2).level

theorem State.mem_serviceLevels {s : State} {k x : Nat} :
    x ∈ s.serviceLevels k ↔ ∃ m, (k, m) ∈ s.wag.service ∧ (s.wsrc m).level = x := by
  simp [State.serviceLevels, and_assoc]

theorem State.runLevel_eq_max? (s : State) (k : Nat) : s.runLevel k = (s.serviceLevels k).max?.getD 0 := by
  simp [State.runLevel, State.serviceLevels, List.foldl_max]

theorem State.level_le_runLevel {s : State} {k m : Nat} (h : (k, m) ∈ s.wag.service) : (s.wsrc m).level ≤ s.runLevel k := by
  rw [State.runLevel_eq_max?]
  exact List.le_max?_getD_of_mem (State.mem_serviceLevels.2 ⟨m, h, rfl⟩)

theorem State.runLevel_eq_zero_or_attained (s : State) (k : Nat) :
    s.runLevel k = 0 ∨ ∃ m, (k, m) ∈ s.wag.service ∧ (s.wsrc m).level = s.runLevel k := by
  rw [State.runLevel_eq_max?, ← State.mem_serviceLevels]
  cases hmax : (s.serviceLevels k).max? with
  | none => exact Or.inl rfl
  | some x => exact Or.inr (List.max?_mem hmax)

/-! ## The two answers of EOI -/

/-- The state without an entry of the sources in service. -/
def State.dropService (s : State) (k n : Nat) : State :=
  { s with wag := { s.wag with service := s.wag.service.filter fun e => e != (k, n) } }

theorem State.dropService_keep (s : State) (k n : Nat) : (s.dropService k n).keep s = s.dropService k n := rfl

theorem State.eoi_of_inService {s : State} {k n : Nat} (h : (k, n) ∈ s.wag.service) : s.eoi k n = s.dropService k n :=
  if_pos (List.contains_iff_mem.2 h)

theorem State.eoi_of_notInService {s : State} {k n : Nat} (h : (k, n) ∉ s.wag.service) :
    s.eoi k n = s.fFlag F.WAGGLE_CORE_THRESH_eoi_error true 0 k :=
  if_neg fun hc => h (List.contains_iff_mem.1 hc)

theorem exec_eoi (k : Fin 24) (n : BitVec 12) (s : State) : exec (.eoi k n) s = run s fun s => s.eoi k n.toNat := rfl

/-- Settles O55: EOI filters its source out of those in service at the core, and the running level is the highest of the
levels that are left. -/
theorem endOfInterrupt : Obligations.EndOfInterrupt := by
  intro s k n hup
  rw [exec_eoi, run_up _ hup]
  constructor
  · intro hin
    rw [State.eoi_of_inService hin, State.dropService_keep]
    exact ⟨_, rfl, rfl, fun _ hm => State.level_le_runLevel hm, State.runLevel_eq_zero_or_attained _ _⟩
  · intro hout
    rw [State.eoi_of_notInService hout, State.fFlag_keep]

end Sys2Proof.Machine
end

section
/-!
PROOFS. The costs of heavy operations (R349): what a write of PGU_COST_VAL does, from the access through BAR2 down to the
table of costs.
-/
namespace Sys2Proof.Machine

/-! ## A 32-bit write through BAR2 -/

theorem exec_registerWrite (w : CsrAt) (z : AccSize) (v : BitVec 64) (s : State) :
    exec (.registerWrite w z v) s = run s fun s => s.barAccess w.bar w.off.toNat z (some v.toNat) := rfl

/-- Host assignment of BAR2 writes nothing that a command restores. -/
theorem State.keep_barAssign (t s : State) (b : Bar) : t.keep (s.barAssign b) = t.keep s := by
  cases hb : b.assign with
  | none => simp only [State.barAssign, hb]
  | some a =>
    simp only [State.barAssign, hb]
    split <;> rfl

theorem State.barAccess_store {s : State} {b : Bar} {w v : Nat} {z : AccSize} (h : (s.barAssign b).barOpen b.port = true) :
    s.barAccess b w z (some v) = (s.barAssign b).csrStore z (winToReg w) v := by
  simp [State.barAccess, h]

theorem State.csrStore_b4 {s : State} {a v : Nat} (h : AccSize.aligned .b4 a = true) :
    s.csrStore .b4 a v = s.csrWrite a (BitVec.ofNat 32 v) := by
  simp [State.csrStore, h]

theorem State.csrWrite_of_regAt {s : State} {a d i k : Nat} {r : Reg} (v : Word) (hdom : blockDomain a = some d)
    (hon : s.domainOn d = true) (hreg : regAt a = some (r, i, k)) : s.csrWrite a v = s.regWrite r i k v := by
  simp [State.csrWrite, hdom, hon, hreg]

/-- An aligned 32-bit write through an open BAR2 is the write of the register at its address. -/
theorem exec_registerWrite_b4 {s : State} {b : Bar} {w : BitVec 26} {d i k : Nat} {r : Reg} (v : BitVec 64)
    (hup : s.up = true) (hopen : (s.barAssign b).barOpen b.port = true) (hal : AccSize.aligned .b4 (winToReg w.toNat) = true)
    (hdom : blockDomain (winToReg w.toNat) = some d) (hon : (s.barAssign b).domainOn d = true)
    (hreg : regAt (winToReg w.toNat) = some (r, i, k)) :
    exec (.registerWrite ⟨b, w⟩ .b4 v) s =
      .next (((s.barAssign b).regWrite r i k (v.setWidth 32)).keep (s.barAssign b)) := by
  rw [exec_registerWrite, run_up _ hup, State.barAccess_store hopen, State.csrStore_b4 hal,
    State.csrWrite_of_regAt _ hdom hon hreg, State.keep_barAssign, BitVec.ofNat_toNat]

/-! ## The register PGU_COST_VAL -/

theorem blockDomain_pguCostVal : blockDomain (R.PGU_COST_VAL.addr 0 0) = some 1 := by decide

theorem regAt_pguCostVal : regAt (R.PGU_COST_VAL.addr 0 0) = some (R.PGU_COST_VAL, 0, 0) := by decide +kernel

/-- No lock covers PGU_COST_VAL, and its write has a meaning of its own in the model's table. -/
theorem State.regWrite_pguCostVal (s : State) (v : Word) : s.regWrite R.PGU_COST_VAL 0 0 v = s.costWrite v := rfl

theorem pguCostVal_cost_of_setWidth (v : BitVec 64) : F.PGU_COST_VAL_cost.of (v.setWidth 32) = v.toNat % 2 ^ 10 := by
  simp only [Fld.of, F.PGU_COST_VAL_cost, bits, BitVec.toNat_setWidth]
  omega

/-! ## The table of costs -/

/-- The state with the cost of a kind of heavy operation programmed. -/
def State.setCost (s : State) (k c : Nat) : State :=
  { s with pwr := { s.pwr with costs := SMap.store s.pwr.costs (costReset k) k c } }

theorem State.setCost_keep (s : State) (k c : Nat) : (s.setCost k c).keep s = s.setCost k c := rfl

theorem State.setCost_frame (s : State) (k c : Nat) :
    s.setCost k c = { s with pwr := { s.pwr with costs := (s.setCost k c).pwr.costs } } := rfl

theorem State.pguCost_setCost (s : State) (k c j : Nat) : (s.setCost k c).pguCost j = if j = k then c else s.pguCost j := by
  split
  case isTrue h =>
    subst h
    exact SMap.findD_store_same _ _ _ _
  case isFalse h => exact SMap.findD_store_other _ _ _ _ _ _ h

theorem State.costWrite_of_reserved {s : State} (v : Word) (h : 9 ≤ s.fN F.PGU_COST_IDX_kind) : s.costWrite v = s :=
  if_neg (Nat.not_lt.2 h)

theorem State.costWrite_of_kind {s : State} (v : Word) (h : s.fN F.PGU_COST_IDX_kind < 9) :
    s.costWrite v = s.setCost (s.fN F.PGU_COST_IDX_kind) (F.PGU_COST_VAL_cost.of v) :=
  if_pos h

theorem pguCost_reset (k : Nat) : State.reset.pguCost k = costReset k := rfl

theorem costReset_of_reserved {k : Nat} (h : 9 ≤ k) : costReset k = 0 := List.getD_eq_default _ _ h

/-- A 32-bit write of PGU_COST_VAL through an open BAR2 is `State.costWrite` on the state after the host's assignment. -/
theorem exec_write_pguCostVal {s : State} {b : Bar} {w : BitVec 26} (v : BitVec 64) (hup : s.up = true)
    (hopen : (s.barAssign b).barOpen b.port = true) (haddr : winToReg w.toNat = R.PGU_COST_VAL.addr 0 0)
    (hon : (s.barAssign b).domainOn 1 = true) :
    exec (.registerWrite ⟨b, w⟩ .b4 v) s =
      .next (((s.barAssign b).costWrite (v.setWidth 32)).keep (s.barAssign b)) := by
  rw [exec_registerWrite_b4 v hup hopen (by rw [haddr]; decide) (haddr ▸ blockDomain_pguCostVal) hon
    (haddr ▸ regAt_pguCostVal), State.regWrite_pguCostVal]

/-- Settles O41: at reset no cost is programmed, so each reads as R349's table lists it; the write of PGU_COST_VAL reaches the
table of costs at the kind PGU_COST_IDX names, or nothing where that kind is reserved. -/
theorem heavyCosts : Obligations.HeavyCosts := by
  refine ⟨by decide, fun k hk => (pguCost_reset k).trans (costReset_of_reserved hk), ?_⟩
  rintro s _ b w v _ hup rfl hopen haddr hon rfl
  rw [exec_write_pguCostVal v hup hopen haddr hon]
  constructor
  · intro hres
    rw [State.costWrite_of_reserved _ hres, State.keep_self]
  · intro hkind
    rw [State.costWrite_of_kind _ hkind, pguCostVal_cost_of_setWidth, State.setCost_keep]
    exact ⟨_, rfl, State.setCost_frame _ _ _, State.pguCost_setCost _ _ _⟩

end Sys2Proof.Machine
end

section
/-!
PROOFS. The queue of commands and the power of the device (R353 - R363): what a step takes, and what the thirteen commands of
the board leave alone. Every other command answers as `run` or `run1` says (`exec_cases`), so only the board's need a rule each.
-/
namespace Sys2Proof.Machine

/-! ## The parts of a reset -/

theorem State.held_pending (s : State) : s.held.pending = s.pending := State.showDpc_pending _

theorem State.held_pwr (s : State) :
    s.held.pwr = { s.base.pwr with
      refTime := s.pwr.refTime, pwrok := true, tapFreeze := s.pwr.tapFreeze, inReset := true, node := s.pwr.node,
      queenSel := s.pwr.queenSel, succSel := s.pwr.succSel, dpcSel := s.pwr.dpcSel, domains := 1 } :=
  State.showDpc_pwr _

/-- What a device that takes power latches. -/
def State.latched (s : State) (x : Straps) (perst : Bool) (fl : List (Nat × Byte)) : State :=
  let b := s.base
  let flash := fl.foldl (fun m e => SMap.store m 0xFF e.1 e.2) b.cores.flash
  let p := { b.pwr with pwrok := true, perstN := !perst, node := x.node.val, queenSel := x.queen, succSel := x.succ,
                        dpcSel := x.dpc, domains := 1 }
  { b with pwr := p, cores := { b.cores with flash := flash } }

/-- What it then shows in its registers. -/
def State.showPower (u : State) : State := ((u.fFlag F.SEC_STATUS_id_ready true).showDpc).fFlag F.CLK_STATUS_ref_ok true

theorem State.showPower_pending (u : State) : u.showPower.pending = u.pending := by
  rw [State.showPower, State.fFlag_pending, State.showDpc_pending, State.fFlag_pending]

theorem State.showPower_pwr (u : State) : u.showPower.pwr = u.pwr := by
  rw [State.showPower, State.fFlag_pwr, State.showDpc_pwr, State.fFlag_pwr]

/-- Start-up follows unless PERST_N holds it back. -/
def State.startUp (u : State) (perst : Bool) (c : BootChk) : State :=
  let s := ((u.fFlag F.SEC_STATUS_id_ready true).showDpc).fFlag F.CLK_STATUS_ref_ok true
  if perst then s else (s.fFlag F.GLOBAL_RST_CAUSE_power_on true).boot c

theorem State.startUp_held (u : State) (c : BootChk) : u.startUp true c = u.showPower := by
  rw [State.startUp, State.showPower]
  exact if_pos rfl

theorem State.startUp_runs (u : State) (c : BootChk) :
    u.startUp false c = (u.showPower.fFlag F.GLOBAL_RST_CAUSE_power_on true).boot c := by
  rw [State.startUp, State.showPower]
  exact if_neg Bool.false_ne_true

theorem State.pwrokRise_eq (s : State) (x : Straps) (p : Bool) (f : List (Nat × Byte)) (c : BootChk) :
    s.pwrokRise x p f c = if s.pwr.pwrok then s else (s.latched x p f).startUp p c := by
  unfold State.pwrokRise State.startUp State.latched
  exact if_congr Iff.rfl rfl rfl

theorem State.startUp_frame (u : State) (p : Bool) (c : BootChk) :
    (u.startUp p c).pending = u.pending ∧ ∃ r n, (u.startUp p c).pwr = { u.pwr with inReset := r, step := n } := by
  cases p with
  | true =>
    rw [State.startUp_held, State.showPower_pending, State.showPower_pwr]
    exact ⟨rfl, _, _, rfl⟩
  | false =>
    obtain ⟨hq, n, hp⟩ := (u.showPower.fFlag F.GLOBAL_RST_CAUSE_power_on true).boot_frame c
    rw [State.fFlag_pending, State.showPower_pending] at hq
    rw [State.fFlag_pwr, State.showPower_pwr] at hp
    rw [State.startUp_runs]
    exact ⟨hq, false, n, hp⟩

theorem State.pwrokRise_on {s : State} (x : Straps) (p : Bool) (f : List (Nat × Byte)) (b : BootChk)
    (h : s.pwr.pwrok = true) : s.pwrokRise x p f b = s := by
  rw [State.pwrokRise_eq, h, if_pos rfl]

/-- PWROK_RISE on a device without power latches the straps, whether start-up begins or PERST_N holds it back. -/
theorem State.pwrokRise_off {s : State} (x : Straps) (p : Bool) (f : List (Nat × Byte)) (b : BootChk)
    (h : s.pwr.pwrok = false) :
    (s.pwrokRise x p f b).pending = s.pending ∧
      ∃ r n, (s.pwrokRise x p f b).pwr = { (s.latched x p f).pwr with inReset := r, step := n } := by
  rw [State.pwrokRise_eq, h, if_neg Bool.false_ne_true]
  exact (s.latched x p f).startUp_frame p b

/-! ## What the board's commands leave alone -/

/-- A change of the device's power: what latches the straps. -/
def PowerChange (c : Instr) : Prop := (∃ a b d e, c = .pwrokRise a b d e) ∨ c = .pwrokFall

/-- The straps of two states agree (R353). -/
def State.SameStraps (t s : State) : Prop :=
  t.pwr.node = s.pwr.node ∧ t.pwr.queenSel = s.pwr.queenSel ∧ t.pwr.succSel = s.pwr.succSel ∧ t.pwr.dpcSel = s.pwr.dpcSel

/-- A command leaves the queue of commands, the straps and the power as they stand. -/
def State.Settled (t s : State) : Prop := t.pending = s.pending ∧ t.SameStraps s ∧ t.pwr.pwrok = s.pwr.pwrok

theorem State.settled_of_pwr {t s : State} (hq : t.pending = s.pending) (hp : t.pwr = s.pwr) : t.Settled s := by
  simp only [State.Settled, State.SameStraps, hq, hp, and_self]

theorem State.settled_self (s : State) : s.Settled s := State.settled_of_pwr rfl rfl

theorem State.settled_keep (t s : State) : (t.keep s).Settled s := ⟨rfl, ⟨rfl, rfl, rfl, rfl⟩, rfl⟩

theorem State.settled_boot {t s : State} (c : BootChk) (h : t.Settled s) : (t.boot c).Settled s := by
  obtain ⟨hq, n, hp⟩ := t.boot_frame c
  simpa only [State.Settled, State.SameStraps, hq, hp] using h

theorem State.settled_held {t s : State} (h : t.Settled s) (hon : s.pwr.pwrok = true) : t.held.Settled s := by
  simpa only [State.Settled, State.SameStraps, State.held_pending, State.held_pwr, hon, and_true] using ⟨h.1, h.2.1⟩

theorem State.settled_perstAssert (s : State) : s.perstAssert.Settled s := by
  unfold State.perstAssert
  cases hon : s.pwr.pwrok
  · exact ⟨rfl, ⟨rfl, rfl, rfl, rfl⟩, rfl⟩
  · exact State.settled_held ⟨rfl, ⟨rfl, rfl, rfl, rfl⟩, rfl⟩ hon

theorem State.settled_perstDeassert (s : State) (c : BootChk) : (s.perstDeassert c).Settled s := by
  unfold State.perstDeassert
  dsimp only
  split
  · exact ⟨rfl, ⟨rfl, rfl, rfl, rfl⟩, rfl⟩
  · exact State.settled_boot c ⟨rfl, ⟨rfl, rfl, rfl, rfl⟩, rfl⟩

theorem State.settled_swRstEnd (s : State) (c : BootChk) : (s.swRstEnd c).Settled s := by
  unfold State.swRstEnd
  split
  · exact State.settled_self s
  · exact State.settled_boot c ⟨rfl, ⟨rfl, rfl, rfl, rfl⟩, rfl⟩

/-- A command of the board that changes no power answers with a settled state. -/
theorem BoardRow.settled {c : Instr} (h : BoardRow c) (hc : ¬ PowerChange c) (s : State) :
    ∃ t, exec c s = .next t ∧ t.Settled s := by
  cases h with
  | thermalRead ch a b =>
    refine ⟨_, rfl, ?_⟩
    split
    · exact State.settled_of_pwr (State.thermalRead_pending _ _ _) (State.thermalRead_pwr _ _ _)
    · exact State.settled_self s
  | tapScan x =>
    refine ⟨_, rfl, ?_⟩
    split
    · exact State.settled_of_pwr rfl rfl
    · exact State.settled_self s
  | throttleChange => exact ⟨_, rfl, rfl, ⟨rfl, rfl, rfl, rfl⟩, rfl⟩
  | smbReadStartStatus => exact ⟨_, rfl, State.settled_of_pwr rfl rfl⟩
  | smbReadDfsStatus => exact ⟨_, rfl, State.settled_of_pwr rfl rfl⟩
  | smbNack => exact ⟨_, rfl, State.settled_of_pwr rfl rfl⟩
  | pwrokRise a b d e => exact absurd (.inl ⟨a, b, d, e, rfl⟩) hc
  | pwrokFall => exact absurd (.inr rfl) hc
  | freeze miss =>
    refine ⟨_, rfl, ?_⟩
    dsimp only
    split <;> exact ⟨rfl, ⟨rfl, rfl, rfl, rfl⟩, rfl⟩
  | thaw =>
    refine ⟨_, rfl, ?_⟩
    dsimp only
    split <;> exact ⟨rfl, ⟨rfl, rfl, rfl, rfl⟩, rfl⟩
  | perstNAssert => exact ⟨_, rfl, s.settled_perstAssert⟩
  | perstNDeassert c => exact ⟨_, rfl, s.settled_perstDeassert c⟩
  | internalResetEnd c => exact ⟨_, rfl, s.settled_swRstEnd c⟩

/-- Every command answers with a next state, and none but a change of power unsettles it. -/
theorem exec_settled {c : Instr} (hc : ¬ PowerChange c) (s : State) : ∃ t, exec c s = .next t ∧ t.Settled s := by
  obtain ⟨f, hf⟩ | ⟨-, f, hf⟩ | hb := exec_cases c s
  · refine ⟨_, hf, ?_⟩
    split
    · exact State.settled_keep _ _
    · exact State.settled_self s
  · refine ⟨_, hf, ?_⟩
    split
    · exact State.settled_keep _ _
    · exact State.settled_self s
  · exact hb.settled hc s

/-- A change of power leaves the waiting commands alone too. -/
theorem exec_pending (c : Instr) (s : State) : ∃ t, exec c s = .next t ∧ t.pending = s.pending := by
  by_cases hc : PowerChange c
  · obtain ⟨x, p, f, b, rfl⟩ | rfl := hc
    · refine ⟨_, rfl, ?_⟩
      cases hon : s.pwr.pwrok with
      | true => rw [State.pwrokRise_on _ _ _ _ hon]
      | false => exact (State.pwrokRise_off _ _ _ _ hon).1
    · exact ⟨_, rfl, rfl⟩
  · obtain ⟨t, ht, hq, -⟩ := exec_settled hc s
    exact ⟨t, ht, hq⟩

/-! ## A step -/

theorem step_of_cons {s : State} {c : Instr} {rest : List Instr} (h : s.pending = c :: rest) :
    step s = exec c { s with pending := rest } := by
  rw [step, h]

theorem step_of_nil {s : State} (h : s.pending = []) : step s = .next s.tick := by
  rw [step, h]

theorem State.tick_off {s : State} (h : s.pwr.pwrok = false) : s.tick = s := by simp [State.tick, h]

theorem State.tick_frame (s : State) :
    s.tick = { s with pwr := { s.pwr with refTime := s.tick.pwr.refTime, rootTime := s.tick.pwr.rootTime } } := by
  unfold State.tick
  split <;> rfl

theorem State.tick_refTime (s : State) : s.tick.pwr.refTime = s.pwr.refTime + (if s.pwr.pwrok then 1 else 0) := by
  unfold State.tick
  cases s.pwr.pwrok <;> rfl

theorem State.tick_rootTime_running {s : State} (hon : s.pwr.pwrok = true) (hfz : s.pwr.frozen = false)
    (hrst : s.pwr.inReset = false) (hstep : 3 ≤ s.pwr.step) : s.tick.pwr.rootTime = s.pwr.rootTime + 1 := by
  simp [State.tick, hon, hfz, hrst, hstep]

/-- Settles O1, by the case of `step` that finds a command waiting. -/
theorem stepRunsFront : Obligations.StepRunsFront := fun _ _ _ h => step_of_cons h

/-- Settles O2: on an empty queue a step is `State.tick`. -/
theorem emptyQueueTicks : Obligations.EmptyQueueTicks := fun s h =>
  ⟨s.tick, step_of_nil h, s.tick_frame, s.tick_refTime, fun ⟨hon, hfz, hrst, hstep⟩ =>
    State.tick_rootTime_running hon hfz hrst hstep⟩

/-- Settles O3: no command touches what waits behind it, and none faults or refuses. -/
theorem stepTakesFront : Obligations.StepTakesFront := by
  intro s
  cases hq : s.pending with
  | nil => exact ⟨s.tick, step_of_nil hq, by rw [State.tick_frame, hq, List.tail_nil]⟩
  | cons c rest =>
    obtain ⟨t, ht, hpend⟩ := exec_pending c { s with pending := rest }
    exact ⟨t, (step_of_cons hq).trans ht, hpend⟩

/-! ## Darkness -/

/-- Without power, what a state keeps beside what `Dark` speaks of may change, and the pins the board drives. -/
theorem State.dark_of_pins {s t : State} (h : s.Dark)
    (ht : t = { s with pwr := t.pwr, free := t.free, out := t.out, pending := t.pending, ceTotal := t.ceTotal })
    (hp : t.pwr = { s.pwr with perstN := t.pwr.perstN, throttleIn := t.pwr.throttleIn, throttlePin := t.pwr.throttleIn,
                               freezePin := t.pwr.freezePin }) : t.Dark := by
  rw [ht] at hp ⊢
  obtain ⟨h1, h2, h3, h4, h5, h6, h7, h8, h9, h10, h11, h12, h13, h14, h15, h16, h17, h18, h19, h20, hpwr⟩ := h
  refine ⟨h1, h2, h3, h4, h5, h6, h7, h8, h9, h10, h11, h12, h13, h14, h15, h16, h17, h18, h19, h20, ?_⟩
  rw [hpwr] at hp
  exact hp

theorem State.Dark.pwr_eq {s : State} (h : s.Dark) :
    s.pwr = { Power.reset with perstN := s.pwr.perstN, throttleIn := s.pwr.throttleIn, throttlePin := s.pwr.throttleIn,
                               freezePin := s.pwr.freezePin } := by
  obtain ⟨-, -, -, -, -, -, -, -, -, -, -, -, -, -, -, -, -, -, -, -, hpwr⟩ := h
  exact hpwr

/-- Every reset that keeps no power leaves the block dark. -/
theorem State.base_dark (s : State) : s.base.Dark := by
  refine ⟨rfl, fun i => ?_, rfl, rfl, rfl, rfl, rfl, rfl, rfl, rfl, rfl, rfl, rfl, rfl, rfl, rfl, rfl, rfl, rfl, rfl, rfl⟩
  simp [State.base, Vector.get_eq_getElem]

theorem State.reset_dark : State.reset.Dark := by
  refine ⟨rfl, fun i => ?_, rfl, rfl, rfl, rfl, rfl, rfl, rfl, rfl, rfl, rfl, rfl, rfl, rfl, rfl, rfl, rfl, rfl, rfl, rfl⟩
  simp [State.reset, Vector.get_eq_getElem, Channel.reset]

theorem State.reset_powerInv : State.reset.PowerInv := fun _ => State.reset_dark

/-- Settles O4: the state before PWROK holds every part at its reset value. -/
theorem resetIsDark : Obligations.ResetIsDark := State.reset_powerInv

/-! ## The invariant of power -/

theorem State.not_up_of_off {s : State} (h : s.pwr.pwrok = false) : s.up = false := by simp [State.up, h]
theorem State.not_up1_of_off {s : State} (h : s.pwr.pwrok = false) : s.up1 = false := by simp [State.up1, h]

/-- A command of the board that finds the device without power, and gives it none, changes nothing but pins and outputs. -/
theorem BoardRow.dark {c : Instr} (h : BoardRow c) (hc : ¬ PowerChange c) {s t : State} (hoff : s.pwr.pwrok = false)
    (hs : s.Dark) (ht : exec c s = .next t) : t.Dark := by
  have hup1 := State.not_up1_of_off hoff
  have hpwr := hs.pwr_eq
  have hfz : s.pwr.frozen = false := by rw [hpwr]; rfl
  cases h with
  | thermalRead ch a b =>
    obtain rfl : s = t := by simpa [exec, execThermalRead, hoff] using ht
    exact hs
  | tapScan x =>
    obtain rfl : s = t := by simpa [exec, execTapScan, hoff] using ht
    exact hs
  | throttleChange low =>
    cases ht
    exact State.dark_of_pins hs rfl (by simp [hfz])
  | smbReadStartStatus => cases ht; exact State.dark_of_pins hs rfl (by rw [State.emit_pwr, hpwr])
  | smbReadDfsStatus => cases ht; exact State.dark_of_pins hs rfl (by rw [State.emit_pwr, hpwr])
  | smbNack => cases ht; exact State.dark_of_pins hs rfl (by rw [State.emit_pwr, hpwr])
  | pwrokRise a b d e => exact absurd (.inl ⟨a, b, d, e, rfl⟩) hc
  | pwrokFall => exact absurd (.inr rfl) hc
  | freeze miss =>
    obtain rfl : { s with pwr := { s.pwr with freezePin := true } } = t := by simpa [exec, execFreeze, hup1] using ht
    exact State.dark_of_pins hs rfl (by rw [hpwr])
  | thaw =>
    obtain rfl : { s with pwr := { s.pwr with freezePin := false } } = t := by simpa [exec, execThaw, hup1] using ht
    exact State.dark_of_pins hs rfl (by rw [hpwr])
  | perstNAssert =>
    obtain rfl : { s with pwr := { s.pwr with perstN := false } } = t := by
      simpa [exec, execPerstNAssert, State.perstAssert, hoff] using ht
    exact State.dark_of_pins hs rfl (by rw [hpwr])
  | perstNDeassert c =>
    obtain rfl : { s with pwr := { s.pwr with perstN := true } } = t := by
      simpa [exec, execPerstNDeassert, State.perstDeassert, hoff] using ht
    exact State.dark_of_pins hs rfl (by rw [hpwr])
  | internalResetEnd c =>
    obtain rfl : s = t := by simpa [exec, execInternalResetEnd, State.swRstEnd, hoff] using ht
    exact hs

/-- Every command keeps the invariant of power: PWROK_RISE gives power, PWROK_FALL leaves the block dark, and no other
command changes PWROK. -/
theorem exec_powerInv (c : Instr) {s t : State} (hs : s.PowerInv) (ht : exec c s = .next t) : t.PowerInv := by
  by_cases hc : PowerChange c
  · obtain ⟨x, p, f, b, rfl⟩ | rfl := hc
    · cases ht
      cases hon : s.pwr.pwrok with
      | true =>
        rw [State.pwrokRise_on _ _ _ _ hon]
        exact hs
      | false =>
        obtain ⟨-, r, n, hp⟩ := State.pwrokRise_off x p f b hon
        intro hoff
        rw [hp] at hoff
        cases hoff
    · cases ht
      exact fun _ => s.base_dark
  · obtain ⟨t', ht', -, -, hpwrok⟩ := exec_settled hc s
    obtain rfl : t' = t := by
      rw [ht] at ht'
      cases ht'
      rfl
    intro hoff
    have hoff' : s.pwr.pwrok = false := hpwrok ▸ hoff
    obtain ⟨f, hf⟩ | ⟨-, f, hf⟩ | hb := exec_cases c s
    · rw [hf, run_down f (State.not_up_of_off hoff')] at ht
      cases ht
      exact hs hoff'
    · rw [hf, run1_down f (State.not_up1_of_off hoff')] at ht
      cases ht
      exact hs hoff'
    · exact hb.dark hc hoff' (hs hoff') ht

/-- Settles O5: a tick without power changes nothing, and each command keeps the invariant (`exec_powerInv`). -/
theorem powerInvariant : Obligations.PowerInvariant := by
  intro s t hs ht
  cases hq : s.pending with
  | nil =>
    rw [step_of_nil hq] at ht
    cases ht
    intro hoff
    have hoff' : s.pwr.pwrok = false := by rwa [State.tick_frame] at hoff
    rw [State.tick_off hoff']
    exact hs hoff'
  | cons c rest =>
    rw [step_of_cons hq] at ht
    exact exec_powerInv c (s := { s with pending := rest }) hs ht

/-! ## Freeze, reset and the straps -/

/-- Settles O6: what neither domain 1 nor the board does is `run`, which needs a device neither frozen nor in reset; what
domain 1 does is `run1`, which needs one out of reset. -/
theorem stoppedKeepsState : Obligations.StoppedKeepsState := by
  constructor
  · intro c s hfz hd hb
    obtain ⟨f, hf⟩ | ⟨h, -⟩ | h := exec_cases c s
    · rw [hf, run_down f (by simp [State.up, hfz])]
    · exact absurd h hd
    · exact absurd h hb
  · intro c s hrst hb
    obtain ⟨f, hf⟩ | ⟨-, f, hf⟩ | h := exec_cases c s
    · rw [hf, run_down f (by simp [State.up, hrst])]
    · rw [hf, run1_down f (by simp [State.up1, hrst])]
    · exact absurd h hb

/-- Settles O7: no command but a change of PWROK unsettles the straps, and PWROK_RISE latches the ones it is given. -/
theorem strapsLatched : Obligations.StrapsLatched := by
  constructor
  · intro c s t ht hrise hfall
    have hc : ¬ PowerChange c := by
      rintro (⟨a, b, d, e, h⟩ | h)
      · exact hrise a b d e h
      · exact hfall h
    obtain ⟨t', ht', -, hstraps, -⟩ := exec_settled hc s
    rw [ht] at ht'
    cases ht'
    exact hstraps
  · intro x p f b s t hoff ht
    cases ht
    obtain ⟨-, r, n, hp⟩ := State.pwrokRise_off x p f b hoff
    rw [hp]
    exact ⟨rfl, rfl, rfl, rfl⟩

end Sys2Proof.Machine
end

section
/-!
PROOFS. The two codes as linear maps (R80, R81, R131): a check vector is the XOR of the columns at the bits that are 1, so the
syndrome of a flipped codeword is the XOR of the columns of its flips.
-/
namespace Sys2Proof.Machine

/-! ## Sums of columns -/

/-- The XOR of the columns at which `t` holds. -/
def columnSum (cols : List (Nat × Nat)) (t : Nat → Bool) : Nat :=
  cols.foldl (fun acc ci => if t ci.2 then acc ^^^ ci.1 else acc) 0

theorem columnSum_cons (c : Nat × Nat) (cols : List (Nat × Nat)) (t : Nat → Bool) :
    columnSum (c :: cols) t = (if t c.2 then c.1 else 0) ^^^ columnSum cols t := by
  have hacc : ∀ (l : List (Nat × Nat)) (a : Nat),
      l.foldl (fun acc ci => if t ci.2 then acc ^^^ ci.1 else acc) a = a ^^^ columnSum l t := by
    intro l
    induction l with
    | nil => simp [columnSum]
    | cons x l ih =>
      intro a
      rw [columnSum, List.foldl_cons, List.foldl_cons, ih, ih]
      cases t x.2 <;> simp [Nat.xor_assoc]
  rw [columnSum, List.foldl_cons, hacc]
  cases t c.2 <;> simp

/-- Sums of columns are linear. -/
theorem columnSum_xor (cols : List (Nat × Nat)) (t u : Nat → Bool) :
    columnSum cols (fun i => t i ^^ u i) = columnSum cols t ^^^ columnSum cols u := by
  induction cols with
  | nil => exact (Nat.xor_self 0).symm
  | cons c cols ih =>
    simp only [columnSum_cons, ih]
    cases t c.2 <;> cases u c.2 <;> simp [Nat.xor_assoc, Nat.xor_left_comm]

/-! ## The DRAM code -/

theorem checkBits_eq (d : Word) (p : Bool) :
    checkBits d p = BitVec.ofNat 7 (columnSum dataCols.zipIdx d.getLsbD ^^^ if p then 0x70 else 0) := rfl

theorem checkBits_xor (d e : Word) (p q : Bool) : checkBits (d ^^^ e) (p ^^ q) = checkBits d p ^^^ checkBits e q := by
  have hcol : columnSum dataCols.zipIdx (d ^^^ e).getLsbD =
      columnSum dataCols.zipIdx d.getLsbD ^^^ columnSum dataCols.zipIdx e.getLsbD := by
    rw [← columnSum_xor]
    exact congrArg _ (funext fun _ => BitVec.getLsbD_xor)
  rw [checkBits_eq, checkBits_eq, checkBits_eq, hcol, ← BitVec.ofNat_xor]
  congr 1
  cases p <;> cases q <;> simp [Nat.xor_assoc, Nat.xor_comm 112]

theorem syndrome_xor (a b : BitVec 40) : syndrome (a ^^^ b) = syndrome a ^^^ syndrome b := by
  simp only [syndrome, BitVec.setWidth_xor, BitVec.getLsbD_xor, BitVec.extractLsb'_xor, checkBits_xor]
  ac_rfl

section
variable (d : Word) (p : Bool)

theorem encodeBeat_getLsbD {i : Nat} (hi : i < 40) : (encodeBeat d p).getLsbD i =
    if i < 32 then d.getLsbD i else if i < 39 then (checkBits d p).getLsbD (i - 32) else p := by
  have hp : (if p then 1#40 <<< 39 else 0).getLsbD i = (p && decide (i = 39)) := by
    cases p
    · simp
    · exact (by decide : ∀ i < 40, (1#40 <<< 39).getLsbD i = (true && decide (i = 39))) i hi
  simp only [encodeBeat, BitVec.getLsbD_or, BitVec.getLsbD_setWidth, BitVec.getLsbD_shiftLeft, hp]
  split
  case isTrue h => simp [h, hi, show i ≠ 39 by omega]
  case isFalse h =>
    have hd : d.getLsbD i = false := BitVec.getLsbD_of_ge d i (by omega)
    split
    case isTrue h2 => simp [h, hi, hd, show i ≠ 39 by omega, show i - 32 < 40 by omega]
    case isFalse h2 =>
      obtain rfl : i = 39 := by omega
      simp

theorem encodeBeat_setWidth : (encodeBeat d p).setWidth 32 = d := by
  refine BitVec.eq_of_getLsbD_eq fun i hi => ?_
  rw [BitVec.getLsbD_setWidth, encodeBeat_getLsbD d p (by omega)]
  simp [hi]

theorem encodeBeat_poison : (encodeBeat d p).getLsbD 39 = p := by rw [encodeBeat_getLsbD d p (by omega)]; rfl

theorem encodeBeat_check : (encodeBeat d p).extractLsb' 32 7 = checkBits d p := by
  refine BitVec.eq_of_getLsbD_eq fun i hi => ?_
  rw [BitVec.getLsbD_extractLsb', encodeBeat_getLsbD d p (by omega)]
  simp [hi, show 32 + i < 39 by omega]

/-- A codeword has no syndrome. -/
theorem syndrome_encodeBeat : syndrome (encodeBeat d p) = 0 := by
  rw [syndrome, encodeBeat_setWidth, encodeBeat_poison, encodeBeat_check, BitVec.xor_self]
  rfl

end

/-- The column of bit `i` of a beat: data, check bits, poison (R79, R80). -/
def beatColumn (i : Nat) : BitVec 7 := syndrome (1#40 <<< i)

theorem syndrome_flip (d : Word) (p : Bool) (i : Nat) : syndrome (encodeBeat d p ^^^ (1#40 <<< i)) = beatColumn i := by
  rw [syndrome_xor, syndrome_encodeBeat]
  exact BitVec.zero_xor

theorem syndrome_two_flips (d : Word) (p : Bool) (i j : Nat) :
    syndrome (encodeBeat d p ^^^ (1#40 <<< i) ^^^ (1#40 <<< j)) = beatColumn i ^^^ beatColumn j := by
  rw [syndrome_xor, syndrome_flip, beatColumn, beatColumn]

theorem beatColumn_data : ∀ i < 32, (beatColumn i).toNat = dataCols.getD i 0 := by decide +kernel
theorem beatColumn_check : ∀ i < 39, 32 ≤ i → syndromeWeight (beatColumn i) = 1 := by decide +kernel
theorem beatColumn_poison : beatColumn 39 = 0x70 := by decide +kernel
theorem beatColumn_ne_zero : ∀ i < 40, beatColumn i ≠ 0 := by decide +kernel

/-- Every column has odd weight and no two are equal, so two of them add up to an even weight other than 0. -/
theorem beatColumn_xor : ∀ i < 40, ∀ j < 40, i ≠ j →
    beatColumn i ^^^ beatColumn j ≠ 0 ∧ syndromeWeight (beatColumn i ^^^ beatColumn j) % 2 = 0 := by decide +kernel

/-- Where a flip falls: on a data bit, a check bit or the poison bit. -/
theorem flip_setWidth : ∀ i < 40, (1#40 <<< i).setWidth 32 = 1#32 <<< i := by decide
theorem flip_poison : ∀ i < 40, (1#40 <<< i).getLsbD 39 = decide (i = 39) := by decide
theorem flip_above_data : ∀ i < 40, 32 ≤ i → 1#32 <<< i = 0 := by decide

theorem decodeBeat_encodeBeat (d : Word) (p : Bool) : decodeBeat (encodeBeat d p) = ⟨d, p, 0, 0⟩ := by
  rw [decodeBeat_of_syndrome_zero (syndrome_encodeBeat d p), encodeBeat_setWidth, encodeBeat_poison, syndrome_encodeBeat]

/-- One flipped bit of a codeword is corrected, wherever it falls. -/
theorem decodeBeat_flip (d : Word) (p : Bool) {i : Nat} (hi : i < 40) :
    decodeBeat (encodeBeat d p ^^^ (1#40 <<< i)) = ⟨d, p, beatColumn i, 1⟩ := by
  have hsyn := syndrome_flip d p i
  have hdata : (encodeBeat d p ^^^ (1#40 <<< i)).setWidth 32 = d ^^^ (1#32 <<< i) := by
    rw [BitVec.setWidth_xor, encodeBeat_setWidth, flip_setWidth i hi]
  have hpoison : (encodeBeat d p ^^^ (1#40 <<< i)).getLsbD 39 = (p ^^ decide (i = 39)) := by
    rw [BitVec.getLsbD_xor, encodeBeat_poison, flip_poison i hi]
  by_cases h32 : i < 32
  · rw [decodeBeat_of_data_column h32 (by rw [hsyn, beatColumn_data i h32]), hdata, hpoison, hsyn, BitVec.xor_assoc,
      BitVec.xor_self]
    simp [show i ≠ 39 by omega]
  · rw [flip_above_data i hi (by omega)] at hdata
    replace hdata := hdata.trans BitVec.xor_zero
    by_cases h39 : i < 39
    · rw [decodeBeat_of_weight_one (by rw [hsyn, beatColumn_check i h39 (by omega)]), hdata, hpoison, hsyn]
      simp [show i ≠ 39 by omega]
    · obtain rfl : i = 39 := by omega
      rw [decodeBeat_of_poison_column (hsyn.trans beatColumn_poison), hdata, hpoison, hsyn]
      simp

/-- Two flipped bits leave a syndrome of even weight, which is no column. -/
theorem decodeBeat_two_flips (d : Word) (p : Bool) {i j : Nat} (hi : i < 40) (hj : j < 40) (hij : i ≠ j) :
    (decodeBeat (encodeBeat d p ^^^ (1#40 <<< i) ^^^ (1#40 <<< j))).action = 2 := by
  have hbad : SyndromeUncorrectable (syndrome (encodeBeat d p ^^^ (1#40 <<< i) ^^^ (1#40 <<< j))) := by
    rw [syndrome_two_flips]
    exact .inr (.inr (.inr (.inr (beatColumn_xor i hi j hj hij))))
  obtain ⟨hw, hp, hd⟩ := hbad.no_column
  rw [decodeBeat_of_no_column hw hp hd]

/-- Settles O22: the syndrome is linear, a codeword's is 0, and the columns of R80 have odd weight and differ. -/
theorem codeCorrectsOneDetectsTwo : Obligations.CodeCorrectsOneDetectsTwo := fun d p =>
  ⟨decodeBeat_encodeBeat d p, fun i hi => ⟨beatColumn i, beatColumn_ne_zero i hi, decodeBeat_flip d p hi⟩,
    fun _ hi _ hj hij => decodeBeat_two_flips d p hi hj hij⟩

/-! ## Placement in the snoop filter -/

/-- A set and a tag name their line: the set folds the tag's low bits in, and folding them in again undoes it. -/
theorem filterLine_filterSet (line : Nat) (h : line < 2 ^ 39) : filterLine (filterSet line) (filterTag line) = line := by
  have hfold : bits line 15 24 % 2 ^ 15 = bits line 15 15 := by
    unfold bits
    omega
  rw [filterLine, filterSet, filterTag, hfold, Nat.xor_xor_cancel_right]
  unfold bits
  omega

theorem filterSet_lt (line : Nat) : filterSet line < 2 ^ 15 := Nat.xor_lt_two_pow (Nat.mod_lt _ (by decide)) (bits_lt _ _ _)

theorem filterTag_lt (line : Nat) : filterTag line < 2 ^ 24 := bits_lt _ _ _

/-! ## The entry code of the snoop filter -/

theorem bit_xor (x y i : Nat) : bit (x ^^^ y) i = (bit x i ^^ bit y i) := by
  have hbit : ∀ z, bit z i = z.testBit i := fun z => by
    rw [Nat.testBit_eq_decide_div_mod_eq, bit, beq_eq_decide]
  rw [hbit, hbit, hbit, Nat.testBit_xor]

theorem bits_xor (x y lo w : Nat) : bits (x ^^^ y) lo w = bits x lo w ^^^ bits y lo w := by
  rw [bits, Nat.xor_div_two_pow, Nat.xor_mod_two_pow, bits, bits]

theorem filterXor_eq (w : Nat) : filterXor w = columnSum filterCols.zipIdx (bit w) := rfl

theorem filterXor_xor (x y : Nat) : filterXor (x ^^^ y) = filterXor x ^^^ filterXor y := by
  rw [filterXor_eq, filterXor_eq, filterXor_eq, ← columnSum_xor]
  exact congrArg _ (funext fun i => bit_xor x y i)

/-- The five-bit check of an entry as read (R131). -/
def filterSyndrome (w : Nat) : Nat := filterXor (w % 2 ^ 26) ^^^ bits w 26 5

theorem filterSyndrome_xor (x y : Nat) : filterSyndrome (x ^^^ y) = filterSyndrome x ^^^ filterSyndrome y := by
  simp only [filterSyndrome, Nat.xor_mod_two_pow, filterXor_xor, bits_xor, Nat.xor_assoc, Nat.xor_left_comm]

/-- Parity is the sum of the bits, taken modulo 2. -/
theorem parity32_xor (x y : Nat) : parity32 (x ^^^ y) = (parity32 x + parity32 y) % 2 := by
  have hstep : ∀ i, (x ^^^ y) / 2 ^ i % 2 = (x / 2 ^ i + y / 2 ^ i) % 2 := fun i => by
    rw [Nat.xor_div_two_pow]
    exact Nat.xor_mod_two_eq
  have hfold : ∀ (l : List Nat) (a b c : Nat), a % 2 = (b + c) % 2 →
      l.foldl (fun a i => (a + (x ^^^ y) / 2 ^ i) % 2) a % 2 =
        (l.foldl (fun a i => (a + x / 2 ^ i) % 2) b + l.foldl (fun a i => (a + y / 2 ^ i) % 2) c) % 2 := by
    intro l
    induction l with
    | nil => exact fun _ _ _ h => h
    | cons i l ih =>
      intro a b c h
      refine ih _ _ _ ?_
      have := hstep i
      dsimp only
      omega
  have hlt : parity32 (x ^^^ y) % 2 = parity32 (x ^^^ y) := by
    have hmod : ∀ l : List Nat, ∀ a < 2, l.foldl (fun a i => (a + (x ^^^ y) / 2 ^ i) % 2) a < 2 := by
      intro l
      induction l with
      | nil => exact fun _ h => h
      | cons i l ih => exact fun a _ => ih _ (Nat.mod_lt _ (by decide))
    exact Nat.mod_eq_of_lt (hmod _ 0 (by decide))
  rw [← hlt]
  exact hfold (List.range 32) 0 0 0 rfl

theorem parity32_lt (w : Nat) : parity32 w < 2 := by
  have h := parity32_xor w 0
  rw [Nat.xor_zero] at h
  rw [h]
  exact Nat.mod_lt _ (by decide)

/-- Tag and state of a corrected entry. -/
def filterTake (w : Nat) : Nat × Nat := (w % 2 ^ 24, bits w 24 2)

theorem filterTake_congr {x y : Nat} (h : x % 2 ^ 26 = y % 2 ^ 26) : filterTake x = filterTake y := by
  unfold filterTake bits
  rw [Prod.mk.injEq]
  omega

theorem filterDecode_eq (e : BitVec 32) : filterDecode e =
    if parity32 e.toNat = 0 then (if filterSyndrome e.toNat = 0 then some (filterTake e.toNat) else none)
    else if filterSyndrome e.toNat = 0 || [1, 2, 4, 8, 16].contains (filterSyndrome e.toNat) then some (filterTake e.toNat)
    else some (filterTake ((filterCols.idxOf? (filterSyndrome e.toNat)).elim e.toNat fun i => e.toNat ^^^ 2 ^ i)) := by
  unfold filterDecode
  cases hi : filterCols.idxOf? (filterSyndrome e.toNat) <;> simp only [filterSyndrome] at hi ⊢ <;> simp only [hi] <;> rfl

section
variable {tag st : Nat} (htag : tag < 2 ^ 24) (hst : st < 4)
include htag hst

/-- An entry is its tag and state, their check, and the parity of both. -/
theorem filterEncode_toNat : ∃ w x, w = tag + st * 2 ^ 24 + filterXor (tag + st * 2 ^ 24) * 2 ^ 26 ∧ x = parity32 w ∧
    (filterEncode tag st).toNat = w + x * 2 ^ 31 ∧ filterXor (tag + st * 2 ^ 24) < 32 := by
  have hxor : ∀ (l : List (Nat × Nat)) (t : Nat → Bool), (∀ c ∈ l, c.1 < 2 ^ 5) → columnSum l t < 2 ^ 5 := by
    intro l t
    induction l with
    | nil => exact fun _ => Nat.two_pow_pos 5
    | cons c l ih =>
      intro h
      rw [columnSum_cons]
      refine Nat.xor_lt_two_pow ?_ (ih fun c hc => h c (List.mem_cons_of_mem _ hc))
      split
      · exact h c List.mem_cons_self
      · decide
  have hlt : filterXor (tag + st * 2 ^ 24) < 32 := hxor _ _ (by decide)
  refine ⟨_, _, rfl, rfl, ?_, hlt⟩
  have hp := parity32_lt (tag + st * 2 ^ 24 + filterXor (tag + st * 2 ^ 24) * 2 ^ 26)
  simp only [filterEncode, Nat.mod_eq_of_lt htag, Nat.mod_eq_of_lt hst, BitVec.toNat_ofNat]
  omega

theorem filterSyndrome_encode : filterSyndrome (filterEncode tag st).toNat = 0 := by
  obtain ⟨w, x, rfl, hx, he, hlt⟩ := filterEncode_toNat htag hst
  have hp := parity32_lt (tag + st * 2 ^ 24 + filterXor (tag + st * 2 ^ 24) * 2 ^ 26)
  have hlow : (filterEncode tag st).toNat % 2 ^ 26 = tag + st * 2 ^ 24 := by omega
  have hmid : bits (filterEncode tag st).toNat 26 5 = filterXor (tag + st * 2 ^ 24) := by
    unfold bits
    omega
  rw [filterSyndrome, hlow, hmid, Nat.xor_self]

theorem parity32_encode : parity32 (filterEncode tag st).toNat = 0 := by
  obtain ⟨w, x, hw, hx, he, hlt⟩ := filterEncode_toNat htag hst
  have hp := parity32_lt w
  have hsplit : w + x * 2 ^ 31 = w ^^^ x * 2 ^ 31 := by
    refine Nat.eq_of_testBit_eq fun i => ?_
    rw [Nat.testBit_xor, Nat.mul_comm, Nat.add_comm, Nat.testBit_two_pow_mul_add _ (by omega), Nat.testBit_two_pow_mul]
    split
    case isTrue h => simp [show ¬ 31 ≤ i by omega]
    case isFalse h =>
      have hz : w.testBit i = false := Nat.testBit_lt_two_pow (lt_of_lt_of_le (show w < 2 ^ 31 by omega)
        (Nat.pow_le_pow_right (by decide) (by omega)))
      simp [hz, show 31 ≤ i by omega]
  have htop : ∀ y < 2, parity32 (y * 2 ^ 31) = y := by decide +kernel
  rw [he, hsplit, parity32_xor, htop x (by omega)]
  omega

theorem filterTake_encode : filterTake (filterEncode tag st).toNat = (tag, st) := by
  obtain ⟨w, x, rfl, hx, he, hlt⟩ := filterEncode_toNat htag hst
  unfold filterTake bits
  rw [Prod.mk.injEq]
  omega

theorem filterDecode_encode : filterDecode (filterEncode tag st) = some (tag, st) := by
  rw [filterDecode_eq, parity32_encode htag hst, filterSyndrome_encode htag hst, filterTake_encode htag hst]
  rfl

/-- An entry with one bit flipped is odd, and its syndrome is the column of the flip. -/
theorem filterEntry_flip {i : Nat} (hi : i < 32) :
    (filterEncode tag st ^^^ (1#32 <<< i)).toNat = (filterEncode tag st).toNat ^^^ 2 ^ i ∧
    parity32 ((filterEncode tag st).toNat ^^^ 2 ^ i) = 1 ∧
    filterSyndrome ((filterEncode tag st).toNat ^^^ 2 ^ i) = filterSyndrome (2 ^ i) := by
  have hpow : ∀ i < 32, (1#32 <<< i).toNat = 2 ^ i ∧ parity32 (2 ^ i) = 1 := by decide +kernel
  refine ⟨by rw [BitVec.toNat_xor, (hpow i hi).1], ?_, ?_⟩
  · rw [parity32_xor, parity32_encode htag hst, (hpow i hi).2]
  · rw [filterSyndrome_xor, filterSyndrome_encode htag hst, Nat.zero_xor]

end

/-- The columns of an entry's bits: tag and state have R131's, the five check bits one bit each, the parity bit none. -/
theorem filterSyndrome_column : ∀ i < 26, filterCols.idxOf? (filterSyndrome (2 ^ i)) = some i ∧
    (filterSyndrome (2 ^ i) = 0 || [1, 2, 4, 8, 16].contains (filterSyndrome (2 ^ i))) = false := by decide +kernel
theorem filterSyndrome_check : ∀ i < 32, 26 ≤ i →
    (filterSyndrome (2 ^ i) = 0 || [1, 2, 4, 8, 16].contains (filterSyndrome (2 ^ i))) = true := by decide +kernel
theorem filterSyndrome_inj : ∀ i < 32, ∀ j < 32, filterSyndrome (2 ^ i) = filterSyndrome (2 ^ j) → i = j := by decide +kernel

theorem filterDecode_flip {tag st i : Nat} (htag : tag < 2 ^ 24) (hst : st < 4) (hi : i < 32) :
    filterDecode (filterEncode tag st ^^^ (1#32 <<< i)) = some (tag, st) := by
  obtain ⟨hnat, hodd, hsyn⟩ := filterEntry_flip htag hst hi
  rw [filterDecode_eq, hnat, hodd, if_neg (by decide), hsyn]
  by_cases h26 : i < 26
  · obtain ⟨hidx, hcol⟩ := filterSyndrome_column i h26
    rw [hcol, if_neg (by decide), hidx, Option.elim_some, Nat.xor_xor_cancel_right, filterTake_encode htag hst]
  · have hsame : ((filterEncode tag st).toNat ^^^ 2 ^ i) % 2 ^ 26 = (filterEncode tag st).toNat % 2 ^ 26 := by
      have hzero : 2 ^ i % 2 ^ 26 = 0 := Nat.mod_eq_zero_of_dvd (Nat.pow_dvd_pow 2 (by omega))
      rw [Nat.xor_mod_two_pow, hzero, Nat.xor_zero]
    rw [filterSyndrome_check i hi (by omega), if_pos rfl, filterTake_congr hsame, filterTake_encode htag hst]

/-- Two flipped bits leave the parity even and a syndrome that is not 0. -/
theorem filterDecode_two_flips {tag st i j : Nat} (htag : tag < 2 ^ 24) (hst : st < 4) (hi : i < 32) (hj : j < 32)
    (hij : i ≠ j) : filterDecode (filterEncode tag st ^^^ (1#32 <<< i) ^^^ (1#32 <<< j)) = none := by
  obtain ⟨hnat, hodd, hsyn⟩ := filterEntry_flip htag hst hi
  have hpow : ∀ j < 32, (1#32 <<< j).toNat = 2 ^ j ∧ parity32 (2 ^ j) = 1 := by decide +kernel
  have hne : filterSyndrome (2 ^ i) ^^^ filterSyndrome (2 ^ j) ≠ 0 := fun h =>
    hij (filterSyndrome_inj i hi j hj (Nat.xor_eq_zero_iff.1 h))
  rw [filterDecode_eq, BitVec.toNat_xor, hnat, (hpow j hj).1, parity32_xor, hodd, (hpow j hj).2, filterSyndrome_xor, hsyn,
    if_neg hne]
  rfl

/-- Settles O23: the placement is a fold that undoes itself; the entry code is linear, and its 32 columns with the parity bit
differ. -/
theorem filterEntries : Obligations.FilterEntries :=
  ⟨fun line h => ⟨filterLine_filterSet line h, filterSet_lt line, filterTag_lt line⟩, fun _ _ htag hst =>
    ⟨filterDecode_encode htag hst, fun _ hi => filterDecode_flip htag hst hi,
      fun _ hi _ hj hij => filterDecode_two_flips htag hst hi hj hij⟩⟩

end Sys2Proof.Machine
end

section
/-!
PROOFS. The register space (R5, R9, R392 - R395): a plain write bit by bit, the window's addresses, and the accesses that are
counted.
-/
namespace Sys2Proof.Machine

/-! ## A plain write -/

theorem codeWrite_getLsbD (r : Reg) (old v : Word) {j : Nat} (hj : j < 32) :
    (codeWrite r old v).getLsbD j =
      (((if r.rw.testBit j then v.getLsbD j else old.getLsbD j) && !(r.w1c.testBit j && v.getLsbD j)) ||
        (r.w1s.testBit j && v.getLsbD j)) := by
  simp only [codeWrite, BitVec.getLsbD_or, BitVec.getLsbD_and, BitVec.getLsbD_not, BitVec.getLsbD_ofNat, hj, decide_true,
    Bool.true_and]
  cases r.rw.testBit j <;> cases r.w1c.testBit j <;> cases r.w1s.testBit j <;> cases v.getLsbD j <;> simp

/-- A register that is neither locked nor given a meaning of its own takes a write by its access codes. -/
theorem State.regWrite_plain {s : State} {r : Reg} {i k : Nat} (v : Word) (hl : s.writeLocked r k = false)
    (hm : (writeTable.find? fun e => e.1 == r.id) = none) :
    s.regWrite r i k v = s.wr r (codeWrite r (s.rd r i k) v) i k := by
  rw [State.regWrite, hl, hm]
  rfl

/-! ## Window offsets and register addresses -/

theorem regToWin_winToReg {w : Nat} (h : w < 2 ^ 26) : regToWin (winToReg w) = w := by
  unfold regToWin winToReg bits
  omega

theorem winToReg_bit15 (w : Nat) : winToReg w / 2 ^ 15 % 2 = 0 := by
  unfold winToReg bits
  omega

theorem winToReg_lt (w : Nat) : winToReg w < 2 ^ 27 := by
  unfold winToReg bits
  omega

theorem winToReg_regToWin {a : Nat} (h : a < 2 ^ 27) (h15 : a / 2 ^ 15 % 2 = 0) : winToReg (regToWin a) = a := by
  unfold winToReg regToWin bits
  omega

/-- Settles O8: the access reaches `regWrite`, which stores what the access codes say. -/
theorem registerSpace : Obligations.RegisterSpace := by
  refine ⟨?_, fun w hw => ⟨regToWin_winToReg hw, winToReg_bit15 w, winToReg_lt w⟩, fun _ ha h15 => winToReg_regToWin ha h15⟩
  rintro s _ b w v d r i k hup rfl hopen hal hdom hon hreg hlock hown
  rw [exec_registerWrite_b4 v hup hopen hal hdom hon hreg, State.regWrite_plain _ hlock hown, State.wr_keep]
  refine ⟨rfl, fun j hj => ?_⟩
  rw [codeWrite_getLsbD _ _ _ hj, BitVec.getLsbD_setWidth, decide_eq_true hj, Bool.true_and]

/-! ## Counted accesses -/

theorem State.emit_keep (s : State) (o : Out) : (s.emit o).keep s = s.emit o := rfl

/-- What counting an access changes: the counter, which saturates, and the address recorded (R395). -/
theorem State.csrCount_counter (s : State) (a : Nat) {f : Fld}
    (hf : f = F.GLOBAL_CSR_ERR_unmapped ∨ f = F.GLOBAL_CSR_ERR_off_domain) :
    (s.csrCount f a).fN f = min (s.fN f + 1) (2 ^ (f.hi + 1 - f.lo) - 1) := by
  have hplace : f.inReg = true ∧ f.reg.addr 0 0 ≠ F.GLOBAL_CSR_ERR_ADDR_addr.reg.addr 0 0 := by
    obtain rfl | rfl := hf <;> decide
  rw [State.csrCount, State.fN_fSet_other _ _ _ _ _ _ _ _ hplace.2, State.fN_bump _ _ _ _ _ hplace.1]

theorem State.csrCount_address (s : State) (f : Fld) {a : Nat} (ha : a < 2 ^ 27) :
    (s.csrCount f a).fN F.GLOBAL_CSR_ERR_ADDR_addr = a := by
  rw [State.csrCount, State.fN_fSet _ _ _ _ _ (by decide)]
  exact Nat.mod_eq_of_lt ha

theorem State.csrCount_rd_other (s : State) (a : Nat) {f : Fld} {r : Reg} {i k : Nat} (hf : f.reg = R.GLOBAL_CSR_ERR)
    (hr : r.addr i k ≠ R.GLOBAL_CSR_ERR.addr 0 0) (hra : r.addr i k ≠ R.GLOBAL_CSR_ERR_ADDR.addr 0 0) :
    (s.csrCount f a).rd r i k = s.rd r i k := by
  have hbump : (s.bump f).rd r i k = s.rd r i k := State.rd_wr_other _ _ _ _ _ _ _ _ (hf ▸ hr)
  exact (State.rd_wr_other _ _ _ _ _ _ _ _ hra).trans hbump

section
variable {s : State} {a d : Nat}

theorem State.csrRead_unmapped (h : blockDomain a = none) : s.csrRead a = (s.csrCount F.GLOBAL_CSR_ERR_unmapped a, 0) := by
  rw [State.csrRead, h]

theorem State.csrRead_offDomain (h : blockDomain a = some d) (hoff : s.domainOn d = false) :
    s.csrRead a = (s.csrCount F.GLOBAL_CSR_ERR_off_domain a, 0) := by
  simp [State.csrRead, h, hoff]

theorem State.csrWrite_unmapped (v : Word) (h : blockDomain a = none) :
    s.csrWrite a v = s.csrCount F.GLOBAL_CSR_ERR_unmapped a := by
  rw [State.csrWrite, h]

theorem State.csrWrite_offDomain (v : Word) (h : blockDomain a = some d) (hoff : s.domainOn d = false) :
    s.csrWrite a v = s.csrCount F.GLOBAL_CSR_ERR_off_domain a := by
  simp [State.csrWrite, h, hoff]

theorem State.csrTouch_unmapped (h : blockDomain a = none) : s.csrTouch a = s.csrCount F.GLOBAL_CSR_ERR_unmapped a := by
  rw [State.csrTouch, h]

theorem State.csrTouch_offDomain (h : blockDomain a = some d) (hoff : s.domainOn d = false) :
    s.csrTouch a = s.csrCount F.GLOBAL_CSR_ERR_off_domain a := by
  simp [State.csrTouch, h, hoff]

theorem State.csrMisaligned_on (h : blockDomain a = some d) (hon : s.domainOn d = true) :
    s.csrMisaligned a = s.csrCount F.GLOBAL_CSR_ERR_unmapped a := by
  simp [State.csrMisaligned, h, hon]

/-- An aligned access outside every block is counted once for each 32-bit word, whatever its size. -/
theorem State.csrStore_unmapped {z : AccSize} (v : Nat) (hal : z.aligned a = true) (h : blockDomain a = none)
    (h8 : z = .b8 → blockDomain (a + 4) = none) : s.csrStore z a v =
      if z = .b8 then (s.csrCount F.GLOBAL_CSR_ERR_unmapped a).csrCount F.GLOBAL_CSR_ERR_unmapped (a + 4)
      else s.csrCount F.GLOBAL_CSR_ERR_unmapped a := by
  cases z <;> simp [State.csrStore, hal, State.csrWrite_unmapped _ h, State.csrTouch_unmapped h]
  rw [State.csrWrite_unmapped _ (h8 rfl)]

theorem State.csrLoad_unmapped {z : AccSize} (hal : z.aligned a = true) (h : blockDomain a = none)
    (h8 : z = .b8 → blockDomain (a + 4) = none) : s.csrLoad z a =
      (if z = .b8 then (s.csrCount F.GLOBAL_CSR_ERR_unmapped a).csrCount F.GLOBAL_CSR_ERR_unmapped (a + 4)
      else s.csrCount F.GLOBAL_CSR_ERR_unmapped a, 0) := by
  cases z <;> simp [State.csrLoad, hal, State.csrRead_unmapped h, bits]
  simp [State.csrRead_unmapped (h8 rfl)]

theorem State.csrStore_offDomain {z : AccSize} (v : Nat) (hal : z.aligned a = true) (hz : z ≠ .b8)
    (h : blockDomain a = some d) (hoff : s.domainOn d = false) :
    s.csrStore z a v = s.csrCount F.GLOBAL_CSR_ERR_off_domain a := by
  cases z <;> simp [State.csrStore, hal, State.csrWrite_offDomain _ h hoff, State.csrTouch_offDomain h hoff] at hz ⊢

theorem State.csrLoad_offDomain {z : AccSize} (hal : z.aligned a = true) (hz : z ≠ .b8)
    (h : blockDomain a = some d) (hoff : s.domainOn d = false) :
    s.csrLoad z a = (s.csrCount F.GLOBAL_CSR_ERR_off_domain a, 0) := by
  cases z <;> simp [State.csrLoad, hal, State.csrRead_offDomain h hoff, bits] at hz ⊢

theorem State.csrStore_misaligned {z : AccSize} (v : Nat) (hal : z.aligned a = false) :
    s.csrStore z a v = s.csrMisaligned a := by simp [State.csrStore, hal]

theorem State.csrLoad_misaligned {z : AccSize} (hal : z.aligned a = false) : s.csrLoad z a = (s.csrMisaligned a, 0) := by
  simp [State.csrLoad, hal]

end

section
variable {s t : State} {b : Bar} {w : Nat} {z : AccSize}

theorem State.barAccess_closed (st : Option Nat) (h : (s.barAssign b).barOpen b.port = false) :
    s.barAccess b w z st = s.barAssign b := by
  simp [State.barAccess, h]

/-- A load that finds 0 shows it in one word, or in two where it is a 64-bit load. -/
theorem State.barAccess_load_zero (h : (s.barAssign b).barOpen b.port = true)
    (hl : (s.barAssign b).csrLoad z (winToReg w) = (t, 0)) : s.barAccess b w z none =
      if z = .b8 then (t.emit (.csr (winToReg w) 0)).emit (.csr (winToReg w + 4) 0) else t.emit (.csr (winToReg w) 0) := by
  cases z <;> simp [State.barAccess, h, hl]

end

theorem exec_misalignedCsrAccess (w : CsrAt) (z : AccSize) (st : Option (BitVec 64)) (s : State) :
    exec (.misalignedCsrAccess w z st) s = run s fun s => s.barAccess w.bar w.off.toNat z (st.map fun v => v.toNat) := rfl
theorem exec_csrUnmappedAccess (w : CsrAt) (z : AccSize) (st : Option (BitVec 64)) (s : State) :
    exec (.csrUnmappedAccess w z st) s = run s fun s => s.barAccess w.bar w.off.toNat z (st.map fun v => v.toNat) := rfl
theorem exec_csrOffDomainAccess (w : CsrAt) (z : AccSize) (st : Option (BitVec 64)) (s : State) :
    exec (.csrOffDomainAccess w z st) s = run s fun s => s.barAccess w.bar w.off.toNat z (st.map fun v => v.toNat) := rfl

section
variable {s u : State} {b : Bar} {w : BitVec 26} {z : AccSize}

/-- An access that does nothing but count keeps what a command restores. -/
theorem run_barAccess {t : State} {st : Option Nat} (hup : s.up = true) (hu : u = s.barAssign b)
    (h : s.barAccess b w.toNat z st = t) (hk : t.keep u = t) :
    run s (fun s => s.barAccess b w.toNat z st) = .next t := by
  rw [run_up _ hup, h, ← State.keep_barAssign, ← hu, hk]

theorem counted_unmapped (hup : s.up = true) (hu : u = s.barAssign b) (hopen : u.barOpen b.port = true)
    (hal : z.aligned (winToReg w.toNat) = true) (h : blockDomain (winToReg w.toNat) = none)
    (h8 : z = .b8 → blockDomain (winToReg w.toNat + 4) = none) {c : State}
    (hc : c = if z = .b8 then (u.csrCount F.GLOBAL_CSR_ERR_unmapped (winToReg w.toNat)).csrCount F.GLOBAL_CSR_ERR_unmapped
      (winToReg w.toNat + 4) else u.csrCount F.GLOBAL_CSR_ERR_unmapped (winToReg w.toNat)) :
    (∀ v, exec (.csrUnmappedAccess ⟨b, w⟩ z (some v)) s = .next c) ∧
    exec (.csrUnmappedAccess ⟨b, w⟩ z none) s = .next (if z = .b8 then
      (c.emit (.csr (winToReg w.toNat) 0)).emit (.csr (winToReg w.toNat + 4) 0) else c.emit (.csr (winToReg w.toNat) 0)) := by
  subst hu
  refine ⟨fun v => ?_, ?_⟩
  · refine (exec_csrUnmappedAccess _ _ _ _).trans (run_barAccess hup rfl ?_ ?_)
    · rw [Option.map_some, State.barAccess_store hopen, State.csrStore_unmapped _ hal h h8, hc]
    · subst hc
      split <;> rfl
  · refine (exec_csrUnmappedAccess _ _ _ _).trans (run_barAccess hup rfl ?_ ?_)
    · exact State.barAccess_load_zero hopen (by rw [State.csrLoad_unmapped hal h h8, hc])
    · subst hc
      split <;> rfl

theorem counted_offDomain {d : Nat} (hup : s.up = true) (hu : u = s.barAssign b) (hopen : u.barOpen b.port = true)
    (hal : z.aligned (winToReg w.toNat) = true) (hz : z ≠ .b8) (h : blockDomain (winToReg w.toNat) = some d)
    (hoff : u.domainOn d = false) :
    (∀ v, exec (.csrOffDomainAccess ⟨b, w⟩ z (some v)) s =
      .next (u.csrCount F.GLOBAL_CSR_ERR_off_domain (winToReg w.toNat))) ∧
    exec (.csrOffDomainAccess ⟨b, w⟩ z none) s =
      .next ((u.csrCount F.GLOBAL_CSR_ERR_off_domain (winToReg w.toNat)).emit (.csr (winToReg w.toNat) 0)) := by
  subst hu
  refine ⟨fun v => ?_, ?_⟩
  · refine (exec_csrOffDomainAccess _ _ _ _).trans (run_barAccess hup rfl ?_ rfl)
    rw [Option.map_some, State.barAccess_store hopen, State.csrStore_offDomain _ hal hz h hoff]
  · refine (exec_csrOffDomainAccess _ _ _ _).trans (run_barAccess hup rfl ?_ rfl)
    rw [Option.map_none, State.barAccess_load_zero hopen (State.csrLoad_offDomain hal hz h hoff), if_neg hz]

theorem counted_misaligned {d : Nat} (hup : s.up = true) (hu : u = s.barAssign b) (hopen : u.barOpen b.port = true)
    (hal : z.aligned (winToReg w.toNat) = false) (h : blockDomain (winToReg w.toNat) = some d) (hon : u.domainOn d = true) :
    (∀ v, exec (.misalignedCsrAccess ⟨b, w⟩ z (some v)) s =
      .next (u.csrCount F.GLOBAL_CSR_ERR_unmapped (winToReg w.toNat))) ∧
    (z ≠ .b8 → exec (.misalignedCsrAccess ⟨b, w⟩ z none) s =
      .next ((u.csrCount F.GLOBAL_CSR_ERR_unmapped (winToReg w.toNat)).emit (.csr (winToReg w.toNat) 0))) := by
  subst hu
  refine ⟨fun v => ?_, fun hz => ?_⟩
  · refine (exec_misalignedCsrAccess _ _ _ _).trans (run_barAccess hup rfl ?_ rfl)
    rw [Option.map_some, State.barAccess_store hopen, State.csrStore_misaligned _ hal, State.csrMisaligned_on h hon]
  · refine (exec_misalignedCsrAccess _ _ _ _).trans (run_barAccess hup rfl ?_ rfl)
    rw [Option.map_none, State.barAccess_load_zero hopen (State.csrLoad_misaligned hal), if_neg hz,
      State.csrMisaligned_on h hon]

/-- Where no function with BAR2 stands, nothing is left of an access but the host's assignment. -/
theorem run_barAccess_closed (st : Option Nat) (hup : s.up = true) (hu : u = s.barAssign b)
    (hclosed : u.barOpen b.port = false) : run s (fun s => s.barAccess b w.toNat z st) = .next u := by
  subst hu
  exact run_barAccess hup rfl (State.barAccess_closed st hclosed) (State.keep_self _)

end

/-- Settles O9: the first case of R395 that holds gives a count of its own, and a closed BAR2 none. -/
theorem countedAccesses : Obligations.CountedAccesses := by
  refine ⟨?_, ?_, fun s a f hf ha => ⟨s.csrCount_counter a hf, s.csrCount_address f ha, fun r i k hr hra =>
    s.csrCount_rd_other a (by obtain rfl | rfl := hf <;> rfl) hr hra, rfl⟩⟩
  · rintro s u b w z hup hu hopen _ rfl
    refine ⟨fun hal h h8 => ?_, fun d hal hz h hoff =>
      counted_offDomain hup hu hopen hal hz h hoff, fun d hal h hon => counted_misaligned hup hu hopen hal h hon⟩
    obtain ⟨hstore, hload⟩ := counted_unmapped hup hu hopen hal h h8 rfl
    refine ⟨hstore, hload.trans ?_⟩
    split <;> rfl
  · intro s u b w z v st hup hu hclosed
    simp only [List.forall_mem_cons, List.not_mem_nil, false_imp_iff, implies_true, and_true]
    exact ⟨run_barAccess_closed _ hup hu hclosed, run_barAccess_closed _ hup hu hclosed,
      run_barAccess_closed _ hup hu hclosed, run_barAccess_closed _ hup hu hclosed⟩

end Sys2Proof.Machine
end

section
/-!
PROOFS. What one unit of a Spire's operation computes (R207, R218 - R233).
-/
namespace Sys2Proof.Machine

/-! ## Units that stream -/

section
variable {s t u : State} {k : Nat} {e : Eng} {n slot : Nat} {c : Cmd} {xs ys : List Elem}

theorem State.convertUnit_of_fed (hfed : c.fed = true)
    (hx : s.laneElems k n slot c.cvIn c.fa (c.p 0) c.pos (c.cvLen c.pos) = (t, xs)) :
    State.convertUnit k e n slot c s = t.giveOut k n slot c c.cvOut c.fo (w32 (c.pb 4 32 32)) (c.p 1) c.pos (xs.map fun x =>
      ⟨x.f32 c.fa (w32 (c.pb 4 0 32)), fIsNan (x.f32 c.fa (w32 (c.pb 4 0 32))), x.poison⟩) := by
  simp [State.convertUnit, hfed, hx]

/-- AXPY with y: the product of b and y is rounded before the sum (R222). -/
theorem State.axpyUnit_of_readsY (hfed : c.fed = true)
    (hx : s.laneElems k n slot c.axX c.fa (c.p 0) c.pos (c.axLen c.pos) = (t, xs)) (hr : c.readsY = true)
    (hy : t.laneElems k n slot c.axY c.fb (c.p 1) c.pos (c.axLen c.pos) = (u, ys)) :
    ∃ zs : List OutEl, State.axpyUnit k e n slot c s = u.giveOut k n slot c c.axOut c.fo 0 (c.p 3) c.pos zs ∧
      zs.map (fun z => (z.w, z.poison)) = (xs.zip ys).map fun p =>
        (ffma (w32 (c.pb 4 0 32)) (p.1.f32 c.fa 0) (fmul (w32 (c.pb 4 32 32)) (p.2.f32 c.fb 0)), p.1.poison || p.2.poison) := by
  have hyel : t.yElems k n slot c (c.axLen c.pos) = (u, ys) := by rw [State.yElems, if_pos hr, hy]
  simp only [State.axpyUnit, hfed, hx, hyel, hr]
  refine ⟨_, rfl, ?_⟩
  simp

/-- AXPY where b is ±0: no y takes part. -/
theorem State.axpyUnit_of_no_y (hfed : c.fed = true)
    (hx : s.laneElems k n slot c.axX c.fa (c.p 0) c.pos (c.axLen c.pos) = (t, xs)) (hr : c.readsY = false)
    (hlen : xs.length = c.axLen c.pos) :
    ∃ zs : List OutEl, State.axpyUnit k e n slot c s = t.giveOut k n slot c c.axOut c.fo 0 (c.p 3) c.pos zs ∧
      zs.map (fun z => (z.w, z.poison)) = xs.map fun x => (fmul (w32 (c.pb 4 0 32)) (x.f32 c.fa 0), x.poison) := by
  have hyel : t.yElems k n slot c (c.axLen c.pos) = (t, List.replicate (c.axLen c.pos) ⟨0, 0, false⟩) := by
    rw [State.yElems, hr]
    rfl
  simp only [State.axpyUnit, hfed, hx, hyel, hr]
  refine ⟨_, rfl, ?_⟩
  have hzip : (xs.zip (List.replicate (c.axLen c.pos) (⟨0, 0, false⟩ : Elem))).map Prod.fst = xs :=
    List.map_fst_zip (by simp [hlen])
  conv_rhs => rw [← hzip]
  simp

theorem State.engXl_of_ownLine {pva line : Nat} {rd wr stream : Bool} (h : s.ownLine k pva wr = some line) :
    s.engXl k c e pva rd wr stream = (s, .dpa (line * 64 + pva % 64)) := by
  rw [State.engXl, h]

theorem State.engUpdate_of_held {o : Origin} {ctx : Ctx} {line cls gen : Nat} {heat : HeatKind} {fill : Option Nat} {x : Tx}
    {old : Line} (hans : s.engAns o line true fullBe = none) (htx : s.engTx o line true fullBe = some x)
    (hst : x.stage = .engine) (hgot : x.got = some (.ok old)) :
    s.engUpdate o ctx line cls gen heat fill = (s, .held old) := by
  rw [State.engUpdate, hans, htx]
  simp only [hst, hgot]

/-- REDUCE_INTO: the destination line held under its lock takes the sums, and the unit is done once the home has answered
(R218, R223). -/
theorem State.reduceUnit_of_held {w : State} {pva line o : Nat} {old l : Line} {x : Tx} {r : Nat × Nat × Nat × Nat} {ev : Exc}
    {p : Spire} (hfed : c.fed = true) (hpva : pva = c.p 1 + c.pos * (fmtBits c.fo / 8)) (ho : o = pva % 64)
    (hown : s.ownLine k pva true = some line) (hwin : s.owinFor c.ctx line = none)
    (hans : s.engAns e.o line true fullBe = none) (htx : s.engTx e.o line true fullBe = some x) (hst : x.stage = .engine)
    (hgot : x.got = some (.ok old)) (hx : s.laneElems k n slot c.rdX c.fa (c.p 0) c.pos (c.cvLen c.pos) = (t, xs))
    (hred : reduceLine (t.spire n) c old o xs = (r, ev, p))
    (hw : w = ((((t.setSpire n p).addExc n ev).offChan e line).engFinish e.o line (old.merge
      ⟨BitVec.ofNat 512 (r.2.2.1 * 2 ^ (8 * o)), markPoison o r.2.1 r.2.2.2⟩ (rangeBe o r.2.1))).noteBeat k e pva true line)
    (hdone : (w.engAns e.o line true fullBe).map EngAns.res = some (.ok l)) :
    State.reduceUnit k e n slot c s = ((w.takeBeats k e true).give k n slot [] (c.cvLen c.pos, 0), .go) := by
  have hline : (line * 64 + pva % 64) / 64 = line := by omega
  have hoff : (line * 64 + pva % 64) % 64 = o := by omega
  obtain ⟨a, ha, hres⟩ := Option.map_eq_some_iff.1 hdone
  simp only [State.reduceUnit, hfed, ← hpva, State.engXl_of_ownLine hown, hline, hoff, hwin,
    State.engUpdate_of_held hans htx hst hgot, hx, hred, ← hw, ha, hres, Option.isSome_none, Bool.not_true, Bool.false_eq_true,
    if_false]

theorem State.crcUnit_of_fed {x : Cmd} {v m : Nat} (hfed : c.fed = true)
    (hrun : s.getRun k n slot (c.crcLane.run (c.p 0 + c.pos) (c.crcLen c.pos)) = (t, (v, m))) (hcmd : t.cmd k = some x) :
    State.crcUnit k e n slot c s = ((t.putCmd k { x with part := [[(List.range (c.crcLen c.pos)).foldl
      (fun r i => crcByte c.crcPoly r (bits v (8 * i) 8)) c.crcReg]] }).give k n slot [] (c.crcLen c.pos, 0), .go) := by
  simp [State.crcUnit, hfed, hrun, hcmd]

/-- TOPK: 32 elements join the candidates, each cut back to the K that rank highest (R232). -/
theorem State.topTake_of_loaded {w : State} {x : Cmd} {old cand : List (Nat × Nat)} {lost : Bool}
    (hx : s.laneElems k n slot c.topLane c.fa (c.p 0) c.pos (c.topLen c.pos) = (t, xs))
    (hold : t.topGet k e n slot c 0 (min c.topK c.pos) = (u, old, lost))
    (hcand : cand = xs.zipIdx.foldl (fun l y =>
      (topInsert (c.pb 2 16 1 == 1) c.topKey (topKeep c y.1, c.pos + y.2) l).take c.topK) old)
    (hw : w = (u.persPut k e n slot c [(0, 12 * cand.length, packList 96 (cand.map fun x => x.1 + x.2 * 2 ^ 32), 0)]).1)
    (hcmd : w.cmd k = some x) :
    State.topTake k e n slot c s = ((if (lost || xs.any fun y => y.poison) = true then
      w.putCmd k { x with part := [[1]] } else w).give k n slot [] (xs.length, 0), .go) := by
  simp only [State.topTake, hx, hold, ← hcand, ← hw, hcmd]

end

/-- The token that is read next stands among those left. -/
theorem Cmd.attPick_lt {c : Cmd} (h : c.part.getD 1 [] ≠ []) : c.attPick < (c.part.getD 1 []).length := by
  have hpos := List.length_pos_iff.2 h
  unfold Cmd.attPick
  dsimp only
  split
  · exact hpos
  · exact Nat.mod_lt _ hpos

/-! ## Attention (R231) -/

theorem attStep_of_larger {c : Cmd} {t r : Nat} {q kk vv : List Word} {row : AttRow} {sc : Word}
    (hsc : sc = fmul (w32 (c.pb 5 32 32)) (sumTerms (c.pt 0 1 * 2 ^ 32 + t * 65536 + r) ((q.zip kk).map fun x => .prod x.1 x.2)))
    (h : flt row.m sc = true) :
    attStep c t r q kk vv row = ⟨sc, fadd (fmul row.l (sfuExp2 (fsub row.m sc))) (sfuExp2 (fsub sc sc)),
      ((row.acc.map fun a => fmul a (sfuExp2 (fsub row.m sc))).zip vv).map fun p => fadd p.1 (fmul (sfuExp2 (fsub sc sc)) p.2)⟩ := by
  simp only [attStep, ← hsc, h, if_true]

theorem attStep_of_not_larger {c : Cmd} {t r : Nat} {q kk vv : List Word} {row : AttRow} {sc : Word}
    (hsc : sc = fmul (w32 (c.pb 5 32 32)) (sumTerms (c.pt 0 1 * 2 ^ 32 + t * 65536 + r) ((q.zip kk).map fun x => .prod x.1 x.2)))
    (h : flt row.m sc = false) :
    attStep c t r q kk vv row = ⟨row.m, fadd row.l (sfuExp2 (fsub sc row.m)),
      (row.acc.zip vv).map fun p => fadd p.1 (fmul (sfuExp2 (fsub sc row.m)) p.2)⟩ := by
  simp only [attStep, ← hsc, h, Bool.false_eq_true, if_false]

/-! ## Pooling (R224 - R226) -/

theorem Cmd.pt_setPart_head (c : Cmd) (i v : Nat) (l : List Nat) :
    (c.setPart i (v :: l)).pt i 0 = if i < c.part.length then v else 0 := by
  simp only [Cmd.pt, Cmd.setPart, List.getD_eq_getElem?_getD, List.getElem?_set_self']
  split
  case isTrue h => simp [h]
  case isFalse h => simp [h]

/-- An index past the table is skipped and counted: the bag's pooled rows stay as many as they were. -/
theorem State.gatherIndex_past_table {s t : State} {k : Nat} {e : Eng} {n slot : Nat} {c y : Cmd} {x r : Nat}
    (hrun : s.getRun k n slot ⟨c.gIdxLane, recAt c.gIdx (c.pt 5 3) (c.p 1 + x * c.gIdx), c.p 1 + x * c.gIdx, c.gIdx⟩ = (t, (r, 0)))
    (hmark : bits (c.pt 2 1) (c.gIdx * x) c.gIdx = 0) (hsame : r = bits (c.pt 2 0) (8 * c.gIdx * x) (8 * c.gIdx))
    (hpast : c.pb 6 0 40 ≤ r) (hcmd : t.cmd k = some y) :
    ∃ z : Cmd, State.gatherIndex k e n slot c x s = (t.putCmd k z, .go) ∧ z.result = y.result + 2 ^ 32 ∧
      z.pt 5 0 = (if 5 < y.part.length then c.pt 5 0 else 0) := by
  simp only [State.gatherIndex, hrun, hmark, ← hsame, hpast, hcmd, ne_eq, not_true_eq_false, or_self, if_false, if_true]
  refine ⟨_, rfl, rfl, ?_⟩
  exact (Cmd.pt_setPart_head _ _ _ _).trans (by simp [Cmd.setPart])

theorem poolRow_getElem? {mode code j : Nat} {first : Bool} {acc row : List Elem} {a x : Elem} (ha : acc[j]? = some a)
    (hx : row[j]? = some x) :
    ∃ v : Word, ((poolRow mode first acc row code)[j]?.map fun y => (y.1, y.2.1)) =
        some (v.toNat, (!first && a.poison) || x.poison) ∧
      (mode = 2 → v = fmax (if first then fInf true else w32 a.raw) (x.f32 code 0)) ∧
      (mode ≠ 2 → v = fadd (if first then 0 else w32 a.raw) (x.f32 code 0)) := by
  have hzip : (acc.zip row)[j]? = some (a, x) := List.getElem?_zip_eq_some.2 ⟨ha, hx⟩
  simp only [poolRow, List.getElem?_map, hzip, Option.map_some]
  refine ⟨_, rfl, fun h => ?_, fun h => ?_⟩
  · simp [h]
  · simp [h]

/-! ## Sums (R207) -/

theorem sumTerms_nil (n : Nat) : sumTerms n [] = 0 := by
  unfold sumTerms combine
  decide +kernel

theorem sumTerms_one (n : Nat) (x : Word) : sumTerms n [.sum x] = fadd 0 x := by
  unfold sumTerms combine
  rfl

theorem sumTerms_two (n : Nat) (x y : Word) : sumTerms n [.sum x, .sum y] = fadd 0 (fadd x y) := by
  unfold sumTerms combine
  rfl

/-! ## TOPK's list (R232) -/

theorem topInsert_perm (b : Bool) (key : Nat → Nat) (y : Nat × Nat) (l : List (Nat × Nat)) :
    (topInsert b key y l).Perm (y :: l) := by
  induction l with
  | nil => exact .refl _
  | cons x l ih =>
    unfold topInsert
    generalize (if b = true then decide (key y.1 < key x.1) else decide (key x.1 < key y.1)) = p
    cases p
    · exact (ih.cons x).trans (.swap y x l)
    · exact .refl _

/-- The order TOPK keeps: the best first. -/
def topBefore (b : Bool) (key : Nat → Nat) (x y : Nat × Nat) : Prop := if b then key x.1 ≤ key y.1 else key y.1 ≤ key x.1

theorem topBefore_trans {b : Bool} {key : Nat → Nat} {x y z : Nat × Nat} (hxy : topBefore b key x y)
    (hyz : topBefore b key y z) : topBefore b key x z := by
  cases b
  · exact Nat.le_trans hyz hxy
  · exact Nat.le_trans hxy hyz

theorem topInsert_sorted (b : Bool) (key : Nat → Nat) (y : Nat × Nat) (l : List (Nat × Nat))
    (h : l.Pairwise (topBefore b key)) : (topInsert b key y l).Pairwise (topBefore b key) := by
  induction l with
  | nil => exact List.pairwise_singleton _ _
  | cons x l ih =>
    obtain ⟨hx, hl⟩ := List.pairwise_cons.1 h
    unfold topInsert
    generalize hahead : (if b = true then decide (key y.1 < key x.1) else decide (key x.1 < key y.1)) = ahead
    cases ahead with
    | true =>
      have hyx : topBefore b key y x := by cases b <;> simp [topBefore] at hahead ⊢ <;> omega
      refine List.pairwise_cons.2 ⟨fun z hz => ?_, h⟩
      obtain rfl | hz := List.mem_cons.1 hz
      · exact hyx
      · exact topBefore_trans hyx (hx z hz)
    | false =>
      have hxy : topBefore b key x y := by cases b <;> simp [topBefore] at hahead ⊢ <;> omega
      refine List.pairwise_cons.2 ⟨fun z hz => ?_, ih hl⟩
      obtain rfl | hz := List.mem_cons.1 ((topInsert_perm b key y l).mem_iff.1 hz)
      · exact hxy
      · exact hx z hz

/-- A new candidate stands behind those that rank above it or equal. -/
theorem topInsert_behind_equal {key : Nat → Nat} {x y : Nat × Nat} {l : List (Nat × Nat)} (hx : x ∈ l)
    (heq : key x.1 = key y.1) (hl : l.Pairwise fun a b => key b.1 ≤ key a.1) :
    ∃ l1 l2, topInsert false key y l = l1 ++ y :: l2 ∧ x ∈ l1 := by
  induction l with
  | nil => cases hx
  | cons z l ih =>
    obtain ⟨hz, hl⟩ := List.pairwise_cons.1 hl
    have hge : ¬ key z.1 < key y.1 := by
      obtain rfl | hm := List.mem_cons.1 hx
      · omega
      · have := hz x hm
        omega
    have hstep : topInsert false key y (z :: l) = z :: topInsert false key y l := by simp [topInsert, hge]
    rw [hstep]
    obtain rfl | hm := List.mem_cons.1 hx
    · obtain ⟨l1, l2, hsplit⟩ := List.append_of_mem ((topInsert_perm false key y l).mem_iff.2 List.mem_cons_self)
      exact ⟨x :: l1, l2, by rw [hsplit, List.cons_append], List.mem_cons_self⟩
    · obtain ⟨l1, l2, hsplit, hin⟩ := ih hm hl
      exact ⟨z :: l1, l2, by rw [hsplit, List.cons_append], List.mem_cons_of_mem _ hin⟩

/-! ## The optimisers (R229) -/

section
variable {c : Cmd} (w m v g : Word) {m1 v1 : Word}

theorem optElem_adamw (h : c.optAlg = 0) (hm : m1 = fadd (fmul (c.hyp 1) m) (fmul (fsub fOne (c.hyp 1)) g))
    (hv : v1 = fadd (fmul (c.hyp 2) v) (fmul (fmul (fsub fOne (c.hyp 2)) g) g)) :
    optElem c w m v g = (fsub w (fmul (c.hyp 0) (fadd (fmul (fmul m1 (c.hyp 6))
      (sfuRecip (fadd (sfuSqrt (fmul v1 (c.hyp 7))) (c.hyp 3)))) (fmul (c.hyp 4) w))), m1, v1) := by
  simp only [optElem, h, ← hm, ← hv]

theorem optElem_lion (h : c.optAlg = 1) (hm : m1 = fadd (fmul (c.hyp 2) m) (fmul (fsub fOne (c.hyp 2)) g)) :
    optElem c w m v g = (fsub w (fmul (c.hyp 0) (fadd (fsign (fadd (fmul (c.hyp 1) m) (fmul (fsub fOne (c.hyp 1)) g)))
      (fmul (c.hyp 4) w))), m1, v) := by
  simp only [optElem, h, ← hm]

theorem optElem_momentum (h : 2 ≤ c.optAlg) (hm : m1 = fadd (fadd (fmul (c.hyp 1) m) g) (fmul (c.hyp 4) w)) :
    optElem c w m v g = (fsub w (fmul (c.hyp 0) m1), m1, v) := by
  obtain ⟨a, ha⟩ : ∃ a, c.optAlg = a + 2 := ⟨c.optAlg - 2, by omega⟩
  simp only [optElem, ha, ← hm]

end

/-- Settles O39: each unit is read off its operation, TOPK's list by induction over the candidates. -/
theorem spireUnits : Obligations.SpireUnits := by
  refine ⟨fun s t k e n slot c xs hfed => ⟨State.convertUnit_of_fed hfed, fun hx => ⟨fun u ys hr hy =>
      State.axpyUnit_of_readsY hfed hx hr hy, State.axpyUnit_of_no_y hfed hx⟩, ?_, fun x v m => State.crcUnit_of_fed hfed,
      fun u w x old cand lost => State.topTake_of_loaded, fun h => ?_⟩,
    fun c t r q kk vv row sc hsc => ⟨attStep_of_larger hsc, attStep_of_not_larger hsc⟩,
    fun s t k e n slot c y x r => State.gatherIndex_past_table, fun mode code j first acc row a x => poolRow_getElem?,
    fun n x y => ⟨sumTerms_nil n, sumTerms_one n x, sumTerms_two n x y⟩, fun key y l => ⟨topInsert_perm false key y l,
      topInsert_perm true key y l, topInsert_sorted false key y l, topInsert_sorted true key y l,
      fun x => topInsert_behind_equal⟩,
    fun c w m v g m1 v1 => ⟨optElem_adamw w m v g, optElem_lion w m v g, optElem_momentum w m v g⟩⟩
  · intro w pva line o old l x r ev p hpva ho hown hwin hans htx hst hgot hx hred hw hdone
    exact State.reduceUnit_of_held hfed hpva ho hown hwin hans htx hst hgot hx hred hw hdone
  · exact ⟨_, List.getElem?_eq_getElem (Cmd.attPick_lt h)⟩

end Sys2Proof.Machine
end

section
/-!
PROOFS. Messages of a host (R17, R127, R128, R134, R136, R142, R246) and what the home does by itself (R13, R138, R141, R301).
-/
namespace Sys2Proof.Machine

/-! ## A message arrives -/

section
variable {s : State} {x : CxlMsg} {c : CxlSrc} {l : CxlLink}

theorem State.hear_of_deaf (h : s.canHear x = false) : s.hear x = s := by
  simp [State.hear, h]

/-- A message whose link is not secure, or which skid mode lets through, is taken as it comes. -/
theorem State.hear_at_once (h : s.canHear x = true) (hc : c = x.id.src_) (hl : l = s.cxlLink c.port c.link)
    (hat : l.ideSecure = false ∨ (l.skid = true ∧ x.id.mac = false ∧ x.isWrite = false)) : s.hear x = s.takeMsg x := by
  subst hc hl
  rw [State.hear, h]
  obtain hopen | ⟨hskid, hmac, hwr⟩ := hat
  · simp [hopen]
  · simp [hskid, hmac, hwr]

/-- The MAC of an epoch brings in all that wait for it. -/
theorem State.hear_mac (h : s.canHear x = true) (hc : c = x.id.src_) (hl : l = s.cxlLink c.port c.link)
    (hsec : l.ideSecure = true) (hmac : x.id.mac = true) : s.hear x =
      (l.epoch ++ [x]).foldl (fun s x => s.takeMsg x) (s.setCxlLink c.port c.link { l with epoch := [] }) := by
  subst hc hl
  rw [State.hear, h]
  simp only [hsec, hmac, Bool.not_true, Bool.false_eq_true, if_false, if_true]

theorem State.hear_held (h : s.canHear x = true) (hc : c = x.id.src_) (hl : l = s.cxlLink c.port c.link)
    (hsec : l.ideSecure = true) (hmac : x.id.mac = false) (hwait : l.skid = false ∨ x.isWrite = true) :
    s.hear x = s.setCxlLink c.port c.link { l with epoch := l.epoch ++ [x] } := by
  subst hc hl
  rw [State.hear, h]
  obtain hskid | hwr := hwait
  · simp [hsec, hmac, hskid]
  · simp [hsec, hmac, hwr]

/-- A link that carries messages of any class carries this one. -/
theorem State.canHear_of_hears (hc : c = x.id.src_) (h : s.hears c = true) : s.canHear x = true := by
  subst hc
  simp only [State.hears, Bool.and_eq_true] at h
  obtain ⟨⟨⟨⟨hup, hrec⟩, hw⟩, hr⟩, hans⟩ := h
  cases hwr : x.isWrite <;> simp [State.canHear, hup, hrec, hw, hr, hans, hwr]

theorem State.hear_of_hears (hc : c = x.id.src_) (h : s.hears c = true)
    (hsec : (s.cxlLink c.port c.link).ideSecure = false) : s.hear x = s.takeMsg x :=
  State.hear_at_once (State.canHear_of_hears hc h) hc rfl (.inl hsec)

end

/-! ## Requests -/

section
variable {s : State} {m : M2S} {c : CxlSrc} {x : Ctx} {line : Nat}

/-- A request that meets an entry enters policing as the kind it is mapped to (R127). -/
theorem State.m2s_of_ingress {k : Mapped} {a : Ask} {w : Option RwD} (hc : c = m.id.src_)
    (hin : s.ingress c m.hpa.toNat = some (x, line)) (hd : s.srcDown c = false) :
    s.m2s m a k w = (if k.odd then s.bump F.SNOOP_EVT_CNT2_odd_meta else s).police (State.hostTx c x line k w) := by
  subst hc
  simp [State.m2s, hin, hd]

theorem State.m2s_of_miss {k : Mapped} {a : Ask} {w : Option RwD} (hc : c = m.id.src_)
    (hin : s.ingress c m.hpa.toNat = none) : s.m2s m a k w = s.ingressMiss c a m.hpa.toNat := by
  subst hc
  simp [State.m2s, hin]

theorem State.unsupported_of_miss {a : Ask} (hc : c = m.id.src_) (hin : s.ingress c m.hpa.toNat = none) :
    s.unsupported m a = s.ingressMiss c a m.hpa.toNat := by
  subst hc
  simp [State.unsupported, hin]

theorem State.unsupported_read (hc : c = m.id.src_) (hin : s.ingress c m.hpa.toNat = some (x, line)) :
    s.unsupported m .read =
      (s.bump F.SNOOP_EVT_CNT2_odd_meta).s2m c 0 (domeOf x) false (.memData .i) line Line.poisoned := by
  subst hc
  simp [State.unsupported, hin, State.portAnswer]

theorem State.unsupported_write (hc : c = m.id.src_) (hin : s.ingress c m.hpa.toNat = some (x, line)) :
    s.unsupported m .write = s.bump F.SNOOP_EVT_CNT2_odd_meta := by
  subst hc
  simp [State.unsupported, hin]

theorem exec_memrd (m : M2S) (u : Option Upset) (s : State) : exec (.memrd m u) s = run s fun s =>
    (match s.ingress m.id.src_ m.hpa.toNat with | some (_, line) => s.upset line u | none => s).hear
      (.req m .read (mapRd m.meta_) none) := rfl

theorem exec_memrd_of_ingress (u : Option Upset) (hup : s.up = true) (hc : c = m.id.src_)
    (hin : s.ingress c m.hpa.toNat = some (x, line)) :
    exec (.memrd m u) s = .next (((s.upset line u).hear (.req m .read (mapRd m.meta_) none)).keep s) := by
  rw [exec_memrd, run_up _ hup, ← hc, hin]

theorem exec_memrd_of_miss (u : Option Upset) (hup : s.up = true) (hc : c = m.id.src_)
    (hin : s.ingress c m.hpa.toNat = none) :
    exec (.memrd m u) s = .next ((s.hear (.req m .read (mapRd m.meta_) none)).keep s) := by
  rw [exec_memrd, run_up _ hup, ← hc, hin]

end

/-- A message of a host as it arrives at its port: what a command makes of its operands. -/
def IsMessage (i : Instr) (x : CxlMsg) : Prop := ∀ s, exec i s = run s fun s => s.hear x

section
variable (m : M2S)
theorem isMessage_memrddata : IsMessage (.memrddata m) (.req m .read ⟨.rdAny, true, false⟩ none) := fun _ => rfl
theorem isMessage_meminv : IsMessage (.meminv m) (.req m .state (mapInv m.meta_) none) := fun _ => rfl
theorem isMessage_meminvnt : IsMessage (.meminvnt m) (.req m .state (mapInv m.meta_) none) := fun _ => rfl
theorem isMessage_memclnevct : IsMessage (.memclnevct m) (.req m .state (mapClnEvct m.meta_) none) := fun _ => rfl
theorem isMessage_memspecrd : IsMessage (.memspecrd m) (.req m .hint ⟨.hint, false, false⟩ none) := fun _ => rfl
theorem isMessage_memwr (d : RwD) :
    IsMessage (.memwr m d) (.req m .write (mapWr m.meta_) (some { d with be := fullBe })) := fun _ => rfl
theorem isMessage_memwrptl (d : RwD) : IsMessage (.memwrptl m d) (.req m .write (mapWr m.meta_) (some d)) := fun _ => rfl
theorem isMessage_memrdfwd : IsMessage (.memrdfwd m) (.odd m .read) := fun _ => rfl
theorem isMessage_memwrfwd : IsMessage (.memwrfwd m) (.odd m .write) := fun _ => rfl
end

section
variable (x : CxlLine)
theorem isMessage_birspi : IsMessage (.birspi x) (.birsp x 0) := fun _ => rfl
theorem isMessage_birsps : IsMessage (.birsps x) (.birsp x 1) := fun _ => rfl
theorem isMessage_birspe : IsMessage (.birspe x) (.birsp x 2) := fun _ => rfl
theorem isMessage_birspBlock : IsMessage (.birspBlock x) (.block x) := fun _ => rfl
theorem isMessage_biconflict : IsMessage (.biconflict x) (.conflict x) := fun _ => rfl
end

theorem IsMessage.exec_of_hears {i : Instr} {x : CxlMsg} (hi : IsMessage i x) {s : State} {c : CxlSrc} (hup : s.up = true)
    (hc : c = x.id.src_) (h : s.hears c = true) (hsec : (s.cxlLink c.port c.link).ideSecure = false) :
    exec i s = .next ((s.takeMsg x).keep s) := by
  rw [hi s, run_up _ hup, State.hear_of_hears hc h hsec]

section
variable {s : State} {m : M2S} {c : CxlSrc} {x : Ctx} {line : Nat} {i : Instr} {a : Ask} {w : Bool} {k : HKind} {d : Option RwD}
  (hup : s.up = true) (hc : c = m.id.src_) (h : s.hears c = true) (hsec : (s.cxlLink c.port c.link).ideSecure = false)
include hup hc h hsec

/-- A request of a kind that R127 lists. -/
theorem exec_request (hi : IsMessage i (.req m a ⟨k, w, false⟩ d)) (hin : s.ingress c m.hpa.toNat = some (x, line))
    (hd : s.srcDown c = false) :
    exec i s = .next ((s.police (State.hostTx c x line ⟨k, w, false⟩ d)).keep s) := by
  rw [hi.exec_of_hears hup hc h hsec]
  exact congrArg (fun t : State => Host.Outcome.next (t.keep s)) (State.m2s_of_ingress hc hin hd)

/-- A combination that R127's table lacks. -/
theorem exec_odd_request (hi : IsMessage i (.req m a ⟨k, w, true⟩ d)) (hin : s.ingress c m.hpa.toNat = some (x, line))
    (hd : s.srcDown c = false) :
    exec i s = .next (((s.bump F.SNOOP_EVT_CNT2_odd_meta).police (State.hostTx c x line ⟨k, w, false⟩ d)).keep s) := by
  rw [hi.exec_of_hears hup hc h hsec]
  exact congrArg (fun t : State => Host.Outcome.next (t.keep s)) (State.m2s_of_ingress hc hin hd)

theorem exec_missed_request {k : Mapped} (hi : IsMessage i (.req m a k d)) (hin : s.ingress c m.hpa.toNat = none) :
    exec i s = .next ((s.ingressMiss c a m.hpa.toNat).keep s) := by
  rw [hi.exec_of_hears hup hc h hsec]
  exact congrArg (fun t : State => Host.Outcome.next (t.keep s)) (State.m2s_of_miss hc hin)

theorem exec_missed_unsupported (hi : IsMessage i (.odd m a)) (hin : s.ingress c m.hpa.toNat = none) :
    exec i s = .next ((s.ingressMiss c a m.hpa.toNat).keep s) := by
  rw [hi.exec_of_hears hup hc h hsec]
  exact congrArg (fun t : State => Host.Outcome.next (t.keep s)) (State.unsupported_of_miss hc hin)

/-- MEMRD whose filter set nothing has happened to is a message like the others. -/
theorem exec_memrd_request (hk : mapRd m.meta_ = ⟨k, w, false⟩) (hin : s.ingress c m.hpa.toNat = some (x, line))
    (hd : s.srcDown c = false) :
    exec (.memrd m none) s = .next ((s.police (State.hostTx c x line ⟨k, w, false⟩ none)).keep s) := by
  have hear : (s.upset line none).hear (.req m .read ⟨k, w, false⟩ none) = s.m2s m .read ⟨k, w, false⟩ none :=
    State.hear_of_hears hc h hsec
  rw [exec_memrd_of_ingress none hup hc hin, hk, hear, State.m2s_of_ingress hc hin hd]
  rfl

theorem exec_odd_memrd (hk : mapRd m.meta_ = ⟨k, w, true⟩) (hin : s.ingress c m.hpa.toNat = some (x, line))
    (hd : s.srcDown c = false) : exec (.memrd m none) s =
      .next (((s.bump F.SNOOP_EVT_CNT2_odd_meta).police (State.hostTx c x line ⟨k, w, false⟩ none)).keep s) := by
  have hear : (s.upset line none).hear (.req m .read ⟨k, w, true⟩ none) = s.m2s m .read ⟨k, w, true⟩ none :=
    State.hear_of_hears hc h hsec
  rw [exec_memrd_of_ingress none hup hc hin, hk, hear, State.m2s_of_ingress hc hin hd]
  rfl

end

theorem mapInv_other {m : Meta} (ha : m ≠ .a) (hi : m ≠ .i) : mapInv m = ⟨.rdCur, false, true⟩ := by cases m <;> trivial
theorem mapClnEvct_other {m : Meta} (hi : m ≠ .i) : mapClnEvct m = ⟨.rdCur, false, true⟩ := by cases m <;> trivial
theorem mapWr_agent {m : Meta} (h : m ≠ .noOp) : mapWr m = ⟨.agentWr m, false, false⟩ := by cases m <;> trivial

/-- Settles O10: each command is a message (`IsMessage`), whose kind is R127's mapping at its MetaValue; and `hear` case by
case. -/
theorem hostRequestsReachTheHome : Obligations.HostRequestsReachTheHome := by
  constructor
  · intro s m c x line hup hc hh hsec hin hd odd tx hodd htx
    obtain rfl : tx = fun k w d => State.hostTx c x line ⟨k, w, false⟩ d := funext fun k => funext fun w => funext (htx k w)
    subst hodd
    have rd := fun {k w} (hk : mapRd m.meta_ = ⟨k, w, false⟩) => exec_memrd_request hup hc hh hsec hk hin hd
    have req := fun {i a k w d} hi => exec_request (i := i) (a := a) (k := k) (w := w) (d := d) hup hc hh hsec hi hin hd
    have oddReq := fun {i a k w d} hi => exec_odd_request (i := i) (a := a) (k := k) (w := w) (d := d) hup hc hh hsec hi hin hd
    refine ⟨fun hm => rd (k := .rdS) (w := true) (by rw [hm]; rfl), fun hm => rd (k := .rdE) (w := true) (by rw [hm]; rfl),
      fun hm => rd (k := .rdCur) (w := false) (by rw [hm]; rfl),
      fun hm => exec_odd_memrd hup hc hh hsec (k := .rdCur) (w := false) (by rw [hm]; rfl) hin hd, req (isMessage_memrddata m), fun hm => ?_, fun hm => ?_, fun ha hi => ?_,
      fun hi => oddReq (mapClnEvct_other hi ▸ isMessage_memclnevct m), fun u => exec_memrd_of_ingress u hup hc hin,
      req (isMessage_memspecrd m), fun d => ⟨fun hm => ?_, fun hm => ?_⟩⟩
    · have hk : mapInv m.meta_ = ⟨.invE, true, false⟩ := by rw [hm]; rfl
      simp only [List.forall_mem_cons, List.not_mem_nil, false_imp_iff, implies_true, and_true]
      exact ⟨req (hk ▸ isMessage_meminv m), req (hk ▸ isMessage_meminvnt m)⟩
    · have hk : mapInv m.meta_ = ⟨.drop, false, false⟩ := by rw [hm]; rfl
      have hk2 : mapClnEvct m.meta_ = ⟨.drop, false, false⟩ := by rw [hm]; rfl
      simp only [List.forall_mem_cons, List.not_mem_nil, false_imp_iff, implies_true, and_true]
      exact ⟨req (hk ▸ isMessage_meminv m), req (hk ▸ isMessage_meminvnt m), req (hk2 ▸ isMessage_memclnevct m)⟩
    · have hk := mapInv_other ha hi
      simp only [List.forall_mem_cons, List.not_mem_nil, false_imp_iff, implies_true, and_true]
      exact ⟨oddReq (hk ▸ isMessage_meminv m), oddReq (hk ▸ isMessage_meminvnt m)⟩
    · have hk : mapWr m.meta_ = ⟨.plainWr, false, false⟩ := by rw [hm]; rfl
      exact ⟨req (hk ▸ isMessage_memwr m d), req (hk ▸ isMessage_memwrptl m d)⟩
    · have hk := mapWr_agent hm
      exact ⟨req (hk ▸ isMessage_memwr m d), req (hk ▸ isMessage_memwrptl m d)⟩
  · intro s x c l hc hl
    exact ⟨State.hear_of_deaf, fun h => ⟨State.hear_at_once h hc hl, State.hear_mac h hc hl, State.hear_held h hc hl⟩⟩

/-- Settles O11: an ingress miss is answered at the port as its message asks; an unsupported message reaches no data. -/
theorem requestsWithoutData : Obligations.RequestsWithoutData := by
  intro s m c hup hc hh hsec
  have req := fun {i a k d} hi => exec_missed_request (i := i) (a := a) (k := k) (d := d) hup hc hh hsec hi
  have odd := fun {i a} hi => exec_missed_unsupported (i := i) (a := a) hup hc hh hsec hi
  constructor
  · rintro hin missed rfl l rfl
    simp only [List.forall_mem_cons, List.not_mem_nil, false_imp_iff, implies_true, and_true]
    have hrd : exec (.memrd m none) s = .next ((s.ingressMiss c .read m.hpa.toNat).keep s) := by
      rw [exec_memrd_of_miss none hup hc hin]
      have hear : s.hear (.req m .read (mapRd m.meta_) none) = s.m2s m .read (mapRd m.meta_) none :=
        State.hear_of_hears hc hh hsec
      rw [hear, State.m2s_of_miss hc hin]
    exact ⟨⟨hrd, req (isMessage_memrddata m) hin, odd (isMessage_memrdfwd m) hin⟩,
      ⟨req (isMessage_meminv m) hin, req (isMessage_meminvnt m) hin, req (isMessage_memclnevct m) hin,
        odd (isMessage_memwrfwd m) hin⟩,
      fun d => ⟨req (isMessage_memwr m d) hin, req (isMessage_memwrptl m d) hin⟩, req (isMessage_memspecrd m) hin⟩
  · intro x line hin
    constructor
    · rw [(isMessage_memwrfwd m).exec_of_hears hup hc hh hsec]
      exact congrArg (fun t : State => Host.Outcome.next (t.keep s)) (State.unsupported_write hc hin)
    · rw [(isMessage_memrdfwd m).exec_of_hears hup hc hh hsec]
      exact congrArg (fun t : State => Host.Outcome.next (t.keep s)) (State.unsupported_read hc hin)

/-! ## Snoop answers -/

section
variable {s : State} {x : CxlLine} {c : CxlSrc} {a st : Nat}

theorem State.birspIn_of_agent (hc : c = x.id.src_) (ha : s.agentOf c = some a) (hd : s.agentDown a = false) :
    s.birspIn x st = s.birsp a x.line.toNat st := by
  subst hc
  simp [State.birspIn, ha, hd]

theorem State.biConflict_of_up (hc : c = x.id.src_) (hd : s.srcDown c = false) : s.biConflict x = s.s2m c 2
    (((s.home.snoops.find? fun n => some n.agent == s.agentOf c && n.line == x.line.toNat).map fun n => n.dome).getD 0)
    false .biConflictAck x.line.toNat Line.zero := by
  subst hc
  simp [State.biConflict, hd]

end

theorem State.birsp_late {s : State} {a line st : Nat}
    (h : (s.home.snoops.find? fun n => n.agent == a && n.line == line) = none) :
    s.birsp a line st = s.bump F.SNOOP_EVT_CNT2_late_birsp := by
  rw [State.birsp, h]

theorem State.birsp_allowed {s : State} {a line st : Nat} {n : Snoop}
    (h : (s.home.snoops.find? fun n => n.agent == a && n.line == line) = some n) (hok : snoopAllows n.kind st = true) :
    s.birsp a line st = (s.setAgent a line st).snoopGone n := by
  rw [State.birsp, h]
  exact if_pos hok

theorem State.birsp_disallowed {s : State} {a line st : Nat} {n : Snoop}
    (h : (s.home.snoops.find? fun n => n.agent == a && n.line == line) = some n) (hok : snoopAllows n.kind st = false) :
    s.birsp a line st = (s.snoopLost n).snoopGone n := by
  rw [State.birsp, h]
  exact if_neg (Bool.not_eq_true _ ▸ hok)

/-- The three answers, each with the state it claims. -/
theorem isMessage_birsp {x : CxlLine} :
    ∀ e ∈ [(Instr.birspi x, 0), (.birsps x, 1), (.birspe x, 2)], IsMessage e.1 (.birsp x e.2) := by
  simp only [List.forall_mem_cons, List.not_mem_nil, false_imp_iff, implies_true, and_true]
  exact ⟨isMessage_birspi x, isMessage_birsps x, isMessage_birspe x⟩

/-- Settles O12: each answer is a message of its port, and `State.birsp` decides it. -/
theorem snoopAnswers : Obligations.SnoopAnswers := by
  intro s x c hup hc hh hsec
  refine ⟨?_, fun hd => ?_, fun a ha hd e he => ?_⟩
  · rw [(isMessage_birspBlock x).exec_of_hears hup hc hh hsec]
    rfl
  · rw [(isMessage_biconflict x).exec_of_hears hup hc hh hsec]
    exact congrArg (fun t : State => Host.Outcome.next (t.keep s)) (State.biConflict_of_up hc hd)
  · have hexec : exec e.1 s = .next ((s.birsp a x.line.toNat e.2).keep s) := by
      rw [(isMessage_birsp e he).exec_of_hears hup hc hh hsec]
      exact congrArg (fun t : State => Host.Outcome.next (t.keep s)) (State.birspIn_of_agent hc ha hd)
    rw [hexec]
    exact ⟨fun hnone => by rw [State.birsp_late hnone, State.bump_keep], fun n hn =>
      ⟨fun hok => by rw [State.birsp_allowed hn hok], fun hok => by rw [State.birsp_disallowed hn hok]⟩⟩

/-! ## The home by itself -/

theorem exec_lockGrant (s : State) : exec .lockGrant s = run s fun s => s.lockGrant := rfl
theorem exec_biTimeout (s : State) : exec .biTimeout s = run s fun s => s.biTimeout := rfl
theorem exec_policerRelease (p : Fin 28) (s : State) : exec (.policerRelease p) s = run s fun s => s.policerRelease p.val := rfl

section
variable {s : State} {line : Nat} {rel : Bool} {rest : List (Nat × Bool)}

theorem State.lockGrant_of_prompted {t : Tx} (h : s.prompted = some t) :
    s.lockGrant = (s.putTx { s.atLock t with stage := .snoop }).dataStep { s.atLock t with stage := .snoop } := by
  rw [State.lockGrant, h]

theorem State.lockGrant_of_locked (hp : s.prompted = none) (hr : s.home.ready = (line, rel) :: rest)
    (hl : s.locked line = true) : s.lockGrant = { s with home := { s.home with ready := rest } } := by
  rw [State.lockGrant, hp]
  simp only [hr]
  exact if_pos hl

/-- Neither the locks nor the order of waiters depends on which lines are to be arbitrated. -/
theorem State.lockGrant_of_free {t : Tx} {w : List Tx} (hp : s.prompted = none) (hr : s.home.ready = (line, rel) :: rest)
    (hl : s.locked line = false) (hw : s.waiters line rel = t :: w) :
    s.lockGrant = ({ s with home := { s.home with ready := rest, rr := originIdx t.origin + 1 } } : State).lockStep t := by
  have hw' : ({ s with home := { s.home with ready := rest } } : State).waiters line rel = t :: w := hw
  rw [State.lockGrant, hp]
  simp only [hr, hw']
  exact if_neg (Bool.not_eq_true _ ▸ hl)

end

theorem State.biTimeout_of_cons {s : State} {n : Snoop} {rest : List Snoop} (h : s.home.snoops = n :: rest) :
    s.biTimeout = (s.snoopLost n).snoopGone n := by
  rw [State.biTimeout, h]

/-- A request held at a CXL port goes on; where it was held for its policer, it is debited. -/
theorem State.policerRelease_of_held {s : State} {p : Nat} {h : HeldReq} (hp : p < 16)
    (hf : s.home.held.find? (fun h => s.mayRelease p h) = some h) {u : State} {k : Nat}
    (hu : u = { s with home := { s.home with held := s.home.held.filter fun x => x.seq != h.seq } })
    (hk : k = p * 4096 + domeOf h.tx.ctx) : s.policerRelease p = (if h.policed then
      u.setBucket .pol k ((u.bucket .pol k).debit (u.polCost p h.tx.lines)) else u).enterHome h.tx := by
  subst hu hk
  rw [State.policerRelease, if_neg (by omega), hf]

section
variable {s : State} {t : Tx} {p k : Nat} {b : Bucket} {paid : State} (hp : p = t.at_.1) (hk : k = p * 4096 + domeOf t.ctx)
  (hb : b = s.bucket .pol k) (hpaid : paid = s.setBucket .pol k (b.debit (64 * t.lines + s.overhead p)))
include hp hk hb

theorem State.police_passable (h : b.passable = true) :
    s.police t = (s.setBucket .pol k (b.debit (64 * t.lines + s.overhead p))).enterOrKeep t := by
  subst hp hk hb
  exact if_pos h

theorem State.police_held (h : b.passable = false)
    (hhold : b.action = false ∧ t.kind.isWrite = false ∧ s.mayHold t b = true) :
    s.police t = (s.bump F.SHAPER_POL_CNT_held).keepAtPort t true := by
  subst hp hk hb
  obtain ⟨ha, hw, hm⟩ := hhold
  simp only [State.police, h, ha, hw, hm, Bool.false_eq_true, if_false, Bool.not_false, Bool.and_self, if_true]

theorem State.police_demoted (h : b.passable = false)
    (hno : b.action = true ∨ t.kind.isWrite = true ∨ s.mayHold t b = false) : s.police t =
      ((s.setBucket .pol k (b.debit (64 * t.lines + s.overhead p))).bump F.SHAPER_POL_CNT_demoted).enterOrKeep
        { t with demoted := true } := by
  subst hp hk hb
  have hcond : (!(s.bucket .pol (t.at_.1 * 4096 + domeOf t.ctx)).action && !t.kind.isWrite &&
      s.mayHold t (s.bucket .pol (t.at_.1 * 4096 + domeOf t.ctx))) = false := by
    obtain ha | hw | hm := hno
    · simp [ha]
    · simp [hw]
    · simp [hm]
  simp only [State.police, h, hcond, Bool.false_eq_true, if_false, State.polCost]

end

/-- Settles O13: `lockGrant`, `biTimeout`, `snoopLost`, `policerRelease` and `police`, each by its cases. -/
theorem homeByItself : Obligations.HomeByItself := by
  constructor
  · intro s hup
    refine ⟨?_, ?_, ?_, ?_, ?_, ?_⟩
    · rintro line rel rest t w hp hr hl hw _ rfl
      rw [exec_lockGrant, run_up _ hup, State.lockGrant_of_free hp hr hl hw]
    · intro line rel rest hp hr hl
      rw [exec_lockGrant, run_up _ hup, State.lockGrant_of_locked hp hr hl]
      rfl
    · rintro t hp _ rfl
      rw [exec_lockGrant, run_up _ hup, State.lockGrant_of_prompted hp]
    · intro n rest hn
      rw [exec_biTimeout, run_up _ hup, State.biTimeout_of_cons hn]
    · rintro n _ rfl
      exact ⟨fun h => by simp [State.snoopLost, Option.isNone_iff_eq_none, Option.isSome_iff_ne_none.1 h],
        fun h => by simp [State.snoopLost, h]⟩
    · intro p h hp hf u hu k hk
      rw [exec_policerRelease, run_up _ hup, State.policerRelease_of_held hp hf hu hk]
  · rintro s t p k b hp hk hb _ rfl
    exact ⟨State.police_passable hp hk hb, State.police_held hp hk hb, State.police_demoted hp hk hb⟩

end Sys2Proof.Machine
end

section
/-!
PROOFS. What the DRAM scheduler issues, refresh, calibration, idle rows, read data and alerts (R54 - R74).
-/
namespace Sys2Proof.Machine

/-! ## A subchannel with nothing to wait for -/

section
variable {s : State} {ch sc : Nat} {x : Subch} (hx : x = s.sub ch sc)
include hx

/-- Where no command was issued before, every command meets its timing. -/
theorem State.cmdOk_of_hist_nil (h : x.hist = []) (k : DKind) (rank bg bank : Nat) : s.cmdOk ch sc k rank bg bank = true := by
  subst hx
  simp [State.cmdOk, h]

theorem State.openIn_of_rows_nil (h : x.rows = []) (rank b : Nat) : s.openIn ch sc rank b = [] := by
  subst hx
  simp [State.openIn, h]

theorem State.refRank_of_no_debt (hs : x.started = none) (h : x.refDue = []) : s.refRank ch sc = none := by
  subst hx
  simp [State.refRank, hs, h]

/-- One rank in debt, whose banks are closed. -/
theorem State.refRank_of_debt {r n : Nat} (hs : x.started = none) (hh : x.hist = []) (hr : x.rows = [])
    (h : x.refDue = [(r, n)]) (hn : n ≠ 0) : s.refRank ch sc = some r := by
  have hok : s.refStepOk ch sc r = true := by
    simp only [State.refStepOk, State.refOpen, State.openIn_of_rows_nil hx hr]
    exact State.cmdOk_of_hist_nil hx hh ..
  subst hx
  simp [State.refRank, hs, h, hn, hok]

theorem State.rfmBank_of_no_counts (h : x.raa = []) (forced : Bool) : s.rfmBank ch sc forced = none := by
  subst hx
  have h' : ((s.chan ch).sub sc).raa = [] := h
  simp [State.rfmBank, h']

theorem State.rfmReady_of_closed (hh : x.hist = []) (hr : x.rows = []) (k : Nat) : s.rfmReady ch sc k = true := by
  simp only [State.rfmReady, State.openIn_of_rows_nil hx hr]
  exact State.cmdOk_of_hist_nil hx hh ..

/-- One bank with a count at the threshold or above. -/
theorem State.rfmBank_of_count {k n : Nat} {forced : Bool} (hh : x.hist = []) (hr : x.rows = []) (h : x.raa = [(k, n)])
    (h0 : (if forced then (s.chan ch).rfmMax else (s.chan ch).rfmInit) ≠ 0)
    (hn : (if forced then (s.chan ch).rfmMax else (s.chan ch).rfmInit) ≤ n) : s.rfmBank ch sc forced = some k := by
  have hk := State.rfmReady_of_closed hx hh hr k
  subst hx
  have h' : ((s.chan ch).sub sc).raa = [(k, n)] := h
  simp only [State.rfmBank, h', h0, if_false, List.find?, hn, decide_true, hk, Bool.and_self, Option.map_some]

theorem State.rfmBank_of_below {k n : Nat} {forced : Bool} (h : x.raa = [(k, n)])
    (hn : (if forced then (s.chan ch).rfmMax else (s.chan ch).rfmInit) = 0 ∨
      n < (if forced then (s.chan ch).rfmMax else (s.chan ch).rfmInit)) : s.rfmBank ch sc forced = none := by
  subst hx
  have h' : ((s.chan ch).sub sc).raa = [(k, n)] := h
  obtain h0 | hlt := hn
  · simp [State.rfmBank, h0]
  · simp [State.rfmBank, h', Nat.not_le.2 hlt]

theorem State.nbrStart_of_no_marks (h : x.marks = []) : s.nbrStart ch sc = none := by
  subst hx
  simp [State.nbrStart, h]

/-- One bank marked, closed, where no refresh management is kept. -/
theorem State.nbrStart_of_mark {k row : Nat} (hh : x.hist = []) (hr : x.rows = []) (h : x.marks = [(k, row)])
    (h0 : (s.chan ch).rfmMax = 0) : s.nbrStart ch sc = some (k, row) := by
  have hok := State.cmdOk_of_hist_nil hx hh .act (k / 32) (k / 4 % 8) (k % 4)
  subst hx
  simp [State.nbrStart, h, hr, State.rfmBars, h0, hok]

theorem State.cands_of_no_requests (hr : x.rq = []) (hw : x.wq = []) : s.cands ch sc = [] := by
  subst hx
  simp [State.cands, hr, hw]

theorem Subch.quiet.cmdOk (h : x.quiet) (k : DKind) (rank bg bank : Nat) : s.cmdOk ch sc k rank bg bank = true := by
  obtain ⟨-, -, -, -, -, -, hh⟩ := h
  exact State.cmdOk_of_hist_nil hx hh k rank bg bank

/-- Where nothing else holds it back, a request's next command may issue. -/
theorem State.candOk_of_quiet {loc : Nat} {co : Coord} {k : DKind} (hq : x.quiet) (hi : (s.chan ch).install = none)
    (hord : s.inOrderBanks ch sc = []) : s.candOk ch sc loc co k false = true := by
  have hok := hq.cmdOk hx k co.rank co.bg co.bank
  obtain ⟨-, hraa, hmarks, -, -, -, -⟩ := hq
  subst hx
  have hforced : s.rfmForcedBank ch sc co.key = false := by
    have hraa' : ((s.chan ch).sub sc).raa = [] := hraa
    simp [State.rfmForcedBank, hraa', SMap.findD]
  simp [State.candOk, hok, hord, hmarks, hforced, hi]

/-- The one candidate of a lone read. -/
theorem State.cands_of_read {r : RdEnt} {co : Coord} (hq : x.quiet) (hi : (s.chan ch).install = none) (hr : x.rq = [r])
    (hw : x.wq = []) (hco : co = s.coord ch r.loc) : s.cands ch sc =
      [⟨false, 0, co, nextKind x co false, s.urgency ch r.cls r.target0 r.entry, r.entry, false⟩] := by
  have hord : s.inOrderBanks ch sc = [] := by subst hx; simp [State.inOrderBanks, hw]
  have hok := State.candOk_of_quiet hx (loc := r.loc) (co := co) (k := nextKind x co false) hq hi hord
  subst hx hco
  simp [State.cands, hr, hw, Subch.matchWr, hok]

/-- The one candidate of a lone write. -/
theorem State.cands_of_write {w : WrEnt} {co : Coord} (hq : x.quiet) (hi : (s.chan ch).install = none) (hr : x.rq = [])
    (hw : x.wq = [w]) (hco : co = s.coord ch w.loc) (hd : x.drain = false) : s.cands ch sc =
      [⟨true, 0, co, nextKind x co true, s.urgency ch w.cls w.target0 w.entry, w.entry, false⟩] := by
  have hm : x.matched w = false := by simp [Subch.matched, hr]
  have hord : s.inOrderBanks ch sc = [] := by subst hx; simp [State.inOrderBanks, hw, hm]
  have hok := State.candOk_of_quiet hx (loc := w.loc) (co := co) (k := nextKind x co true) hq hi hord
  subst hx hco
  simp [State.cands, hr, hw, hd, hm, hok]

/-- A request that waits alone is chosen, whatever its command. -/
theorem State.schedule_of_cand {c : Cand} (hon : s.schedOn ch sc = true) (hq : x.quiet) (hc : s.cands ch sc = [c])
    (hm : c.matched = false) : s.schedule ch sc = .req c := by
  obtain ⟨hdue, hraa, hmarks, hnbr, hst, hrfm, -⟩ := hq
  have href := State.refRank_of_no_debt hx hst hdue
  have hfm := State.rfmBank_of_no_counts hx hraa
  have hnb := State.nbrStart_of_no_marks hx hmarks
  subst hx
  cases hk : c.kind == .rd || c.kind == .wr <;>
    simp [State.schedule, hon, hst, hrfm, hnbr, State.refReady, href, hfm, hnb, hc, hm, oldest, hk]

/-- REFsb, where a debt is all there is. -/
theorem State.schedule_of_debt {r n : Nat} (hon : s.schedOn ch sc = true) (hq : ({ x with refDue := [] } : Subch).quiet)
    (hrq : x.rq = []) (hwq : x.wq = []) (hrows : x.rows = []) (hdue : x.refDue = [(r, n)]) (hn : n ≠ 0) :
    s.schedule ch sc = .refresh ∧ s.refRank ch sc = some r := by
  obtain ⟨-, hraa, hmarks, hnbr, hst, hrfm, hhist⟩ := hq
  have href := State.refRank_of_debt hx hst hhist hrows hdue hn
  have hfm := State.rfmBank_of_no_counts hx hraa
  have hnb := State.nbrStart_of_no_marks hx hmarks
  have hc := State.cands_of_no_requests hx hrq hwq
  refine ⟨?_, href⟩
  subst hx
  dsimp only at hnbr hst hrfm
  simp [State.schedule, hon, hst, hrfm, hnbr, State.refReady, href, hfm, hnb, hc]

/-- RFM, where one bank's count is all there is. -/
theorem State.schedule_of_count {k n : Nat} (hon : s.schedOn ch sc = true) (hq : ({ x with raa := [] } : Subch).quiet)
    (hrq : x.rq = []) (hwq : x.wq = []) (hrows : x.rows = []) (hraa : x.raa = [(k, n)]) (h0 : (s.chan ch).rfmInit ≠ 0)
    (hn : (s.chan ch).rfmInit ≤ n) : s.schedule ch sc = .rfm k := by
  obtain ⟨hdue, -, hmarks, hnbr, hst, hrfm, hhist⟩ := hq
  have href := State.refRank_of_no_debt hx hst hdue
  have hfm := State.rfmBank_of_count hx (forced := false) hhist hrows hraa (by simpa using h0) (by simpa using hn)
  have hnb := State.nbrStart_of_no_marks hx hmarks
  have hc := State.cands_of_no_requests hx hrq hwq
  have hforced : s.rfmBank ch sc true = some k ∨ s.rfmBank ch sc true = none := by
    by_cases hle : (s.chan ch).rfmMax ≠ 0 ∧ (s.chan ch).rfmMax ≤ n
    · exact .inl (State.rfmBank_of_count hx hhist hrows hraa (by simpa using hle.1) (by simpa using hle.2))
    · exact .inr (State.rfmBank_of_below hx hraa (by rw [if_pos rfl]; omega))
  subst hx
  dsimp only at hnbr hst hrfm
  obtain hf | hf := hforced <;>
    simp [State.schedule, hon, hst, hrfm, hnbr, State.refReady, href, hf, hfm, hnb, hc]

/-- A neighbour set, where one mark is all there is. -/
theorem State.schedule_of_mark {k row : Nat} (hon : s.schedOn ch sc = true) (hq : ({ x with marks := [] } : Subch).quiet)
    (hrq : x.rq = []) (hwq : x.wq = []) (hrows : x.rows = []) (hmarks : x.marks = [(k, row)])
    (h0 : (s.chan ch).rfmMax = 0) :
    s.schedule ch sc = .neighbour ∧ x.nbr = none ∧ s.nbrStart ch sc = some (k, row) := by
  obtain ⟨hdue, hraa, -, hnbr, hst, hrfm, hhist⟩ := hq
  have href := State.refRank_of_no_debt hx hst hdue
  have hfm := State.rfmBank_of_no_counts hx hraa
  have hnb := State.nbrStart_of_mark hx hhist hrows hmarks h0
  have hc := State.cands_of_no_requests hx hrq hwq
  refine ⟨?_, hnbr, hnb⟩
  subst hx
  dsimp only at hnbr hst hrfm
  simp [State.schedule, hon, hst, hrfm, hnbr, State.refReady, href, hfm, hnb, hc, oldest]

end

section
variable {x : Subch} {co : Coord} (w : Bool)
theorem nextKind_closed (h : SMap.find x.rows co.key = none) : nextKind x co w = .act := by
  rw [nextKind, h]
theorem nextKind_other {row : Nat} (h : SMap.find x.rows co.key = some row) (hne : row ≠ co.row) : nextKind x co w = .pre := by
  rw [nextKind, h]
  exact if_neg hne
theorem nextKind_open (h : SMap.find x.rows co.key = some co.row) : nextKind x co w = if w then .wr else .rd := by
  rw [nextKind, h]
  exact if_pos rfl
end

/-! ## What is issued -/

section
variable {s : State} {ch sc : Nat} {c : Cand}

theorem State.dramIssue_of_req (h : s.schedule ch sc = .req c) :
    s.dramIssue ch sc = ((s.overtake ch sc c).issue ch sc c).retryKept := by
  rw [State.dramIssue, h]

theorem State.overtake_of_no_debt (h : s.refRank ch sc = none) : s.overtake ch sc c = s := by
  simp [State.overtake, h]

theorem State.issue_act (h : c.kind = .act) : s.issue ch sc c = s.issueAct ch sc c.co := by rw [State.issue, h]
theorem State.issue_pre (h : c.kind = .pre) : s.issue ch sc c = s.issuePre ch sc c.co.rank c.co.bg c.co.bank := by
  rw [State.issue, h]
theorem State.issue_wr (h : c.kind = .wr) : s.issue ch sc c = s.issueWr ch sc c := by rw [State.issue, h]
theorem State.issue_rd (h : c.kind = .rd) : s.issue ch sc c = s.issueRd ch sc c := by rw [State.issue, h]

/-- REFsb of a rank whose named banks are closed. -/
theorem State.refsbIssue_of_closed {r b : Nat} {x : Subch} (hx : x = s.sub ch sc) (h : s.schedule ch sc = .refresh)
    (hr : s.refRank ch sc = some r) (ho : s.refOpen ch sc r = []) (hb : b = SMap.findD x.refIdx r 0) :
    s.refsbIssue ch sc = ((s.setSub ch sc
      ({ x with refDue := SMap.put x.refDue r (SMap.findD x.refDue r 0 - 1),
                putOff := SMap.put x.putOff r (min (SMap.findD x.refDue r 0 - 1) (SMap.findD x.putOff r 0)),
                refIdx := SMap.put x.refIdx r ((b + 1) % 4), started := none }.lowerRaa r b (s.chan ch).rfmInit)).noteStep
      ch sc .refsb r 0 b 0).showDebt ch := by
  subst hx hb
  rw [State.refsbIssue, h]
  simp only [State.issueRef, hr, ho]

theorem State.rfmIssue_of_closed {k : Nat} {x : Subch} (hx : x = s.sub ch sc) (h : s.schedule ch sc = .rfm k)
    (ho : s.openIn ch sc (k / 32) (k % 4) = []) : s.rfmIssue ch sc = (s.setSub ch sc
      ({ x with rfmOn := none }.lowerRaa (k / 32) (k % 4) (s.chan ch).rfmInit)).noteStep ch sc .rfm (k / 32) 0 (k % 4) 0 := by
  subst hx
  rw [State.rfmIssue, h]
  simp only [State.issueRfm, ho]

theorem State.neighbourSet_of_start {k row : Nat} {x : Subch} (hx : x = s.sub ch sc) (h : s.schedule ch sc = .neighbour)
    (hn : x.nbr = none) (hst : s.nbrStart ch sc = some (k, row)) : s.neighbourSet ch sc = ((s.setSub ch sc
      (s.countAct ch
        { x with marks := SMap.del x.marks k, nbr := some ⟨k / 32, k / 4 % 8, k % 4, s.nbrRows ch row, true⟩ } k)).bump
      F.DCH_EVT_CNT0_nbr_sets 1 ch).noteStep ch sc .act (k / 32) (k / 4 % 8) (k % 4) ((s.nbrRows ch row).headD 0) := by
  subst hx
  rw [State.neighbourSet, h]
  simp only [State.issueNbr, hn, hst]

end

section
variable (ch : Fin 24) (sc : Fin 2) (s : State)
theorem exec_dramCommandIssue : exec (.dramCommandIssue ch sc) s = run s fun s => s.dramIssue ch sc := rfl
theorem exec_refsbIssue : exec (.refsbIssue ch sc) s = run s fun s => s.refsbIssue ch sc := rfl
theorem exec_rfmIssue : exec (.rfmIssue ch sc) s = run s fun s => s.rfmIssue ch sc := rfl
theorem exec_neighbourSet : exec (.neighbourSet ch sc) s = run s fun s => s.neighbourSet ch sc := rfl
theorem exec_refreshDue (r : Fin 16) : exec (.refreshDue ch sc r) s = run s fun s => s.refreshDue ch sc r := rfl
theorem exec_zqCalibration (p : Fin 4) : exec (.zqCalibration ch sc p) s = run s fun s => s.zqCal ch sc p := rfl
theorem exec_dqsOscRead (p : Fin 4) : exec (.dqsOscRead ch sc p) s = run s fun s => s.dqsOsc ch sc p := rfl
theorem exec_rowCloseIdle (r : Fin 16) (g : Fin 8) (b : Fin 4) :
    exec (.rowCloseIdle ch sc r g b) s = run s fun s => s.rowCloseIdle ch sc (bankKey r g b) := rfl
theorem exec_dramReadData (v : Stored) : exec (.dramReadData ch sc v) s = run s fun s => s.readData ch sc v := rfl
theorem exec_caAlert (a : Alert) : exec (.caAlert ch sc a) s = run s fun s => s.caAlert ch sc a := rfl
end

/-- A lone request's command is issued: no debt is there to be postponed. -/
theorem exec_dram_of_cand {s : State} {ch : Fin 24} {sc : Fin 2} {x : Subch} {c : Cand} (hup : s.up = true) (hx : x = s.sub ch sc)
    (hon : s.schedOn ch sc = true) (hq : x.quiet) (hc : s.cands ch sc = [c]) (hm : c.matched = false) :
    exec (.dramCommandIssue ch sc) s = .next ((s.issue ch sc c).retryKept.keep s) := by
  have href : s.refRank ch sc = none := by
    obtain ⟨hdue, -, -, -, hst, -, -⟩ := hq
    exact State.refRank_of_no_debt hx hst hdue
  rw [exec_dramCommandIssue, run_up _ hup, State.dramIssue_of_req (State.schedule_of_cand hx hon hq hc hm),
    State.overtake_of_no_debt href]

/-- Settles O14: what the scheduler chooses is issued; and it chooses the one thing that waits. -/
theorem schedulerSteps : Obligations.SchedulerSteps := by
  constructor
  · intro s ch sc x hup hx
    refine ⟨?_, fun hon hq hi => ⟨fun r co hr hw hco => ?_, fun w co hr hw hco hd hopen => ?_⟩⟩
    · rintro c _ hs rfl a ha hk
      rw [exec_dramCommandIssue, run_up _ hup, State.dramIssue_of_req hs]
      simp only [List.mem_cons, List.not_mem_nil, or_false] at ha
      rcases ha with rfl | rfl | rfl | rfl
      · rw [State.issue_act hk]
      · rw [State.issue_pre hk]
      · rw [State.issue_wr hk]
      · rw [State.issue_rd hk]
    · have hexec := exec_dram_of_cand hup hx hon hq (State.cands_of_read hx hq hi hr hw hco) rfl
      refine ⟨fun h => ?_, fun row h hne => ?_, fun h => ?_⟩
      · rw [hexec, State.issue_act (nextKind_closed false h)]
      · rw [hexec, State.issue_pre (nextKind_other false h hne)]
      · rw [hexec, State.issue_rd (nextKind_open false h), nextKind_open false h]
        rfl
    · rw [exec_dram_of_cand hup hx hon hq (State.cands_of_write hx hq hi hr hw hco hd) rfl,
        State.issue_wr (nextKind_open true hopen), nextKind_open true hopen]
      rfl
  · intro s ch sc x hup hx
    refine ⟨fun r b n h hb hn => ?_, fun k n h => ?_, ?_⟩
    · have hsched : s.schedule ch sc = .refresh ∧ s.refRank ch sc = some r ∧ s.refOpen ch sc r = [] := by
        obtain h | ⟨hon, hq, hrq, hwq, hrows, hdue, h0⟩ := h
        · exact h
        · obtain ⟨hs, hr⟩ := State.schedule_of_debt hx hon hq hrq hwq hrows hdue h0
          exact ⟨hs, hr, State.openIn_of_rows_nil hx hrows ..⟩
      obtain ⟨hs, hr, ho⟩ := hsched
      subst hn
      rw [exec_refsbIssue, run_up _ hup, State.refsbIssue_of_closed hx hs hr ho hb]
    · have hsched : s.schedule ch sc = .rfm k ∧ s.openIn ch sc (k / 32) (k % 4) = [] := by
        obtain h | ⟨hon, hq, hrq, hwq, hrows, hraa, h0, hn⟩ := h
        · exact h
        · exact ⟨State.schedule_of_count hx hon hq hrq hwq hrows hraa h0 hn, State.openIn_of_rows_nil hx hrows ..⟩
      rw [exec_rfmIssue, run_up _ hup, State.rfmIssue_of_closed hx hsched.1 hsched.2]
    · rintro k row _ h rfl
      have hsched : s.schedule ch sc = .neighbour ∧ x.nbr = none ∧ s.nbrStart ch sc = some (k, row) := by
        obtain h | ⟨hon, hq, hrq, hwq, hrows, hmarks, h0⟩ := h
        · exact h
        · exact State.schedule_of_mark hx hon hq hrq hwq hrows hmarks h0
      obtain ⟨hs, hn, hst⟩ := hsched
      rw [exec_neighbourSet, run_up _ hup, State.neighbourSet_of_start hx hs hn hst]

/-! ## Refresh, calibration, idle rows -/

section
variable {s : State} {ch sc : Nat} {x y : Subch}

/-- A rank's REFsb has become due. -/
theorem State.refreshDue_of_due {rank at_ : Nat} (he : s.fB F.DCH_CFG_enable ch = true) (ht : (s.chan ch).trained = true)
    (hr : (s.chan ch).selfRefresh = false) (hk : rank < s.rankCount ch) (hx : x = s.sub ch sc)
    (hat : at_ = s.refPhase ch rank (SMap.findD x.refAt rank 0)) (hdue : at_ ≤ s.pwr.rootTime)
    (hy : y = { x with refDue := SMap.put x.refDue rank (SMap.findD x.refDue rank 0 + 1),
                       refAt := SMap.put x.refAt rank at_ }) :
    s.refreshDue ch sc rank = if s.ready7 ch sc && decide (y.debt ≤ s.postponeLimit ch)
      then ((s.setSub ch sc y).showDebt ch).postpone ch sc rank else (s.setSub ch sc y).showDebt ch := by
  subst hx hat hy
  have hgo : (!(s.fB F.DCH_CFG_enable ch && (s.chan ch).trained && !(s.chan ch).selfRefresh) ||
      decide (s.rankCount ch ≤ rank) ||
      decide (s.pwr.rootTime < s.refPhase ch rank (SMap.findD (s.sub ch sc).refAt rank 0))) = false := by
    simp [he, ht, hr, hk, hdue]
  rw [State.refreshDue]
  simp only [hgo, Bool.false_eq_true, if_false]

theorem State.zqCal_of_ok {p : Nat} (hx : x = s.sub ch sc) (h : s.calOk ch sc p x.zqAt (ms 128) = true) : s.zqCal ch sc p =
    (s.setSub ch sc { x with zqAt := SMap.put x.zqAt p s.pwr.rootTime }).noteStep ch sc .zq p 0 0 0 := by
  subst hx
  exact if_pos h

theorem State.dqsOsc_of_ok {p : Nat} (hx : x = s.sub ch sc) (h : s.calOk ch sc p x.oscAt (ms 32) = true) : s.dqsOsc ch sc p =
    (s.setSub ch sc { x with oscAt := SMap.put x.oscAt p s.pwr.rootTime }).noteStep ch sc .osc p 0 0 0 := by
  subst hx
  exact if_pos h

theorem State.rowCloseIdle_of_never {k n : Nat} (hn : n = s.fN F.DCH_SCHED_CTL_row_close_idle ch) (h : n = 0 ∨ n = 4095) :
    s.rowCloseIdle ch sc k = s := by
  subst hn
  unfold State.rowCloseIdle
  obtain h | h := h <;> simp only [h] <;> split <;> simp

theorem State.rowCloseIdle_of_idle {k n row : Nat} (hx : x = s.sub ch sc) (hn : n = s.fN F.DCH_SCHED_CTL_row_close_idle ch)
    (hrow : SMap.find x.rows k = some row) (h0 : n ≠ 0) (h1 : n ≠ 4095)
    (hrq : ∀ r ∈ x.rq, ¬ ((s.coord ch r.loc).key = k ∧ (s.coord ch r.loc).row = row))
    (hwq : ∀ w ∈ x.wq, ¬ ((s.coord ch w.loc).key = k ∧ (s.coord ch w.loc).row = row))
    (hidle : SMap.findD x.lastCol k 0 + n * s.ctlTicks ≤ s.pwr.rootTime) (hon : s.schedOn ch sc = true) (hnbr : x.nbr = none)
    (hst : x.started = none) (hrfm : x.rfmOn = none) (hok : s.cmdOk ch sc .pre (k / 32) (k / 4 % 8) (k % 4) = true) :
    s.rowCloseIdle ch sc k = s.issuePre ch sc (k / 32) (k / 4 % 8) (k % 4) := by
  have hunwanted : (x.rq.any (fun r => (s.coord ch r.loc).key == k && (s.coord ch r.loc).row == row) ||
      x.wq.any fun w => (s.coord ch w.loc).key == k && (s.coord ch w.loc).row == row) = false := by
    simp only [Bool.or_eq_false_iff, List.any_eq_false, Bool.and_eq_true, beq_iff_eq]
    exact ⟨hrq, hwq⟩
  subst hx hn
  rw [State.rowCloseIdle]
  simp only [hrow, hunwanted]
  exact if_pos ⟨h0, h1, rfl, decide_eq_true hidle, hon, Option.isNone_iff_eq_none.2 hnbr, Option.isNone_iff_eq_none.2 hst,
    Option.isNone_iff_eq_none.2 hrfm, hok⟩

end

/-- Settles O15: `refreshDue`, the two calibrations and `rowCloseIdle`, each where its conditions are met. -/
theorem refreshAndCalibration : Obligations.RefreshAndCalibration := by
  constructor
  · intro s ch sc rank x y at_ hup he ht hr hk hx hat hdue hy
    rw [exec_refreshDue, run_up _ hup, State.refreshDue_of_due he ht hr hk hx hat hdue hy]
  · intro s ch sc x hup hx
    refine ⟨fun p h => ?_, fun p h => ?_, ?_⟩
    · rw [exec_zqCalibration, run_up _ hup, State.zqCal_of_ok hx h]
    · rw [exec_dqsOscRead, run_up _ hup, State.dqsOsc_of_ok hx h]
    · rintro rank bg bank _ row n rfl hn hrow
      refine ⟨fun h => ?_, fun h0 h1 hrq hwq hidle hon hnbr hst hrfm hok => ?_⟩
      · rw [exec_rowCloseIdle, run_up _ hup, State.rowCloseIdle_of_never hn h, State.keep_self]
      · rw [exec_rowCloseIdle, run_up _ hup,
          State.rowCloseIdle_of_idle hx hn hrow h0 h1 hrq hwq hidle hon hnbr hst hrfm hok]

/-! ## Read data and alerts -/

/-- Words that decode without an error leave the error log as it is. -/
theorem State.logCes_of_clean {s : State} {ch loc : Nat} {ds : List Dec} (h : ∀ d ∈ ds, d.action = 0) : s.logCes ch loc ds = s := by
  have hz : ∀ x ∈ ds.zipIdx, x.1.action = 0 := fun x hx => h x.1 (List.fst_mem_of_mem_zipIdx hx)
  unfold State.logCes
  generalize ds.zipIdx = l at hz
  induction l with
  | nil => rfl
  | cons x l ih =>
    rw [List.foldl_cons, hz x (List.mem_cons_self ..), if_neg (by decide)]
    exact ih fun y hy => hz y (List.mem_cons_of_mem _ hy)

/-- What a read returns goes on with the access it belongs to. -/
theorem State.readData_of_access {s u : State} {ch sc : Nat} {flips v : Stored} {f : Flight} {rest : List Flight} {id : Nat}
    {t : Tx} {p : Pri} (hfl : (s.sub ch sc).flight = f :: rest) (hdue : f.due ≤ s.pwr.rootTime)
    (hal : (s.sub ch sc).alert = false) (hv : v = f.beats ^^^ flips) (hid : f.ent.tx = some id)
    (hp : p = ⟨f.ent.cls, f.ent.target0, some f.ent.entry⟩)
    (hu : u = ((s.setSub ch sc { s.sub ch sc with flight := rest }).logCes ch f.ent.loc (decodeWords v)).countUe ch
      (ueMask (decodeWords v)))
    (ht : u.tx id = some t) (hue : ueMask (decodeWords v) = 0 ∨ (t.rewrites = false ∧ u.area (f.ent.line * 64) = .tenant)) :
    s.readData ch sc flips = u.dramArrive t p (u.decodeFor f.ent.line v) := by
  have hgo : (decide (s.pwr.rootTime < f.due) || (s.sub ch sc).alert) = false := by simp [hal, hdue]
  have hmeta : ∀ l, u.metaUe (f.ent.line * 64) ch f.ent.loc l (ueMask (decodeWords v)) true = (u, l, false) := by
    intro l
    obtain h0 | ⟨-, harea⟩ := hue
    · simp [State.metaUe, h0]
    · simp [State.metaUe, harea]
  have hrmw : (if t.rewrites then u.rmwUe ch f.ent.loc (ueMask (decodeWords v)) else u) = u := by
    obtain h0 | ⟨hrw, -⟩ := hue
    · simp [State.rmwUe, h0]
    · simp [hrw]
  rw [State.readData]
  simp only [hfl, hgo, Bool.false_eq_true, if_false, ← hv, ← hu, hmeta, hid, ht, hrmw, ← hp]

/-- Noting commands changes nothing but the history of the subchannel. -/
theorem Subch.noteAts_frame (x : Subch) (now : Nat) (cs : List DCmd) : ∃ h, cs.foldl (fun x c => x.noteAt now c) x =
    { x with hist := h } := by
  induction cs generalizing x with
  | nil => exact ⟨x.hist, rfl⟩
  | cons c cs ih => exact ih (x.noteAt now c)

theorem State.sub_setSub (s : State) (ch sc : Nat) (x : Subch) : (s.setSub ch sc x).sub ch sc = x := by
  rw [State.sub, State.setSub, State.chan_setChan, Channel.sub, Channel.setSub]
  split <;> simp_all

/-- The read data of a flight after a reissue: read again from the arrays, unless a spare holds it. -/
def State.flightAgain (s : State) (ch : Nat) (f : Flight) : Flight :=
  if f.spare then f else
    { f with beats := s.storedGet ch f.ent.loc
             due := max f.due (s.pwr.rootTime + s.nckTicks (s.fN F.DCH_TIMING0_trp ch) +
               s.nckTicks (s.fN F.DCH_TIMING0_trcd ch + s.fN F.DCH_TIMING0_cl ch + 8)) }

theorem State.flightAgain_keeps (s : State) (ch : Nat) (f : Flight) :
    (s.flightAgain ch f).ent = f.ent ∧ (s.flightAgain ch f).spare = f.spare := by
  unfold State.flightAgain
  split <;> exact ⟨rfl, rfl⟩

/-- What the retry buffer holds after a reissue: the writes and steps not known to have completed, with their new times. -/
def State.retryAgain (s : State) (ch : Nat) (retry : List RetryEnt) : List RetryEnt :=
  (retry.filter fun e => decide (s.pwr.rootTime < e.time + s.busyTicks ch e)).filterMap fun e => match e with
    | .cmd c => if c.kind == .refsb || c.kind == .rfm || c.kind == .zq || c.kind == .osc
        then some (.cmd { c with at_ := s.pwr.rootTime + s.nckTicks (s.fN F.DCH_TIMING0_trp ch) }) else none
    | .wr w _ => some (.wr w (s.pwr.rootTime + s.nckTicks (s.fN F.DCH_TIMING0_trp ch) +
        s.nckTicks (s.fN F.DCH_TIMING0_trcd ch + s.fN F.DCH_TIMING0_cl ch + 8)))

/-- After a reissue: every row is closed, the queues stand, and what was in flight is so again. -/
theorem State.sub_reissue (s : State) (ch sc : Nat) : ∃ n h, (s.reissue ch sc).sub ch sc =
    { s.sub ch sc with rows := [], lastCol := [], nbr := n, hist := h
                       flight := (s.sub ch sc).flight.map (s.flightAgain ch)
                       retry := s.retryAgain ch (s.sub ch sc).retry } := by
  rw [State.reissue, State.sub_setSub]
  exact ⟨_, _, (Subch.noteAts_frame _ _ _).choose_spec⟩

/-- The oldest read in flight is so again, for the same entry. -/
theorem State.flight_reissue {s : State} {ch sc : Nat} {f : Flight} {rest : List Flight}
    (h : (s.sub ch sc).flight = f :: rest) : ∃ g more, ((s.reissue ch sc).sub ch sc).flight = g :: more ∧ g.ent = f.ent ∧
      g.spare = f.spare := by
  obtain ⟨n, hist, hsub⟩ := s.sub_reissue ch sc
  obtain ⟨hent, hspare⟩ := s.flightAgain_keeps ch f
  exact ⟨s.flightAgain ch f, rest.map (s.flightAgain ch), by rw [hsub, h]; rfl, hent, hspare⟩

/-- A write whose completion is not known stays at the front of what is issued again. -/
theorem State.retry_reissue {s : State} {ch sc : Nat} {w : WrEnt} {t : Nat} {rest : List RetryEnt}
    (h : (s.sub ch sc).retry = .wr w t :: rest) (hlive : s.pwr.rootTime < t + s.busyTicks ch (.wr w t)) :
    ∃ due more, ((s.reissue ch sc).sub ch sc).retry = .wr w due :: more := by
  obtain ⟨n, hist, hsub⟩ := s.sub_reissue ch sc
  rw [hsub]
  simp [h, State.retryAgain, RetryEnt.time, hlive]

section
variable {s u : State} {ch sc : Nat} {a : Alert} (he : s.fB F.DCH_CFG_enable ch = true) (ht : (s.chan ch).trained = true)
  (hf : (s.chan ch).failed = false) (h0 : a.fails.val ≠ 0) (hu : u = s.reissue ch sc)
include he ht hf h0 hu

/-- Repaired within the limit. -/
theorem State.caAlert_of_repaired (hle : a.fails.val ≤ s.fN F.DCH_CA_CTL_retry_limit ch) :
    s.caAlert ch sc a = u.bump F.DCH_CA_FAIL_CNT_retry_ok 1 ch := by
  subst hu
  have hlim : (s.reissue ch sc).fN F.DCH_CA_CTL_retry_limit ch = s.fN F.DCH_CA_CTL_retry_limit ch := rfl
  simp [State.caAlert, he, ht, hf, h0, hlim, hle]

theorem State.caAlert_of_read {g : Flight} {more : List Flight} (hlt : s.fN F.DCH_CA_CTL_retry_limit ch < a.fails.val)
    (hw : a.wr = false) (hfl : (u.sub ch sc).flight = g :: more) (hg : g.spare = false) : s.caAlert ch sc a =
      ((u.setSub ch sc { u.sub ch sc with flight := (u.sub ch sc).flight.tail }).readFail ch g a).finalFailure ch := by
  subst hu
  have hlim : (s.reissue ch sc).fN F.DCH_CA_CTL_retry_limit ch = s.fN F.DCH_CA_CTL_retry_limit ch := rfl
  simp [State.caAlert, he, ht, hf, h0, hlim, Nat.not_le.2 hlt, hw, hfl, hg]

theorem State.caAlert_of_write {w : WrEnt} {due : Nat} {more : List RetryEnt}
    (hlt : s.fN F.DCH_CA_CTL_retry_limit ch < a.fails.val) (hw : a.wr = true)
    (hr : (u.sub ch sc).retry = .wr w due :: more) : s.caAlert ch sc a =
      ((u.setSub ch sc { u.sub ch sc with retry := (u.sub ch sc).retry.tail }).writeFail ch w a).finalFailure ch := by
  subst hu
  have hlim : (s.reissue ch sc).fN F.DCH_CA_CTL_retry_limit ch = s.fN F.DCH_CA_CTL_retry_limit ch := rfl
  simp [State.caAlert, he, ht, hf, h0, hlim, Nat.not_le.2 hlt, hw, hr]

end

/-- Settles O16: `readData` on the oldest flight that is due; `caAlert` within and past the limit. -/
theorem readsAndAlerts : Obligations.ReadsAndAlerts := by
  constructor
  · intro s ch sc flips v f rest id t p u hup hfl hdue hal hv hid hp hu
    have goesOn : u.tx id = some t → ueMask (decodeWords v) = 0 ∨ (t.rewrites = false ∧ u.area (f.ent.line * 64) = .tenant) →
        exec (.dramReadData ch sc flips) s = .next ((u.dramArrive t p (u.decodeFor f.ent.line v)).keep s) := fun ht hue => by
      rw [exec_dramReadData, run_up _ hup, State.readData_of_access hfl hdue hal hv hid hp hu ht hue]
    refine ⟨fun hclean h0 ht => goesOn ?_ (.inl h0), goesOn⟩
    rw [hu, State.logCes_of_clean hclean]
    exact ht
  · intro s u ch sc a hup he ht hf h0 hu
    refine ⟨fun hle => ⟨?_, ?_⟩, ?_⟩
    · rw [exec_caAlert, run_up _ hup, State.caAlert_of_repaired he ht hf h0 hu hle]
    · obtain ⟨n, h, hsub⟩ := s.sub_reissue ch sc
      rw [hu, hsub]
      exact ⟨rfl, rfl, rfl⟩
    · rintro hlt x rfl
      refine ⟨fun f rest hw hfl hsp => ?_, fun w t rest hw hr hlive => ?_⟩
      · obtain ⟨g, more, hg, hent, hspare⟩ := State.flight_reissue hfl
        rw [← hu] at hg
        refine ⟨g, by rw [hg]; rfl, hent, ?_⟩
        rw [exec_caAlert, run_up _ hup, State.caAlert_of_read he ht hf h0 hu hlt hw hg (hspare.trans hsp)]
      · obtain ⟨due, more, hr'⟩ := State.retry_reissue hr hlive
        rw [← hu] at hr'
        rw [exec_caAlert, run_up _ hup, State.caAlert_of_write he ht hf h0 hu hlt hw hr']

end Sys2Proof.Machine
end

section
/-!
PROOFS. Channels in service and in training, raw and remap operations, the Forager, the valid map (R32, R55, R75 - R103).
-/
namespace Sys2Proof.Machine

section
variable {t s : State} (h : t.keep s = t)
include h

/-- What the model keeps of power stands under writes of registers. -/
theorem State.wr_keep_of (r : Reg) (v : Word) (i k : Nat) : (t.wr r v i k).keep s = t.wr r v i k :=
  congrArg (fun t : State => t.wr r v i k) h
theorem State.fSet_keep_of (f : Fld) (v i k : Nat) : (t.fSet f v i k).keep s = t.fSet f v i k := State.wr_keep_of h ..
theorem State.fFlag_keep_of (f : Fld) (b : Bool) (i k : Nat) : (t.fFlag f b i k).keep s = t.fFlag f b i k :=
  State.fSet_keep_of h ..

end

/-! ## Temperature, configuration, maintenance -/

section
variable (ch : Fin 24) (s : State)
theorem exec_thermalRead (t0 t1 : Fin 256) : exec (.thermalRead ch t0 t1) s =
    .next (if s.pwr.pwrok && s.domainOn (7 + ch.val / 4) then s.thermalRead ch [t0, t1] else s) := rfl
theorem exec_dchCfgWrite (v : Word) : exec (.dchCfgWrite ch v) s = run s fun s => s.dchCfgWrite ch v := rfl
theorem exec_maintActive : exec (.maintActive ch) s = run s fun s => s.maintActive ch := rfl
theorem exec_fullTraining : exec (.fullTraining ch) s = run s fun s => s.trainCtlWrite ch 3 := rfl
theorem exec_maintTraining : exec (.maintTraining ch) s = run s fun s => s.trainCtlWrite ch 1 := rfl
theorem exec_trainingDone (r : TrainRes) : exec (.trainingDone ch r) s = run s fun s => s.trainingDone ch r := rfl
end

section
variable {s : State} {ch : Nat}

/-- The readings of a channel's modules: kept, compared with the bounds of R64, counted where a module is newly too hot. -/
theorem State.thermalRead_eq {temps : List Nat} {c : Channel} {ps : List (Option Nat × Nat)} (hc : c = s.chan ch)
    (hps : ps = c.mods.zip temps) : s.thermalRead ch temps =
      (List.range (ps.filter fun p => decide (95 < p.2) && p.1.all fun t => decide (t ≤ 95)).length).foldl
        (fun (u : State) _ => (u.raise (64 + 16 * ch + 3)).addEvent 1 3 ch)
        (s.setChan ch { c with
          mods := ps.map (fun p => some p.2) ++ c.mods.drop ps.length,
          hot := ps.any (fun p => decide (85 < p.2)) || (c.hot && ps.any fun p => decide (82 < p.2)) }) := by
  subst hps hc
  have hnew : ((s.chan ch).mods.zip temps).filter (fun p => decide (95 < p.2) && p.1.all fun t => decide (t ≤ 95)) =
      ((s.chan ch).mods.zip temps).filter fun p => decide (95 < p.2) &&
        (match p.1 with | some t => decide (t ≤ 95) | none => true) :=
    List.filter_congr fun p _ => by cases p.1 <;> rfl
  rw [hnew]
  rfl

theorem State.dchCfgWrite_eq {v : Word} {u w x : State} (hu : u = s.wrCodes R.DCH_CFG v ch)
    (hw : w = if F.DCH_CFG_enable.on v = true ∧ u.dchEnableOk ch v = false
      then (u.fFlag F.DCH_CFG_enable (s.fB F.DCH_CFG_enable ch) ch).fFlag F.DCH_STATUS_cfg_error true ch else u)
    (hx : x = if F.DCH_CFG_maint.on v then w else w.fFlag F.DCH_STATUS_maint_active false ch) :
    s.dchCfgWrite ch v = (if s.fB F.DCH_CFG_enable ch = false ∧ x.fB F.DCH_CFG_enable ch = true
      then x.refStart ch else x).showService ch := by
  have hw' : w = if (F.DCH_CFG_enable.on v && !u.dchEnableOk ch v) = true
      then (u.fFlag F.DCH_CFG_enable (s.fB F.DCH_CFG_enable ch) ch).fFlag F.DCH_STATUS_cfg_error true ch else u := by
    simpa using hw
  have hcond : (s.fB F.DCH_CFG_enable ch = false ∧ x.fB F.DCH_CFG_enable ch = true) ↔
      (!s.fB F.DCH_CFG_enable ch && x.fB F.DCH_CFG_enable ch) = true := by simp
  rw [State.dchCfgWrite]
  simp only [← hu, ← hw', ← hx, hcond]

theorem State.maintActive_of_drained (hm : s.fB F.DCH_CFG_maint ch = true) (hd : s.drained ch = true) :
    s.maintActive ch = s.fFlag F.DCH_STATUS_maint_active true ch := by
  simp [State.maintActive, hm, hd]

theorem State.maintActive_of_busy (hd : s.drained ch = false) : s.maintActive ch = s := by
  simp [State.maintActive, hd]

/-! ## Training -/

/-- What refuses any training: one that runs, or a speed that is not the clock's. -/
def State.trainBars (s : State) (ch : Nat) : Bool :=
  s.fB F.DCH_TRAIN_STATUS_busy ch || s.fB F.DCH_CFG_speed ch != s.fB F.CLK_CTL_fast_dram

/-- A training begins with this channel. -/
def State.trainBegun (s : State) (ch : Nat) (c : Channel) : State :=
  ({ s.setChan ch c with pwr := { s.pwr with trainStarted := true } } : State).fFlag F.DCH_TRAIN_STATUS_busy true ch

theorem State.trainCtl_full (hb : s.trainBars ch = false) (hl : s.fB F.GLOBAL_IL_STATUS_locked = false) :
    s.trainCtlWrite ch 3 = s.trainBegun ch { s.chan ch with
      train := some .full, mods := List.replicate (if s.fB F.DCH_CFG_dpc ch then 2 else 1) none, hot := false } := by
  have hstart : F.DCH_TRAIN_CTL_start.on 3 = true := by decide
  have hfull : F.DCH_TRAIN_CTL_full.on 3 = true := by decide
  rw [State.trainBars] at hb
  simp only [State.trainCtlWrite, hstart, hfull, Bool.not_true, Bool.false_eq_true, if_false, if_true, hb, hl, Bool.or_self,
    Bool.false_and]
  rfl

theorem State.trainCtl_maint (hb : s.trainBars ch = false) (hm : s.fB F.DCH_CFG_maint ch = true) :
    s.trainCtlWrite ch 1 = (s.trainBegun ch { s.chan ch with train := some .maint }).pguAsk 3 (.train ch) := by
  have hstart : F.DCH_TRAIN_CTL_start.on 1 = true := by decide
  have hfull : F.DCH_TRAIN_CTL_full.on 1 = false := by decide
  rw [State.trainBars] at hb
  simp only [State.trainCtlWrite, hstart, hfull, Bool.not_true, Bool.not_false, Bool.true_and, Bool.false_eq_true, if_false, hb,
    hm, Bool.or_self]
  rfl

theorem State.trainCtl_full_refused (h : s.trainBars ch = true ∨ s.fB F.GLOBAL_IL_STATUS_locked = true) :
    s.trainCtlWrite ch 3 = s.fFlag F.DCH_TRAIN_STATUS_refused true ch := by
  have hstart : F.DCH_TRAIN_CTL_start.on 3 = true := by decide
  have hfull : F.DCH_TRAIN_CTL_full.on 3 = true := by decide
  rw [← Bool.or_eq_true, State.trainBars] at h
  simp only [State.trainCtlWrite, hstart, hfull, Bool.not_true, Bool.false_eq_true, if_false, if_true, h]

theorem State.trainCtl_maint_refused (h : s.trainBars ch = true ∨ s.fB F.DCH_CFG_maint ch = false) :
    s.trainCtlWrite ch 1 = s.fFlag F.DCH_TRAIN_STATUS_refused true ch := by
  have hstart : F.DCH_TRAIN_CTL_start.on 1 = true := by decide
  have hfull : F.DCH_TRAIN_CTL_full.on 1 = false := by decide
  have h' : (s.trainBars ch || !s.fB F.DCH_CFG_maint ch) = true := by simpa using h
  rw [State.trainBars] at h'
  simp only [State.trainCtlWrite, hstart, hfull, Bool.not_true, Bool.false_eq_true, if_false, h', if_true]

/-- A subchannel whose refresh begins now, with no debt. -/
def State.refreshNow (s : State) (x : Subch) : Subch :=
  { x with refDue := [], putOff := [], refAt := (List.range 16).map fun r => (r, s.pwr.rootTime) }

@[simp] theorem State.chan_fFlag (s : State) (f : Fld) (b : Bool) (i k n : Nat) : (s.fFlag f b i k).chan n = s.chan n := by
  rw [State.chan, State.fFlag_chans, State.chan]
@[simp] theorem State.chan_fSet (s : State) (f : Fld) (v i k n : Nat) : (s.fSet f v i k).chan n = s.chan n := by
  rw [State.chan, State.fSet_chans, State.chan]

/-- Refresh's start leaves what a channel holds beside its refresh. -/
theorem State.chan_refStart (s : State) (ch : Nat) : ((s.refStart ch).showService ch).chan ch =
    { s.chan ch with sub0 := s.refreshNow (s.chan ch).sub0, sub1 := s.refreshNow (s.chan ch).sub1 } := by
  rw [State.refStart]
  exact State.chan_setChan ..

/-- A full training's end: the channel is trained as the result says, and its arrays are undefined. -/
theorem State.trainingDone_full {r : TrainRes} {c : Channel} (h : (s.chan ch).train = some .full)
    (hc : c = (s.trainingDone ch r).chan ch) : c.train = none ∧ c.trained = (r.pass && s.modulesOk ch r) ∧ c.array = [] ∧
      c.epoch = (s.chan ch).epoch + 1 ∧ c.metaInit = false := by
  subst hc
  rw [State.trainingDone, h]
  dsimp only
  rw [State.chan_refStart]
  simp only [State.chan_fSet, State.chan_fFlag, State.chan_setChan, and_self]

theorem State.trainingDone_maint {r : TrainRes} (h : (s.chan ch).train = some .maint) (hd : s.drained ch = true)
    (hl : s.hasLeave (.train ch) = true) : s.trainingDone ch r =
      ((((s.setChan ch { s.chan ch with train := none }).pguReturn (.train ch)).fFlag F.DCH_TRAIN_STATUS_busy false ch).fFlag
        F.DCH_TRAIN_STATUS_pass r.pass ch).fFlag F.DCH_TRAIN_STATUS_fail (!r.pass) ch := by
  rw [State.trainingDone, h]
  simp only [hd, hl, Bool.and_self, Bool.not_true, Bool.false_eq_true, if_false]

end

/-- Settles O17: sensors, DCH_CFG and the trainings, by the lemma of each. -/
theorem channelService : Obligations.ChannelService := by
  refine ⟨?_, fun s ch hup => ⟨?_, fun hm hd => ?_, fun hd => ?_⟩, fun s ch hup => ⟨?_, fun r h => ?_, fun r h hd hl => ?_⟩⟩
  · intro s ch t0 t1 c ps hp hdom hc hps
    rw [exec_thermalRead, hp, hdom, Bool.and_self, if_pos rfl, State.thermalRead_eq hc hps]
  · intro v u w x hu hw hx
    rw [exec_dchCfgWrite, run_up _ hup, State.dchCfgWrite_eq hu hw hx]
  · rw [exec_maintActive, run_up _ hup, State.maintActive_of_drained hm hd]
  · rw [exec_maintActive, run_up _ hup, State.maintActive_of_busy hd, State.keep_self]
  · rintro _ rfl st hst
    obtain rfl : st = s.trainBegun ch := funext hst
    rw [exec_fullTraining, exec_maintTraining, run_up _ hup, run_up _ hup]
    refine ⟨fun hb hl => ?_, fun hb hm => ?_, fun h => ?_, fun h => ?_⟩
    · rw [State.trainCtl_full hb hl]
    · rw [State.trainCtl_maint hb hm]
    · rw [State.trainCtl_full_refused h]
    · rw [State.trainCtl_maint_refused h]
  · refine ⟨_, by rw [exec_trainingDone, run_up _ hup], ?_⟩
    exact State.trainingDone_full (s := s) (ch := ch) (c := (s.trainingDone ch r).chan ch) h rfl
  · rw [exec_trainingDone, run_up _ hup, State.trainingDone_maint h hd hl]

/-! ## Raw test operations and remap operations -/

/-- A field set in a word reads as what it was set to. -/
theorem Fld.of_setBits (f : Fld) (v : Word) (x : Nat) (hf : f.inReg = true) :
    f.of (BitVec.ofNat 32 (setBits v.toNat f.lo (f.hi + 1 - f.lo) x)) = x % 2 ^ (f.hi + 1 - f.lo) := by
  simp only [Fld.inReg, decide_eq_true_eq] at hf
  rw [Fld.of, BitVec.toNat_ofNat, Nat.mod_eq_of_lt (setBits_lt _ _ _ _ 32 v.isLt (by omega)), bits_setBits]

section
variable (ch : Fin 24) (v : Word) (s : State)
theorem exec_rawRead : exec (.rawRead ch v) s = run s fun s => s.rawCtlWrite ch (BitVec.ofNat 32 (setBits v.toNat 24 3 1)) := rfl
theorem exec_rawWrite : exec (.rawWrite ch v) s = run s fun s => s.rawCtlWrite ch (BitVec.ofNat 32 (setBits v.toNat 24 3 2)) := rfl
theorem exec_injectWrite :
    exec (.injectWrite ch v) s = run s fun s => s.rawCtlWrite ch (BitVec.ofNat 32 (setBits v.toNat 24 3 3)) := rfl
theorem exec_checkedRead :
    exec (.checkedRead ch v) s = run s fun s => s.rawCtlWrite ch (BitVec.ofNat 32 (setBits v.toNat 24 3 4)) := rfl
theorem exec_remapRead :
    exec (.remapRead ch v) s = run s fun s => s.remapHiWrite ch (BitVec.ofNat 32 (setBits v.toNat 28 3 0)) := rfl
theorem exec_remapInstall :
    exec (.remapInstall ch v) s = run s fun s => s.remapHiWrite ch (BitVec.ofNat 32 (setBits v.toNat 28 3 1)) := rfl
theorem exec_installBlank :
    exec (.installBlank ch v) s = run s fun s => s.remapHiWrite ch (BitVec.ofNat 32 (setBits v.toNat 28 3 2)) := rfl
theorem exec_remapRemove :
    exec (.remapRemove ch v) s = run s fun s => s.remapHiWrite ch (BitVec.ofNat 32 (setBits v.toNat 28 3 3)) := rfl
theorem exec_remapInstallDone : exec (.remapInstallDone ch) s = run s fun s => s.installDone ch := rfl
end

section
variable {s u : State} {ch loc : Nat} {w : Word} {word m : Nat → Nat} (hu : u = s.wrCodes R.DCH_RAW_CTL w ch)
  (hloc : loc = (u.fN F.DCH_RAW_CTL_addr_hi ch * 2 ^ 32 + u.fN F.DCH_RAW_ADDR_addr_lo ch) * 64)
  (hm : u.fB F.DCH_CFG_maint ch = true) (ha : u.fB F.DCH_STATUS_maint_active ch = true) (hcap : loc < u.chanCap ch)
include hu hloc hm ha hcap

theorem State.rawCtl_read (hop : F.DCH_RAW_CTL_op.of w = 1) : s.rawCtlWrite ch w = (List.range 16).foldl (fun t j =>
    (t.wr R.DCH_RAW_D ((beat (u.arrayGet ch loc) j).setWidth 32) ch j).wr R.DCH_RAW_M
      ((t.rd R.DCH_RAW_M ch j &&& 0xFFFFFF00) ||| ((beat (u.arrayGet ch loc) j).extractLsb' 32 8).setWidth 32) ch j) u := by
  simp only [State.rawCtlWrite, ← hu, ← hloc]
  simp [hop, hm, ha, Nat.not_le.2 hcap]

theorem State.rawCtl_write (hop : F.DCH_RAW_CTL_op.of w = 2) (hword : ∀ j, word j = (u.rd R.DCH_RAW_D ch j).toNat)
    (hmask : ∀ j, m j = u.fN F.DCH_RAW_M_check ch j + u.fN F.DCH_RAW_M_poison ch j * 128) : s.rawCtlWrite ch w =
      u.arrayPut ch loc ((List.range 16).foldl (fun a j => setBeat a j (BitVec.ofNat 40 (word j + m j * 2 ^ 32))) 0) := by
  simp only [State.rawCtlWrite, ← hu, ← hloc]
  simp [hop, hm, ha, Nat.not_le.2 hcap, hword, hmask]

theorem State.rawCtl_inject (hop : F.DCH_RAW_CTL_op.of w = 3)
    (hmask : ∀ j, m j = u.fN F.DCH_RAW_M_check ch j + u.fN F.DCH_RAW_M_poison ch j * 128) : s.rawCtlWrite ch w =
      u.arrayPut ch loc ((List.range 16).foldl (fun a j =>
        setBeat a j (encodeBeat (u.rd R.DCH_RAW_D ch j) (bit (m j) 7) ^^^ BitVec.ofNat 40 (m j % 128 * 2 ^ 32))) 0) := by
  simp only [State.rawCtlWrite, ← hu, ← hloc]
  simp [hop, hm, ha, Nat.not_le.2 hcap, hmask]

theorem State.rawCtl_checked (hop : F.DCH_RAW_CTL_op.of w = 4) : s.rawCtlWrite ch w =
    (decodeWords (u.arrayGet ch loc)).zipIdx.foldl (fun t x =>
      (t.wr R.DCH_RAW_D x.1.data ch x.2).wr R.DCH_RAW_M (BitVec.ofNat 32
        (bits (beat (u.arrayGet ch loc) x.2).toNat 32 7 + (if x.1.p then 128 else 0) + x.1.syn.toNat * 256 +
          x.1.action * 65536)) ch x.2) u := by
  simp only [State.rawCtlWrite, ← hu, ← hloc]
  simp [hop, hm, ha, Nat.not_le.2 hcap]

end

section
variable {s u : State} {ch loc : Nat} {w : Word} (hb : s.fB F.DCH_REMAP_HI_busy ch = false) (hu : u = s.wrCodes R.DCH_REMAP_HI w ch)

/-- A field of another register of the channel stands while DCH_REMAP_HI is written. -/
theorem State.fN_remapHi (f : Fld) (h : f.reg.addr ch 0 ≠ R.DCH_REMAP_HI.addr ch 0) :
    (s.wrCodes R.DCH_REMAP_HI w ch).fN f ch = s.fN f ch := State.fN_wr_other _ _ _ _ _ _ _ _ h

theorem State.remapIdx_stands : (s.wrCodes R.DCH_REMAP_HI w ch).fN F.DCH_REMAP_IDX_entry ch = s.fN F.DCH_REMAP_IDX_entry ch :=
  State.fN_remapHi _ (by simp [Reg.addr, F.DCH_REMAP_IDX_entry, R.DCH_REMAP_IDX, R.DCH_REMAP_HI])
theorem State.remapMaint_stands : (s.wrCodes R.DCH_REMAP_HI w ch).fB F.DCH_CFG_maint ch = s.fB F.DCH_CFG_maint ch :=
  congrArg (· != 0) (State.fN_remapHi _ (by simp [Reg.addr, F.DCH_CFG_maint, R.DCH_CFG, R.DCH_REMAP_HI]))
theorem State.remapEnable_stands : (s.wrCodes R.DCH_REMAP_HI w ch).fB F.DCH_CFG_enable ch = s.fB F.DCH_CFG_enable ch :=
  congrArg (· != 0) (State.fN_remapHi _ (by simp [Reg.addr, F.DCH_CFG_enable, R.DCH_CFG, R.DCH_REMAP_HI]))

theorem State.remapChan_stands : (s.wrCodes R.DCH_REMAP_HI w ch).chan ch = s.chan ch := by
  rw [State.chan, State.wrCodes_chans, State.chan]

include hb hu

theorem State.remapHi_read {e : RemapEnt} (hop : F.DCH_REMAP_HI_op.of w = 0)
    (he : SMap.find (s.chan ch).remap (s.fN F.DCH_REMAP_IDX_entry ch) = some e) : s.remapHiWrite ch w =
      (((u.fSet F.DCH_REMAP_LO_line_lo (e.loc / 64 % 2 ^ 32) ch).fSet F.DCH_REMAP_HI_line_hi (e.loc / 64 / 2 ^ 32) ch).fFlag
        F.DCH_REMAP_HI_auto e.auto ch).fFlag F.DCH_REMAP_HI_valid true ch := by
  rw [← State.remapIdx_stands (w := w), ← State.remapChan_stands (w := w), ← hu] at he
  simp [State.remapHiWrite, ← hu, hop, hb, he]

theorem State.remapHi_read_free (hop : F.DCH_REMAP_HI_op.of w = 0)
    (he : SMap.find (s.chan ch).remap (s.fN F.DCH_REMAP_IDX_entry ch) = none) : s.remapHiWrite ch w =
      (((u.fSet F.DCH_REMAP_LO_line_lo 0 ch).fSet F.DCH_REMAP_HI_line_hi 0 ch).fFlag F.DCH_REMAP_HI_auto false ch).fFlag
        F.DCH_REMAP_HI_valid false ch := by
  rw [← State.remapIdx_stands (w := w), ← State.remapChan_stands (w := w), ← hu] at he
  simp [State.remapHiWrite, ← hu, hop, hb, he]

section
variable (hloc : loc = (u.fN F.DCH_REMAP_HI_line_hi ch * 2 ^ 32 + u.fN F.DCH_REMAP_LO_line_lo ch) * 64) {k : Nat}
  (hno : (s.chan ch).remapOf loc = none) (hcap : loc < u.chanCap ch) (hk : SMap.firstFree (s.chan ch).remap 16 = some k)
include hloc hno hcap hk

theorem State.remapHi_install (hop : F.DCH_REMAP_HI_op.of w = 1) : s.remapHiWrite ch w =
    (u.setChan ch { s.chan ch with install := some ⟨k, loc, false⟩ }).fFlag F.DCH_REMAP_HI_busy true ch := by
  rw [← State.remapChan_stands (w := w), ← hu] at hno hk ⊢
  simp only [State.remapHiWrite, ← hu, ← hloc]
  simp [hop, hb, hno, Nat.not_le.2 hcap, hk]

theorem State.remapHi_blank (hop : F.DCH_REMAP_HI_op.of w = 2)
    (hq : s.fB F.DCH_CFG_enable ch = false ∨ s.fB F.DCH_CFG_maint ch = true) : s.remapHiWrite ch w =
      (u.remapPut ch k ⟨loc, false, encodeLine Line.zero⟩).addEvent 1 1 loc := by
  rw [← State.remapChan_stands (w := w), ← hu] at hno hk
  rw [← State.remapEnable_stands (w := w), ← State.remapMaint_stands (w := w), ← hu] at hq
  have hq' : (!u.fB F.DCH_CFG_enable ch || u.fB F.DCH_CFG_maint ch) = true := by simpa using hq
  simp only [State.remapHiWrite, ← hu, ← hloc]
  simp [hop, hb, hno, Nat.not_le.2 hcap, hk, hq']

end

/-- A removed entry's line has no value the specification gives. -/
theorem State.remapHi_remove {e : RemapEnt} {x : State} (hop : F.DCH_REMAP_HI_op.of w = 3)
    (he : SMap.find (s.chan ch).remap (s.fN F.DCH_REMAP_IDX_entry ch) = some e) (hm : s.fB F.DCH_CFG_maint ch = true)
    (hx : x = u.setChan ch { s.chan ch with remap := SMap.del (s.chan ch).remap (s.fN F.DCH_REMAP_IDX_entry ch) }) :
    s.remapHiWrite ch w = (({ x with free := s.free + 1 } : State).arrayPut ch e.loc
      (Config.undefinedLine ch (2 ^ 32 + s.free) (e.loc / 64))).remapFree ch := by
  have hfree : u.free = s.free := by rw [hu, State.wrCodes_free]
  rw [← State.remapIdx_stands (w := w), ← State.remapChan_stands (w := w), ← hu] at he hx
  rw [← State.remapMaint_stands (w := w), ← hu] at hm
  subst hx
  simp [State.remapHiWrite, ← hu, hop, hb, he, hm, State.draw, hfree]

end

theorem State.installDone_of_install {s : State} {ch : Nat} {i : Install} (h : (s.chan ch).install = some i) :
    s.installDone ch = ((s.setChan ch { s.chan ch with install := none }).installCopy ch i.entry i.loc i.auto).fFlag
      F.DCH_REMAP_HI_busy false ch := by
  rw [State.installDone, h]

/-- Settles O18: one lemma for each operation of DCH_RAW_CTL and of DCH_REMAP_HI. -/
theorem rawAndRemapOperations : Obligations.RawAndRemapOperations := by
  constructor
  · rintro s ch v op _ u loc hup h1 h4 rfl hu hloc hm ha hcap word m hword hmask
    have hop := Fld.of_setBits F.DCH_RAW_CTL_op v op (by decide)
    refine ⟨?_, ?_, ?_, ?_⟩ <;> rintro rfl
    · rw [exec_rawRead, run_up _ hup, State.rawCtl_read hu hloc hm ha hcap hop]
    · rw [exec_rawWrite, run_up _ hup, State.rawCtl_write hu hloc hm ha hcap hop hword hmask]
    · rw [exec_injectWrite, run_up _ hup, State.rawCtl_inject hu hloc hm ha hcap hop hmask]
    · rw [exec_checkedRead, run_up _ hup, State.rawCtl_checked hu hloc hm ha hcap hop]
  · intro s ch v hup hb u hu loc hloc
    have hop := fun op => Fld.of_setBits F.DCH_REMAP_HI_op v op (by decide)
    refine ⟨fun e he => ?_, fun he => ?_, fun k hno hcap hk => ?_, fun k hno hcap hk hq => ?_, fun e he hm => ?_, fun i hi => ?_⟩
    · rw [exec_remapRead, run_up _ hup, State.remapHi_read hb (hu 0) (hop 0) he]
    · rw [exec_remapRead, run_up _ hup, State.remapHi_read_free hb (hu 0) (hop 0) he]
    · rw [exec_remapInstall, run_up _ hup, State.remapHi_install hb (hu 1) (hloc 1) hno hcap hk (hop 1)]
    · rw [exec_installBlank, run_up _ hup, State.remapHi_blank hb (hu 2) (hloc 2) hno hcap hk (hop 2) hq]
    · refine ⟨_, by rw [exec_remapRemove, run_up _ hup], fun w hw => ?_⟩
      rw [State.remapHi_remove hb (hu 3) (hop 3) he hm hw]
    · rw [exec_remapInstallDone, run_up _ hup, State.installDone_of_install hi]

/-! ## The Forager -/

section
variable (ch : Fin 24) (s : State)
theorem exec_foragerRead (f : FrgFlips) : exec (.foragerRead ch f) s = run s fun s => s.foragerRead ch f := rfl
theorem exec_foragerAccel (v : Word) :
    exec (.foragerAccel ch v) s = run s fun s => s.frgCtlWrite ch (BitVec.ofNat 32 (setBits v.toNat 1 1 1)) := rfl
theorem exec_foragerLapEnd : exec (.foragerLapEnd ch) s = run s fun s => s.lapEnd ch := rfl
end

section
variable {s : State} {ch : Nat} {c : Channel} (hc : c = s.chan ch)
include hc

/-- A line that decodes without an error. -/
theorem State.foragerRead_clean {f : FrgFlips} {p : Nat} {ds : List Dec} (hp : p = c.frgNext 16 c.frgPos)
    (hr : s.frgReady ch p = true) (hds : ds = decodeWords (s.storedGet ch (p * 64) ^^^ f.first))
    (hclean : ∀ d ∈ ds, d.action = 0) (hue : ueMask ds = 0) : s.foragerRead ch f =
      ((s.setChan ch { c with frgPos := p + 1, frgLast := s.pwr.rootTime }).showPos ch).logCes ch (p * 64) ds := by
  have herr : (ds.any fun d => d.action != 0) = false := by
    simpa only [List.any_eq_false, bne_iff_ne, ne_eq, Decidable.not_not] using hclean
  subst hc
  simp [State.foragerRead, ← hp, hr, ← hds, herr, hue]

/-- Acceleration abandons the lap. -/
theorem State.frgCtl_accel {w : Word} {u x : State} (hacc : F.DCH_FRG_CTL_accel.on w = true)
    (hwas : s.fB F.DCH_FRG_CTL_accel ch = false) (hen : s.fB F.DCH_FRG_CTL_enable ch = F.DCH_FRG_CTL_enable.on w)
    (hu : u = s.wrCodes R.DCH_FRG_CTL w ch)
    (hx : x = ((u.setChan ch { c with frgPos := 0, frgLapTicks := 0, frgSince := s.pwr.rootTime }).showPos ch).pguAsk 2
      (.forager ch)) : s.frgCtlWrite ch w = x.fFlag F.DCH_FRG_CTL_grant_wait (!x.hasLeave (.forager ch)) ch := by
  have hchan : u.chan ch = s.chan ch := by rw [hu, State.chan, State.wrCodes_chans, State.chan]
  have hpwr : u.pwr = s.pwr := by rw [hu, State.wrCodes_pwr]
  subst hc hx
  simp [State.frgCtlWrite, ← hu, hacc, hwas, hen, hchan, hpwr]

theorem State.lapEnd_of_past {u x : State} (hcap : s.chanCap ch ≤ c.frgNext 16 c.frgPos * 64)
    (hu : u = s.fSet F.DCH_FRG_LAP_last_lap_ms (min (2 ^ 32 - 1) (s.lapTicks ch / ms 1)) ch)
    (hx : x = ((u.setChan ch { c with frgPos := 0, frgLapTicks := 0, frgSince := s.pwr.rootTime }).showPos ch).bump
      F.DCH_FRG_POS_HI_laps 1 ch) : s.lapEnd ch =
        ((x.fFlag F.DCH_FRG_CTL_accel false ch).fFlag F.DCH_FRG_CTL_grant_wait false ch).pguReturn (.forager ch) := by
  have hpwr : u.pwr = s.pwr := by rw [hu, State.fSet_pwr]
  subst hc
  rw [← hpwr] at hx
  rw [State.lapEnd, if_neg (Nat.not_lt.2 hcap), hx, hu]

end

/-- Settles O19: a clean read, acceleration, and the end of a lap. -/
theorem foragerWalk : Obligations.ForagerWalk := by
  intro s ch c hup hc
  refine ⟨fun f p ds hp hr hds hclean hue => ?_, ?_, fun u x hcap hu hx => ?_⟩
  · rw [exec_foragerRead, run_up _ hup, State.foragerRead_clean hc hp hr hds hclean hue]
  · rintro v _ u x rfl hwas hen hu hx
    have hacc : F.DCH_FRG_CTL_accel.on (BitVec.ofNat 32 (setBits v.toNat 1 1 1)) = true := by
      have hof : F.DCH_FRG_CTL_accel.of (BitVec.ofNat 32 (setBits v.toNat 1 1 1)) = 1 :=
        Fld.of_setBits F.DCH_FRG_CTL_accel v 1 (by decide)
      rw [Fld.on, hof]
      rfl
    rw [exec_foragerAccel, run_up _ hup, State.frgCtl_accel hc hacc hwas hen hu hx]
  · rw [exec_foragerLapEnd, run_up _ hup, State.lapEnd_of_past hc hcap hu hx]

/-! ## The valid map and the layout lock -/

section
variable (s : State)
theorem exec_vmapZero : exec .vmapZero s = run s fun s => s.vmapCtlWrite 4 := rfl
theorem exec_vmapZeroDone : exec .vmapZeroDone s = run s fun s => s.vmapZeroDone := rfl
theorem exec_vmapOn : exec .vmapOn s = run s fun s => s.vmapCtlWrite 2 := rfl
theorem exec_ilLock : exec .ilLock s = run s fun s => s.ilLockWrite 1 := rfl
end

section
variable {s : State}

theorem State.vmapCtl_zero (hl : s.fB F.GLOBAL_IL_STATUS_locked = true) (hb : s.fB F.GLOBAL_VMAP_STATUS_zero_busy = false)
    (hd : s.fB F.GLOBAL_VMAP_STATUS_zero_done = false) : s.vmapCtlWrite 4 = s.fFlag F.GLOBAL_VMAP_STATUS_zero_busy true := by
  have hzero : F.GLOBAL_VMAP_CTL_zero.on 4#32 = true := by decide
  have hon : F.GLOBAL_VMAP_CTL_on.on 4#32 = false := by decide
  simp [State.vmapCtlWrite, hzero, hon, hl, hb, hd]

theorem State.vmapCtl_on (h : s.fB F.GLOBAL_VMAP_STATUS_zero_done = true ∨ s.fB F.GLOBAL_VMAP_STATUS_recovery = true) :
    s.vmapCtlWrite 2 = ((s.fFlag F.GLOBAL_VMAP_CTL_on true).fFlag F.GLOBAL_VMAP_STATUS_on true).fFlag
      F.GLOBAL_VMAP_STATUS_recovery false := by
  have hzero : F.GLOBAL_VMAP_CTL_zero.on 2#32 = false := by decide
  have hon : F.GLOBAL_VMAP_CTL_on.on 2#32 = true := by decide
  simp [State.vmapCtlWrite, hzero, hon, h]

theorem State.vmapZeroDone_of_busy (h : s.fB F.GLOBAL_VMAP_STATUS_zero_busy = true) : s.vmapZeroDone =
    ((s.chanList.foldl (fun (t : State) ch => t.metaZero ch)
      { s with honey := { s.honey with lines := s.honey.lines.filter fun e =>
        !(s.metaDefault (lineOf (e.1 / 16) e.2.tag * 64)).isSome } }).fFlag F.GLOBAL_VMAP_STATUS_zero_busy false).fFlag
      F.GLOBAL_VMAP_STATUS_zero_done true := by
  rw [State.vmapZeroDone, h]
  rfl

theorem State.ilLock_allowed {rs : List (Nat × Nat × Bool)} (hl : s.fB F.GLOBAL_IL_STATUS_locked = false) (hrs : s.layoutRegs = some rs)
    (hok : layoutOk s.memTop s.chanList.length s.hiveBase rs = true) :
    s.ilLockWrite 1 = (s.fFlag F.GLOBAL_IL_STATUS_locked true).fFlag F.GLOBAL_IL_STATUS_layout_error false := by
  have hlock : F.GLOBAL_IL_LOCK_lock.on 1#32 = true := by decide
  simp [State.ilLockWrite, hlock, hl, hrs, hok]

theorem State.ilLock_refused {rs : List (Nat × Nat × Bool)} (hl : s.fB F.GLOBAL_IL_STATUS_locked = false) (hrs : s.layoutRegs = some rs)
    (hok : layoutOk s.memTop s.chanList.length s.hiveBase rs = false) (hr : s.pwr.ready = false) :
    s.ilLockWrite 1 = (s.fFlag F.GLOBAL_IL_STATUS_layout_error true).fSet F.START_STATUS_error 4 := by
  have hlock : F.GLOBAL_IL_LOCK_lock.on 1#32 = true := by decide
  simp [State.ilLockWrite, hlock, hl, hrs, hok, hr]

end

/-- Settles O20: the writes of GLOBAL_VMAP_CTL and GLOBAL_IL_LOCK, and zeroing's end. -/
theorem validMapAndLayout : Obligations.ValidMapAndLayout := by
  intro s hup
  refine ⟨fun hl hb hd => ?_, fun h => ?_, fun h => ?_, fun hl => ⟨fun rs hrs hok => ?_, fun rs hrs hok hr => ?_⟩⟩
  · rw [exec_vmapZero, run_up _ hup, State.vmapCtl_zero hl hb hd, State.fFlag_keep]
  · rw [exec_vmapZeroDone, run_up _ hup, State.vmapZeroDone_of_busy h]
  · rw [exec_vmapOn, run_up _ hup, State.vmapCtl_on h,
      State.fFlag_keep_of (State.fFlag_keep_of (State.fFlag_keep ..) ..)]
  · rw [exec_ilLock, run_up _ hup, State.ilLock_allowed hl hrs hok, State.fFlag_keep_of (State.fFlag_keep ..)]
  · rw [exec_ilLock, run_up _ hup, State.ilLock_refused hl hrs hok hr, State.fSet_keep_of (State.fFlag_keep ..)]

end Sys2Proof.Machine
end

section
/-!
PROOFS. CXL ports: the ingress table's commands, HDM decoders, links, IDE and DOE (R38, R39, R240 - R255).
-/
namespace Sys2Proof.Machine

/-! ## Ports and links read back -/

@[simp] theorem State.cxlPort_setCxlPort (s : State) (p : Nat) (x : CxlPort) : (s.setCxlPort p x).cxlPort p = x := by
  show (s.cxl.set (Fin.ofNat 16 p).val x (Fin.ofNat 16 p).isLt).get (Fin.ofNat 16 p) = x
  rw [Vector.get_eq_getElem]
  exact Vector.getElem_set_self _

theorem CxlPort.link_setLink (x : CxlPort) (l : Nat) (y : CxlLink) : (x.setLink l y).link l = y := by
  rw [CxlPort.setLink, CxlPort.link]
  split <;> simp_all

@[simp] theorem State.cxlLink_setCxlLink (s : State) (p l : Nat) (x : CxlLink) : (s.setCxlLink p l x).cxlLink p l = x := by
  rw [State.cxlLink, State.setCxlLink, State.cxlPort_setCxlPort, CxlPort.link_setLink]

theorem State.cxlPort_fFlag (s : State) (f : Fld) (b : Bool) (i k p : Nat) : (s.fFlag f b i k).cxlPort p = s.cxlPort p := by
  rw [State.cxlPort, State.fFlag_cxl, State.cxlPort]

theorem State.cxlPort_fSet (s : State) (f : Fld) (v i k p : Nat) : (s.fSet f v i k).cxlPort p = s.cxlPort p := by
  rw [State.cxlPort, State.fSet_cxl, State.cxlPort]

theorem State.domeSt_of_domes {u s : State} (h : u.domes = s.domes) : u.domeSt = s.domeSt := by
  funext d
  rw [State.domeSt, h, State.domeSt]

theorem State.raise_cxl (s : State) (a b c d e) : (s.raise a b c d e).cxl = s.cxl := by
  unfold State.raise
  split <;> rfl

theorem State.raise_home (s : State) (a b c d e) : (s.raise a b c d e).home = s.home := by
  unfold State.raise
  split <;> rfl

theorem bits_and (x y lo w : Nat) : bits (x &&& y) lo w = bits x lo w &&& bits y lo w := by
  rw [bits, Nat.and_div_two_pow, Nat.and_mod_two_pow, bits, bits]

/-- A field that a mask leaves out reads as 0. -/
theorem Fld.on_and_of_masked (f : Fld) (v m : Word) (h : f.of m = 0) : f.on (v &&& m) = false := by
  rw [Fld.of] at h
  rw [Fld.on, Fld.of, BitVec.toNat_and, bits_and, h, Nat.and_zero]
  rfl

/-! ## The ingress context table -/

section
variable (p : Fin 16) (s : State)
theorem exec_ctxtRead (i : Fin 1024) : exec (.ctxtRead p i) s = run s fun s => s.ctxtCmdWrite p (ctxtCmdWord 0 i) := rfl
theorem exec_ctxtWrite (i : Fin 1024) : exec (.ctxtWrite p i) s = run s fun s => s.ctxtCmdWrite p (ctxtCmdWord 1 i) := rfl
theorem exec_ctxtInvalidate (i : Fin 1024) :
    exec (.ctxtInvalidate p i) s = run s fun s => s.ctxtCmdWrite p (ctxtCmdWord 2 i) := rfl
theorem exec_ctxtCmdDone : exec (.ctxtCmdDone p) s = run s fun s => s.ctxtDone p := rfl
end

/-- The command word names its operation and its index. -/
theorem ctxtCmdWord_fields {op i : Nat} (hop : op < 4) (hi : i < 1024) :
    F.CXLP_CTXT_CMD_op.of (ctxtCmdWord op i) = op ∧ F.CXLP_CTXT_CMD_index.of (ctxtCmdWord op i) = i := by
  simp only [Fld.of, ctxtCmdWord, F.CXLP_CTXT_CMD_op, F.CXLP_CTXT_CMD_index, bits, BitVec.toNat_ofNat]
  omega

section
variable {s : State} {p : Nat} {x : CxlPort} (hx : x = s.cxlPort p)
include hx

/-- A command that finds none running takes its index and the registers, and is busy. -/
theorem State.ctxtCmd_of_idle {op i : Nat} (hb : s.fB F.CXLP_CTXT_CMD_busy p = false) (hop : op < 3) (hi : i < 1024) :
    s.ctxtCmdWrite p (ctxtCmdWord op i) = (s.setCxlPort p { x with ctxtCmd := some ⟨op, i,
      BitVec.ofNat 19 (s.rd R.CXLP_CTXT_KEY p).toNat, BitVec.ofNat 16 (s.fN F.CXLP_CTXT_VAL_ctx p)⟩ }).fFlag
        F.CXLP_CTXT_CMD_busy true p := by
  obtain ⟨hof, hidx⟩ := ctxtCmdWord_fields (by omega : op < 4) hi
  subst hx
  simp [State.ctxtCmdWrite, hof, hidx, hb, Nat.ne_of_lt hop]

section
variable {c : CtxtCmd} {e : CtxtEnt} {u : State} (hc : x.ctxtCmd = some c) (he : e = SMap.findD x.ctxt c.idx ⟨false, 0, 0⟩)
  (hu : u = (s.setCxlPort p { x with ctxtCmd := none }).fFlag F.CXLP_CTXT_CMD_busy false p)
include hu

omit hx in
theorem State.ctxtDone_port : u.cxlPort p = { x with ctxtCmd := none } := by
  rw [hu, State.cxlPort_fFlag, State.cxlPort_setCxlPort]

include hc

theorem State.ctxtDone_read (he : e = SMap.findD x.ctxt c.idx ⟨false, 0, 0⟩) (hop : c.op = 0) : s.ctxtDone p =
    ((u.wr R.CXLP_CTXT_KEY (BitVec.ofNat 32 e.key.toNat) p).wr R.CXLP_CTXT_VAL (BitVec.ofNat 32 e.ctx.toNat) p).fFlag
      F.CXLP_CTXT_STATUS_entry_valid e.valid p := by
  subst hx he hu
  simp only [State.ctxtDone, hc]
  exact if_pos hop

theorem State.ctxtDone_write (hop : c.op = 1) : s.ctxtDone p = u.ctxtPut p c := by
  subst hx hu
  simp [State.ctxtDone, hc, hop]

theorem State.ctxtDone_invalidate (he : e = SMap.findD x.ctxt c.idx ⟨false, 0, 0⟩) (hop : c.op = 2) : s.ctxtDone p =
    u.setCxlPort p { x with ctxtCmd := none, ctxt := SMap.store x.ctxt ⟨false, 0, 0⟩ c.idx { e with valid := false } } := by
  have hport := State.ctxtDone_port hu
  subst hx
  rw [State.ctxtDone, hc]
  simp only [← hu, hop, hport, ← he]
  rfl

end
end

section
variable {s : State} {p : Nat} {x : CxlPort} {c : CtxtCmd} {dup zero dead : Bool} (hx : s.cxlPort p = x)
  (hdup : dup = x.ctxt.any fun e => e.1 != c.idx && e.2.valid && e.2.key == c.key) (hzero : zero = (domeOf c.ctx == 0))
  (hdead : dead = (s.domeSt (domeOf c.ctx) != .active))
include hx hdup hzero hdead

theorem State.ctxtPut_stored (h0 : dup = false) (h1 : zero = false) (h2 : dead = false) :
    s.ctxtPut p c = s.setCxlPort p { x with ctxt := SMap.put x.ctxt c.idx ⟨true, c.key, c.ctx⟩ } := by
  simp only [State.ctxtPut, hx, ← hdup, ← hzero, ← hdead, h0, h1, h2]
  rfl

theorem State.ctxtPut_refused (h : dup = true ∨ zero = true ∨ dead = true) : s.ctxtPut p c =
    (let a := if dup then s.fFlag F.CXLP_CTXT_STATUS_dup_key true p else s
     let b := if zero then a.fFlag F.CXLP_CTXT_STATUS_dome_zero true p else a
     if dead then b.fFlag F.CXLP_CTXT_STATUS_dome_not_active true p else b) := by
  have h' : (dup || zero || dead) = true := by simpa [or_assoc] using h
  simp only [State.ctxtPut, hx, ← hdup, ← hzero, ← hdead, h', if_true]

end

/-! ## HDM decoders and CXLP_CFG -/

section
variable (s : State)
theorem exec_hdmCommit (d : Fin 32) (ig : Fin 16) (iw : Fin 8) : exec (.hdmCommit d ig iw) s =
    run s fun s => s.hdmCtlWrite d (BitVec.ofNat 32 (ig.val * 2 ^ 8 + iw.val * 2 ^ 4 + 1)) := rfl
theorem exec_hdmUncommit (d : Fin 32) : exec (.hdmUncommit d) s =
    run s fun s => s.hdmCtlWrite d ((s.rd R.CXLP_HDM_CTL 0 d) &&& 0xF70#32) := rfl
theorem exec_cxlpCfgWrite (p : Fin 16) (v : Word) : exec (.cxlpCfgWrite p v) s = run s fun s => s.cxlCfgWrite p v := rfl
end

/-- The word of a commit: the granularity and the ways, with commit set and error clear. -/
theorem hdmCommitWord_fields {v : Word} {ig iw : Nat} (hig : ig < 16) (hiw : iw < 8)
    (hv : v = BitVec.ofNat 32 (ig * 2 ^ 8 + iw * 2 ^ 4 + 1)) : F.CXLP_HDM_CTL_ig.of v = ig ∧ F.CXLP_HDM_CTL_iw.of v = iw ∧
      F.CXLP_HDM_CTL_error.on v = false ∧ F.CXLP_HDM_CTL_commit.on v = true := by
  subst hv
  simp only [Fld.on, bne_eq_false_iff_eq, bne_iff_ne, Fld.of, F.CXLP_HDM_CTL_ig, F.CXLP_HDM_CTL_iw, F.CXLP_HDM_CTL_error,
    F.CXLP_HDM_CTL_commit, bits, BitVec.toNat_ofNat]
  omega

section
variable {s u : State} {d : Nat} {v : Word} {ig iw : Nat} (hig : ig < 16) (hiw : iw < 8)
  (hv : v = BitVec.ofNat 32 (ig * 2 ^ 8 + iw * 2 ^ 4 + 1)) (hc : s.fB F.CXLP_HDM_CTL_committed 0 d = false)
  (hu : u = (s.fSet F.CXLP_HDM_CTL_ig ig 0 d).fSet F.CXLP_HDM_CTL_iw iw 0 d)
include hig hiw hv hc hu

theorem State.hdmCtl_commit (hr : u.hdmRefused d = false) : s.hdmCtlWrite d v =
    (u.fFlag F.CXLP_HDM_CTL_committed true 0 d).fFlag F.CXLP_HDM_CTL_commit true 0 d := by
  obtain ⟨hofig, hofiw, herr, hgo⟩ := hdmCommitWord_fields hig hiw hv
  simp only [State.hdmCtlWrite, herr, hgo, hc, hofig, hofiw, ← hu, hr, Bool.not_true, Bool.false_eq_true, if_false]

theorem State.hdmCtl_refused (hr : u.hdmRefused d = true) : s.hdmCtlWrite d v = u.fFlag F.CXLP_HDM_CTL_error true 0 d := by
  obtain ⟨hofig, hofiw, herr, hgo⟩ := hdmCommitWord_fields hig hiw hv
  simp only [State.hdmCtlWrite, herr, hgo, hc, hofig, hofiw, ← hu, hr, Bool.not_true, Bool.false_eq_true, if_false, if_true]

end

theorem State.hdmCtl_uncommit {s : State} {d : Nat} (v : Word) (hc : s.fB F.CXLP_HDM_CTL_committed 0 d = true) :
    s.hdmCtlWrite d (v &&& 0xF70#32) =
      (s.fFlag F.CXLP_HDM_CTL_committed false 0 d).fFlag F.CXLP_HDM_CTL_commit false 0 d := by
  have herr := Fld.on_and_of_masked F.CXLP_HDM_CTL_error v 0xF70#32 (by decide)
  have hgo := Fld.on_and_of_masked F.CXLP_HDM_CTL_commit v 0xF70#32 (by decide)
  simp only [State.hdmCtlWrite, herr, hgo, hc, Bool.false_eq_true, if_false, if_true]

section
variable {s u w : State} {p : Nat} {v : Word}
  (hu : u = (s.fFlag F.CXLP_CFG_fm_func (F.CXLP_CFG_fm_func.on v) p).fFlag F.CXLP_CFG_ide_required
    (F.CXLP_CFG_ide_required.on v) p)
  (hw : w = (u.fSet F.CXLP_CFG_mode (F.CXLP_CFG_mode.of v) p).fFlag F.CXLP_CFG_bifurcate (F.CXLP_CFG_bifurcate.on v) p)
include hu

theorem State.cxlCfg_stays (he : u.fB F.CXLP_CFG_enable p = true) (hv : F.CXLP_CFG_enable.on v = true) :
    s.cxlCfgWrite p v = u := by
  simp only [State.cxlCfgWrite, ← hu, he, hv, if_true]

theorem State.cxlCfg_disabled (he : u.fB F.CXLP_CFG_enable p = true) (hv : F.CXLP_CFG_enable.on v = false) :
    s.cxlCfgWrite p v = ((u.fFlag F.CXLP_CFG_enable false p).linkDown p 0).linkDown p 1 := by
  simp only [State.cxlCfgWrite, ← hu, he, hv, if_true, Bool.false_eq_true, if_false]

include hw

theorem State.cxlCfg_stored (he : u.fB F.CXLP_CFG_enable p = false)
    (hv : F.CXLP_CFG_enable.on v = false ∨ w.fN F.CXLP_CFG_mode p = 3) : s.cxlCfgWrite p v = w := by
  have hno : (!F.CXLP_CFG_enable.on v || w.fN F.CXLP_CFG_mode p == 3) = true := by simpa using hv
  simp only [State.cxlCfgWrite, ← hu, he, Bool.false_eq_true, if_false, ← hw, hno, if_true]

/-- An enable takes the settings over. -/
theorem State.cxlCfg_enabled (he : u.fB F.CXLP_CFG_enable p = false) (hv : F.CXLP_CFG_enable.on v = true)
    (hm : w.fN F.CXLP_CFG_mode p ≠ 3) : s.cxlCfgWrite p v = (w.fFlag F.CXLP_CFG_enable true p).setCxlPort p
      { s.cxlPort p with
        mode := (w.fFlag F.CXLP_CFG_enable true p).fN F.CXLP_CFG_mode p
        bifurcate := (w.fFlag F.CXLP_CFG_enable true p).fB F.CXLP_CFG_bifurcate p
        fmFunc := (w.fFlag F.CXLP_CFG_enable true p).fB F.CXLP_CFG_fm_func p } := by
  have hgo : (!F.CXLP_CFG_enable.on v || w.fN F.CXLP_CFG_mode p == 3) = false := by simp [hv, hm]
  have hport : w.cxlPort p = s.cxlPort p := by
    simp only [hw, hu, State.cxlPort_fFlag, State.cxlPort_fSet]
  simp only [State.cxlCfgWrite, ← hu, he, Bool.false_eq_true, if_false, ← hw, hgo, State.cxlPort_fFlag, hport]

end

/-- Settles O24: the table's commands, the decoders and CXLP_CFG, each by its cases. -/
theorem cxlPortTables : Obligations.CxlPortTables := by
  refine ⟨fun s p x hup hx => ⟨fun i hb go hgo => ?_, fun c e u hc he hu => ⟨fun hop => ?_, ?_, fun hop => ?_⟩⟩,
    fun s d hup => ⟨fun ig iw u hc hu => ⟨fun hr => ?_, fun hr => ?_⟩, fun hc => ?_⟩,
    fun s p v u w hup hu hw => ⟨fun he hv => ?_, fun he hv => ?_, fun he hv => ?_, fun he hv hm => ?_⟩⟩
  · rw [exec_ctxtRead, exec_ctxtWrite, exec_ctxtInvalidate, run_up _ hup, run_up _ hup, run_up _ hup,
      State.ctxtCmd_of_idle hx hb (by decide) i.isLt, State.ctxtCmd_of_idle hx hb (by decide) i.isLt,
      State.ctxtCmd_of_idle hx hb (by decide) i.isLt, hgo, hgo, hgo]
    exact ⟨rfl, rfl, rfl⟩
  · rw [exec_ctxtCmdDone, run_up _ hup, State.ctxtDone_read hx hc hu he hop]
  · intro hop dup zero dead hdup hzero hdead
    have hport := State.ctxtDone_port hu
    have hdome : u.domeSt = s.domeSt :=
      State.domeSt_of_domes (by rw [hu, State.fFlag_domes, State.setCxlPort_domes])
    rw [← hdome] at hdead
    rw [exec_ctxtCmdDone, run_up _ hup, State.ctxtDone_write hx hc hu hop]
    refine ⟨fun h0 h1 h2 => ?_, fun h => ?_⟩
    · rw [State.ctxtPut_stored hport hdup hzero hdead h0 h1 h2]
    · rw [State.ctxtPut_refused hport hdup hzero hdead h]
  · rw [exec_ctxtCmdDone, run_up _ hup, State.ctxtDone_invalidate hx hc hu he hop]
  · rw [exec_hdmCommit, run_up _ hup, State.hdmCtl_commit ig.isLt iw.isLt rfl hc hu hr]
  · rw [exec_hdmCommit, run_up _ hup, State.hdmCtl_refused ig.isLt iw.isLt rfl hc hu hr]
  · rw [exec_hdmUncommit, run_up _ hup, State.hdmCtl_uncommit _ hc]
  · rw [exec_cxlpCfgWrite, run_up _ hup, State.cxlCfg_stays hu he hv]
  · rw [exec_cxlpCfgWrite, run_up _ hup, State.cxlCfg_disabled hu he hv]
  · rw [exec_cxlpCfgWrite, run_up _ hup, State.cxlCfg_stored hu hw he hv]
  · refine ⟨_, by rw [exec_cxlpCfgWrite, run_up _ hup, State.cxlCfg_enabled hu hw he hv hm], ?_⟩
    rw [State.cxlPort, State.keep_cxl, ← State.cxlPort, State.cxlPort_setCxlPort]

/-! ## Links -/

section
variable (p : Fin 16) (l : Fin 2) (s : State)
theorem exec_cxlLinkUp (w : Fin 3) (fast : Bool) :
    exec (.cxlLinkUp p l w fast) s = run s fun s => s.cxlUp p l w fast := rfl
theorem exec_linkRecovery : exec (.linkRecovery p l) s = run s fun s => s.recover p l := rfl
theorem exec_retrain0 : exec (.retrain0 p) s = run s fun s => s.recover p 0 := rfl
theorem exec_retrain1 : exec (.retrain1 p) s = run s fun s => s.recover p 1 := rfl
theorem exec_recoveryTimeout : exec (.recoveryTimeout p l) s =
    run s fun s => if (s.cxlLink p l).recovery.isSome then s.linkDown p l else s := rfl
theorem exec_linkDown : exec (.linkDown p l) s = run s fun s => s.linkDown p l := rfl
theorem exec_linkDisable : exec (.linkDisable p l) s = run s fun s => s.linkDown p l := rfl
theorem exec_hotReset : exec (.hotReset p l) s = run s fun s => s.hotReset p l := rfl
theorem exec_keyProg (sess : Fin 256) (t : IdeStream) (ks dir : Fin 2) (key : BitVec 256) :
    exec (.keyProg p l sess t ks dir key) s = run s fun s => s.keyProg p l sess t ks dir key := rfl
theorem exec_kSetGo (g : SetGo) : exec (.kSetGo p l g) s = run s fun s => s.kSetGo p l g.stream g.set g.skid := rfl
theorem exec_ideIntegrityFailure : exec (.ideIntegrityFailure p l) s = run s fun s => s.ideFail p l := rfl
theorem exec_doeObject (f : Func) (k : DoeKind) (n : Nat) :
    exec (.doeObject p l f k n) s = run s fun s => s.doe p l f k n := rfl
end

section
variable {s : State} {p l : Nat} {x : CxlLink} (hx : x = s.cxlLink p l)
include hx

theorem State.cxlUp_of_down {w : Nat} {fast : Bool} (he : s.fB F.CXLP_CFG_enable p = true)
    (hl : l = 1 → (s.cxlPort p).bifurcate = true) (hw : (s.cxlPort p).bifurcate = true → w ≠ 2) (hup : x.up = false) :
    s.cxlUp p l w fast = (s.setCxlLink p l
      { x with up := true, recovery := none, width := w + 1, speed := if fast then 2 else 1 }).vecsUp p l := by
  subst hx
  rw [State.cxlLink] at hup
  have hgo : (!s.fB F.CXLP_CFG_enable p || (l == 1 && !(s.cxlPort p).bifurcate) ||
      ((s.cxlPort p).bifurcate && w == 2)) = false := by
    cases hb : (s.cxlPort p).bifurcate
    · have hl' : l ≠ 1 := fun h => by simp [hl h] at hb
      simp [he, hl']
    · simp [he, hw hb]
  simp only [State.cxlUp, hgo, hup, Bool.false_and, Bool.false_eq_true, if_false]
  rfl

theorem State.recover_of_up (hup : x.up = true) (hr : x.recovery = none) : s.recover p l =
    s.setCxlLink p l { x with recovery := some s.pwr.refTime, replays := x.replays + 1 } := by
  subst hx
  simp [State.recover, hup, hr]

end

/-- What a link's loss leaves of it. -/
theorem State.linkDown_link {s : State} {p l : Nat} {x : CxlLink} (hx : x = s.cxlLink p l) (hup : x.up = true) :
    (s.linkDown p l).cxlLink p l = { x with
      up := false, recovery := none, width := 0, speed := 0, ideSecure := false,
      keySet := 0, ideKeys := [], ioKeys := [], ioSet := [], epoch := [], downs := x.downs + 1, discarded := x.discarded +
        ((s.eg.items.filter fun i => i.port == p && i.link == l).filter fun i =>
          match i.body with | .s2m _ _ _ _ => true | _ => false).length } := by
  subst hx
  simp only [State.linkDown, hup, Bool.not_true, Bool.false_eq_true, if_false]
  rw [State.cxlLink, State.cxlPort, State.raise_cxl, State.bump_cxl, ← State.cxlPort, ← State.cxlLink,
    State.cxlLink_setCxlLink] <;> rfl

/-- No request of a link that went down is held. -/
theorem State.linkDown_held {s : State} {p l : Nat} (hup : (s.cxlLink p l).up = true) :
    ∀ h ∈ (s.linkDown p l).home.held, h.tx.origin.onLink p l = false := by
  simp only [State.linkDown, hup, Bool.not_true, Bool.false_eq_true, if_false]
  rw [State.raise_home, State.bump_home]
  intro h hh
  have hmem := (List.mem_filter.1 hh).2
  simpa using hmem

/-- Settles O25: a link's transitions, and what its loss takes with it. -/
theorem cxlLinks : Obligations.CxlLinks := by
  refine ⟨fun s p l x hup hx => ⟨fun w fast he hl hw hdown => ?_, ?_, fun hr => ?_, ?_, ?_⟩, fun s p l x hx hup => ?_⟩
  · rw [exec_cxlLinkUp, run_up _ hup, State.cxlUp_of_down hx he hl hw hdown]
  · rintro hlink hr u hu
    have hrec := State.recover_of_up hx hlink hr
    rw [← hu] at hrec
    refine ⟨?_, fun hl => ?_, fun hl => ?_⟩
    · rw [exec_linkRecovery, run_up _ hup, hrec]
    · rw [exec_retrain0, run_up _ hup, ← hrec, hl]
    · rw [exec_retrain1, run_up _ hup, ← hrec, hl]
  · rw [hx] at hr
    rw [exec_recoveryTimeout, run_up _ hup, if_pos hr]
  · simp only [List.forall_mem_cons, List.not_mem_nil, false_imp_iff, implies_true, and_true]
    rw [exec_linkDown, exec_linkDisable, run_up _ hup]
    exact ⟨rfl, rfl⟩
  · rintro u v rfl rfl
    rw [exec_hotReset, run_up _ hup, State.hotReset]
  · have hup' := hup
    rw [hx] at hup'
    exact ⟨State.linkDown_link hx hup, State.linkDown_held hup'⟩

/-! ## IDE and DOE -/

section
variable {s : State} {p l : Nat} {x : CxlLink} (hx : x = s.cxlLink p l) (hup : x.up = true)
include hx hup

theorem State.keyProg_mem {sess ks dir : Nat} {key : BitVec 256} (hk : s.mayKey p l sess = true) :
    s.keyProg p l sess .mem ks dir key =
      (s.setCxlLink p l { x with ideKeys := SMap.put x.ideKeys (ks * 2 + dir) key }).emit (.doe p l 0 []) := by
  subst hx
  simp [State.keyProg, hup, hk]

theorem State.keyProg_io {sess ks dir : Nat} {key : BitVec 256} {n : Fin 256} {sub : Fin 3} (hk : s.mayKey p l sess = true)
    (hn : n.val < 5) : s.keyProg p l sess (.io n sub) ks dir key = (s.setCxlLink p l
      { x with ioKeys := SMap.put x.ioKeys (((n.val * 3 + sub.val) * 2 + ks) * 2 + dir) key }).emit (.doe p l 0 []) := by
  subst hx
  simp [State.keyProg, hup, hk, Nat.not_le.2 hn, ioKey]

theorem State.keyProg_refused {sess ks dir : Nat} {t : IdeStream} {key : BitVec 256}
    (h : s.mayKey p l sess = false ∨ ∃ n sub, t = .io n sub ∧ 5 ≤ n.val) :
    s.keyProg p l sess t ks dir key = s.emit (.doe p l 1 []) := by
  subst hx
  obtain hk | ⟨n, sub, rfl, hn⟩ := h
  · simp [State.keyProg, hup, hk]
  · simp [State.keyProg, hup, hn]

theorem State.kSetGo_mem {ks : Nat} {skid : Bool} (h0 : (SMap.find x.ideKeys (ks * 2)).isSome = true)
    (h1 : (SMap.find x.ideKeys (ks * 2 + 1)).isSome = true) :
    s.kSetGo p l .mem ks skid = s.setCxlLink p l { x with keySet := ks, ideSecure := true, skid := skid } := by
  subst hx
  simp [State.kSetGo, hup, h0, h1]

theorem State.kSetGo_io {ks : Nat} {skid : Bool} {n : Fin 256} {sub : Fin 3}
    (h : ∀ j < 3, ∀ dir < 2, (SMap.find x.ioKeys (((n.val * 3 + j) * 2 + ks) * 2 + dir)).isSome = true) :
    s.kSetGo p l (.io n sub) ks skid = s.setCxlLink p l { x with ioSet := SMap.put x.ioSet n.val ks } := by
  have hall : ((List.range 3).all fun j => (List.range 2).all fun dir =>
      (SMap.find x.ioKeys (ioKey n j ks dir)).isSome) = true := by
    simp only [List.all_eq_true, List.mem_range]
    exact h
  subst hx
  simp only [State.kSetGo, hup, Bool.not_true, Bool.false_eq_true, if_false, hall, if_true]

theorem State.ideFail_of_up : s.ideFail p l = (((s.setCxlLink p l { x with ideFails := x.ideFails + 1 }).bump
    F.CXLP_ERR_CNT_ide_fail 1 p).raise (640 + 16 * p + 1) 0 0 none l).linkDown p l := by
  subst hx
  simp only [State.ideFail, hup, Bool.not_true, Bool.false_eq_true, if_false]

end

section
variable {s : State} {p l : Nat} {x : CxlLink} {f : Func} {n : Nat} {k : DoeKind} (hx : x = s.cxlLink p l)
  (hf : s.hasFunc p l f = true)
include hx hf

theorem State.doe_abort : s.doe p l f .abort n =
    s.setCxlLink p l { x with doeErr := x.doeErr.filter fun e => e != f.idx } := by
  subst hx
  simp [State.doe, hf]

theorem State.doe_in_error (he : x.doeErr.contains f.idx = true) (hk : k ≠ .abort) : s.doe p l f k n = s := by
  subst hx
  simp only [State.doe, hf, Bool.not_true, Bool.false_eq_true, if_false, if_neg hk, he, if_true]

theorem State.doe_too_long (he : x.doeErr.contains f.idx = false) (hk : k ≠ .abort) (hn : 65536 < n) :
    s.doe p l f k n = s.setCxlLink p l { x with doeErr := f.idx :: x.doeErr } := by
  subst hx
  simp only [State.doe, hf, Bool.not_true, Bool.false_eq_true, if_false, if_neg hk, he, if_pos hn]

theorem State.doe_cdat (he : x.doeErr.contains f.idx = false) (hn : n ≤ 65536) :
    s.doe p l f .cdat n = s.emit (.doe p l 0 x.cdat) := by
  subst hx
  simp only [State.doe, hf, Bool.not_true, Bool.false_eq_true, if_false, reduceCtorEq, he, Nat.not_lt.2 hn]

theorem State.doe_discovery (he : x.doeErr.contains f.idx = false) (hn : n ≤ 65536) :
    s.doe p l f .discovery n = s.emit (.doe p l 0 [0, 1, 2, 3, 4]) := by
  subst hx
  simp only [State.doe, hf, Bool.not_true, Bool.false_eq_true, if_false, reduceCtorEq, he, Nat.not_lt.2 hn]

end

/-- Settles O26: KEY_PROG, K_SET_GO, integrity failures and DOE objects on a link that is up. -/
theorem ideAndDoe : Obligations.IdeAndDoe := by
  intro s p l x hup hx hlink
  refine ⟨fun sess ks dir key hk => ⟨?_, fun n sub hn => ?_⟩, fun sess t ks dir key h => ?_, fun ks skid h0 h1 => ?_,
    fun ks skid n sub h => ?_, ?_, fun f n hf => ⟨?_, fun he k hk => ?_, fun he => ⟨fun hn k hk => ?_, fun hn => ⟨?_, ?_⟩⟩⟩⟩
  · rw [exec_keyProg, run_up _ hup, State.keyProg_mem hx hlink hk]
  · rw [exec_keyProg, run_up _ hup, State.keyProg_io hx hlink hk hn]
  · rw [exec_keyProg, run_up _ hup, State.keyProg_refused hx hlink h, State.emit_keep]
  · rw [exec_kSetGo, run_up _ hup, State.kSetGo_mem hx hlink h0 h1]
  · rw [exec_kSetGo, run_up _ hup, State.kSetGo_io hx hlink h]
  · rw [exec_ideIntegrityFailure, run_up _ hup, State.ideFail_of_up hx hlink]
  · rw [exec_doeObject, run_up _ hup, State.doe_abort hx hf]
  · rw [exec_doeObject, run_up _ hup, State.doe_in_error hx hf he hk, State.keep_self]
  · rw [exec_doeObject, run_up _ hup, State.doe_too_long hx hf he hk hn]
  · rw [exec_doeObject, run_up _ hup, State.doe_cdat hx hf he hn, State.emit_keep]
  · rw [exec_doeObject, run_up _ hup, State.doe_discovery hx hf he hn, State.emit_keep]

end Sys2Proof.Machine
end

section
/-!
PROOFS. The honey cache's halves and enable, page heat and the hot list, migration slots, snoop agents, packet fetch and the
mailbox (R113, R117 - R126, R130, R143, R147, R154 - R156, R171).
-/
namespace Sys2Proof.Machine

theorem bits_or (x y lo w : Nat) : bits (x ||| y) lo w = bits x lo w ||| bits y lo w := by
  rw [bits, Nat.or_div_two_pow, Nat.or_mod_two_pow, bits, bits]

/-- A field that a word written over another sets is set. -/
theorem Fld.on_or_of_set (f : Fld) (v m : Word) (h : f.of m ≠ 0) : f.on (v ||| m) = true := by
  rw [Fld.of] at h
  rw [Fld.on, Fld.of, BitVec.toNat_or, bits_or, bne_iff_ne]
  exact fun h0 => h (Nat.or_eq_zero_iff.1 h0).2

/-! ## Halves and enable -/

section
variable (s : State)
theorem exec_halfPowerDown (b : Fin 2) : exec (.halfPowerDown b) s = run s fun s => s.halfDown b := rfl
theorem exec_halfPowerDownDone (b : Fin 2) : exec (.halfPowerDownDone b) s = run s fun s => s.halfDownDone b := rfl
theorem exec_halfPowerUp (b : Fin 2) : exec (.halfPowerUp b) s = run s fun s => s.halfUp b := rfl
theorem exec_halfPowerUpDone (b : Fin 2) : exec (.halfPowerUpDone b) s = run s fun s => s.halfUpDone b := rfl
theorem exec_cacheDisable : exec .cacheDisable s = run s fun s => s.cacheEnable false := rfl
theorem exec_cacheEnable : exec .cacheEnable s = run s fun s => s.cacheEnable true := rfl
end

section
variable {s u : State} {b : Nat}

theorem State.halfDown_of_off (h : s.honey.halfOf b = .off) : s.halfDown b = s := if_pos h

theorem State.halfDown_refused {pinned : Bool}
    (hp : pinned = (s.halfKeys b).any fun k => (SMap.find s.honey.lines k).any fun x => x.pinned)
    (h : s.honey.halfOf b ≠ .off) (hr : s.honey.halfOf (1 - b) = .off ∨ pinned = true ∨ s.halfBusy = true) :
    s.halfDown b = s.fFlag F.HONEY_CTL_refused true := by
  have hr' : (decide (s.honey.halfOf (1 - b) = .off) || pinned || s.halfBusy) = true := by simpa [or_assoc] using hr
  simp only [State.halfDown, if_neg h, ← hp, hr', if_true]

theorem State.halfDown_begins {pinned : Bool}
    (hp : pinned = (s.halfKeys b).any fun k => (SMap.find s.honey.lines k).any fun x => x.pinned)
    (h : s.honey.halfOf b ≠ .off) (ho : s.honey.halfOf (1 - b) ≠ .off) (hpin : pinned = false) (hbusy : s.halfBusy = false)
    (hu : u = ((s.setHalf b .flushWait).fFlag (halfCtl b) false).pguAsk 5 (.flush b)) :
    s.halfDown b = (if u.hasLeave (.flush b) then u.setHalf b .flushing else u).showHalves := by
  have hgo : (decide (s.honey.halfOf (1 - b) = .off) || pinned || s.halfBusy) = false := by simp [ho, hpin, hbusy]
  simp only [State.halfDown, if_neg h, ← hp, hgo, Bool.false_eq_true, if_false, ← hu]

theorem State.halfUp_of_on (h : s.honey.halfOf b = .on) : s.halfUp b = s := if_pos h

theorem State.halfUp_refused (h : s.honey.halfOf b ≠ .on) (hr : s.honey.halfOf (1 - b) = .off ∨ s.halfBusy = true) :
    s.halfUp b = s.fFlag F.HONEY_CTL_refused true := by
  have hr' : (decide (s.honey.halfOf (1 - b) = .off) || s.halfBusy) = true := by simpa using hr
  simp only [State.halfUp, if_neg h, hr', if_true]

theorem State.halfUp_begins (h : s.honey.halfOf b ≠ .on) (ho : s.honey.halfOf (1 - b) ≠ .off) (hbusy : s.halfBusy = false)
    (hu : u = ((s.setHalf b .rising).fFlag (halfCtl b) true).showHalves) :
    s.halfUp b = { u with pwr := { u.pwr with domains := u.pwr.domains ||| (1#20 <<< (4 + b)) } } := by
  have hgo : (decide (s.honey.halfOf (1 - b) = .off) || s.halfBusy) = false := by simp [ho, hbusy]
  simp only [State.halfUp, if_neg h, hgo, Bool.false_eq_true, if_false, ← hu]

theorem State.halfDownDone_of_flushing {v : State} (h : s.honey.halfOf b = .flushing) (hu : u = s.flushLines b)
    (hv : v = ((u.setHalf b .off).pguReturn (.flush b)).showHalves) : s.halfDownDone b = if u.halfKeys b = [] then
      { v with pwr := { v.pwr with domains := v.pwr.domains &&& ~~~(1#20 <<< (4 + b)) } } else u := by
  rw [State.halfDownDone, if_pos h]
  simp only [← hu, ← hv]
  cases u.halfKeys b <;> simp

theorem State.halfUpDone_of_rising (h : s.honey.halfOf b = .rising) : s.halfUpDone b = (s.setHalf b .on).showHalves := if_pos h

/-- The cache with nothing in it. -/
def State.emptied (s : State) : State := { s with honey := { s.honey with lines := [] } }

theorem State.emptied_keep (s : State) : s.emptied.keep s = s.emptied := rfl

theorem State.cacheEnable_on (h : s.fB F.HONEY_CTL_enable = false) :
    s.cacheEnable true = s.emptied.fFlag F.HONEY_CTL_enable true := by
  simp [State.cacheEnable, h, State.emptied]

theorem State.cacheEnable_off (h : s.fB F.HONEY_CTL_enable = true)
    (hc : ∀ e ∈ s.honey.lines, e.2.dirty = false ∧ e.2.pinned = false) :
    s.cacheEnable false = s.emptied.fFlag F.HONEY_CTL_enable false := by
  have hno : (s.honey.lines.any fun e => e.2.dirty || e.2.pinned) = false := by
    simpa only [List.any_eq_false, Bool.or_eq_true, not_or, Bool.not_eq_true] using hc
  simp [State.cacheEnable, h, hno, State.emptied]

theorem State.cacheEnable_refused (h : s.fB F.HONEY_CTL_enable = true)
    (hc : ∃ e ∈ s.honey.lines, e.2.dirty = true ∨ e.2.pinned = true) :
    s.cacheEnable false = s.fFlag F.HONEY_CTL_refused true := by
  have hyes : (s.honey.lines.any fun e => e.2.dirty || e.2.pinned) = true := by
    simpa only [List.any_eq_true, Bool.or_eq_true] using hc
  simp [State.cacheEnable, h, hyes]

end

/-- Settles O27: each command of a half and of the enable, by its cases. -/
theorem cacheControl : Obligations.CacheControl := by
  refine ⟨fun s b hup => ⟨fun h => ?_, fun h => ?_, fun pinned hp h => ⟨fun hr => ?_, fun ho hpin hbusy u hu => ?_⟩,
    fun h => ⟨fun hr => ?_, fun ho hbusy u hu => ?_⟩, fun h u v hu hv => ?_, fun h => ?_⟩,
    fun s hup => ⟨fun h => ?_, fun h hc => ?_, fun h hc => ?_⟩⟩
  · rw [exec_halfPowerDown, run_up _ hup, State.halfDown_of_off h, State.keep_self]
  · rw [exec_halfPowerUp, run_up _ hup, State.halfUp_of_on h, State.keep_self]
  · rw [exec_halfPowerDown, run_up _ hup, State.halfDown_refused hp h hr, State.fFlag_keep]
  · rw [exec_halfPowerDown, run_up _ hup, State.halfDown_begins hp h ho hpin hbusy hu]
  · rw [exec_halfPowerUp, run_up _ hup, State.halfUp_refused h hr, State.fFlag_keep]
  · rw [exec_halfPowerUp, run_up _ hup, State.halfUp_begins h ho hbusy hu]
  · rw [exec_halfPowerDownDone, run_up _ hup, State.halfDownDone_of_flushing h hu hv]
  · rw [exec_halfPowerUpDone, run_up _ hup, State.halfUpDone_of_rising h]
  · rw [exec_cacheEnable, run_up _ hup, State.cacheEnable_on h, State.fFlag_keep_of s.emptied_keep, State.emptied]
  · rw [exec_cacheDisable, run_up _ hup, State.cacheEnable_off h hc, State.fFlag_keep_of s.emptied_keep, State.emptied]
  · rw [exec_cacheDisable, run_up _ hup, State.cacheEnable_refused h hc, State.fFlag_keep]

/-! ## Page heat -/

section
variable (s : State)
theorem exec_heatFold (c : Fin 536870912) : exec (.heatFold c) s = run s fun s => s.foldCell c := rfl
theorem exec_heatEpochEnd : exec .heatEpochEnd s = run s fun s => s.epochEnd := rfl
theorem exec_heatSweepDone : exec .heatSweepDone s = run s fun s => s.sweepEnd := rfl
theorem exec_hotListStart (v : Word) : exec (.hotListStart v) s = run s fun s => s.hotCtlWrite (v ||| 0x40000000) := rfl
theorem exec_hotListDone : exec .hotListDone s = run s fun s => s.hotDone := rfl
end

section
variable {s u : State}

/-- Where no sweep runs, a cell's increment waits for its counter's lock alone. -/
theorem State.foldCell_of_free {c : Nat} (hs : s.honey.sweep = none) (hl : s.locked (s.heatAddr c / 64) = false) :
    s.foldCell c = s.heatFold c := by
  simp [State.foldCell, State.sweepOn, State.foldable, hs, hl]

theorem State.foldCell_of_locked {c : Nat} (hs : s.honey.sweep = none) (hl : s.locked (s.heatAddr c / 64) = true) :
    s.foldCell c = s := by
  simp [State.foldCell, State.sweepOn, State.foldable, hs, hl]

/-- A boundary that a running sweep makes wait. -/
def State.epochLate (s : State) : State := { s with honey := { s.honey with lateEpoch := true, epochAt := s.pwr.rootTime } }

theorem State.epochEnd_late (hn : s.fN F.HONEY_HEAT_EPOCH_length ≠ 0) (hs : s.honey.sweep.isSome = true) :
    s.epochEnd = s.epochLate.fFlag F.HONEY_HEAT_STATUS_late true := by
  simp only [State.epochEnd, if_neg hn, hs, if_true, State.epochLate]

theorem State.epochEnd_folds (hn : s.fN F.HONEY_HEAT_EPOCH_length ≠ 0) (hs : s.honey.sweep = none)
    (hu : u = (s.honey.heat.map fun e => e.1).foldl (fun (t : State) c => if t.foldable c then t.heatFold c else t) s) :
    s.epochEnd = ({ u with honey := { u.honey with sweep := some 0, epochAt := u.pwr.rootTime } } : State).fFlag
      F.HONEY_HEAT_STATUS_sweep_busy true := by
  simp only [State.epochEnd, if_neg hn, hs, Option.isSome_none, Bool.false_eq_true, if_false, ← hu]

/-- A sweep that has passed the last cell halves no more. -/
theorem State.halveOn_of_past (n : Nat) {p : Nat} (hs : s.honey.sweep = some p) (hp : s.tenantCells ≤ p) :
    State.halveOn n s = s := by
  cases n with
  | zero => rfl
  | succ n => simp [State.halveOn, hs, hp]

/-- What the sweep's end does once it has halved what it could. -/
def State.sweepOver (s : State) : State :=
  match s.honey.sweep with
  | none => s
  | some p =>
    if p < s.tenantCells then s
    else
      let late := s.honey.lateEpoch
      let s := ({ s with honey := { s.honey with sweep := none, lateEpoch := false } }).fFlag F.HONEY_HEAT_STATUS_sweep_busy false
      if late then s.epochEnd else s

theorem State.sweepEnd_eq (s : State) : s.sweepEnd = (State.halveOn s.tenantCells s).sweepOver := rfl

theorem State.sweepOver_of_running {v : State} {p : Nat} (hp : u.honey.sweep = some p)
    (hv : v = ({ u with honey := { u.honey with sweep := none, lateEpoch := false } } : State).fFlag
      F.HONEY_HEAT_STATUS_sweep_busy false) :
    u.sweepOver = if p < u.tenantCells then u else if u.honey.lateEpoch then v.epochEnd else v := by
  rw [State.sweepOver, hp, hv]

end

/-! ## The hot list -/

section
variable {s u : State} {w : Word} {n dst kind target : Nat} (hgo : F.HONEY_HOT_CTL_start.on w = true)
  (hu : u = s.wrCodes R.HONEY_HOT_CTL w) (hn : n = F.HONEY_HOT_CTL_n.of w) (hkind : kind = F.HONEY_HOT_CTL_target_kind.of w)
  (htarget : target = F.HONEY_HOT_CTL_target.of w)
  (hdst : dst = u.fN F.HONEY_HOT_DST_LO_addr_lo * 64 + u.fN F.HONEY_HOT_DST_HI_addr_hi * 2 ^ 32)
  (hidle : s.honey.hot = none)
include hgo hu hn hidle

theorem State.hotCtl_empty (h0 : n = 0) : s.hotCtlWrite w =
    (u.fFlag F.HONEY_HOT_STATUS_done true).fSet F.HONEY_HOT_STATUS_count 0 := by
  simp only [State.hotCtlWrite, ← hu, hgo, hidle, ← hn, h0, Option.isSome_none, Bool.not_true, Bool.false_eq_true, if_false,
    if_true]

include hkind htarget hdst

theorem State.hotCtl_refused (h0 : n ≠ 0) (h : 4096 < n ∨ (kind = 1 ∧ 255 < target) ∨ u.dome0Range dst (8 * n) = false) :
    s.hotCtlWrite w = u.fFlag F.HONEY_HOT_CTL_refused true := by
  have hbad : (decide (4096 < n) || (kind == 1 && decide (255 < target)) || !u.dome0Range dst (8 * n)) = true := by
    simpa [or_assoc] using h
  simp only [State.hotCtlWrite, ← hu, hgo, hidle, ← hn, if_neg h0, Option.isSome_none, Bool.not_true, Bool.false_eq_true,
    if_false, ← hkind, ← htarget, ← hdst, hbad, if_true]

theorem State.hotCtl_starts {x : State} (h0 : n ≠ 0) (hle : n ≤ 4096) (ht : kind = 1 → target ≤ 255)
    (hr : u.dome0Range dst (8 * n) = true) (hx : x = (u.fFlag F.HONEY_HOT_CTL_busy true).fFlag F.HONEY_HOT_STATUS_done false) :
    s.hotCtlWrite w = ({ x with honey := { x.honey with
      hot := some ⟨kind, target, n, x.fN F.HONEY_HOT_MIN_min_heat, dst, false⟩ } } : State).pguAsk 6 .hot := by
  have hok : (decide (4096 < n) || (kind == 1 && decide (255 < target)) || !u.dome0Range dst (8 * n)) = false := by
    simpa [hle, hr] using ht
  simp only [State.hotCtlWrite, ← hu, hgo, hidle, ← hn, if_neg h0, Option.isSome_none, Bool.not_true, Bool.false_eq_true,
    if_false, ← hkind, ← htarget, ← hdst, hok, ← hx]

end

/-- With leave, the extractor writes the hottest cells' records. -/
theorem State.hotDone_of_leave {s u x : State} {j : HotJob} {cs top : List HotCell} (hj : s.honey.hot = some j)
    (hl : s.hasLeave .hot = true) (hc : State.hotCells j s.tenantCells s 0 = (u, cs))
    (htop : top = (cs.mergeSort fun a b => decide (b.heat ≤ a.heat)).take j.n)
    (hx : x = State.putRecords (top.length + 1) u j.dst (top.map fun h => h.record)) :
    s.hotDone = (((({ x with honey := { x.honey with hot := none } } : State).pguReturn .hot).fFlag
      F.HONEY_HOT_CTL_busy false).fFlag F.HONEY_HOT_STATUS_done true).fSet F.HONEY_HOT_STATUS_count top.length := by
  rw [State.hotDone, hj]
  refine Eq.trans (if_neg (by simp [hl])) ?_
  rw [hc]
  subst htop hx
  rfl

/-! ## Migration slots -/

section
variable (k : Fin 16) (s : State)
theorem exec_mirrorEntry : exec (.mirrorEntry k) s = run s fun s => s.mirrorEntry k := rfl
theorem exec_mirrorTimeout : exec (.mirrorTimeout k) s = run s fun s => s.mirrorTimeout k := rfl
end

section
variable {s : State} {k : Nat} {m : MigSlot} (hm : SMap.find s.honey.mig k = some m)
include hm

/-- A slot that copies nothing has no pass to go on with. -/
theorem State.migPass_of_other (h1 : m.stage ≠ .copyWait) (h2 : m.stage ≠ .recopyWait) : s.migPass k = s := by
  simp [State.migPass, hm, h1, h2]

theorem State.mirrorEntry_recopies (hst : m.stage = .copied)
    (h : min 1024 (s.fN F.HONEY_MIG_CTL_final_lines) < trackedLines m ∧ m.passes ≤ s.fN F.HONEY_MIG_CTL_max_passes) :
    s.mirrorEntry k = (s.putMig k { m with stage := .recopyWait }).migAsk k := by
  have hpass := State.migPass_of_other hm (by rw [hst]; decide) (by rw [hst]; decide)
  rw [State.mirrorEntry, hpass, hm]
  simp only [hst, if_pos h]

theorem State.mirrorEntry_enters (hst : m.stage = .copied)
    (h : trackedLines m ≤ min 1024 (s.fN F.HONEY_MIG_CTL_final_lines) ∨ s.fN F.HONEY_MIG_CTL_max_passes < m.passes) :
    s.mirrorEntry k = (s.putMig k { m with stage := .mirror, mirrorAt := s.pwr.rootTime }).mirrorStep k := by
  have hpass := State.migPass_of_other hm (by rw [hst]; decide) (by rw [hst]; decide)
  have hno : ¬(min 1024 (s.fN F.HONEY_MIG_CTL_final_lines) < trackedLines m ∧
      m.passes ≤ s.fN F.HONEY_MIG_CTL_max_passes) := by omega
  rw [State.mirrorEntry, hpass, hm]
  simp only [hst, if_neg hno]

/-- A mirror with nothing left to copy completes its command. -/
theorem State.mirrorEntry_agrees (hst : m.stage = .mirror) (hat : 1024 ≤ m.at_) (htr : m.tracker = 0)
    (hq : s.migQuiet k = true) : s.mirrorEntry k = s.migReply k m stOK := by
  have hpass := State.migPass_of_other hm (by rw [hst]; decide) (by rw [hst]; decide)
  have hcopy : State.migCopy k 1024 s = s := by
    rw [State.migCopy, hm]
    exact if_pos hat
  rw [State.mirrorEntry, hpass, hm]
  simp only [hst, State.mirrorStep, hcopy, hm, hq, htr]
  simp [hat]

theorem State.mirrorEntry_lost (hst : m.stage = .lost) (hf : s.entryFree m.cell = true) (hc : m.cmd ≠ 20000) :
    s.mirrorEntry k = (s.migReply k m stRemote).dropMig k m := by
  have hpass := State.migPass_of_other hm (by rw [hst]; decide) (by rw [hst]; decide)
  have hopen : (m.cmd != 20000) = true := bne_iff_ne.2 hc
  rw [State.mirrorEntry, hpass, hm]
  simp only [hst, hf, hopen, Bool.not_true, Bool.false_eq_true, if_false, if_true]

theorem State.mirrorTimeout_of_mirror {u : State} (hst : m.stage = .mirror)
    (ht : s.fN F.HONEY_MIG_CTL_mirror_timeout ≠ 0) (hf : s.entryFree m.cell = true)
    (hu : u = ((s.migReply k m stTimeout).dropMig k m).bump F.HONEY_MIG_STATUS_timed_out) : s.mirrorTimeout k =
      { u with honey := { u.honey with migAborted := u.honey.migAborted ++ [(m.cell, stTimeout)] } } := by
  subst hu
  rw [State.mirrorTimeout, hm]
  exact if_pos ⟨hst, ht, hf⟩

end

/-- Settles O28: folds and epochs, the extractor, and the stages of a slot. -/
theorem heatAndMigration : Obligations.HeatAndMigration := by
  refine ⟨fun s hup => ⟨fun c hs => ⟨fun hl => ?_, fun hl => ?_⟩, ?_, fun hn => ⟨fun hs => ?_, fun hs u hu => ?_⟩,
      fun u v hu hv => ⟨fun p hs hp => ?_, fun p hp => ?_⟩⟩,
    fun s hup => ⟨?_, fun j hj hl => ?_⟩,
    fun s k m hup hm => ⟨fun hst => ⟨fun h1 h2 => ?_, fun h => ?_⟩, fun hst hat htr hq => ?_, fun hst hf hc => ?_,
      fun hst ht hf u hu => ?_⟩⟩
  · rw [exec_heatFold, run_up _ hup, State.foldCell_of_free hs hl]
  · rw [exec_heatFold, run_up _ hup, State.foldCell_of_locked hs hl, State.keep_self]
  · rintro c u rfl
    rw [exec_heatFold, run_up _ hup, State.foldCell]
  · have hkeep : s.epochLate.keep s = s.epochLate := rfl
    rw [exec_heatEpochEnd, run_up _ hup, State.epochEnd_late hn hs, State.fFlag_keep_of hkeep, State.epochLate]
  · rw [exec_heatEpochEnd, run_up _ hup, State.epochEnd_folds hn hs hu]
  · rw [hu, State.halveOn_of_past _ hs hp]
  · rw [exec_heatSweepDone, run_up _ hup, State.sweepEnd_eq, ← hu, State.sweepOver_of_running hp hv]
  · rintro v w u n dst kind target rfl hu hn hkind htarget hdst hidle
    have hgo := Fld.on_or_of_set F.HONEY_HOT_CTL_start v 0x40000000 (by decide)
    rw [exec_hotListStart, run_up _ hup]
    refine ⟨fun h0 => ?_, fun h0 h => ?_, fun h0 hle ht hr x hx => ?_⟩
    · rw [State.hotCtl_empty hgo hu hn hidle h0]
    · rw [State.hotCtl_refused hgo hu hn hkind htarget hdst hidle h0 h]
    · rw [State.hotCtl_starts hgo hu hn hkind htarget hdst hidle h0 hle ht hr hx]
  · obtain ⟨⟨u, cs⟩, hc⟩ : ∃ found, State.hotCells j s.tenantCells s 0 = found := ⟨_, rfl⟩
    refine ⟨u, _, cs, _, hc, rfl, rfl, ?_⟩
    rw [exec_hotListDone, run_up _ hup, State.hotDone_of_leave hj hl hc rfl rfl]
  · rw [exec_mirrorEntry, run_up _ hup, State.mirrorEntry_recopies hm hst ⟨h1, h2⟩]
  · rw [exec_mirrorEntry, run_up _ hup, State.mirrorEntry_enters hm hst h]
  · rw [exec_mirrorEntry, run_up _ hup, State.mirrorEntry_agrees hm hst hat htr hq]
  · rw [exec_mirrorEntry, run_up _ hup, State.mirrorEntry_lost hm hst hf hc]
  · rw [exec_mirrorTimeout, run_up _ hup, State.mirrorTimeout_of_mirror hm hst ht hf hu]

/-! ## Snoop agents -/

section
variable (s : State)
theorem exec_agentRegister (v : Word) :
    exec (.agentRegister v) s = run s fun s => s.agentCfgWrite (s.fN F.SNOOP_AGENT_IDX_agent) v := rfl
theorem exec_snoopCtlWrite (v : Word) : exec (.snoopCtlWrite v) s = run s fun s => s.snoopCtlWrite v := rfl
theorem exec_agentDownSweepDone : exec .agentDownSweepDone s = run s fun s => s.sweepDone := rfl
end

section
variable {s u : State} {v x : Word} {a : Nat} (hx : x = v &&& agentMask)
include hx

section
variable (hu : u = { s with home := { s.home with agents := SMap.store s.home.agents 0 a x } })
include hu

theorem State.agentCfg_registered (he : x.getLsbD 31 = true) (hs : s.sweepBusy a = false)
    (hkey : ∀ b < 32, b ≠ a → ¬ (s.agentOn b = true ∧ s.agentCfg b = x)) : s.agentCfgWrite a v =
      { u with home := { u.home with down := u.home.down.filter fun b => b != a } } := by
  have hno : (s.sweepBusy a || (List.range 32).any fun b => b != a && s.agentOn b && s.agentCfg b == x) = false := by
    simpa [hs, and_assoc] using hkey
  subst hu
  simp only [State.agentCfgWrite, ← hx, he, hno, if_true, Bool.false_eq_true, if_false]

theorem State.agentCfg_disabled (he : x.getLsbD 31 = false) (h : s.agentEntries a = []) : s.agentCfgWrite a v = u := by
  subst hu
  simp only [State.agentCfgWrite, ← hx, he, h, List.isEmpty_nil, if_true, Bool.false_eq_true, if_false]

end

theorem State.agentCfg_refused (he : x.getLsbD 31 = false) (h : s.agentEntries a ≠ []) :
    s.agentCfgWrite a v = s.fFlag F.SNOOP_STATUS_refused true := by
  simp only [State.agentCfgWrite, ← hx, he, List.isEmpty_eq_false_iff.2 h, Bool.false_eq_true, if_false]

end

section
variable {s u : State} {v : Word} (hu : u = s.fSet F.SNOOP_CTL_bi_timeout (F.SNOOP_CTL_bi_timeout.of v))
include hu

theorem State.snoopCtl_same (h : F.SNOOP_CTL_enable.on v = u.fB F.SNOOP_CTL_enable) : s.snoopCtlWrite v = u := by
  simp only [State.snoopCtlWrite, ← hu, h, beq_self_eq_true, if_true]

theorem State.snoopCtl_changes (h : F.SNOOP_CTL_enable.on v ≠ u.fB F.SNOOP_CTL_enable) (hf : s.home.filter = []) :
    s.snoopCtlWrite v = u.fFlag F.SNOOP_CTL_enable (F.SNOOP_CTL_enable.on v) := by
  have hf' : u.home.filter = [] := by rw [hu, State.fSet_home, hf]
  simp only [State.snoopCtlWrite, ← hu, beq_eq_false_iff_ne.2 h, hf', List.isEmpty_nil, Bool.false_eq_true, if_false, if_true]

theorem State.snoopCtl_refused (h : F.SNOOP_CTL_enable.on v ≠ u.fB F.SNOOP_CTL_enable) (hf : s.home.filter ≠ []) :
    s.snoopCtlWrite v = u.fFlag F.SNOOP_STATUS_refused true := by
  have hf' : u.home.filter.isEmpty = false := by rw [hu, State.fSet_home, List.isEmpty_eq_false_iff]; exact hf
  simp only [State.snoopCtlWrite, ← hu, beq_eq_false_iff_ne.2 h, hf', Bool.false_eq_true, if_false]

end

/-- A report of which no record fits, or that has none, writes nothing. -/
theorem reportBytes_of_none {n : Nat} {ls : List Lost} (h : ls = [] ∨ n < 8) : reportBytes (n / 8) ls = (0, 0) := by
  have hr : ls.take (n / 8) = [] := by
    obtain rfl | h := h
    · exact List.take_nil
    · rw [Nat.div_eq_of_lt h, List.take_zero]
  rw [reportBytes, hr]
  rfl

theorem State.agentReport_of_none {s : State} {k : Nat} {c : Cmd} {ls : List Lost} (hlen : c.p 2 + c.p 3 ≤ pvaTop)
    (h : ls = [] ∨ c.p 3 < 8) : s.agentReport k c ls = (s, some (if c.p 3 < 8 * ls.length then stPartial else stOK)) := by
  rw [State.agentReport, if_neg (Nat.not_lt.2 hlen), reportBytes_of_none h]
  rfl

section
variable {s : State} {w : DownSweep} {r : List DownSweep} {ls : List Lost} (hw : s.home.sweeps = w :: r)
  (hls : ls = s.lostLines w.slot)
include hw hls

theorem State.sweepDone_of_locked (h : ∃ l ∈ ls, s.locked l.line = true) : s.sweepDone = s := by
  simp only [State.sweepDone, hw, ← hls, List.any_eq_true.2 h, if_true]

variable (h : ∀ l ∈ ls, s.locked l.line = false)
include h

theorem State.sweepDone_of_none (hc : w.cmd = none) : s.sweepDone = s.sweepArray w.slot ls := by
  have hno : (ls.any fun l => s.locked l.line) = false := by simpa using h
  simp only [State.sweepDone, hw, ← hls, hno, hc, Option.bind_none, Bool.false_eq_true, if_false]

/-- The AGENT_DOWN that waits for the sweep has its reply. -/
theorem State.sweepDone_of_cmd {k : Nat} {c : Cmd} (hk : w.cmd = some k) (hc : s.cmd k = some c)
    (hlen : c.p 2 + c.p 3 ≤ pvaTop) (hrep : ls = [] ∨ c.p 3 < 8) : s.sweepDone =
      (s.sweepArray w.slot ls).replied k (if c.p 3 < 8 * ls.length then stPartial else stOK) ls.length := by
  have hno : (ls.any fun l => s.locked l.line) = false := by simpa using h
  simp only [State.sweepDone, hw, ← hls, hno, hk, hc, Option.bind_some, Option.map_some, Bool.false_eq_true, if_false,
    State.agentReport_of_none hlen hrep, State.replied]

end

/-- Settles O29: the writes of the two registers and the sweep, by their cases. -/
theorem snoopAgents : Obligations.SnoopAgents := by
  refine fun s hup => ⟨?_, fun v u hu => ?_, fun w r ls hw hls => ⟨fun h => ?_, fun h => ⟨fun hc => ?_, ?_⟩⟩⟩
  · rintro v x a u rfl hx hu
    rw [exec_agentRegister, run_up _ hup]
    refine ⟨fun he hs hkey => ?_, fun he h => ?_, fun he h => ?_⟩
    · rw [State.agentCfg_registered hx hu he hs hkey, hu]
      rfl
    · rw [State.agentCfg_disabled hx hu he h, hu]
      rfl
    · rw [State.agentCfg_refused hx he h, State.fFlag_keep]
  · have hkeep : u.keep s = u := by rw [hu, State.fSet_keep]
    rw [exec_snoopCtlWrite, run_up _ hup]
    refine ⟨fun h => ?_, fun h hf => ?_, fun h hf => ?_⟩
    · rw [State.snoopCtl_same hu h, hkeep]
    · rw [State.snoopCtl_changes hu h hf, State.fFlag_keep_of hkeep]
    · rw [State.snoopCtl_refused hu h hf, State.fFlag_keep_of hkeep]
  · rw [exec_agentDownSweepDone, run_up _ hup, State.sweepDone_of_locked hw hls h, State.keep_self]
  · rw [exec_agentDownSweepDone, run_up _ hup, State.sweepDone_of_none hw hls h hc]
  · intro k c hk hc hlen hrep
    rw [exec_agentDownSweepDone, run_up _ hup, State.sweepDone_of_cmd hw hls h hk hc hlen hrep]

/-! ## Packet fetch and the mailbox -/

section
variable (s : State)
theorem exec_packetFetch : exec .packetFetch s = run s fun s => s.packetFetch := rfl
theorem exec_mailboxGo : exec .mailboxGo s = run s fun s => s.mbxCmdWrite 1 := rfl
theorem exec_qctlEnable : exec .qctlEnable s = run s fun s => s.qctlWrite 1 := rfl
end

theorem SMap.mem_of_find {α : Type} {m : SMap α} {k : Nat} {v : α} (h : SMap.find m k = some v) : (k, v) ∈ m := by
  induction m with
  | nil => cases h
  | cons e m ih =>
    obtain ⟨a, w⟩ := e
    rw [SMap.find] at h
    split at h
    · case isTrue hk =>
      cases h
      rw [hk]
      exact List.mem_cons_self ..
    · exact List.mem_cons_of_mem _ (ih h)

section
variable {s : State}

/-- An access whose outcome waits is taken up with it. -/
theorem State.engTake_of_ans {t : Tx} {a : EngAns} (h : s.engAns t.origin t.line t.kind.isWrite t.be = some a) :
    s.engTake t = (s.takeAns t.origin t.line t.kind.isWrite t.be, some a.res) := by
  rw [State.engTake, State.engAccess, h]

/-- A turn goes on while packets of it are left and its queue may be fetched from. -/
theorem State.nextTurn_of_turn {q left : Nat} {d : QDesc} (ht : s.q.turn = some (q, left)) (hl : left ≠ 0)
    (hd : SMap.find s.q.desc q = some d) (hc : s.canFetch q d = true) : s.nextTurn = some (q, left) := by
  have hany : ((s.q.desc.filter fun e => s.canFetch e.1 e.2).any fun e => e.1 == q) = true :=
    List.any_eq_true.2 ⟨(q, d), List.mem_filter.2 ⟨SMap.mem_of_find hd, hc⟩, beq_self_eq_true q⟩
  rw [State.nextTurn, ht]
  exact if_pos ⟨hl, hany⟩

theorem State.packetFetch_of_no_turn (h : s.nextTurn = none) :
    s.packetFetch = { s with q := { s.q with turn := none } } := by
  rw [State.packetFetch, h]

/-- What becomes of a packet once the home has answered its fetch. -/
def State.fetched (w : State) (k q dome seq left line : Nat) (r : RdRes) : State :=
  let stop := fun (s : State) (st : Nat) =>
    s.endCmd k { newCmd (.queue q) dome seq 0 s.pwr.refTime with noTag := true } st 0
  let s := match r with
    | .no e => stop w e.status
    | .ok l => if l.anyPoison then stop (w.consume (BitVec.ofNat 16 (dome * 16)) line) stPoison
        else w.startCmd k (newCmd (.queue q) dome seq l.data w.pwr.refTime)
  (s.turnNow q (left - 1)).showInflight

theorem State.packetFetch_of_ans {w : State} {q left k line : Nat} {d : QDesc} {a : EngAns} (ht : s.nextTurn = some (q, left))
    (hd : SMap.find s.q.desc q = some d) (hk : SMap.firstFree s.q.cmds 16384 = some k)
    (hline : line = d.ringBase / 64 + d.head) (ha : s.engAns (.queue q) line false fullBe = some a)
    (hw : w = { s.takeAns (.queue q) line false fullBe with
      q := { s.q with desc := SMap.put s.q.desc q { d with head := (d.head + 1) % 2 ^ d.ringLog2 },
                      nextSeq := s.q.nextSeq + 1, turn := some (q, left), lastDome := d.dome,
                      lastQ := SMap.put s.q.lastQ d.dome q } }) :
    s.packetFetch = w.fetched k q d.dome s.q.nextSeq left line a.res := by
  have htake : ({ s with q := { s.q with turn := some (q, left) } } : State).engTake
      { newTx .rdCur (.queue q) (BitVec.ofNat 16 (d.dome * 16)) line 32 with fill := some d.dome } =
      (({ s with q := { s.q with turn := some (q, left) } } : State).takeAns (.queue q) line false fullBe, some a.res) :=
    State.engTake_of_ans ha
  subst hw
  rw [State.packetFetch, ht]
  simp only [hd, hk, ← hline, htake]
  rfl

/-- MAILBOX_GO while a packet is under way. -/
theorem State.mbxCmd_of_busy (h : s.fB F.QCTL_MBX_CMD_busy = true) : s.mbxCmdWrite 1 = s := by
  simp [State.mbxCmdWrite, h]

theorem State.mbxCmd_starts {u : State} (h : s.fB F.QCTL_MBX_CMD_busy = false)
    (hu : u = ({ s with q := { s.q with nextSeq := s.q.nextSeq + 1 } } : State).fFlag F.QCTL_MBX_CMD_busy true) :
    s.mbxCmdWrite 1 = (u.startCmd 16384 (newCmd .mailbox 0 s.q.nextSeq s.mailboxPkt u.pwr.refTime)).showInflight := by
  have hgo : F.QCTL_MBX_CMD_go.on 1 = true := by decide
  simp only [State.mbxCmdWrite, hgo, h, Bool.not_false, Bool.and_self, if_true, State.mailboxStart, ← hu, mbxCtx]

section
variable (h : s.fB F.QCTL_CTL_enable = false)
include h

theorem State.qctl_enabled
    (ht : ∀ j < 256, s.descBase + j * 65536 < s.memTop ∧ s.dome0Cell (s.descBase + j * 65536) = true) :
    s.qctlWrite 1 = s.fFlag F.QCTL_CTL_enable true := by
  have hgo : F.QCTL_CTL_enable.on 1 = true := by decide
  have hall : ((List.range 256).all fun k => decide (s.descBase + k * 65536 < s.memTop) &&
      s.dome0Cell (s.descBase + k * 65536)) = true := by
    simpa only [List.all_eq_true, List.mem_range, Bool.and_eq_true, decide_eq_true_eq] using ht
  simp only [State.qctlWrite, h, hgo, Bool.not_true, Bool.or_self, Bool.false_eq_true, if_false, hall, if_true]

theorem State.qctl_refused
    (ht : ¬ ∀ j < 256, s.descBase + j * 65536 < s.memTop ∧ s.dome0Cell (s.descBase + j * 65536) = true) :
    s.qctlWrite 1 = s.fFlag F.QCTL_STATUS_refused true := by
  have hgo : F.QCTL_CTL_enable.on 1 = true := by decide
  have hall : ((List.range 256).all fun k => decide (s.descBase + k * 65536 < s.memTop) &&
      s.dome0Cell (s.descBase + k * 65536)) = false := by
    rw [← Bool.not_eq_true]
    simpa only [List.all_eq_true, List.mem_range, Bool.and_eq_true, decide_eq_true_eq] using ht
  simp only [State.qctlWrite, h, hgo, Bool.not_true, Bool.or_self, Bool.false_eq_true, if_false, hall]

end
end

/-- Settles O30: the turn, the packet its fetch brings, the mailbox and the enable. -/
theorem queueControl : Obligations.QueueControl := by
  refine ⟨fun s hup h => ?_, ?_, fun s hup => ⟨fun h => ?_, fun h u hu => ?_, fun h => ⟨fun ht => ?_, fun ht => ?_⟩⟩⟩
  · rw [exec_packetFetch, run_up _ hup, State.packetFetch_of_no_turn h]
  · rintro s w q left d k line a _ hup hturn hd hk rfl hline ha hw
    have ht : s.nextTurn = some (q, left) := by
      obtain ht | ⟨ht, hl, hc⟩ := hturn
      · exact ht
      · exact State.nextTurn_of_turn ht hl hd hc
    rw [exec_packetFetch, run_up _ hup, State.packetFetch_of_ans ht hd hk hline ha hw]
    refine ⟨fun l hl hp => ?_, ?_, fun e he => ?_⟩
    · rw [hl]
      simp only [State.fetched, hp, Bool.false_eq_true, if_false]
    · rintro l x hl hp rfl
      rw [hl]
      simp only [State.fetched, hp, if_true]
    · rw [he]
      simp only [State.fetched]
  · rw [exec_mailboxGo, run_up _ hup, State.mbxCmd_of_busy h, State.keep_self]
  · rw [exec_mailboxGo, run_up _ hup, State.mbxCmd_starts h hu]
  · rw [exec_qctlEnable, run_up _ hup, State.qctl_enabled h ht, State.fFlag_keep]
  · rw [exec_qctlEnable, run_up _ hup, State.qctl_refused h ht, State.fFlag_keep]

end Sys2Proof.Machine
end

section
/-!
PROOFS. Admission, fences and the completion of a command (R159, R160, R164 - R166).
-/
namespace Sys2Proof.Machine

/-! ## Admission -/

section
variable {s : State} {c : Cmd}

theorem State.admission_undefined (h : opMasks c.opcode = none) : s.admission c = some stOpcode := by
  rw [State.admission, h]

section
variable {m : List Nat} (hm : opMasks c.opcode = some m)
include hm

theorem State.admission_format (h : c.formatBad m = true) : s.admission c = some stFormat := by
  rw [State.admission, hm]
  exact if_pos h

variable (hf : c.formatBad m = false)
include hf

theorem State.admission_dome0_opcode (hz : opZ c.opcode = true) (hd : c.dome ≠ 0) : s.admission c = some stDenied := by
  simp [State.admission, hm, hf, hz, hd]

theorem State.admission_subject (hc : isControl c.opcode = true) (hp : c.pb 0 0 12 ≠ 0) (hd : c.dome ≠ 0) :
    s.admission c = some stDenied := by
  simp [State.admission, hm, hf, hc, hp, hd]

variable (hz : opZ c.opcode = false ∨ c.dome = 0) (hs : isControl c.opcode = false ∨ c.pb 0 0 12 = 0 ∨ c.dome = 0)
include hz hs

/-- A packet whose opcode and subject its Dome may use is judged by its count and its ranges. -/
theorem State.admission_of_allowed : s.admission c =
    if c.zeroCount then some stOK else if s.rangeExceeds c then some stLength else none := by
  have hz' : (opZ c.opcode && c.dome != 0) = false := by
    rcases hz with h | h <;> simp [h]
  have hs' : (isControl c.opcode && c.pb 0 0 12 != 0 && c.dome != 0) = false := by
    rcases hs with h | h | h <;> simp [h]
  simp only [State.admission, hm, hf, hz', hs', Bool.false_eq_true, if_false]

end

/-! ## Starting a packet, releasing a fence -/

theorem State.startCmd_of_stopped {k st : Nat} (h : s.admission c = some st) : s.startCmd k c = s.endCmd k c st 0 := by
  rw [State.startCmd, h]

theorem State.startCmd_of_fence {k : Nat} (h : s.admission c = none) (hf : c.fence = true) :
    s.startCmd k c = s.putCmd k { c with st := .fence } := by
  rw [State.startCmd, h]
  exact if_pos hf

theorem State.startCmd_of_free {k : Nat} (h : s.admission c = none) (hf : c.fence = false) :
    s.startCmd k c = s.dispatch k c := by
  rw [State.startCmd, h]
  exact if_neg (by simp [hf])

theorem exec_fenceRelease (f : Fin 16384) (s : State) : exec (.fenceRelease f) s = run s fun s => s.fenceRelease f := rfl

section
variable {k : Nat} (hk : s.cmd k = some c) (hst : c.st = .fence)
include hk hst

theorem State.fenceRelease_goes (hb : s.heldBack c = false) (h : ∀ e ∈ s.q.cmds, e.2.src = c.src → c.seq ≤ e.2.seq) :
    s.fenceRelease k = s.dispatch k c := by
  have hno : (s.q.cmds.any fun e => e.2.src == c.src && decide (e.2.seq < c.seq)) = false := by
    simpa only [List.any_eq_false, Bool.and_eq_true, beq_iff_eq, decide_eq_true_eq, not_and, Nat.not_lt] using h
  rw [State.fenceRelease, hk]
  simp [hst, hb, hno]

omit hst in
theorem State.fenceRelease_waits (h : ∃ e ∈ s.q.cmds, e.2.src = c.src ∧ e.2.seq < c.seq) : s.fenceRelease k = s := by
  have hyes : (s.q.cmds.any fun e => e.2.src == c.src && decide (e.2.seq < c.seq)) = true := by
    simpa only [List.any_eq_true, Bool.and_eq_true, beq_iff_eq, decide_eq_true_eq] using h
  rw [State.fenceRelease, hk]
  simp only [hyes, Bool.not_true, Bool.and_false, Bool.false_eq_true, if_false]

end
end

/-- Settles O31: the checks of R159 in their order, what starts, and what a fence waits for. -/
theorem admission : Obligations.Admission := by
  refine ⟨fun s c => ⟨State.admission_undefined, fun m hm => ⟨State.admission_format hm, fun hf =>
      ⟨State.admission_dome0_opcode hm hf, State.admission_subject hm hf, fun hz hs => ?_⟩⟩⟩,
    fun s k c => ⟨fun st => State.startCmd_of_stopped, State.startCmd_of_fence, State.startCmd_of_free, ?_⟩⟩
  · rw [State.admission_of_allowed hm hf hz hs]
    exact ⟨fun h0 => by rw [if_pos h0], fun h0 hr => by rw [h0, hr]; rfl, fun h0 hr => by rw [h0, hr]; rfl⟩
  · rintro f rfl hup hk hst hb
    refine ⟨fun h => ?_, fun h => ?_⟩
    · rw [exec_fenceRelease, run_up _ hup, State.fenceRelease_goes hk hst hb h]
    · rw [exec_fenceRelease, run_up _ hup, State.fenceRelease_waits hk h, State.keep_self]

/-! ## Completion -/

theorem exec_commandComplete (k : Fin 16385) (s : State) : exec (.commandComplete k) s = run s fun s => s.complete k := rfl

section
variable {s : State} {k : Nat} {c : Cmd}

theorem State.complete_of_no_queue (hk : s.cmd k = some c) (hst : c.st = .done) (hb : s.busyFor k = false)
    (h : c.ofQueue = none) : s.complete k = (s.mailboxReply c).dropCmd k c := by
  rw [State.complete, hk]
  cases hsrc : c.src with
  | queue q => simp [Cmd.ofQueue, hsrc] at h
  | _ => simp [hst, hb, hsrc]

theorem State.complete_of_queue {q : Nat} {d : QDesc} (hk : s.cmd k = some c) (hst : c.st = .done)
    (hb : s.busyFor k = false) (hsrc : c.src = .queue q) (hd : SMap.find s.q.desc q = some d) :
    s.complete k = s.queueComplete k c q d := by
  rw [State.complete, hk]
  simp [hst, hb, hsrc, hd]

section
variable {q : Nat} {d : QDesc}

theorem State.queueComplete_counts (h : c.pos = 2) : s.queueComplete k c q d = s.countStep k c q d := if_pos h

theorem State.replyStep_none (h : d.mode % 2 = 0 ∨ (c.status = stOK ∧ c.quiet = true)) :
    s.replyStep k c q d = (s, c, true) := by
  have h' : (decide (d.mode % 2 = 0) || (c.status == stOK && c.quiet)) = true := by simpa using h
  rw [State.replyStep]
  exact if_pos h'

/-- With no reply to write, the count word follows at once. -/
theorem State.queueComplete_no_reply (hp : c.pos ≠ 2) (h : d.mode % 2 = 0 ∨ (c.status = stOK ∧ c.quiet = true)) :
    s.queueComplete k c q d = (s.putCmd k { c with pos := 2 }).countStep k { c with pos := 2 } q d := by
  rw [State.queueComplete, if_neg hp, State.replyStep_none h]

/-- A write whose outcome waits is over. -/
theorem State.engWrite_of_ans {o : Origin} {gen : Nat} {w : EngWr} {a : EngAns} (h : s.engAns o w.line true w.be = some a) :
    ∃ r, s.engWrite o gen w = (s, some r) := by
  have hacc : s.engAccess (w.tx o gen) = (s, some a.res) := by
    have h' : s.engAns (w.tx o gen).origin (w.tx o gen).line (w.tx o gen).kind.isWrite (w.tx o gen).be = some a := h
    rw [State.engAccess, h']
  rw [State.engWrite, hacc]
  cases a.res with
  | ok l => exact ⟨none, rfl⟩
  | no r => exact ⟨some r, rfl⟩

/-- A write without an outcome enters the home. -/
theorem State.engWrite_of_no_ans {o : Origin} {gen : Nat} {w : EngWr} (h : s.engAns o w.line true w.be = none) :
    s.engWrite o gen w = (s.engEnter (w.tx o gen), none) := by
  have hacc : s.engAccess (w.tx o gen) = (s.engEnter (w.tx o gen), none) := by
    have h' : s.engAns (w.tx o gen).origin (w.tx o gen).line (w.tx o gen).kind.isWrite (w.tx o gen).be = none := h
    rw [State.engAccess, h']
  rw [State.engWrite, hacc]

section
variable {u : State} {v : Cmd} {x : QDesc} {e : EngWr} (hm : d.mode % 2 = 1) (hr : c.status ≠ stOK ∨ c.quiet = false)
  (h0 : c.pos = 0 → x = { d with ctail := (d.ctail + 1) % 2 ^ d.cringLog2,
                                 phase := if (d.ctail + 1) % 2 ^ d.cringLog2 = 0 then !d.phase else d.phase } ∧
    v = { c with pos := 1, aux := 2 * d.ctail + (if d.phase then 1 else 0) } ∧
    u = ({ s with q := { s.q with desc := SMap.put s.q.desc q x } } : State).putCmd k v)
  (h1 : c.pos = 1 → v = c ∧ u = s) (hp : c.pos ≤ 1)
  (he : e = qWrite (BitVec.ofNat 16 (d.dome * 16)) (d.cringBase + 16 * (v.aux / 2)) 16
    (replyBits c.tag d.head c.status (v.aux % 2) c.result))
include hm hr h0 h1 hp he

/-- The reply of a command, once it holds its slot of the ring, is a write of queue control. -/
theorem State.replyStep_writes : s.replyStep k c q d = match u.engWrite (.comp q k) 0 e with
    | (t, none) => (t, v, false)
    | (t, some _) => (t, v, true) := by
  have hcond : (decide (d.mode % 2 = 0) || (c.status == stOK && c.quiet)) = false := by
    rcases hr with h | h <;> simp [hm, h]
  rw [State.replyStep]
  simp only [hcond, Bool.false_eq_true, if_false]
  obtain hpos | hpos : c.pos = 0 ∨ c.pos = 1 := by omega
  · obtain ⟨rfl, rfl, rfl⟩ := h0 hpos
    subst he
    simp only [hpos, if_true] <;> rfl
  · obtain ⟨rfl, rfl⟩ := h1 hpos
    subst he
    simp only [hpos, Nat.one_ne_zero, if_false] <;> rfl

omit hm hr he in
/-- Taking a slot of the ring leaves what the home has answered. -/
theorem State.replyStep_ans : u.home = s.home := by
  obtain hpos | hpos : c.pos = 0 ∨ c.pos = 1 := by omega
  · obtain ⟨-, -, rfl⟩ := h0 hpos
    rfl
  · obtain ⟨-, rfl⟩ := h1 hpos
    rfl

end

theorem State.queueComplete_of_reply {t : State} {v : Cmd} (hp : c.pos ≤ 1) (h : s.replyStep k c q d = (t, v, true)) :
    s.queueComplete k c q d = (t.putCmd k { v with pos := 2 }).countStep k { v with pos := 2 } q d := by
  rw [State.queueComplete, if_neg (by omega), h]

theorem State.queueComplete_of_wait {t : State} {v : Cmd} (hp : c.pos ≤ 1) (h : s.replyStep k c q d = (t, v, false)) :
    s.queueComplete k c q d = t := by
  rw [State.queueComplete, if_neg (by omega), h]

/-- Without a count word: the interrupt, the halt, and the context is free. -/
theorem State.countStep_of_no_word {u v : State} {x : QDesc} (hm : d.mode < 2)
    (hu : u = if c.irq && d.irqEn then s.vecRaise d.dome d.vector else s) (hx : SMap.find u.q.desc q = some x)
    (hv : v = if c.halt = true ∧ c.status ≠ stOK ∧ x.state = .active then u.haltQueue q x else u) :
    s.countStep k c q d = v.dropCmd k c := by
  have hcond : v = if (c.halt && c.status != stOK) = true then (if x.state = .active then u.haltQueue q x else u) else u := by
    rw [hv, ← ite_and]
    exact if_congr (by simp [and_assoc]) rfl rfl
  simp only [State.countStep, if_neg (Nat.not_le.2 hm), Bool.not_true, Bool.false_eq_true, if_false, ← hu, hx, ← hcond]

end
end

/-- Settles O32: the steps of R165, by where the command stands. -/
theorem commandCompletes : Obligations.CommandCompletes := by
  refine ⟨fun s k c hup hk hst hb => ⟨fun h => ?_, fun q d hsrc hd => ?_⟩, fun s u v k q c d x hm hu hx hv => ?_⟩
  · rw [exec_commandComplete, run_up _ hup, State.complete_of_no_queue hk hst hb h]
  · rw [exec_commandComplete, run_up _ hup, State.complete_of_queue hk hst hb hsrc hd]
    refine ⟨fun hp => ?_, fun hp h => ?_, fun hm hr x e u v h0 h1 hp he => ?_⟩
    · rw [State.queueComplete_counts hp]
    · rw [State.queueComplete_no_reply hp h]
    · have hstep := State.replyStep_writes hm hr h0 h1 hp he
      have hans : u.engAns (.comp q k) e.line true e.be = s.engAns (.comp q k) e.line true e.be := by
        rw [State.engAns, State.replyStep_ans h0 h1 hp, State.engAns]
      refine ⟨fun a ha => ?_, fun ha => ?_⟩
      · obtain ⟨r, hw⟩ := State.engWrite_of_ans (gen := 0) (hans.trans ha)
        rw [hw] at hstep
        rw [State.queueComplete_of_reply hp hstep]
      · rw [State.engWrite_of_no_ans (hans.trans ha)] at hstep
        rw [State.queueComplete_of_wait hp hstep]
  · exact State.countStep_of_no_word hm hu hx hv

end Sys2Proof.Machine
end

section
/-!
PROOFS. Slots and windows of a Spire (R192, R198, R209, R235), power leave and the throttle pin (R350 - R352).
-/
namespace Sys2Proof.Machine

/-! ## Slots, control, seed and windows of a Spire -/

theorem exec_spireSlotStart (n : Fin 24) (s : State) : exec (.spireSlotStart n) s = run s fun s => s.slotStart n := rfl
theorem exec_spireCtlWrite (n : Fin 24) (v : Word) (s : State) :
    exec (.spireCtlWrite n v) s = run s fun s => s.spireCtlWrite n v := rfl
theorem exec_srSeedLoad (n : Fin 24) (v : Word) (s : State) : exec (.srSeedLoad n v) s = run s fun s => s.seedLoad n v := rfl
theorem exec_windowEnable (w : Fin 64) (v : Word) (s : State) :
    exec (.windowEnable w v) s = run s fun s => s.winCtlWrite w (v ||| 1) := rfl

/-- The command of a context, where it is ready for a slot of its Spire (R198). -/
def State.slotReady (s : State) (n k : Nat) : Option (Nat × Cmd) :=
  (s.cmd k).bind fun c =>
    if c.eng == .spireQ n && c.st == .queued && (!c.heavy || c.leave) && !s.heldBack c then some (k, c) else none

section
variable {s : State} {n : Nat}

theorem State.slotReady_some {k : Nat} {c : Cmd} (hk : s.cmd k = some c) (he : c.eng = .spireQ n) (hq : c.st = .queued)
    (hl : c.heavy = true → c.leave = true) (hb : s.heldBack c = false) : s.slotReady n k = some (k, c) := by
  simpa [State.slotReady, hk, he, hq, hb] using hl

theorem State.slotReady_none {j : Nat} (h : ∀ x, s.cmd j = some x →
    ¬ (x.eng = .spireQ n ∧ x.st = .queued ∧ (x.heavy = true → x.leave = true) ∧ s.heldBack x = false)) :
    s.slotReady n j = none := by
  cases hj : s.cmd j with
  | none => simp [State.slotReady, hj]
  | some x =>
    refine (congrArg (Option.bind · _) hj).trans (if_neg fun hx => h x hj ?_)
    simp only [Bool.and_eq_true, beq_iff_eq, Bool.or_eq_true, Bool.not_eq_true'] at hx
    obtain ⟨⟨⟨he, hq⟩, hl⟩, hb⟩ := hx
    exact ⟨he, hq, fun hh => hl.resolve_left (by simp [hh]), hb⟩

theorem State.slotStart_oldest {slot k : Nat} {c : Cmd} {before after : List Nat} (hq : (s.spire n).opq = before ++ k :: after)
    (hs : SMap.firstFree (s.spire n).slots 4 = some slot) (hr : s.slotReady n k = some (k, c))
    (hb : ∀ j ∈ before, s.slotReady n j = none) : s.slotStart n =
      ((s.setSpire n (({ s.spire n with slots := SMap.put (s.spire n).slots slot k } : Spire).wipe slot)).putCmd k
        { c with eng := .spireSlot n slot, st := .running }).showSpire n := by
  have hready : (s.spire n).opq.filterMap (s.slotReady n) = (k, c) :: after.filterMap (s.slotReady n) := by
    rw [hq, List.filterMap_append, List.filterMap_eq_nil_iff.2 hb, List.nil_append, List.filterMap_cons, hr]
  have h : s.slotStart n = match SMap.firstFree (s.spire n).slots 4, (s.spire n).opq.filterMap (s.slotReady n) with
    | some slot, (k, c) :: _ =>
      ((s.setSpire n (({ s.spire n with slots := SMap.put (s.spire n).slots slot k } : Spire).wipe slot)).putCmd k
        { c with eng := .spireSlot n slot, st := .running }).showSpire n
    | _, _ => s := rfl
  rw [h, hs, hready]

section
variable {v : Word}

theorem State.spireCtlWrite_enable (h : F.SPIRE_CTL_enable.on v = true) : s.spireCtlWrite n v =
    ((s.fFlag F.SPIRE_CTL_hold (F.SPIRE_CTL_hold.on v) n).fFlag F.SPIRE_CTL_enable true n).showSpire n := by
  simp only [State.spireCtlWrite, h, if_true]

theorem State.spireCtlWrite_disable (h : F.SPIRE_CTL_enable.on v = false) (hq : (s.spire n).opq = [])
    (hs : (s.spire n).slots = []) : s.spireCtlWrite n v =
      ((s.fFlag F.SPIRE_CTL_hold (F.SPIRE_CTL_hold.on v) n).fFlag F.SPIRE_CTL_enable false n).showSpire n := by
  simp only [State.spireCtlWrite, h, hq, hs, List.isEmpty_nil, Bool.and_self, Bool.false_eq_true, if_false, if_true]

theorem State.spireCtlWrite_refused (h : F.SPIRE_CTL_enable.on v = false)
    (hq : (s.spire n).opq ≠ [] ∨ (s.spire n).slots ≠ []) : s.spireCtlWrite n v =
      ((s.fFlag F.SPIRE_CTL_hold (F.SPIRE_CTL_hold.on v) n).fFlag F.SPIRE_STATUS_refused true n).showSpire n := by
  have hbusy : ((s.spire n).opq.isEmpty && (s.spire n).slots.isEmpty) = false := by
    rcases hq with h | h <;> simp [h]
  simp only [State.spireCtlWrite, h, hbusy, Bool.false_eq_true, if_false]

theorem State.seedLoad_of_ne (h : v ++ s.rd R.SPIRE_SR_SEED_LO n ≠ 0#64) :
    s.seedLoad n v = s.setSpire n { s.spire n with gen := v ++ s.rd R.SPIRE_SR_SEED_LO n, draws := 0 } := if_neg h

theorem State.winCtlWrite_ok {w : Nat} (h : s.winOk w (F.SPIRE_WIN_CTL_fmt.of v) = true) :
    s.winCtlWrite w v = s.wrCodes R.SPIRE_WIN_CTL v 0 w := if_neg (by simp [h])

theorem State.winCtlWrite_refused {w : Nat} (he : F.SPIRE_WIN_CTL_enable.on v = true)
    (h : s.winOk w (F.SPIRE_WIN_CTL_fmt.of v) = false) :
    s.winCtlWrite w v = s.fFlag F.SPIRE_WIN_CTL_refused true 0 w := if_pos (by simp [he, h])

end
end

/-- A word with bit 0 set names the enable. -/
theorem win_enable_or_one (v : Word) : F.SPIRE_WIN_CTL_enable.on (v ||| 1) = true :=
  Fld.on_or_of_set _ _ _ (by decide)

/-- Settles O40: each row through its cases. -/
theorem spireControl : Obligations.SpireControl := by
  refine fun s hup => ⟨fun n slot k c before after hq hs hk he hst hl hb hbefore => ?_, fun n v t ht => ?_, fun n v h => ?_,
    fun w v => ⟨fun h => ?_, fun h => ?_⟩⟩
  · rw [exec_spireSlotStart, run_up _ hup, State.slotStart_oldest hq hs (State.slotReady_some hk he hst hl hb)
      fun j hj => State.slotReady_none (hbefore j hj)]
  · subst ht
    refine ⟨fun h => ?_, fun h hq hs => ?_, fun h hq => ?_⟩
    · rw [exec_spireCtlWrite, run_up _ hup, State.spireCtlWrite_enable h]
    · rw [exec_spireCtlWrite, run_up _ hup, State.spireCtlWrite_disable h hq hs]
    · rw [exec_spireCtlWrite, run_up _ hup, State.spireCtlWrite_refused h hq]
  · rw [exec_srSeedLoad, run_up _ hup, State.seedLoad_of_ne h]
  · rw [exec_windowEnable, run_up _ hup, State.winCtlWrite_ok h]
  · rw [exec_windowEnable, run_up _ hup, State.winCtlWrite_refused (win_enable_or_one v) h]

/-! ## Leave for heavy operations -/

theorem exec_pguGrant (s : State) : exec .pguGrant s = run s fun s => s.pguGrant := rfl

section
variable {s : State} {r : PguReq} {rest : List PguReq} {c : Nat} {t : State} (hq : s.pwr.queue = r :: rest)
  (hc : c = s.pguCost r.kind)
include hq hc

theorem State.pguGrant_waits (hlim : s.pguLimit < s.fN F.PGU_BASE_base + s.granted + c) (hg : s.granted ≠ 0) :
    s.pguGrant = s := by
  have hfits : s.pguFits c = false := by simp [State.pguFits, hlim, hg]
  rw [State.pguGrant, hq]
  simp only [← hc, hfits, Bool.not_false, if_true]

variable (ht : t = { s with pwr := { s.pwr with queue := rest, granted := s.pwr.granted ++ [(r, c)] } })
include ht

theorem State.pguGrant_fits (h : s.fN F.PGU_BASE_base + s.granted + c ≤ s.pguLimit) :
    s.pguGrant = t.leaveGiven r.owner := by
  have hfits : s.pguFits c = true := by simp [State.pguFits, h]
  rw [State.pguGrant, hq]
  simp only [← hc, hfits, Bool.not_true, Bool.false_eq_true, if_false, decide_eq_true_eq, if_neg (Nat.not_lt.2 h), ← ht]

theorem State.pguGrant_solo (h : s.pguLimit < s.fN F.PGU_BASE_base + s.granted + c) (hg : s.granted = 0) :
    s.pguGrant = (t.bump F.PGU_CNT_solo_grants).leaveGiven r.owner := by
  have hfits : s.pguFits c = true := by simp [State.pguFits, hg]
  rw [State.pguGrant, hq]
  simp only [← hc, hfits, Bool.not_true, Bool.false_eq_true, if_false, decide_eq_true_eq, if_pos h, ← ht]

end

/-- Settles O42: a grant by whether it fits, and the pin by whether the device is frozen. -/
theorem powerGrants : Obligations.PowerGrants := by
  refine ⟨fun s r rest c t hup hq hc ht => ⟨fun h => ?_, fun h hg => ?_, fun h hg => ?_⟩,
    fun s low => ⟨_, rfl, rfl, fun h => if_neg (by simp [h]), fun h => if_pos h, rfl, fun h => if_pos h, fun h => if_neg ?_⟩⟩
  · rw [exec_pguGrant, run_up _ hup, State.pguGrant_fits hq hc ht h]
  · rw [exec_pguGrant, run_up _ hup, State.pguGrant_solo hq hc ht h hg]
  · rw [exec_pguGrant, run_up _ hup, State.pguGrant_waits hq hc h hg, State.keep_self]
  · exact ne_true_of_eq_false h

end Sys2Proof.Machine
end

section
/-!
PROOFS. Token buckets at a refill edge (R297), claims, groups, vectors and timers (R335 - R341).
-/
namespace Sys2Proof.Machine

/-! ## A refill edge over a table that lists a bucket twice -/

theorem exec_shaperRefill (s : State) : exec .shaperRefill s = run s fun s => s.shaperRefill := rfl

/-- A bucket that a refill edge takes to its reset value. -/
def fadingBucket : Bucket := { Bucket.reset with rate := 1 }

/-- A bucket that stays away from its reset value over a refill edge. -/
def lastingBucket : Bucket := { Bucket.reset with newRate := 1 }

/-- A running device whose table of port buckets lists port 0 twice. -/
def twiceListed : State :=
  { State.reset with
    pwr := { Power.reset with pwrok := true, inReset := false },
    eg := { Egress.reset with ports := [(0, fadingBucket), (0, lastingBucket)] } }

theorem twiceListed_up : twiceListed.up = true := rfl

/-- Before the edge the first entry of port 0 counts, after it the second. -/
theorem twiceListed_bucket : twiceListed.bucket .port 0 = fadingBucket ∧
    (twiceListed.shaperRefill.keep twiceListed).bucket .port 0 = lastingBucket.refill := by decide

/-- Refutes O51: its clause on refill edges speaks of every state, also one whose table of buckets lists a key twice, and
there the edge brings the second entry to light: the first returns to the reset value and is listed no more. -/
theorem not_egressScheduling : ¬ Obligations.EgressScheduling := by
  intro h
  obtain ⟨-, -, -, -, ⟨t, ht, hb⟩, -⟩ := h twiceListed twiceListed_up
  obtain ⟨hbefore, hafter⟩ := twiceListed_bucket
  rw [exec_shaperRefill, run_up _ twiceListed_up] at ht
  obtain rfl := Host.Outcome.next.inj ht
  have hedge := hb .port 0 (by simp)
  rw [hbefore, hafter] at hedge
  exact absurd hedge (by decide)

/-! ## Claims -/

theorem exec_claim (k : Fin 24) (s : State) : exec (.claim k) s =
    run s fun s => (s.claim k).1.emit (.csr (R.WAGGLE_CORE_CLAIM.addr 0 k) (s.claim k).2) := rfl
theorem exec_swtrig (n : BitVec 12) (s : State) : exec (.swtrig n) s = run s fun s => s.swtrig n.toNat := rfl

/-- Whether a core may claim a source. -/
def State.claimable (s : State) (k n : Nat) : Bool :=
  s.wPending n && (s.wsrc n).targets.getLsbD k && decide (s.corePrio k < (s.wsrc n).level)

theorem State.claimable_iff (s : State) (k n : Nat) : s.claimable k n = true ↔
    s.wPending n = true ∧ (s.wsrc n).targets.getLsbD k = true ∧ s.corePrio k < (s.wsrc n).level := by
  rw [State.claimable, Bool.and_eq_true, Bool.and_eq_true, decide_eq_true_eq, and_assoc]

/-- The better of the source found so far and the next one. -/
def State.claimBetter (s : State) (acc : Option Nat) (n : Nat) : Option Nat :=
  match acc with
  | none => some n
  | some b => if (s.wsrc b).level < (s.wsrc n).level ∨ ((s.wsrc b).level = (s.wsrc n).level ∧ n < b) then some n else some b

theorem State.claimPick_eq (s : State) (k : Nat) :
    s.claimPick k = (s.wCands.filter (s.claimable k)).foldl s.claimBetter none := rfl

/-- `n` ranks at least as high as `m`. -/
def State.ranksOver (s : State) (n m : Nat) : Prop :=
  (s.wsrc m).level ≤ (s.wsrc n).level ∧ ((s.wsrc m).level = (s.wsrc n).level → n ≤ m)

theorem State.ranksOver_refl (s : State) (n : Nat) : s.ranksOver n n := ⟨le_rfl, fun _ => le_rfl⟩

theorem State.ranksOver_trans {s : State} {a b c : Nat} (h : s.ranksOver a b) (h' : s.ranksOver b c) : s.ranksOver a c := by
  obtain ⟨hab, hab'⟩ := h
  obtain ⟨hbc, hbc'⟩ := h'
  exact ⟨by omega, fun hac => by have := hab' (by omega); have := hbc' (by omega); omega⟩

/-- The better one ranks over both, and is one of them. -/
theorem State.claimBetter_some (s : State) (b n : Nat) : ∃ a, s.claimBetter (some b) n = some a ∧ (a = b ∨ a = n) ∧
    s.ranksOver a b ∧ s.ranksOver a n := by
  by_cases h : (s.wsrc b).level < (s.wsrc n).level ∨ ((s.wsrc b).level = (s.wsrc n).level ∧ n < b)
  · refine ⟨n, if_pos h, .inr rfl, ⟨by omega, by omega⟩, s.ranksOver_refl n⟩
  · refine ⟨b, if_neg h, .inl rfl, s.ranksOver_refl b, ⟨by omega, by omega⟩⟩

/-- The fold ends with a source of the list, or the one it began with, that ranks over all of them. -/
theorem State.claimFold_best (s : State) (l : List Nat) (b : Nat) : ∃ a, l.foldl s.claimBetter (some b) = some a ∧
    (a = b ∨ a ∈ l) ∧ s.ranksOver a b ∧ ∀ m ∈ l, s.ranksOver a m := by
  induction l generalizing b with
  | nil => exact ⟨b, rfl, .inl rfl, s.ranksOver_refl b, by simp⟩
  | cons n l ih =>
    obtain ⟨c, hc, hcb, hrb, hrn⟩ := s.claimBetter_some b n
    obtain ⟨a, ha, hmem, hrc, hall⟩ := ih c
    refine ⟨a, by rw [List.foldl_cons, hc, ha], ?_, State.ranksOver_trans hrc hrb, ?_⟩
    · rcases hmem with rfl | h
      · rcases hcb with rfl | rfl
        · exact .inl rfl
        · exact .inr List.mem_cons_self
      · exact .inr (List.mem_cons_of_mem _ h)
    · simp only [List.forall_mem_cons]
      exact ⟨State.ranksOver_trans hrc hrn, hall⟩

/-- A claim gives nothing where no source may be claimed, and else one that may and ranks over all that may. -/
theorem State.claimPick_cases (s : State) (k : Nat) :
    (s.claimPick k = none ∧ ∀ m ∈ s.wCands, s.claimable k m = false) ∨
    ∃ a, s.claimPick k = some a ∧ s.claimable k a = true ∧ ∀ m ∈ s.wCands, s.claimable k m = true → s.ranksOver a m := by
  rw [State.claimPick_eq]
  cases hl : s.wCands.filter (s.claimable k) with
  | nil =>
    refine .inl ⟨rfl, fun m hm => Bool.eq_false_iff.2 ?_⟩
    exact List.filter_eq_nil_iff.1 hl m hm
  | cons n l =>
    obtain ⟨a, ha, hmem, hrn, hall⟩ := s.claimFold_best l n
    have hmem' : a ∈ s.wCands.filter (s.claimable k) := by
      rw [hl]
      exact List.mem_cons.2 hmem
    refine .inr ⟨a, ha, (List.mem_filter.1 hmem').2, fun m hm hc => ?_⟩
    have hm' := List.mem_filter.2 ⟨hm, hc⟩
    rw [hl] at hm'
    rcases List.mem_cons.1 hm' with rfl | h
    · exact hrn
    · exact hall m h

section
variable {s : State} {k : Nat}

theorem State.claim_none (h : s.claimPick k = none) : s.claim k = (s, 0) := by
  rw [State.claim, h]

theorem State.claim_some {n : Nat} {w : WSrc} {t u : State} (h : s.claimPick k = some n) (hw : w = s.wsrc n)
    (ht : t = s.setWsrc n { w with count := 0, lastCore := k })
    (hu : u = { t with wag := { t.wag with service := t.wag.service ++ [(k, n)] } }) :
    s.claim k = (u.holdoffBegin w.group,
      BitVec.ofNat 32 (2 ^ 31 + w.level * 2 ^ 26 + (if n = 8 then 1 else w.count) * 2 ^ 18 + n)) := by
  subst hw ht hu
  rw [State.claim, h]

theorem State.holdoffBegin_zero {g : Nat} (h : (s.wgroup g).holdoff = 0) : s.holdoffBegin g = s := if_pos h

theorem State.holdoffBegin_some {g : Nat} (h : (s.wgroup g).holdoff ≠ 0) : s.holdoffBegin g =
    (s.setWgroup g { s.wgroup g with heldSince := some s.pwr.refTime }).setTimer (s.wgroup g).timer
      { s.timer (s.wgroup g).timer with run := true, left := (s.wgroup g).holdoff, since := s.pwr.refTime } := if_neg h

end

/-! ## Groups, vectors and timers -/

theorem exec_grpCfgWrite (v : Word) (s : State) : exec (.grpCfgWrite v) s = run s fun s => s.grpCfgWrite v := rfl
theorem exec_holdoffExpiry (g : Fin 128) (s : State) : exec (.holdoffExpiry g) s = run s fun s => s.holdoffEnd g.val := rfl
theorem exec_msixUnmask (s : State) : exec .msixUnmask s =
    run s fun s => s.msixCtlWrite ((s.vec s.vecIdx.1 s.vecIdx.2).ctl &&& ~~~0x40000000#32) := rfl
theorem exec_timerExpiry (t : Fin 64) (s : State) : exec (.timerExpiry t) s = run s fun s => s.timerExpiry t.val := rfl
theorem exec_tmrOwnerWrite (v : Word) (s : State) : exec (.tmrOwnerWrite v) s = run s fun s => s.tmrOwnerWrite v := rfl

section
variable {s : State}

section
variable {v : Word} {g h t : Nat} (hg : g = s.fN F.WAGGLE_GRP_IDX_group) (hh : h = F.WAGGLE_GRP_CFG_holdoff.of v)
  (ht : t = F.WAGGLE_GRP_CFG_timer.of v)
include hg hh ht

theorem State.grpCfgWrite_refused (h0 : h ≠ 0) (ho : (s.timer t).owner ≠ 0x1000 + g) :
    s.grpCfgWrite v = s.setWgroup g { s.wgroup g with refused := true } := by
  subst hg hh ht
  exact if_pos ⟨h0, ho⟩

theorem State.grpCfgWrite_accepted (ho : h = 0 ∨ (s.timer t).owner = 0x1000 + g) :
    s.grpCfgWrite v = s.setWgroup g { s.wgroup g with holdoff := h, timer := t, refused := false } := by
  subst hg hh ht
  exact if_neg fun hbad => ho.elim hbad.1 hbad.2

end

theorem State.holdoffEnd_none {g : Nat} (h : (s.wgroup g).heldSince = none) : s.holdoffEnd g = s :=
  if_pos (by rw [h]; rfl)

theorem State.holdoffEnd_some {g : Nat} (h : (s.wgroup g).heldSince ≠ none) : s.holdoffEnd g =
    ((s.setWgroup g { s.wgroup g with heldSince := none }).setTimer (s.wgroup g).timer
      { s.timer (s.wgroup g).timer with run := false, left := 0 }).wagEvent (64 + (s.wgroup g).timer) :=
  if_neg (by rwa [Option.isNone_iff_eq_none])

/-- A field that a mask takes whole keeps its value. -/
theorem Fld.of_and_of_full (f : Fld) (v m : Word) (h : f.of m = 2 ^ (f.hi + 1 - f.lo) - 1) : f.of (v &&& m) = f.of v := by
  rw [Fld.of] at h
  rw [Fld.of, BitVec.toNat_and, bits_and, h, Nat.and_two_pow_sub_one_eq_mod, bits, Nat.mod_mod, Fld.of, bits]

/-- What a vector's control word shows of it. -/
theorem Vec.ctl_fields (x : Vec) (hp : x.port < 16) (hl : x.link < 2) (hd : x.dest < 4096) :
    F.WAGGLE_MSIX_CTL_port.of x.ctl = x.port ∧ F.WAGGLE_MSIX_CTL_link.of x.ctl = x.link ∧
    F.WAGGLE_MSIX_CTL_src_kind.of x.ctl = (if x.ldKind then 1 else 0) ∧ F.WAGGLE_MSIX_CTL_dest_id.of x.ctl = x.dest := by
  simp only [Fld.of, F.WAGGLE_MSIX_CTL_port, F.WAGGLE_MSIX_CTL_link, F.WAGGLE_MSIX_CTL_src_kind,
    F.WAGGLE_MSIX_CTL_dest_id, bits, Vec.ctl, BitVec.toNat_ofNat]
  refine ⟨?_, ?_, ?_, ?_⟩ <;> split_ifs <;> omega

/-- A vector's control word with its mask cleared keeps every other field. -/
theorem Vec.unmasked_fields (x : Vec) (hp : x.port < 16) (hl : x.link < 2) (hd : x.dest < 4096) :
    F.WAGGLE_MSIX_CTL_mask.on (x.ctl &&& ~~~0x40000000#32) = false ∧
    F.WAGGLE_MSIX_CTL_port.of (x.ctl &&& ~~~0x40000000#32) = x.port ∧
    F.WAGGLE_MSIX_CTL_link.of (x.ctl &&& ~~~0x40000000#32) = x.link ∧
    F.WAGGLE_MSIX_CTL_src_kind.on (x.ctl &&& ~~~0x40000000#32) = x.ldKind ∧
    F.WAGGLE_MSIX_CTL_dest_id.of (x.ctl &&& ~~~0x40000000#32) = x.dest := by
  obtain ⟨hport, hlink, hkind, hdest⟩ := x.ctl_fields hp hl hd
  refine ⟨Fld.on_and_of_masked _ _ _ (by decide), (Fld.of_and_of_full _ _ _ (by decide)).trans hport,
    (Fld.of_and_of_full _ _ _ (by decide)).trans hlink, ?_, (Fld.of_and_of_full _ _ _ (by decide)).trans hdest⟩
  rw [Fld.on, Fld.of_and_of_full _ _ _ (by decide), hkind]
  cases x.ldKind <;> rfl

section
variable {d n : Nat} {x : Vec} (hi : s.vecIdx = (d, n)) (hx : x = s.vec d n) (hp : x.port < 16) (hl : x.link < 2) (hd : x.dest < 4096)
include hi hx hp hl hd

theorem State.msixUnmask_eq : s.msixCtlWrite ((s.vec s.vecIdx.1 s.vecIdx.2).ctl &&& ~~~0x40000000#32) =
    if x.pending then (s.setVec d n { x with mask := false }).vecSend d n else s.setVec d n { x with mask := false } := by
  obtain ⟨hm, hport, hlink, hkind, hdest⟩ := x.unmasked_fields hp hl hd
  simp only [State.msixCtlWrite, hi, ← hx, hm, hport, hlink, hkind, hdest, Bool.not_false, Bool.and_true]

end

section
variable {t : Nat}

theorem State.timerExpiry_stopped (h : (s.timer t).run = false) : s.timerExpiry t = s := if_pos (by rw [h]; rfl)

theorem State.timerExpiry_periodic (h : (s.timer t).run = true) (hp : (s.timer t).periodic = true) :
    s.timerExpiry t = (s.setTimer t ((s.timer t).start s.pwr.refTime)).wagEvent (64 + t) := by
  simp only [State.timerExpiry, h, hp, Bool.not_true, Bool.false_eq_true, if_false, if_true]

theorem State.timerExpiry_once (h : (s.timer t).run = true) (hp : (s.timer t).periodic = false) :
    s.timerExpiry t = (s.setTimer t { s.timer t with run := false, left := 0 }).wagEvent (64 + t) := by
  simp only [State.timerExpiry, h, hp, Bool.not_true, Bool.false_eq_true, if_false]

end

section
variable {v : Word} {t o : Nat} {x : Timer} (ht : t = s.fN F.WAGGLE_TMR_IDX_timer) (hx : x = s.timer t)
  (ho : o = F.WAGGLE_TMR_OWNER_owner.of v)
include ht hx ho

theorem State.tmrOwnerWrite_accepted (h : o = x.owner ∨ x.owner = 0 ∨ (o = 0 ∧ s.timerHeld t = false)) :
    s.tmrOwnerWrite v = s.setTimer t { x with owner := o, refused := false } := by
  subst ht hx ho
  refine if_pos ?_
  rcases h with h | h | ⟨h, hh⟩
  · simp [h]
  · simp [h]
  · simp [h, hh]

theorem State.tmrOwnerWrite_refused (h : o ≠ x.owner) (h0 : x.owner ≠ 0) (hh : o ≠ 0 ∨ s.timerHeld t = true) :
    s.tmrOwnerWrite v = s.setTimer t { x with refused := true } := by
  subst ht hx ho
  refine if_neg ?_
  rcases hh with hh | hh <;> simp [h, h0, hh]

end
end

/-- Settles O56: the claim by the fold that picks it, every other row through its cases. -/
theorem interruptsAndTimers : Obligations.InterruptsAndTimers := by
  refine ⟨fun s k hup => ⟨fun n hn => ?_, fun h => ?_, fun n w t hn hw ht u hu => ?_, fun m hm hp ht hl => ?_,
      fun g x hx => ?_, fun n => ⟨fun h => ?_, fun h => ?_⟩⟩,
    fun s hup => ⟨fun v g h t hg hh ht => ⟨fun h0 ho => ?_, fun ho => ?_⟩, fun g x hx => ?_,
      fun d n x hi hx hp hl hd t ht => ⟨fun h => ?_, fun h => ?_⟩, fun t x hx => ?_,
      fun v t o x ht hx ho => ⟨fun h => ?_, fun h h0 hh => ?_⟩⟩⟩
  · rcases s.claimPick_cases k with ⟨hnone, -⟩ | ⟨a, ha, hc, hall⟩
    · simp [hnone] at hn
    · obtain rfl := Option.some.inj (ha.symm.trans hn)
      exact ⟨(s.claimable_iff k a).1 hc, fun m hm hp ht hl => hall m hm ((s.claimable_iff k m).2 ⟨hp, ht, hl⟩)⟩
  · rw [exec_claim, run_up _ hup, State.claim_none h]
  · rw [exec_claim, run_up _ hup, State.claim_some hn hw ht hu]
  · rcases s.claimPick_cases k with ⟨-, hno⟩ | ⟨a, ha, -⟩
    · exact absurd ((s.claimable_iff k m).2 ⟨hp, ht, hl⟩) (by simp [hno m hm])
    · simp [ha]
  · subst hx
    exact ⟨State.holdoffBegin_zero, State.holdoffBegin_some⟩
  · rw [exec_swtrig, run_up _ hup, State.swtrig, if_pos ⟨h, n.isLt⟩]
  · rw [exec_swtrig, run_up _ hup, State.swtrig, if_neg (by omega), State.keep_self]
  · rw [exec_grpCfgWrite, run_up _ hup, State.grpCfgWrite_refused hg hh ht h0 ho]
  · rw [exec_grpCfgWrite, run_up _ hup, State.grpCfgWrite_accepted hg hh ht ho]
  · subst hx
    refine ⟨fun h => ?_, fun h => ?_⟩
    · rw [exec_holdoffExpiry, run_up _ hup, State.holdoffEnd_none h, State.keep_self]
    · rw [exec_holdoffExpiry, run_up _ hup, State.holdoffEnd_some h]
  · rw [exec_msixUnmask, run_up _ hup, State.msixUnmask_eq hi hx hp hl hd, if_pos h, ht]
  · rw [exec_msixUnmask, run_up _ hup, State.msixUnmask_eq hi hx hp hl hd, if_neg (by simp [h]), ht]
  · subst hx
    refine ⟨fun h => ?_, fun h hp => ?_, fun h hp => ?_⟩
    · rw [exec_timerExpiry, run_up _ hup, State.timerExpiry_stopped h, State.keep_self]
    · rw [exec_timerExpiry, run_up _ hup, State.timerExpiry_periodic h hp]
    · rw [exec_timerExpiry, run_up _ hup, State.timerExpiry_once h hp]
  · rw [exec_tmrOwnerWrite, run_up _ hup, State.tmrOwnerWrite_accepted ht hx ho h]
  · rw [exec_tmrOwnerWrite, run_up _ hup, State.tmrOwnerWrite_refused ht hx ho h h0 hh]

end Sys2Proof.Machine
end

section
/-!
PROOFS. Training, resets and spare lanes of a Rythar port (R259, R260, R268 - R273).
-/
namespace Sys2Proof.Machine

/-! ## Ports read back -/

@[simp] theorem State.ryPort_setRy (s : State) (p : Nat) (x : RyPort) : (s.setRy p x).ryPort p = x := by
  show (s.ry.set (Fin.ofNat 12 p).val x (Fin.ofNat 12 p).isLt).get (Fin.ofNat 12 p) = x
  rw [Vector.get_eq_getElem]
  exact Vector.getElem_set_self _

theorem State.ryPort_keep (s t : State) (p : Nat) : (s.keep t).ryPort p = s.ryPort p := rfl

theorem State.ryPort_fFlag (s : State) (f : Fld) (b : Bool) (i k p : Nat) : (s.fFlag f b i k).ryPort p = s.ryPort p := by
  rw [State.ryPort, State.fFlag_ry, State.ryPort]

theorem State.ryPort_fSet (s : State) (f : Fld) (v i k p : Nat) : (s.fSet f v i k).ryPort p = s.ryPort p := by
  rw [State.ryPort, State.fSet_ry, State.ryPort]

theorem State.ryPort_raise (s : State) (p : Nat) (a b c d e) : (s.raise a b c d e).ryPort p = s.ryPort p := by
  unfold State.raise
  split <;> rfl

theorem State.fN_raise (s : State) (f : Fld) (i k : Nat) (a b c d e) : (s.raise a b c d e).fN f i k = s.fN f i k := by
  unfold State.raise
  split <;> rfl

/-! ## Configuration and resets -/

section
variable {s : State} {p : Nat}

theorem State.ryDown_failed (h : (s.ryPort p).st = .failed) : s.ryDown p = s := if_pos h

theorem State.ryDown_other (h : (s.ryPort p).st ≠ .failed) : s.ryDown p = s.setRy p { s.ryPort p with
    st := .down, since := s.pwr.refTime, ctrl := [], paused := false, sparing := none, moving := false, spareTx := none,
    txLine := (0, 0), rxLine := (0, 0, false) } := if_neg h

section
variable {v : Word}

theorem State.rypCfgWrite_enable (h : F.RYP_CFG_enable.on v = true) :
    s.rypCfgWrite p v = (s.wrCodes R.RYP_CFG v p).ryKick p := if_pos h

theorem State.rypCfgWrite_disable (h : F.RYP_CFG_enable.on v = false) :
    s.rypCfgWrite p v = (s.wrCodes R.RYP_CFG v p).ryDown p := if_neg (by simp [h])

theorem State.rypLinkCtlWrite_disable (h : F.RYP_LINK_CTL_disable.on v = true) :
    s.rypLinkCtlWrite p v = (s.wrCodes R.RYP_LINK_CTL v p).ryDown p := if_pos h

theorem State.rypLinkCtlWrite_kick (h : F.RYP_LINK_CTL_disable.on v = false) (hr : F.RYP_LINK_CTL_reset.on v = false) :
    s.rypLinkCtlWrite p v = (s.wrCodes R.RYP_LINK_CTL v p).ryKick p := by
  simp only [State.rypLinkCtlWrite, h, hr, Bool.false_eq_true, if_false]

theorem State.rypLinkCtlWrite_reset (h : F.RYP_LINK_CTL_disable.on v = false) (hr : F.RYP_LINK_CTL_reset.on v = true) :
    s.rypLinkCtlWrite p v = ((s.wrCodes R.RYP_LINK_CTL v p).ryKick p).ryResetWrite p := by
  simp only [State.rypLinkCtlWrite, h, hr, Bool.false_eq_true, if_false, if_true]

end

theorem link_disable_set (v : Word) : F.RYP_LINK_CTL_disable.on ((v &&& ~~~2#32) ||| 2#32) = true :=
  Fld.on_or_of_set _ _ _ (by decide)

theorem link_disable_cleared (v : Word) : F.RYP_LINK_CTL_disable.on ((v &&& ~~~2#32) ||| 0#32) = false := by
  rw [BitVec.or_zero]
  exact Fld.on_and_of_masked _ _ _ (by decide)

theorem link_reset_set (v : Word) : F.RYP_LINK_CTL_reset.on (v ||| 1#32) = true := Fld.on_or_of_set _ _ _ (by decide)

/-! ## Training -/

/-- The lanes that hold lock, the spare the ninth. -/
theorem lanes_locked (x8 : BitVec 8) (sp : Bool) :
    (List.range 9).filter (fun k => (BitVec.ofBool sp ++ x8).getLsbD k) =
      (List.range 8).filter (fun k => x8.getLsbD k) ++ (if sp then [8] else []) := by
  rw [List.range_succ, List.filter_append]
  congr 1
  · refine List.filter_congr fun k hk => ?_
    rw [BitVec.getLsbD_append, if_pos (List.mem_range.1 hk)]
  · have hspare : (BitVec.ofBool sp ++ x8).getLsbD 8 = sp := by
      rw [BitVec.getLsbD_append]
      cases sp <;> rfl
    rw [List.filter_singleton, hspare]
    cases sp <;> rfl

section
variable {lock : BitVec 9} {good : List Nat} (hg : (List.range 9).filter (fun k => lock.getLsbD k) = good)
include hg

theorem State.fecLock_few (h : good.length < 4) : s.fecLock p lock = s := by
  subst hg
  exact if_pos (.inr h)

theorem State.fecLock_locks {x4 : Bool} (hst : (s.ryPort p).st = .align) (h : 4 ≤ good.length)
    (hx : x4 = (decide (good.length < 8) || (s.ryPort p).capX4)) :
    s.fecLock p lock = (((s.setRy p { s.ryPort p with
        st := .param, since := s.pwr.refTime, x4 := x4, lanes := good.take (if x4 then 4 else 8), spareTx := none,
        spareLocked := good.length == 9, corrs := [], txLine := (0, 0), rxLine := (0, 0, false) }).fFlag
          F.RYP_LINK_STATUS_spare_used false p).announce p) := by
  subst hg hx
  exact if_neg fun hbad => hbad.elim (fun hne => hne hst) (Nat.not_lt.2 h)

end

/-- Reporting losses to their requesters touches no power state. -/
theorem State.lostAll_pwr (ms : List (Option MsgKey)) : (s.lostAll ms).pwr = s.pwr := by
  refine foldl_keeps State.pwr (fun t m => t.lostMsg m) (fun t m => ?_) _ _
  cases m with
  | none => rfl
  | some k =>
    show (t.originate _ 1).pwr = t.pwr
    unfold State.originate
    split <;> rfl

section
variable {a : Announce}

theorem State.paramDone_other (h : (s.ryPort p).st ≠ .param) : s.paramDone p a = s := if_pos (by simpa using h)

variable (hst : (s.ryPort p).st = .param)
include hst

theorem State.paramDone_clash (h : a.node.val = s.pwr.node) :
    s.paramDone p a = (s.fFlag F.RYP_LINK_STATUS_id_clash true p).ryFail p := by
  simp only [State.paramDone, hst, bne_self_eq_false, Bool.false_eq_true, if_false, if_pos h]

omit hst in
/-- What a port shows of its partner once the exchange of parameters is done. -/
def State.showPartner (s : State) (p n : Nat) (lead : Bool × Bool) (wide fast : Bool) : State :=
  let s := (s.fSet F.RYP_LINK_STATUS_peer_node n p).fFlag F.RYP_LINK_STATUS_peer_valid true p
  let s := s.fFlag F.RYP_LINK_STATUS_leader lead.1 p
  let s := if lead.2 && !lead.1 then s.fFlag F.RYP_LINK_STATUS_req_dropped true p else s
  let s := s.fFlag F.RYP_LINK_STATUS_width wide p
  let s := s.fFlag F.RYP_LINK_STATUS_speed fast p
  s.wiringCheck p n

/-- A partner that is accepted: the port is ACTIVE, and shows it. -/
theorem State.paramDone_accepted (h : a.node.val ≠ s.pwr.node)
    (hk : s.fB F.RYP_CFG_enc_required p = false ∨ (s.ryPort p).keys ≠ []) :
    ∃ (u : State) (r : RyPort) (lead : Bool × Bool) (wide fast : Bool), u.pwr = s.pwr ∧ r.st = .active ∧ r.attempts = 0 ∧
      s.paramDone p a = (u.setRy p r).showPartner p a.node.val lead wide fast := by
  have hkeys : (s.fB F.RYP_CFG_enc_required p && !(s.ryPort p).encrypted) = false := by
    rcases hk with hk | hk <;> simp [RyPort.encrypted, hk]
  simp only [State.paramDone, hst, bne_self_eq_false, Bool.false_eq_true, if_false, if_neg h, hkeys]
  refine ⟨_, _, _, _, _, ?_, rfl, rfl, rfl⟩
  split
  · rw [State.bump, State.fSet_pwr, State.lostAll_pwr]
  · rfl

end

/-! ### What is shown of the partner -/

section
variable (s) (p n : Nat) (lead : Bool × Bool) (wide fast : Bool)

theorem State.wiringCheck_ryPort : (s.wiringCheck p n).ryPort p = s.ryPort p := by
  unfold State.wiringCheck
  split
  · rw [State.ryPort_fFlag]
  · rw [State.ryPort_raise, State.ryPort_fFlag]

theorem State.wiringCheck_error : (s.wiringCheck p n).fB F.RYP_ROUTE_STATUS_wiring_error p = !wiringOk s.pwr.node n p := by
  unfold State.wiringCheck
  split
  next h => rw [State.fB_fFlag _ _ _ _ _ (by decide), h]; rfl
  next h =>
    rw [State.fB, State.fN_raise, ← State.fB, State.fB_fFlag _ _ _ _ _ (by decide), Bool.eq_false_iff.2 h]
    rfl

/-- The check of the wiring leaves what the port shows of its link. -/
theorem State.wiringCheck_fN (f : Fld) (hf : f.reg.addr p 0 ≠ R.RYP_ROUTE_STATUS.addr p 0) :
    (s.wiringCheck p n).fN f p = s.fN f p := by
  unfold State.wiringCheck
  split
  · rw [State.fFlag, State.fN_fSet_other _ _ _ _ _ _ _ _ hf]
  · rw [State.fN_raise, State.fFlag, State.fN_fSet_other _ _ _ _ _ _ _ _ hf]

theorem State.showPartner_ryPort : (s.showPartner p n lead wide fast).ryPort p = s.ryPort p := by
  rw [State.showPartner, State.wiringCheck_ryPort, State.ryPort_fFlag, State.ryPort_fFlag, apply_ite (State.ryPort · p),
    State.ryPort_fFlag, ite_self, State.ryPort_fFlag, State.ryPort_fFlag, State.ryPort_fSet]

theorem State.showPartner_error :
    (s.showPartner p n lead wide fast).fB F.RYP_ROUTE_STATUS_wiring_error p = !wiringOk s.pwr.node n p := by
  rw [State.showPartner, State.wiringCheck_error, State.fFlag_pwr, State.fFlag_pwr, apply_ite State.pwr,
    State.fFlag_pwr, ite_self, State.fFlag_pwr, State.fFlag_pwr, State.fSet_pwr]

/-- The flags set after the partner's node ID and its validity stand beside both. -/
theorem State.showPartner_fN (f : Fld) (h : f = F.RYP_LINK_STATUS_peer_node ∨ f = F.RYP_LINK_STATUS_peer_valid) :
    (s.showPartner p n lead wide fast).fN f p =
      ((s.fSet F.RYP_LINK_STATUS_peer_node n p).fFlag F.RYP_LINK_STATUS_peer_valid true p).fN f p := by
  obtain ⟨hr, hf, hhi, hlo⟩ : f.reg = R.RYP_LINK_STATUS ∧ f.inReg = true ∧ f.hi < 19 ∧ 6 < f.lo := by
    rcases h with rfl | rfl <;> decide
  have hother : f.reg.addr p 0 ≠ R.RYP_ROUTE_STATUS.addr p 0 := by
    rw [hr]
    simp [Reg.addr, R.RYP_LINK_STATUS, R.RYP_ROUTE_STATUS]
  have hflag : ∀ (t : State) (b : Bool) (g : Fld), g.reg = R.RYP_LINK_STATUS → g.inReg = true → f.hi < g.lo ∨ g.hi < f.lo →
      (t.fFlag g b p).fN f p = t.fN f p := fun t b g hgr hg hap => by
    rw [State.fFlag, State.fN_fSet_apart _ _ _ _ _ _ (hr.trans hgr.symm) hg hap hf]
  rw [State.showPartner, State.wiringCheck_fN _ _ _ _ hother, hflag _ _ _ rfl rfl (.inr hlo),
    hflag _ _ _ rfl rfl (.inr (Nat.lt_of_succ_lt hlo)), apply_ite (State.fN · f p),
    hflag _ _ _ rfl rfl (.inl (Nat.lt_succ_of_lt hhi)), ite_self, hflag _ _ _ rfl rfl (.inl hhi)]

theorem State.showPartner_node : (s.showPartner p n lead wide fast).fN F.RYP_LINK_STATUS_peer_node p = n % 64 := by
  rw [State.showPartner_fN _ _ _ _ _ _ _ (.inl rfl), State.fFlag,
    State.fN_fSet_apart _ F.RYP_LINK_STATUS_peer_valid F.RYP_LINK_STATUS_peer_node _ _ _ rfl rfl (.inl (by decide)) rfl,
    State.fN_fSet _ _ _ _ _ rfl]
  rfl

theorem State.showPartner_valid : (s.showPartner p n lead wide fast).fB F.RYP_LINK_STATUS_peer_valid p = true := by
  rw [State.fB, State.showPartner_fN _ _ _ _ _ _ _ (.inr rfl), ← State.fB, State.fB_fFlag _ _ _ _ _ rfl]

end

/-! ### Timeouts and retries -/

theorem exec_rypCfgWrite (p : Fin 12) (v : Word) (s : State) : exec (.rypCfgWrite p v) s = run s fun s => s.rypCfgWrite p.val v := rfl
theorem exec_rypDisable (p : Fin 12) (on : Bool) (s : State) : exec (.rypDisable p on) s = run s fun s =>
    s.rypLinkCtlWrite p.val ((s.rd R.RYP_LINK_CTL p.val &&& ~~~2#32) ||| (if on then 2#32 else 0#32)) := rfl
theorem exec_linkReset (p : Fin 12) (s : State) : exec (.linkReset p) s = run s fun s =>
    s.rypLinkCtlWrite p.val ((s.rd R.RYP_LINK_CTL p.val) ||| 1#32) := rfl
theorem exec_partnerDetected (p : Fin 12) (lanes : Fin 10) (s : State) : exec (.partnerDetected p lanes) s = run s fun s =>
    if (s.ryPort p.val).st == .detect && 4 ≤ lanes.val then
      s.setRy p.val { s.ryPort p.val with
        st := .train, since := s.pwr.refTime,
        heardAt := if (s.ryPort p.val).heardAt.isSome then (s.ryPort p.val).heardAt else some s.pwr.refTime }
    else s := rfl
theorem exec_equalisationDone (p : Fin 12) (s : State) : exec (.equalisationDone p) s = run s fun s =>
    if (s.ryPort p.val).st == .train then s.ryGo p.val .align else s := rfl
theorem exec_fecLock (p : Fin 12) (lanes : BitVec 8) (spare : Bool) (s : State) :
    exec (.fecLock p lanes spare) s = run s fun s => s.fecLock p.val (BitVec.ofBool spare ++ lanes) := rfl
theorem exec_paramDone (p : Fin 12) (a : Announce) (s : State) : exec (.paramDone p a) s = run s fun s => s.paramDone p.val a := rfl
theorem exec_resetIdleEnd (p : Fin 12) (s : State) : exec (.resetIdleEnd p) s = run s fun s =>
    if (s.ryPort p.val).st == .reset then s.ryGo p.val .detect else s := rfl
theorem exec_failedRetry (p : Fin 12) (s : State) : exec (.failedRetry p) s = run s fun s => s.failedRetry p.val := rfl

/-- TRAIN_TIMEOUT acts in the states of training alone. -/
def State.trainTimeout (s : State) (p : Nat) : State :=
  match (s.ryPort p).st with
  | .detect => s.ryAttempt p
  | .train => s.ryAttempt p
  | .align => s.ryAttempt p
  | .param => s.ryAttempt p
  | _ => s

theorem exec_trainTimeout (p : Fin 12) (s : State) : exec (.trainTimeout p) s = run s fun s => s.trainTimeout p.val := rfl

theorem State.trainTimeout_attempt (h : (s.ryPort p).st = .detect ∨ (s.ryPort p).st = .train ∨ (s.ryPort p).st = .align ∨
    (s.ryPort p).st = .param) : s.trainTimeout p = s.ryAttempt p := by
  rcases h with h | h | h | h <;> rw [State.trainTimeout, h]

theorem State.ryAttempt_last (h : max 1 (s.fN F.RYP_LINK_CTL_train_retries p) ≤ (s.ryPort p).attempts + 1) :
    s.ryAttempt p = s.ryFail p := if_pos h

theorem State.ryAttempt_again (h : (s.ryPort p).attempts + 1 < max 1 (s.fN F.RYP_LINK_CTL_train_retries p)) :
    s.ryAttempt p = (s.setRy p { s.ryPort p with attempts := (s.ryPort p).attempts + 1 }).ryReset p true :=
  if_neg (Nat.not_le.2 h)

theorem State.failedRetry_begins (h : (s.ryPort p).st = .failed) (hd : s.fB F.RYP_LINK_CTL_disable p = false) :
    s.failedRetry p = s.ryBegin p .detect true := if_pos (by simp [h, hd])

/-! ## Spare lanes -/

theorem exec_laneFailing (p : Fin 12) (lane : Fin 9) (lock : Bool) (s : State) :
    exec (.laneFailing p lane lock) s = run s fun s => s.laneFailing p.val lane.val lock := rfl
theorem exec_spareDone (e : LinkEnd) (s : State) : exec (.spareDone e) s =
    run s fun s => if e.rx then s.spareRx e.port.val else s.spareTxDone e.port.val := rfl

theorem State.ryLive_of (h : (s.ryPort p).st = .active ∨ (s.ryPort p).st = .spare) : s.ryLive p = true := by
  rcases h with h | h <;> simp [State.ryLive, h]

section
variable {lane : Nat} {lock : Bool} (hlive : (s.ryPort p).st = .active ∨ (s.ryPort p).st = .spare)
  (hfail : lock = true ∨ (s.fN F.RYP_SPARE_CTL_threshold p ≠ 0 ∧ s.fN F.RYP_SPARE_CTL_threshold p ≤ s.corrected p lane))
  (hnot : (s.ryPort p).sparing ≠ some lane)
include hlive hfail hnot

/-- A lane that fails while the port is in use, and is not being replaced already. -/
theorem State.laneFailing_fails : s.laneFailing p lane lock =
    if s.fB F.RYP_LINK_STATUS_spare_used p && s.fN F.RYP_LINK_STATUS_spared_lane p == lane then s
    else if lane = 8 ∧ s.fB F.RYP_LINK_STATUS_spare_used p = false then
      (if lock then s.setRy p { s.ryPort p with spareLocked := false } else s)
    else if s.fB F.RYP_LINK_STATUS_spare_used p || !(s.ryPort p).spareLocked || (s.ryPort p).sparing.isSome then s.ryResetSelf p
    else s.setRy p { s.ryPort p with sparing := some lane, ctrl := (s.ryPort p).ctrl ++ [(3, lane)] } := by
  refine if_neg ?_
  rcases hfail with h | ⟨h0, hle⟩
  · simp [State.ryLive_of hlive, h, hnot]
  · simp [State.ryLive_of hlive, h0, Nat.not_lt.2 hle, hnot]

theorem State.laneFailing_spared (hu : s.fB F.RYP_LINK_STATUS_spare_used p = true) :
    s.laneFailing p lane lock = if s.fN F.RYP_LINK_STATUS_spared_lane p = lane then s else s.ryResetSelf p := by
  rw [State.laneFailing_fails hlive hfail hnot]
  simp [hu]

variable (hu : s.fB F.RYP_LINK_STATUS_spare_used p = false)
include hu

theorem State.laneFailing_spare (hl : lane = 8) :
    s.laneFailing p lane lock = if lock then s.setRy p { s.ryPort p with spareLocked := false } else s := by
  rw [State.laneFailing_fails hlive hfail hnot, hu, Bool.false_and, if_neg Bool.false_ne_true, if_pos ⟨hl, rfl⟩]

theorem State.laneFailing_other (hl : lane ≠ 8) : s.laneFailing p lane lock =
    if !(s.ryPort p).spareLocked || (s.ryPort p).sparing.isSome then s.ryResetSelf p
    else s.setRy p { s.ryPort p with sparing := some lane, ctrl := (s.ryPort p).ctrl ++ [(3, lane)] } := by
  rw [State.laneFailing_fails hlive hfail hnot, hu, Bool.false_and, if_neg Bool.false_ne_true, if_neg fun h => hl h.1,
    Bool.false_or]

end

theorem State.spareRx_locked {lane : Nat} (h : (s.ryPort p).sparing = some lane) (hm : (s.ryPort p).moving = true) :
    s.spareRx p = (((((s.setRy p { s.ryPort p with sparing := none, moving := false, nakAt := none }.traffic).fFlag
      F.RYP_LINK_STATUS_spare_used true p).fSet F.RYP_LINK_STATUS_spared_lane lane p).bump F.RYP_ERR_CNT2_spares 1 p).nakE p) := by
  rw [State.spareRx, h, hm]

theorem State.spareTxDone_resumes (h : (s.ryPort p).paused = true) : s.spareTxDone p = s.setRy p { s.ryPort p with
    paused := false, replayFrom := (s.ryPort p).sent.head?.map (fun x : SentFlit => x.flit.seq) }.traffic := if_pos h

end

/-- Settles O47: each row from the state it acts in. -/
theorem linkTraining : Obligations.LinkTraining := by
  rintro s p r hup rfl
  refine ⟨fun v t ht => ⟨fun h => ?_, fun h => ?_, State.ryDown_failed, State.ryDown_other⟩,
    fun on v t hv ht => ⟨fun h => ?_, fun h hr => ?_⟩, fun v t hv hd ht => ?_, fun lanes hst => ⟨fun h => ?_, fun h => ?_⟩,
    fun hst => ?_, fun x8 sp good x4 hg hst hx => ⟨fun h => ?_, fun h => ?_⟩,
    fun a => ⟨fun h => ?_, fun hst h => ?_, fun hst h hk => ?_⟩, fun hst => ⟨fun h => ?_, fun h => ?_⟩, fun hst => ?_,
    fun hst hd => ?_, fun lane lock hlive hfail hnot => ⟨fun hu => ⟨fun hl hs hk => ?_, fun hl hs => ?_, fun hl => ?_⟩,
      fun hu => ⟨fun h => ?_, fun h => ?_⟩⟩, fun lane t hs hm ht => ?_, fun h => ?_⟩
  · rw [exec_rypCfgWrite, run_up _ hup, State.rypCfgWrite_enable h, ht]
  · rw [exec_rypCfgWrite, run_up _ hup, State.rypCfgWrite_disable h, ht]
  · have hdis : F.RYP_LINK_CTL_disable.on v = true := by
      rw [hv, if_pos h]
      exact link_disable_set _
    rw [exec_rypDisable, run_up _ hup, ← hv, State.rypLinkCtlWrite_disable hdis, ht]
  · have hdis : F.RYP_LINK_CTL_disable.on v = false := by
      rw [hv, if_neg (by simp [h])]
      exact link_disable_cleared _
    rw [exec_rypDisable, run_up _ hup, ← hv, State.rypLinkCtlWrite_kick hdis hr, ht]
  · subst hv
    rw [exec_linkReset, run_up _ hup, State.rypLinkCtlWrite_reset hd (link_reset_set _), ht]
  · rw [exec_partnerDetected, run_up _ hup, if_pos (by simp [hst, h])]
  · rw [exec_partnerDetected, run_up _ hup, if_neg (by simp [h]), State.keep_self]
  · rw [exec_equalisationDone, run_up _ hup, if_pos (by simp [hst])]
  · rw [exec_fecLock, run_up _ hup, State.fecLock_few ((lanes_locked x8 sp).trans hg.symm) h, State.keep_self]
  · rw [exec_fecLock, run_up _ hup, State.fecLock_locks ((lanes_locked x8 sp).trans hg.symm) hst h hx]
  · rw [exec_paramDone, run_up _ hup, State.paramDone_other h, State.keep_self]
  · rw [exec_paramDone, run_up _ hup, State.paramDone_clash hst h]
  · obtain ⟨u, r, lead, wide, fast, hpwr, hact, hatt, hdone⟩ := State.paramDone_accepted hst h hk
    refine ⟨_, by rw [exec_paramDone, run_up _ hup, hdone], ?_, ?_, ?_, ?_, ?_⟩
    · rw [State.ryPort_keep, State.showPartner_ryPort, State.ryPort_setRy, hact]
    · rw [State.ryPort_keep, State.showPartner_ryPort, State.ryPort_setRy, hatt]
    · exact (State.showPartner_node ..).trans (Nat.mod_eq_of_lt a.node.isLt)
    · exact State.showPartner_valid ..
    · rw [← hpwr]
      exact State.showPartner_error ..
  · rw [exec_trainTimeout, run_up _ hup, State.trainTimeout_attempt hst, State.ryAttempt_last h]
  · rw [exec_trainTimeout, run_up _ hup, State.trainTimeout_attempt hst, State.ryAttempt_again h]
  · rw [exec_resetIdleEnd, run_up _ hup, if_pos (by simp [hst])]
  · rw [exec_failedRetry, run_up _ hup, State.failedRetry_begins hst hd]
  · rw [exec_laneFailing, run_up _ hup, State.laneFailing_other hlive hfail hnot hu hl, if_neg (by simp [hs, hk])]
  · rw [exec_laneFailing, run_up _ hup, State.laneFailing_other hlive hfail hnot hu hl, if_pos]
    rcases hs with hs | hs
    · simp [Option.isSome_iff_ne_none, hs]
    · simp [hs]
  · rw [exec_laneFailing, run_up _ hup, State.laneFailing_spare hlive hfail hnot hu hl]
    cases lock <;> rfl
  · rw [exec_laneFailing, run_up _ hup, State.laneFailing_spared hlive hfail hnot hu, if_pos h, State.keep_self]
  · rw [exec_laneFailing, run_up _ hup, State.laneFailing_spared hlive hfail hnot hu, if_neg h]
  · rw [exec_spareDone, run_up _ hup, if_pos rfl, State.spareRx_locked hs hm, ht]
  · rw [exec_spareDone, run_up _ hup, if_neg Bool.false_ne_true, State.spareTxDone_resumes h]

end Sys2Proof.Machine
end

section
/-!
PROOFS. What a Rythar port does with the flits it receives (R258, R261 - R269).
-/
namespace Sys2Proof.Machine

/-! ## Acceptance -/

section
variable {s : State} {p : Nat}

theorem State.ryLive_iff : s.ryLive p = true ↔ (s.ryPort p).st = .active ∨ (s.ryPort p).st = .spare := by
  simp [State.ryLive]

theorem State.ackIn_invalid (ack : Nat) (nak : Bool) : s.ackIn p ack false nak = s := rfl

section
variable {f : Flit}

theorem State.recvSeq_down (h : s.ryLive p = false) : s.recvSeq p f = s := if_pos (by simp [h])

variable {u : State} {r : RyPort} {back : Nat} (hlive : s.ryLive p = true) (hu : u = s.ackIn p f.ackSeq f.ackValid f.nak)
  (hr : r = u.ryPort p) (hst : r.st = .active ∨ r.st = .spare) (hb : back = (r.exp + 4096 - f.seq) % 4096)
include hlive hu hr hst hb

/-- A sequenced flit at a port in use, by where it stands to the flit that is expected. -/
theorem State.recvSeq_live : s.recvSeq p f =
    if back = 0 then
      let t := (u.setRy p { r with exp := (r.exp + 1) % 4096, nakAt := none, nakDue := false, unacked := r.unacked + 1 }).keepFlit p f
      if decide (max 1 (t.fN F.RYP_ACK_CTL_ack_count p) ≤ (t.ryPort p).unacked) && t.ryLive p then t.sendAck p false else t
    else if back ≤ 2047 then (u.setRy p { r with ackDue := true }).bump F.RYP_ERR_CNT1_dup_discard 1 p
    else u.nakE p := by
  have hlive' : u.ryLive p = true := State.ryLive_iff.2 (by rwa [hr] at hst)
  simp only [State.recvSeq, hlive, Bool.not_true, Bool.false_eq_true, if_false, ← hu, hlive', ← hr, ← hb]

theorem State.recvSeq_expected (h : back = 0) {t : State} (ht : t = (u.setRy p { r with
      exp := (r.exp + 1) % 4096, nakAt := none, nakDue := false, unacked := r.unacked + 1 }).keepFlit p f) :
    s.recvSeq p f = if max 1 (t.fN F.RYP_ACK_CTL_ack_count p) ≤ (t.ryPort p).unacked ∧ t.ryLive p = true then
      t.sendAck p false else t := by
  rw [State.recvSeq_live hlive hu hr hst hb, if_pos h, ← ht]
  exact if_congr (by simp) rfl rfl

theorem State.recvSeq_duplicate (h0 : 0 < back) (h : back ≤ 2047) :
    s.recvSeq p f = (u.setRy p { r with ackDue := true }).bump F.RYP_ERR_CNT1_dup_discard 1 p := by
  rw [State.recvSeq_live hlive hu hr hst hb, if_neg (Nat.ne_of_gt h0), if_pos h]

theorem State.recvSeq_gap (h : 2047 < back) : s.recvSeq p f = u.nakE p := by
  rw [State.recvSeq_live hlive hu hr hst hb, if_neg (by omega), if_neg (by omega)]

end

theorem State.recvIdle_live {ack : Nat} {valid nak : Bool} (h : s.ryLive p = true) :
    s.recvIdle p ack valid nak = s.ackIn p ack valid nak := if_pos h

theorem State.recvImage_bad {n : Nat} (h : s.ryLive p = true) (hb : flitBad n = true) :
    s.recvImage p n false = (s.bump F.RYP_ERR_CNT0_bad_flits 1 p).nakE p := by
  rw [State.recvImage, if_pos (by simp [hb]), State.recvBad, if_pos h]

/-! ## Epochs -/

section
variable {f : Flit}

theorem State.keepFlit_plain (h : (s.ryPort p).keys = []) : s.keepFlit p f = s.release p f :=
  if_pos (by simp [RyPort.encrypted, h])

/-- A flit joins the epoch that is open; a MAC flit closes it. -/
theorem State.keepFlit_joins (h : (s.ryPort p).keys ≠ []) (h0 : (s.ryPort p).epochLen ≠ 0) {x : State}
    (hx : x = s.setRy p { s.ryPort p with
      inbuf := (s.ryPort p).inbuf ++ [f], epochLen := (s.ryPort p).epochLen + 1,
      epochStart := if (s.ryPort p).epochLen = 0 then f.seq else (s.ryPort p).epochStart }) :
    s.keepFlit p f = if f.kind = 2 ∧ f.op = 1 then (if (x.ryPort p).tagOk f then x.epochGood p f.keyGen else x.epochBad p) else x := by
  have henc : (s.ryPort p).encrypted = true := by simp [RyPort.encrypted, h]
  have hopen : ¬ ((s.ryPort p).epochLen = 0 ∧ (s.ryPort p).tagFails = 0) := fun hb => h0 hb.1
  simp only [State.keepFlit, henc, Bool.not_true, Bool.false_eq_true, if_false, if_neg hopen]
  rw [hx]

end

/-- The flits of an epoch as they are decrypted, each under the number of DATA flits before it. -/
def openedFlits (key : BitVec 256) (iv : BitVec 96) : Nat → List Flit → List Flit
  | _, [] => []
  | n, f :: fs =>
    if f.kind = 1 then { f with payload := gcmPayload key iv n f.payload } :: openedFlits key iv (n + 1) fs
    else f :: openedFlits key iv n fs

/-- One flit of an epoch joins those decrypted so far. -/
def openFlit (key : BitVec 256) (iv : BitVec 96) (acc : List Flit × Nat) (f : Flit) : List Flit × Nat :=
  if f.kind = 1 then (acc.1 ++ [{ f with payload := gcmPayload key iv acc.2 f.payload }], acc.2 + 1)
  else (acc.1 ++ [f], acc.2)

theorem openFlit_fold (key : BitVec 256) (iv : BitVec 96) (fs : List Flit) (acc : List Flit × Nat) :
    (fs.foldl (openFlit key iv) acc).1 = acc.1 ++ openedFlits key iv acc.2 fs := by
  induction fs generalizing acc with
  | nil => exact (List.append_nil _).symm
  | cons f fs ih =>
    rw [List.foldl_cons, ih]
    by_cases h : f.kind = 1 <;> simp [openFlit, openedFlits, h]

theorem openedFlits_length (key : BitVec 256) (iv : BitVec 96) (n : Nat) (fs : List Flit) :
    (openedFlits key iv n fs).length = fs.length := by
  induction fs generalizing n with
  | nil => rfl
  | cons f fs ih => by_cases h : f.kind = 1 <;> simp [openedFlits, h, ih]

/-- A flit keeps its place; a DATA flit is decrypted under the number of DATA flits before it. -/
theorem openedFlits_get (key : BitVec 256) (iv : BitVec 96) (n : Nat) (fs : List Flit) (i : Nat) (f : Flit) (h : fs[i]? = some f) :
    (openedFlits key iv n fs)[i]? = some (if f.kind = 1 then
      { f with payload := gcmPayload key iv (n + ((fs.take i).filter fun y : Flit => y.kind == 1).length) f.payload } else f) := by
  induction fs generalizing n i with
  | nil => simp at h
  | cons g fs ih =>
    cases i with
    | zero =>
      obtain rfl : g = f := by simpa using h
      by_cases hk : g.kind = 1 <;> simp [openedFlits, hk]
    | succ i =>
      have h' : fs[i]? = some f := by simpa using h
      by_cases hk : g.kind = 1
      · have hcount : ((g :: fs.take i).filter fun y : Flit => y.kind == 1).length =
            ((fs.take i).filter fun y : Flit => y.kind == 1).length + 1 := by simp [hk]
        simp only [openedFlits, if_pos hk, List.getElem?_cons_succ, ih (n + 1) i h', List.take_succ_cons, hcount]
        rw [Nat.add_right_comm, Nat.add_assoc n]
      · simp only [openedFlits, if_neg hk, List.getElem?_cons_succ, ih n i h', List.take_succ_cons]
        rw [List.filter_cons_of_neg (by simpa using hk)]

theorem State.epochGood_eq (g : Nat) : s.epochGood p g =
    (openedFlits (SMap.findD (s.ryPort p).keys g 0) (s.ryPort p).rxIv 0 (s.ryPort p).inbuf).foldl
      (fun (t : State) f => t.release p f) (s.setRy p { s.ryPort p with
        inbuf := [], epochLen := 0, tagFails := 0,
        switchReq := (s.ryPort p).switchReq || (g != (s.ryPort p).txGen && (SMap.find (s.ryPort p).keys g).isSome) }) := by
  rw [← List.nil_append (openedFlits _ _ _ _), ← openFlit_fold _ _ _ ([], 0)]
  rfl

section
variable {t : State} (ht : t = s.setRy p { s.ryPort p with
  exp := (s.ryPort p).epochStart, epochLen := 0, inbuf := [], tagFails := (s.ryPort p).tagFails + 1, nakAt := none })
include ht

theorem State.epochBad_first (h : (s.ryPort p).tagFails = 0) : s.epochBad p = t.nakE p := by
  subst ht
  exact if_neg (by simp [h])

theorem State.epochBad_again (h : (s.ryPort p).tagFails ≠ 0) :
    s.epochBad p = (t.ryResetSelf p).raise (896 + 16 * p + 3) 0 0 none p := by
  subst ht
  exact if_pos (by omega)

end

/-! ## What an accepted flit does -/

section
variable {f : Flit} {t : State} (ht : t = s.setRy p (((((s.ryPort p).addCred 0 f.crReq).addCred 1 f.crRsp).addCred 2 f.crBulk).addCred 3
  f.crMgt))
include ht

theorem State.release_data (h : f.kind = 1) : s.release p f = t.units p f := by
  subst ht
  exact if_pos h

theorem State.release_ctrl (h : f.kind = 2) : s.release p f =
    if f.op = 3 then t.spareReq p f.arg else if f.op = 4 then t.spareGo p else if f.op = 5 then t.ryReset p false else t := by
  subst ht
  exact if_neg (by omega)

end

/-! ## The rows -/

theorem exec_idleFlit (p : Fin 12) (a : BitVec 12) (valid nak : Bool) (s : State) :
    exec (.idleFlit p a valid nak) s = run s fun s => s.recvIdle p.val a.toNat valid nak := rfl
theorem exec_badFlit (p : Fin 12) (n) (s : State) : exec (.badFlit ⟨p, .flit n⟩) s =
    run s fun s => if s.ryLive p.val then s.recvImage p.val n.toNat false else s := rfl
theorem exec_resetReq (p : Fin 12) (h : FlitHdr) (x4 slow : Bool) (s : State) : exec (.resetReq p h x4 slow) s = run s fun s =>
    if (s.ryPort p.val).st = .reset then s.setRy p.val { s.ryPort p.val with heardAt := some s.pwr.refTime }
    else s.recvSeq p.val (h.flit 2 5 ((if x4 then 1 else 0) + (if slow then 2 else 0))) := rfl

/-- Every row of a sequenced flit gives its flit to the receiver, but a RESET_REQ that crosses a reset of this end. -/
theorem exec_sequenced (p : Fin 12) (h : FlitHdr) (d : FlitData) (lane : Fin 9) (tag : BitVec 128) (x4 slow : Bool) (s : State)
    (hst : (s.ryPort p).st ≠ .reset) :
    ∀ e ∈ [(Instr.dataFlit p h d, { h.flit 1 0 0 with vc := d.vc.val, units := d.units1.val + 1, head := some d.head,
                                                       payload := d.payload }),
        (.ctrlCredit p h, h.flit 2 0 0), (.void p h, h.flit 2 2 0),
        (.mac p h tag, { h.flit 2 1 0 with payload := tag.setWidth 2048 }),
        (.spareReq p h lane, h.flit 2 3 lane.val), (.spareGo p h, h.flit 2 4 0),
        (.resetReq p h x4 slow, h.flit 2 5 ((if x4 then 1 else 0) + (if slow then 2 else 0)))],
      exec e.1 s = (run s fun s => s.recvSeq p e.2) ∧ e.2.seq = h.seq.toNat ∧ e.2.ackSeq = h.ackSeq.toNat ∧
        e.2.ackValid = h.ackValid ∧ e.2.nak = h.nak := by
  have hreset : exec (.resetReq p h x4 slow) s =
      run s fun s => s.recvSeq p.val (h.flit 2 5 ((if x4 then 1 else 0) + (if slow then 2 else 0))) := by
    rw [exec_resetReq, run, run, if_neg hst]
  simp only [List.forall_mem_cons, List.not_mem_nil, false_imp_iff, implies_true, and_true]
  exact ⟨⟨rfl, rfl, rfl, rfl, rfl⟩, ⟨rfl, rfl, rfl, rfl, rfl⟩, ⟨rfl, rfl, rfl, rfl, rfl⟩, ⟨rfl, rfl, rfl, rfl, rfl⟩,
    ⟨rfl, rfl, rfl, rfl, rfl⟩, ⟨rfl, rfl, rfl, rfl, rfl⟩, ⟨hreset, rfl, rfl, rfl, rfl⟩⟩

end

/-- Settles O45: a sequenced flit by its place in the window, what it does by its kind, an epoch by its tag. -/
theorem linkReceive : Obligations.LinkReceive := by
  intro s p h hup
  refine ⟨fun d lane tag x4 slow e he => ⟨fun ha hs hr => ?_, fun u r back hst hu hr hrst hb => ?_⟩, fun x4 slow hst => ?_,
    fun hst => ⟨fun a valid nak => ?_, fun n hn => ?_⟩,
    fun f x hx => ⟨State.keepFlit_plain, fun hk h0 => ⟨fun hno => ?_, fun h2 h1 htag => ?_, fun h2 h1 htag => ?_⟩⟩,
    fun f t ht => ⟨State.release_data ht, fun h2 => ?_⟩, fun g r hr => ?_, fun r t hr ht => ?_⟩
  · obtain ⟨hexec, -⟩ := exec_sequenced p h d lane tag x4 slow s hr e he
    rw [hexec, run_up _ hup, State.recvSeq_down, State.keep_self]
    simp [State.ryLive, ha, hs]
  · have hne : (s.ryPort p).st ≠ .reset := by rcases hst with hst | hst <;> simp [hst]
    obtain ⟨hexec, hseq, hack, hvalid, hnak⟩ := exec_sequenced p h d lane tag x4 slow s hne e he
    have hlive := State.ryLive_iff.2 hst
    have hu' : u = s.ackIn p e.2.ackSeq e.2.ackValid e.2.nak := by
      rw [hack, hvalid, hnak]
      rcases hu with ⟨hv, rfl⟩ | hu
      · rw [hv, State.ackIn_invalid]
      · exact hu
    rw [← hseq] at hb
    rw [hexec, run_up _ hup]
    refine ⟨fun h0 t ht => ?_, fun h0 h1 => ?_, fun h1 => ?_⟩
    · rw [State.recvSeq_expected hlive hu' hr hrst hb h0 ht]
    · rw [State.recvSeq_duplicate hlive hu' hr hrst hb h0 h1]
    · rw [State.recvSeq_gap hlive hu' hr hrst hb h1]
  · rw [exec_resetReq, run_up _ hup, if_pos hst]
  · rw [exec_idleFlit, run_up _ hup, State.recvIdle_live (State.ryLive_iff.2 hst)]
  · rw [exec_badFlit, run_up _ hup, if_pos (State.ryLive_iff.2 hst), State.recvImage_bad (State.ryLive_iff.2 hst) hn]
  · rw [State.keepFlit_joins hk h0 hx, if_neg hno]
  · rw [State.keepFlit_joins hk h0 hx, if_pos ⟨h2, h1⟩, if_pos htag]
  · rw [State.keepFlit_joins hk h0 hx, if_pos ⟨h2, h1⟩, if_neg (by simp [htag])]
  · rw [State.release_ctrl ht h2]
    exact ⟨fun ho => by rw [if_neg (by omega), if_neg (by omega), if_neg (by omega)], fun ho => by rw [if_pos ho],
      fun ho => by rw [if_neg (by omega), if_pos ho], fun ho => by rw [if_neg (by omega), if_neg (by omega), if_pos ho]⟩
  · subst hr
    refine ⟨_, openedFlits_length _ _ _ _, fun i f hf => ⟨fun hk => ?_, fun hk => ?_⟩, State.epochGood_eq g⟩
    · rw [openedFlits_get _ _ _ _ _ _ hf, if_neg hk]
    · rw [openedFlits_get _ _ _ _ _ _ hf, if_pos hk, Nat.zero_add]
  · subst hr
    exact ⟨State.epochBad_first ht, State.epochBad_again ht⟩

end Sys2Proof.Machine
end

section
/-!
PROOFS. What a Rythar port sends (R261 - R266, R268, R269).
-/
namespace Sys2Proof.Machine

/-! ## The next packet -/

/-- One packet of egress met while the next one is chosen: the virtual channels passed over, and the choice. -/
def RyPort.tryOut (r : RyPort) (acc : List Nat × Option OutPkt) (x : OutPkt) : List Nat × Option OutPkt :=
  if acc.2.isSome || acc.1.contains x.vc then acc
  else if min 4 x.left ≤ r.cred x.vc then (acc.1, some x)
  else (x.vc :: acc.1, none)

theorem RyPort.nextOut_eq (r : RyPort) : r.nextOut = (r.outq.foldl r.tryOut ([], none)).2 := rfl

/-- What one step chooses was chosen before, or has credit. -/
theorem RyPort.tryOut_some {r : RyPort} {acc : List Nat × Option OutPkt} {x y : OutPkt} (h : (r.tryOut acc x).2 = some y) :
    acc.2 = some y ∨ (y = x ∧ min 4 y.left ≤ r.cred y.vc) := by
  unfold RyPort.tryOut at h
  split at h
  · exact .inl h
  · split at h
    next hc =>
      obtain rfl := Option.some.inj h
      exact .inr ⟨rfl, hc⟩
    next => simp at h

theorem RyPort.tryOut_fold {r : RyPort} {l : List OutPkt} {acc : List Nat × Option OutPkt} {y : OutPkt}
    (h : (l.foldl r.tryOut acc).2 = some y) : acc.2 = some y ∨ (y ∈ l ∧ min 4 y.left ≤ r.cred y.vc) := by
  induction l generalizing acc with
  | nil => exact .inl h
  | cons x l ih =>
    rcases ih h with h' | ⟨hm, hc⟩
    · rcases RyPort.tryOut_some h' with h' | ⟨rfl, hc⟩
      · exact .inl h'
      · exact .inr ⟨List.mem_cons_self, hc⟩
    · exact .inr ⟨List.mem_cons_of_mem _ hm, hc⟩

theorem RyPort.nextOut_some {r : RyPort} {y : OutPkt} (h : r.nextOut = some y) : y ∈ r.outq ∧ min 4 y.left ≤ r.cred y.vc := by
  rw [RyPort.nextOut_eq] at h
  exact (RyPort.tryOut_fold h).resolve_left (by simp)

/-! ## FLIT_TRANSMIT -/

theorem exec_flitTransmit (p : Fin 12) (s : State) : exec (.flitTransmit p) s = run s fun s => s.flitTransmit p.val := rfl

section
variable {s : State} {p : Nat} {r : RyPort}

theorem State.flitTransmit_unable (hr : r = s.ryPort p) (h : (r.st ≠ .active ∧ r.st ≠ .spare) ∨ r.paused = true) :
    s.flitTransmit p = s := by
  subst hr
  refine if_pos ?_
  rcases h with ⟨ha, hs⟩ | h
  · simp [State.ryLive, ha, hs]
  · simp [h]

theorem State.makeRoom_free (hr : r = s.ryPort p) (h : (r.sent.filter fun y => !y.spilled).length < 512) :
    s.makeRoom p = (s, true) := by
  subst hr
  exact if_pos h

section
variable (hr : r = s.ryPort p) (hst : r.st = .active ∨ r.st = .spare) (hp : r.paused = false)
include hr hst hp

theorem State.flitTransmit_replay {q : Nat} (hq : r.replayFrom = some q) : s.flitTransmit p = s.replayNext p q := by
  subst hr
  simp only [State.flitTransmit, State.ryLive_of hst, hp, hq, Bool.not_true, Bool.or_false, Bool.false_eq_true, if_false]

variable (hq : r.replayFrom = none)
include hq

/-- What follows a SPARE_GO or a RESET_REQ, once its epoch is closed. -/
theorem State.flitTransmit_closed {op arg : Nat} {rest : List (Nat × Nat)} (hc : r.ctrl = (op, arg) :: rest) (ho : 14 ≤ op)
    (he : r.txEpoch = 0) : s.flitTransmit p = (s.setRy p { r with ctrl := rest }).ctrlDone p op arg := by
  subst hr
  simp only [State.flitTransmit, State.ryLive_of hst, hp, hq, hc, he, List.headD_cons, ho, decide_true, List.drop_succ_cons,
    List.drop_zero, Bool.not_true, Bool.or_false, Bool.false_eq_true, if_false, beq_self_eq_true, Bool.and_self, if_true]

variable (hopen : decide (14 ≤ (r.ctrl.headD (0, 0)).1) = false)
include hopen

theorem State.flitTransmit_full (hfull : 2047 ≤ r.sent.length) : s.flitTransmit p = s.sendAck p false := by
  subst hr
  simp only [State.flitTransmit, State.ryLive_of hst, hp, hq, hopen, Bool.not_true, Bool.or_false, Bool.false_eq_true, if_false,
    Bool.false_and, if_pos hfull]

variable (hn : r.sent.length < 2047) {owes idle mac : Bool} (howes : (r.retReq + r.retRsp + r.retBulk + r.retMgt != 0) = owes)
  (hidle : idle = (r.ctrl.isEmpty && r.nextOut.isNone))
  (hmac : mac = (r.encrypted && decide (0 < r.txEpoch) && (decide (31 ≤ r.txEpoch) || idle && !owes)))
include hn howes hidle hmac

/-- Nothing waits and no epoch is to be closed. -/
theorem State.flitTransmit_nothing (h : (idle && !owes) = true) (hno : mac = false) : s.flitTransmit p = s := by
  subst hr
  simp only [State.flitTransmit, State.ryLive_of hst, hp, hq, hopen, Bool.not_true, Bool.or_false, Bool.false_eq_true, if_false,
    Bool.false_and, if_neg (Nat.not_le.2 hn), howes, ← hidle, ← hmac]
  simp only [hno, h, Bool.not_false, Bool.and_self, if_true]

section
variable {t : State} (hroom : s.makeRoom p = (t, true))
include hroom

theorem State.flitTransmit_mac (h : mac = true) : s.flitTransmit p = t.sendMac p := by
  subst hr
  simp only [State.flitTransmit, State.ryLive_of hst, hp, hq, hopen, Bool.not_true, Bool.or_false, Bool.false_eq_true, if_false,
    Bool.false_and, if_neg (Nat.not_le.2 hn), howes, ← hidle, ← hmac]
  simp only [h, Bool.not_true, Bool.and_false, Bool.false_eq_true, if_false, hroom, if_true]

variable (hno : mac = false) (hsome : (idle && !owes) = false) {x : RyPort} (hx : x = t.ryPort p)
include hno hsome hx

/-- The operation at the head goes out; what follows a SPARE_GO or a RESET_REQ waits for the epoch where there is one. -/
theorem State.flitTransmit_ctrl {op arg : Nat} {rest : List (Nat × Nat)} (hc : r.ctrl = (op, arg) :: rest) {u : State}
    (hu : u = (t.setRy p { x with ctrl := rest }).sendSeq p (x.ctrlFlit op arg) none) : s.flitTransmit p =
      if op ≠ 4 ∧ op ≠ 5 then u
      else if x.encrypted then u.setRy p { u.ryPort p with ctrl := (op + 10, arg) :: (u.ryPort p).ctrl }
      else u.ctrlDone p (op + 10) arg := by
  subst hr
  rw [hc] at hopen hidle
  simp only [State.flitTransmit, State.ryLive_of hst, hp, hq, hc, hopen, Bool.not_true, Bool.or_false, Bool.false_eq_true, if_false,
    Bool.false_and, if_neg (Nat.not_le.2 hn), howes, ← hidle, ← hmac]
  simp only [hsome, hroom, hno, Bool.false_and, Bool.false_eq_true, if_false, ← hx, ← hu]

theorem State.flitTransmit_units {y : OutPkt} (hc : r.ctrl = []) (hy : x.nextOut = some y) :
    s.flitTransmit p = t.sendUnits p y := by
  subst hr
  rw [hc] at hopen hidle
  simp only [State.flitTransmit, State.ryLive_of hst, hp, hq, hc, hopen, Bool.not_true, Bool.or_false, Bool.false_eq_true, if_false,
    Bool.false_and, if_neg (Nat.not_le.2 hn), howes, ← hidle, ← hmac]
  simp only [hsome, hroom, hno, Bool.false_and, Bool.false_eq_true, if_false, ← hx, hy]

theorem State.flitTransmit_credit (hc : r.ctrl = []) (hy : x.nextOut = none) :
    s.flitTransmit p = t.sendSeq p (x.ctrlFlit 0 0) none := by
  subst hr
  rw [hc] at hopen hidle
  simp only [State.flitTransmit, State.ryLive_of hst, hp, hq, hc, hopen, Bool.not_true, Bool.or_false, Bool.false_eq_true, if_false,
    Bool.false_and, if_neg (Nat.not_le.2 hn), howes, ← hidle, ← hmac]
  simp only [hsome, hroom, hno, Bool.false_and, Bool.false_eq_true, if_false, ← hx, hy]

end
end

/-! ## Timers and rounds -/

theorem exec_ackTimer (p : Fin 12) (s : State) : exec (.ackTimer p) s = run s fun s =>
    if s.ryLive p.val && ((s.ryPort p.val).unacked != 0 || (s.ryPort p.val).ackDue) then s.sendAck p.val false else s := rfl
theorem exec_ackRepeat (p : Fin 12) (s : State) : exec (.ackRepeat p) s = run s fun s =>
    if s.ryLive p.val && (s.ryPort p.val).unacked == 0 then (s.setRy p.val { s.ryPort p.val with nakAt := none }).sendAck p.val false
    else s := rfl

/-- REPLAY_TIMEOUT acts on the oldest flit kept. -/
def State.replayTimeout (s : State) (p : Nat) : State :=
  match (s.ryPort p).sent with
  | x :: _ => if s.ryLive p then s.round p x.flit.seq else s
  | [] => s

theorem exec_replayTimeout (p : Fin 12) (s : State) : exec (.replayTimeout p) s = run s fun s => s.replayTimeout p.val := rfl

theorem State.replayTimeout_round {x : SentFlit} {rest : List SentFlit} (h : (s.ryPort p).sent = x :: rest)
    (hst : (s.ryPort p).st = .active ∨ (s.ryPort p).st = .spare) : s.replayTimeout p = s.round p x.flit.seq := by
  rw [State.replayTimeout, h]
  exact if_pos (State.ryLive_of hst)

theorem State.round_limit {seq : Nat} (h : max 1 (s.fN F.RYP_REPLAY_CTL_replay_limit p) ≤ (s.ryPort p).rounds) :
    s.round p seq = s.ryResetSelf p := if_pos h

theorem State.round_starts {seq : Nat} (h : (s.ryPort p).rounds < max 1 (s.fN F.RYP_REPLAY_CTL_replay_limit p)) :
    s.round p seq = (s.setRy p { s.ryPort p with
      replayFrom := some seq, rounds := (s.ryPort p).rounds + 1, ackAt := s.pwr.refTime }).bump F.RYP_ERR_CNT1_replays 1 p :=
  if_neg (Nat.not_le.2 h)

/-- The operation at the head is none that waits for its epoch to close. -/
theorem RyPort.head_open (hop : ∀ op arg rest, r.ctrl = (op, arg) :: rest → op < 14) :
    decide (14 ≤ (r.ctrl.headD (0, 0)).1) = false := by
  rw [decide_eq_false_iff_not]
  cases hc : r.ctrl with
  | nil => simp
  | cons e rest => exact Nat.not_le.2 (hop e.1 e.2 rest hc)

end

/-- A tag closes an epoch of 31 flits, or an idle one. -/
theorem RyPort.closes {r : RyPort} {idle owes : Bool} (hk : r.keys ≠ [])
    (h : 31 ≤ r.txEpoch ∨ (0 < r.txEpoch ∧ idle = true ∧ owes = false)) :
    (r.encrypted && decide (0 < r.txEpoch) && (decide (31 ≤ r.txEpoch) || idle && !owes)) = true := by
  have h0 : 0 < r.txEpoch := by omega
  rcases h with h | ⟨-, hi, ho⟩
  · simp [RyPort.encrypted, hk, h0, h]
  · simp [RyPort.encrypted, hk, h0, hi, ho]

/-- No tag is due while something waits and the epoch is short. -/
theorem RyPort.stays_open {r : RyPort} {idle owes : Bool} (hk : r.keys = [] ∨ r.txEpoch < 31) (h : (idle && !owes) = false) :
    (r.encrypted && decide (0 < r.txEpoch) && (decide (31 ≤ r.txEpoch) || idle && !owes)) = false := by
  rcases hk with hk | hk
  · simp [RyPort.encrypted, hk]
  · simp [h, Nat.not_le.2 hk]

/-- Settles O46: FLIT_TRANSMIT in the order of what it sends, a round by its limit, the next packet by the fold that
chooses it. -/
theorem linkSend : Obligations.LinkSend := by
  intro s p r hup hr
  refine ⟨fun h => ?_, fun hst hp => ⟨fun q hq => ?_, fun hq => ⟨fun op arg rest hc ho he => ?_, fun hop => ⟨fun hfull => ?_,
    fun hn t x owes idle hroom hx hctrl hout hkeys howes hidle => ?_⟩⟩⟩, fun hst => ⟨fun h => ?_, fun h => ?_, fun x rest h => ?_⟩,
    fun seq => ?_, fun x hx => RyPort.nextOut_some hx⟩
  · rw [exec_flitTransmit, run_up _ hup, State.flitTransmit_unable hr h, State.keep_self]
  · rw [exec_flitTransmit, run_up _ hup, State.flitTransmit_replay hr hst hp hq]
  · rw [exec_flitTransmit, run_up _ hup, State.flitTransmit_closed hr hst hp hq hc ho he]
  · rw [exec_flitTransmit, run_up _ hup, State.flitTransmit_full hr hst hp hq (RyPort.head_open hop) hfull]
  · have hopen := RyPort.head_open hop
    have howes' : (r.retReq + r.retRsp + r.retBulk + r.retMgt != 0) = owes := by
      rw [howes, Bool.eq_iff_iff, decide_eq_true_eq, bne_iff_ne]
    have hroom' : s.makeRoom p = (t, true) := by
      rcases hroom with ⟨hfree, rfl⟩ | h
      · exact State.makeRoom_free hr hfree
      · exact h
    obtain ⟨mac, hmac⟩ : ∃ mac, mac = (r.encrypted && decide (0 < r.txEpoch) && (decide (31 ≤ r.txEpoch) || idle && !owes)) :=
      ⟨_, rfl⟩
    rw [exec_flitTransmit, run_up _ hup]
    refine ⟨fun hk h => ?_, fun hk => ⟨fun op arg rest hc h4 h5 => ?_, fun op arg rest hc h45 hkn => ?_, fun y hc hy => ?_,
      fun hi ho => ?_, fun hi ho hk => ?_⟩⟩
    · rw [State.flitTransmit_mac hr hst hp hq hopen hn howes' hidle hmac hroom' (hmac.trans (RyPort.closes hk h))]
    · have hi : (idle && !owes) = false := by simp [hidle, hc]
      rw [State.flitTransmit_ctrl hr hst hp hq hopen hn howes' hidle hmac hroom' (hmac.trans (RyPort.stays_open hk hi)) hi hx hc rfl,
        if_pos ⟨h4, h5⟩]
    · have hi : (idle && !owes) = false := by simp [hidle, hc]
      have henc : ¬ x.encrypted = true := by simp [RyPort.encrypted, hkeys, hkn]
      rw [State.flitTransmit_ctrl hr hst hp hq hopen hn howes' hidle hmac hroom' (hmac.trans (RyPort.stays_open hk hi)) hi hx hc rfl,
        if_neg (by omega), if_neg henc]
    · have hi : (idle && !owes) = false := by simp [hidle, hy]
      rw [State.flitTransmit_units hr hst hp hq hopen hn howes' hidle hmac hroom' (hmac.trans (RyPort.stays_open hk hi)) hi hx hc
        (hout.trans hy)]
    · have hi' : (idle && !owes) = false := by simp [ho]
      obtain ⟨hc, hy⟩ : r.ctrl = [] ∧ r.nextOut = none := by simpa [hidle] using hi
      rw [State.flitTransmit_credit hr hst hp hq hopen hn howes' hidle hmac hroom' (hmac.trans (RyPort.stays_open hk hi')) hi' hx hc
        (hout.trans hy)]
    · have hi' : (idle && !owes) = true := by simp [hi, ho]
      have hno : (r.encrypted && decide (0 < r.txEpoch) && (decide (31 ≤ r.txEpoch) || idle && !owes)) = false := by
        rcases hk with hk | hk <;> simp [RyPort.encrypted, hk]
      rw [State.flitTransmit_nothing hr hst hp hq hopen hn howes' hidle hmac hi' (hmac.trans hno), State.keep_self]
  · subst hr
    rw [exec_ackTimer, run_up _ hup, if_pos (by simpa [State.ryLive_of hst] using h)]
  · subst hr
    rw [exec_ackRepeat, run_up _ hup, if_pos (by simp [State.ryLive_of hst, h])]
  · subst hr
    rw [exec_replayTimeout, run_up _ hup, State.replayTimeout_round h hst]
  · subst hr
    exact ⟨State.round_limit, State.round_starts⟩

end Sys2Proof.Machine
end

section
/-!
PROOFS. Forwarding, windows, the handle table and the bypass (R274 - R276, R281 - R285, R291).
-/
namespace Sys2Proof.Machine

/-! ## The first entry of a list that passes a test -/

theorem findIdx?_append_cons {α : Type} {p : α → Bool} {before after : List α} {x : α} (hb : ∀ y ∈ before, p y = false)
    (hx : p x = true) : (before ++ x :: after).findIdx? p = some before.length := by
  induction before with
  | nil => simp [List.findIdx?_cons, hx]
  | cons y l ih =>
    obtain ⟨hy, hl⟩ := List.forall_mem_cons.1 hb
    simp [List.findIdx?_cons, hy, ih hl]

theorem getElem?_append_cons {α : Type} (before after : List α) (x : α) : (before ++ x :: after)[before.length]? = some x := by
  simp

theorem eraseIdx_append_cons {α : Type} (before after : List α) (x : α) :
    (before ++ x :: after).eraseIdx before.length = before ++ after := by
  simp [List.eraseIdx_append_of_length_le]

/-! ## The port a packet leaves on -/

section
variable {s : State}

/-- The better of the port found so far and the next one. -/
def State.betterPort (s : State) (vc : Nat) (a : Option Nat) (n : Nat) : Option Nat :=
  match a with
  | none => some n
  | some b => if s.freeCred b vc < s.freeCred n vc then some n else some b

theorem State.bestPort_eq (x : FwdPkt) : s.bestPort x = (s.usable x).foldl (s.betterPort (vcOf x.pkt.kind)) none := rfl

/-- The fold ends with the port it began with or one of the list, which has the most credit of all of them. -/
theorem State.bestFold (vc : Nat) (l : List Nat) (b : Nat) : ∃ a, l.foldl (s.betterPort vc) (some b) = some a ∧
    (a = b ∨ a ∈ l) ∧ s.freeCred b vc ≤ s.freeCred a vc ∧ ∀ j ∈ l, s.freeCred j vc ≤ s.freeCred a vc := by
  induction l generalizing b with
  | nil => exact ⟨b, rfl, .inl rfl, le_rfl, by simp⟩
  | cons n l ih =>
    rw [List.foldl_cons]
    by_cases h : s.freeCred b vc < s.freeCred n vc
    · obtain ⟨a, ha, hmem, hle, hall⟩ := ih n
      refine ⟨a, by rw [State.betterPort, if_pos h, ha], .inr ?_, by omega, by simpa using ⟨hle, hall⟩⟩
      rcases hmem with rfl | hmem
      · exact List.mem_cons_self
      · exact List.mem_cons_of_mem _ hmem
    · obtain ⟨a, ha, hmem, hle, hall⟩ := ih b
      refine ⟨a, by rw [State.betterPort, if_neg h, ha], ?_, hle, by simpa using ⟨by omega, hall⟩⟩
      exact hmem.imp id (List.mem_cons_of_mem _)

/-- Where a port is usable, one of those with the most credit is best. -/
theorem State.bestPort_some {x : FwdPkt} (h : s.usable x ≠ []) : ∃ n, s.bestPort x = some n ∧ n ∈ s.usable x ∧
    ∀ j ∈ s.usable x, s.freeCred j (vcOf x.pkt.kind) ≤ s.freeCred n (vcOf x.pkt.kind) := by
  rw [State.bestPort_eq]
  cases hl : s.usable x with
  | nil => exact absurd hl h
  | cons b l =>
    obtain ⟨a, ha, hmem, hle, hall⟩ := State.bestFold (s := s) (vcOf x.pkt.kind) l b
    exact ⟨a, ha, List.mem_cons.2 hmem, by simpa using ⟨hle, hall⟩⟩

theorem State.bestPort_none {x : FwdPkt} (h : s.usable x = []) : s.bestPort x = none := by
  rw [State.bestPort_eq, h]
  rfl

theorem State.mem_usable {x : FwdPkt} {n : Nat} (h : n ∈ s.usable x) :
    n < 12 ∧ (s.ryPort n).st = .active ∧ s.fB F.RYP_ROUTE_STATUS_wiring_error n = false := by
  obtain ⟨hr, hf⟩ := List.mem_filter.1 h
  simp only [Bool.and_eq_true, beq_iff_eq, Bool.not_eq_true'] at hf
  obtain ⟨⟨-, hst⟩, hw⟩ := hf
  exact ⟨List.mem_range.1 hr, hst, hw⟩

theorem State.route_some {x : FwdPkt} {n : Nat} (h : s.route x = some n) : n ∈ s.usable x ∧
    x.pkt.wire + (if x.enters n then 130 else 0) ≤ s.freeCred n (vcOf x.pkt.kind) ∧
    ∀ j ∈ s.usable x, s.freeCred j (vcOf x.pkt.kind) ≤ s.freeCred n (vcOf x.pkt.kind) := by
  obtain ⟨hb, hc⟩ := Option.filter_eq_some_iff.1 h
  have hne : s.usable x ≠ [] := fun hno => by rw [State.bestPort_none hno] at hb; cases hb
  obtain ⟨m, hm, hmem, hall⟩ := State.bestPort_some hne
  obtain rfl := Option.some.inj (hm.symm.trans hb)
  exact ⟨hmem, of_decide_eq_true hc, hall⟩

/-- With credit for the packet and the bubble on every usable port, it may leave. -/
theorem State.route_of_credit {x : FwdPkt} (h : s.usable x ≠ [])
    (hc : ∀ j ∈ s.usable x, x.pkt.wire + 130 ≤ s.freeCred j (vcOf x.pkt.kind)) : ∃ n ∈ s.usable x, s.route x = some n := by
  obtain ⟨n, hn, hmem, -⟩ := State.bestPort_some h
  refine ⟨n, hmem, Option.filter_eq_some_iff.2 ⟨hn, decide_eq_true ?_⟩⟩
  have := hc n hmem
  split <;> omega

/-! ## PACKET_FORWARD and ROUTE_HOLD_EXPIRY -/

theorem exec_packetForward (s : State) : exec .packetForward s = run s fun s => s.packetForward := rfl
theorem exec_routeHoldExpiry (s : State) : exec .routeHoldExpiry s = run s fun s => s.routeHold := rfl

section
variable {x : FwdPkt} {before after : List FwdPkt} (hq : s.fab.fwd = before ++ x :: after)
include hq

theorem State.packetForward_first {n : Nat} (hb : ∀ y ∈ before, s.route y = none) (hn : s.route x = some n) : s.packetForward =
    (({ s with fab := { s.fab with fwd := before ++ after } } : State).egPut (16 + n) 0 x.cls
      (if x.inPort.isSome then 0 else domeOf x.pkt.ctx) (64 * x.pkt.wire) false (.ry (vcOf x.pkt.kind) x.pkt x.inPort)).unhold x := by
  have hi : (s.fab.fwd.findIdx? fun x => (s.route x).isSome) = some before.length := by
    rw [hq]
    exact findIdx?_append_cons (fun y hy => by rw [hb y hy]; rfl) (by rw [hn]; rfl)
  have hx : s.fab.fwd[before.length]? = some x := by rw [hq, getElem?_append_cons]
  simp only [State.packetForward, hi, hx, hn]
  rw [hq, eraseIdx_append_cons]

theorem State.routeHold_first (hb : ∀ y ∈ before, s.usable y ≠ []) (hx : s.usable x = []) : s.routeHold =
    ((({ s with fab := { s.fab with fwd := before ++ after } } : State).bump F.RYP_FAB_CNT_unroutable).lostMsg
      x.pkt.msgKey).unhold x := by
  have hi : (s.fab.fwd.findIdx? fun x => (s.usable x).isEmpty) = some before.length := by
    rw [hq]
    exact findIdx?_append_cons (fun y hy => by simpa using hb y hy) (by simp [hx])
  have hx : s.fab.fwd[before.length]? = some x := by rw [hq, getElem?_append_cons]
  simp only [State.routeHold, hi, hx]
  rw [hq, eraseIdx_append_cons]

end

theorem State.unhold_free {x : FwdPkt} (h : x.inPort = none ∨ x.held = false) : s.unhold x = s := by
  rcases h with h | h
  · rw [State.unhold, h]
  · rw [State.unhold, h]
    cases x.inPort <;> rfl

theorem State.unhold_held {x : FwdPkt} {p : Nat} (h : x.inPort = some p) (hh : x.held = true) :
    s.unhold x = s.giveBack p (vcOf x.pkt.kind) x.pkt.wire := by
  rw [State.unhold, h]
  exact if_pos hh

/-! ## Windows, the handle table, the bypass -/

theorem exec_owinEnable (w : Fin 64) (v : Word) (s : State) : exec (.owinEnable w v) s = run s fun s => s.owinCtlWrite w.val v := rfl
theorem exec_iwinEnable (w : Fin 64) (v : Word) (s : State) : exec (.iwinEnable w v) s = run s fun s => s.iwinCtlWrite w.val v := rfl
theorem exec_handleTableEnable (s : State) : exec .handleTableEnable s = run s fun s => s.handleCtlWrite 1 := rfl
theorem exec_bypassRelease (r : BitVec 6) (s : State) : exec (.bypassRelease r) s = run s fun s => s.bypWrite (r.setWidth 32) := rfl

section
variable {w : Nat} {v : Word} {t : State} {b n : Nat}

section
variable (he : F.RYP_OWIN_CTL_enable.on v = true)
  (ht : t = (if F.RYP_OWIN_CTL_refused.on v then s.fFlag F.RYP_OWIN_CTL_refused false 0 w else s))
  (hb : b = t.fN F.RYP_OWIN_BASE_base_cell 0 w) (hn : n = t.fN F.RYP_OWIN_SIZE_cells 0 w)
include he ht hb hn

theorem State.owinCtlWrite_refused
    (h : b * 65536 < apertureBase ∨ dpaTop < (b + n) * 65536 ∨ n = 0 ∨ F.RYP_OWIN_CTL_node.of v = t.pwr.node) :
    s.owinCtlWrite w v = t.fFlag F.RYP_OWIN_CTL_refused true 0 w := by
  simp only [State.owinCtlWrite, ← ht, ← hb, ← hn]
  refine if_pos ?_
  rcases h with h | h | h | h <;> simp [he, h]

omit he in
theorem State.owinCtlWrite_enables (hlo : apertureBase ≤ b * 65536) (hhi : (b + n) * 65536 ≤ dpaTop) (h0 : n ≠ 0)
    (hnode : F.RYP_OWIN_CTL_node.of v ≠ t.pwr.node) (ho : ∀ x < 64, x ≠ w → t.fB F.RYP_OWIN_CTL_enable 0 x = false) :
    s.owinCtlWrite w v = t.wrCodes R.RYP_OWIN_CTL (v &&& ~~~2#32) 0 w := by
  have hothers : ((List.range 64).any fun x => x != w && t.fB F.RYP_OWIN_CTL_enable 0 x &&
      (let c := t.fN F.RYP_OWIN_BASE_base_cell 0 x
       decide (b < c + t.fN F.RYP_OWIN_SIZE_cells 0 x ∧ c < b + n))) = false := by
    rw [List.any_eq_false]
    intro x hx
    by_cases hw : x = w
    · simp [hw]
    · simp [ho x (List.mem_range.1 hx) hw]
  simp only [State.owinCtlWrite, ← ht, ← hb, ← hn]
  refine if_neg ?_
  rw [hothers]
  simp [Nat.not_lt.2 hlo, Nat.not_lt.2 hhi, h0, hnode]

end

section
variable (he : F.RYP_IWIN_CTL_enable.on v = true)
  (ht : t = (if F.RYP_IWIN_CTL_refused.on v then s.fFlag F.RYP_IWIN_CTL_refused false 0 w else s))
  (hn : n = t.fN F.RYP_IWIN_SIZE_cells 0 w)
include he ht hn

theorem State.iwinCtlWrite_refused
    (h : F.RYP_IWIN_CTL_dome.of v = 0 ∨ n = 0 ∨ t.hiveBase < (t.fN F.RYP_IWIN_BASE_base_cell 0 w + n) * 65536) :
    s.iwinCtlWrite w v = t.fFlag F.RYP_IWIN_CTL_refused true 0 w := by
  simp only [State.iwinCtlWrite, ← ht, ← hn]
  refine if_pos ?_
  rcases h with h | h | h <;> simp [he, h]

omit he in
theorem State.iwinCtlWrite_enables (hd : F.RYP_IWIN_CTL_dome.of v ≠ 0) (h0 : n ≠ 0)
    (h : (t.fN F.RYP_IWIN_BASE_base_cell 0 w + n) * 65536 ≤ t.hiveBase) :
    s.iwinCtlWrite w v = t.wrCodes R.RYP_IWIN_CTL (v &&& ~~~0x80000000#32) 0 w := by
  simp only [State.iwinCtlWrite, ← ht, ← hn]
  exact if_neg (by simp [hd, h0, Nat.not_lt.2 h])

end
end

/-- Whether the handle table lies in 16 cells of Dome 0, and its enable is set or refused by that. -/
theorem State.handleCtlWrite_enable (h : s.fB F.RYP_HANDLE_CTL_enable = false) : s.handleCtlWrite 1 =
    if (List.range 16).all fun k =>
        decide (s.handleBase + k * 65536 < s.memTop) && s.dome0Cell (s.handleBase + k * 65536) then
      s.fFlag F.RYP_HANDLE_CTL_enable true
    else s.fFlag F.RYP_HANDLE_CTL_refused true := by
  have hr : F.RYP_HANDLE_CTL_refused.on 1 = false := by decide
  have he : F.RYP_HANDLE_CTL_enable.on 1 = true := by decide
  simp only [State.handleCtlWrite, hr, he, h, Bool.not_true, Bool.or_self, Bool.false_eq_true, if_false]

theorem handle_cells_all {q : Nat → Prop} [DecidablePred q] {d : Nat → Bool} :
    ((List.range 16).all fun k => decide (q k) && d k) = true ↔ ∀ k < 16, q k ∧ d k = true := by
  simp

/-- The release field of a word that holds it alone. -/
theorem release_of_setWidth (r : BitVec 6) : F.RYP_BYP_CTL_release.of (r.setWidth 32) = r.toNat := by
  have := r.isLt
  simp only [Fld.of, F.RYP_BYP_CTL_release, bits, BitVec.toNat_setWidth]
  omega

end

/-- Settles O49: each row by the first packet it takes, or by what a window or the table asks. -/
theorem forwardingAndWindows : Obligations.ForwardingAndWindows := by
  intro s hup
  refine ⟨fun x before after n vc t hq hb hn hvc ht => ⟨?_, State.unhold_free, fun p hp hh => ?_⟩,
    fun x after vc hq hvc hu hc => ?_, fun x n hn => ?_, fun x before after t hq hb hx ht => ?_,
    fun w v t b n he ht hb hn => ⟨fun h => ?_, fun hlo hhi h0 hnode ho => ?_⟩,
    fun w v t n he ht hn => ⟨fun h => ?_, fun hd h0 h => ?_⟩, fun h => ⟨fun hall => ?_, fun hno => ?_⟩, fun r => ?_⟩
  · subst hvc
    rw [exec_packetForward, run_up _ hup, State.packetForward_first hq hb hn, ht]
  · rw [State.unhold_held hp hh, hvc]
  · subst hvc
    obtain ⟨n, hmem, hn⟩ := State.route_of_credit hu hc
    refine ⟨n, hmem, ?_⟩
    rw [exec_packetForward, run_up _ hup, State.packetForward_first (before := []) hq (by simp) hn]
    rfl
  · obtain ⟨hmem, hcred, hall⟩ := State.route_some hn
    obtain ⟨hlt, hst, hw⟩ := State.mem_usable hmem
    exact ⟨hlt, hst, hw, hcred, hall⟩
  · rw [exec_routeHoldExpiry, run_up _ hup, State.routeHold_first hq hb hx, ht]
  · rw [exec_owinEnable, run_up _ hup, State.owinCtlWrite_refused he ht hb hn h]
  · rw [exec_owinEnable, run_up _ hup, State.owinCtlWrite_enables ht hb hn hlo hhi h0 hnode ho]
  · rw [exec_iwinEnable, run_up _ hup, State.iwinCtlWrite_refused he ht hn h]
  · rw [exec_iwinEnable, run_up _ hup, State.iwinCtlWrite_enables ht hn hd h0 h]
  · rw [exec_handleTableEnable, run_up _ hup, State.handleCtlWrite_enable h, if_pos (handle_cells_all.2 hall)]
  · rw [exec_handleTableEnable, run_up _ hup, State.handleCtlWrite_enable h, if_neg fun hall => hno (handle_cells_all.1 hall)]
  · rw [exec_bypassRelease, run_up _ hup, State.bypWrite, release_of_setWidth]

end Sys2Proof.Machine
end

section
/-!
PROOFS. The queen node (R286 - R290).
-/
namespace Sys2Proof.Machine

/-! ## A field as the access codes leave it -/

/-- A plain RW field takes what is written. -/
theorem Fld.of_codeWrite (f : Fld) (r : Reg) (old v : Word) (hc : r.w1c = 0) (hs : r.w1s = 0)
    (h1 : f.of (BitVec.ofNat 32 r.rw) = 2 ^ (f.hi + 1 - f.lo) - 1) (h0 : f.of (~~~ BitVec.ofNat 32 r.rw) = 0) :
    f.of (codeWrite r old v) = f.of v := by
  have hword : codeWrite r old v = (old &&& ~~~ BitVec.ofNat 32 r.rw) ||| (v &&& BitVec.ofNat 32 r.rw) := by
    rw [codeWrite, hc, hs]
    show (_ &&& ~~~(v &&& 0#32)) ||| (v &&& 0#32) = _
    rw [BitVec.and_zero, BitVec.or_zero]
    exact BitVec.and_allOnes
  have hold : f.of (old &&& ~~~ BitVec.ofNat 32 r.rw) = 0 := by
    rw [Fld.of] at h0
    rw [Fld.of, BitVec.toNat_and, bits_and, h0, Nat.and_zero]
  rw [hword, Fld.of, BitVec.toNat_or, bits_or, ← Fld.of, ← Fld.of, hold, Nat.zero_or, Fld.of_and_of_full _ _ _ h1]

theorem State.fN_wrCodes (s : State) (f : Fld) (v : Word) (i k : Nat) :
    (s.wrCodes f.reg v i k).fN f i k = f.of (codeWrite f.reg (s.rd f.reg i k) v) := by
  rw [State.fN, State.wrCodes, State.rd_wr_same, Fld.of]

/-! ## Packets of the protocol -/

section
variable {s : State}

theorem State.takeQueen_of {p i : Nat} {x : InPkt} (h : s.pktIs p kQueen i x) (f : State → Nat → State) :
    s.takeQueen p f = f (s.pktGone p i) x.pkt.src := by
  obtain ⟨hi, hx⟩ := h
  rw [State.takeQueen, hi]
  simp only [hx]

variable (p : Fin 13) (s)

theorem exec_queenClaim (c : RoleClaim) : exec (.queenClaim p c) s =
    run s fun s => s.takeQueen p.val fun s q => if c.succ then s.succFrom q else s.claimFrom q c.term.toNat := rfl
theorem exec_lossVote : exec (.lossVote p) s = run s fun s => s.takeQueen p.val fun s q => s.vote q := rfl
theorem exec_takeover (m : BitVec 16) :
    exec (.takeover p m) s = run s fun s => s.takeQueen p.val fun s q => s.takeoverFrom q m.toNat := rfl
theorem exec_queenUpdate (u : QUpd) (a : QAns) :
    exec (.queenUpdate p u a) s = run s fun s => s.takeQueen p.val fun s q => s.queenUpdate q u a := rfl
theorem exec_heartbeat (m : BitVec 16) (b : Beat) : exec (.heartbeat p m b) s = run s fun s =>
    if s.isQueen then s.sendBeat b.stopped
    else s.takeQueen p.val fun s q => s.heartbeatFrom q m.toNat b.stopped (b.succ.map fun n => n.val) := rfl
theorem exec_heartbeatMiss : exec .heartbeatMiss s = run s fun s => s.heartbeatMiss := rfl
theorem exec_queenCtlWrite (v : Word) : exec (.queenCtlWrite v) s = run s fun s => s.queenCtlWrite v := rfl

end

/-! ## Claims, takeovers, heartbeats -/

section
variable {s : State} {q m : Nat}

theorem State.claimFrom_stale (h : m < s.term) : s.claimFrom q m = s.staleQueen q := if_pos h

theorem State.claimFrom_higher (h : s.term < m) : s.claimFrom q m = s.recordQueen q m := by
  have hne : (m == s.term) = false := beq_eq_false_iff_ne.2 (Nat.ne_of_gt h)
  simp only [State.claimFrom, if_neg (Nat.not_lt.2 (Nat.le_of_lt h)), hne, Bool.and_false, Bool.false_eq_true, if_false]

/-- Two claims of one term: the lower node is queen. -/
theorem State.claimFrom_clash (hq : s.isQueen = true) (h : m = s.term) :
    s.claimFrom q m = if q < s.pwr.node then (s.raise 15).recordQueen q m else s := by
  subst h
  simp only [State.claimFrom, if_neg (lt_irrefl s.term), hq, beq_self_eq_true, Bool.and_self, if_true]

theorem State.claimFrom_unknown (hq : s.isQueen = false) (hv : s.fB F.RYP_FAB_STATUS_queen_valid = false) (h : m = s.term) :
    s.claimFrom q m = s.recordQueen q m := by
  subst h
  simp only [State.claimFrom, if_neg (lt_irrefl s.term), hq, hv, Bool.false_and, Bool.false_eq_true, if_false]

theorem State.takeoverFrom_stale (h : m ≤ s.term) : s.takeoverFrom q m = s.staleQueen q := if_pos h

theorem State.takeoverFrom_higher (h : s.term < m) : s.takeoverFrom q m =
    (((s.recordQueen q m).fFlag F.RYP_FAB_STATUS_is_succ false).learnSucc none).fFlag F.RYP_FAB_STATUS_alloc_stopped true :=
  if_neg (Nat.not_le.2 h)

theorem State.heartbeatFrom_stale (h : m < s.term) (st : Bool) (n : Option Nat) : s.heartbeatFrom q m st n = s.staleQueen q :=
  if_pos h

/-- What becomes of the updates the queen holds as she sends her heartbeat. -/
def State.settleReports (s : State) (lost : Bool) : State :=
  if s.fB F.RYP_QUEEN_CTL_solo then s
  else match lost, s.successor with
    | false, some n =>
      s.fab.reports.foldl (fun s u => (s.sendQueen n 0).applyUpd u)
        ({ s with fab := { s.fab with reports := [] } }.fFlag F.RYP_FAB_STATUS_alloc_stopped false)
    | _, _ => s.fFlag F.RYP_FAB_STATUS_alloc_stopped true

theorem State.sendBeat_eq (s : State) (lost : Bool) : s.sendBeat lost = (s.announceRole.settleReports lost).queenAll 3 := rfl

section
variable {t : State} {lost : Bool}

theorem State.settleReports_solo (h : t.fB F.RYP_QUEEN_CTL_solo = true) : t.settleReports lost = t := if_pos h

variable (h : t.fB F.RYP_QUEEN_CTL_solo = false)
include h

theorem State.settleReports_stopped (hl : lost = true ∨ t.successor = none) :
    t.settleReports lost = t.fFlag F.RYP_FAB_STATUS_alloc_stopped true := by
  refine (if_neg (by simp [h])).trans ?_
  rcases hl with rfl | hn
  · rfl
  · rw [hn]
    cases lost <;> rfl

theorem State.settleReports_answered {n : Nat} (hl : lost = false) (hn : t.successor = some n) :
    t.settleReports lost = t.fab.reports.foldl (fun (w : State) u => (w.sendQueen n 0).applyUpd u)
      (({ t with fab := { t.fab with reports := [] } } : State).fFlag F.RYP_FAB_STATUS_alloc_stopped false) := by
  refine (if_neg (by simp [h])).trans ?_
  rw [hl, hn]

end

/-! ## Missed heartbeats and votes -/

section
variable (hq : s.isQueen = false) (hv : s.fB F.RYP_FAB_STATUS_queen_valid = true) {t : State}
  (ht : t = { s with fab := { s.fab with missed := s.fab.missed + 1 } })
include hq hv ht

theorem State.heartbeatMiss_few (h : s.fab.missed + 1 < max 1 (s.fN F.RYP_QUEEN_CTL_hb_miss)) : s.heartbeatMiss = t := by
  subst ht
  simp only [State.heartbeatMiss, hq, hv, Bool.not_true, Bool.or_self, Bool.false_eq_true, if_false]
  exact if_pos h

/-- The queen is lost: the successor votes for itself, any other node at the successor. -/
theorem State.heartbeatMiss_lost (h : max 1 (s.fN F.RYP_QUEEN_CTL_hb_miss) ≤ s.fab.missed + 1) {u : State}
    (hu : u = t.fFlag F.RYP_FAB_STATUS_queen_valid false) : s.heartbeatMiss =
      if u.fB F.RYP_FAB_STATUS_is_succ then u.vote u.pwr.node
      else match u.successor with
        | some n => u.sendQueen n 4
        | none => u := by
  subst ht hu
  simp only [State.heartbeatMiss, hq, hv, Bool.not_true, Bool.or_self, Bool.false_eq_true, if_false]
  refine (if_neg (Nat.not_lt.2 h)).trans ?_
  rfl

omit hq hv in
/-- Holding the queen lost leaves who is successor. -/
theorem State.queenLost_succ : (t.fFlag F.RYP_FAB_STATUS_queen_valid false).fB F.RYP_FAB_STATUS_is_succ =
    s.fB F.RYP_FAB_STATUS_is_succ := by
  subst ht
  rw [State.fB, State.fFlag, State.fN_fSet_apart _ F.RYP_FAB_STATUS_queen_valid F.RYP_FAB_STATUS_is_succ _ _ _ rfl rfl
    (.inl (by decide)) rfl]
  rfl

end

/-- A vote counts once at the successor, which takes over with enough of them. -/
theorem State.vote_succ {n : Nat} (h : s.fB F.RYP_FAB_STATUS_is_succ = true) {t : State} (ht : t = { s with fab := { s.fab with
    votes := if n ∈ s.fab.votes then s.fab.votes else s.fab.votes ++ [n] } }) :
    s.vote n = if t.enoughVotes then t.takeOver else t := by
  have hvotes : (if s.fab.votes.contains n then s.fab.votes else s.fab.votes ++ [n]) =
      if n ∈ s.fab.votes then s.fab.votes else s.fab.votes ++ [n] := if_congr List.contains_iff_mem rfl rfl
  subst ht
  simp only [State.vote, h, Bool.not_true, Bool.false_eq_true, if_false, hvotes]

/-! ## Updates -/

section
variable {src : Nat} {u : QUpd} {a : QAns}

section
variable (hq : s.isQueen = true)
include hq

theorem State.queenUpdate_solo (h : s.fB F.RYP_QUEEN_CTL_solo = true) :
    s.queenUpdate src u a = ((s.applyUpd u).localUpd u).sendQueen src 1 := by
  simp only [State.queenUpdate, hq, h, if_true]

variable (h : s.fB F.RYP_QUEEN_CTL_solo = false)
include h

theorem State.queenUpdate_stopped (hs : s.fB F.RYP_FAB_STATUS_alloc_stopped = true) : s.queenUpdate src u a = s := by
  simp only [State.queenUpdate, hq, h, hs, Bool.false_eq_true, if_false, if_true]

variable (hs : s.fB F.RYP_FAB_STATUS_alloc_stopped = false)
include hs

theorem State.queenUpdate_alone (hn : s.successor = none) :
    s.queenUpdate src u a = s.fFlag F.RYP_FAB_STATUS_alloc_stopped true := by
  simp only [State.queenUpdate, hq, h, hs, hn, Bool.false_eq_true, if_false, if_true]

theorem State.queenUpdate_mirrored {n : Nat} (hn : s.successor = some n) {t : State} (ht : t = s.sendQueen n 0) :
    s.queenUpdate src u a =
      if a = .ok then ((t.applyUpd u).localUpd u).sendQueen src 1 else t.fFlag F.RYP_FAB_STATUS_alloc_stopped true := by
  simp only [State.queenUpdate, hq, h, hs, hn, Bool.false_eq_true, if_false, if_true, ← ht]

end

theorem State.queenUpdate_other (hq : s.isQueen = false) : s.queenUpdate src u a =
    if src ≠ s.fN F.RYP_FAB_STATUS_queen_node then s
    else if s.fB F.RYP_FAB_STATUS_is_succ then ((s.applyUpd u).localUpd u).sendQueen src 1
    else (s.localUpd u).sendQueen src 1 := by
  simp only [State.queenUpdate, hq, Bool.false_eq_true, if_false]

end

/-! ## RYP_QUEEN_CTL -/

/-- The successor's name is shown, and whether it is this node. -/
def State.nameSucc (s : State) : State :=
  let t := s.fSet F.RYP_FAB_STATUS_succ_node (s.successor.getD 0)
  t.fFlag F.RYP_FAB_STATUS_is_succ (!t.isQueen &&
    (if s.fB F.RYP_QUEEN_CTL_succ_override then s.fN F.RYP_QUEEN_CTL_succ_node == t.pwr.node else t.pwr.succSel))

/-- A queen resumes updates where she is alone, or hands her state to the successor firmware names. -/
def State.queenResume (s : State) (named : Bool) (n : Nat) : State :=
  if !s.isQueen then s
  else if s.fB F.RYP_QUEEN_CTL_solo then s.fFlag F.RYP_FAB_STATUS_alloc_stopped false
  else if named && n != s.pwr.node then (s.sendQueen n 6).fFlag F.RYP_FAB_STATUS_alloc_stopped false
  else s

theorem State.queenCtlWrite_eq (v : Word) {t : State} (ht : t = (s.wrCodes R.RYP_QUEEN_CTL v).fFlag F.RYP_QUEEN_CTL_solo
    (if s.pwr.queenSel then F.RYP_QUEEN_CTL_solo.on v else s.fB F.RYP_QUEEN_CTL_solo)) :
    s.queenCtlWrite v = t.nameSucc.queenResume (t.fB F.RYP_QUEEN_CTL_succ_override) (t.fN F.RYP_QUEEN_CTL_succ_node) := by
  subst ht
  rfl

section
variable {v : Word} {on : Bool} {t u : State} (ht : t = (s.wrCodes R.RYP_QUEEN_CTL v).fFlag F.RYP_QUEEN_CTL_solo on)
include ht

/-- What names the successor is as written. -/
theorem State.queenCtl_named : t.fN F.RYP_QUEEN_CTL_succ_override = F.RYP_QUEEN_CTL_succ_override.of v ∧
    t.fN F.RYP_QUEEN_CTL_succ_node = F.RYP_QUEEN_CTL_succ_node.of v := by
  subst ht
  refine ⟨?_, ?_⟩
  · rw [State.fFlag, State.fN_fSet_apart _ F.RYP_QUEEN_CTL_solo F.RYP_QUEEN_CTL_succ_override _ _ _ rfl rfl (.inl (by decide)) rfl]
    exact (State.fN_wrCodes s F.RYP_QUEEN_CTL_succ_override v 0 0).trans
      (Fld.of_codeWrite _ _ _ _ rfl rfl (by decide) (by decide))
  · rw [State.fFlag, State.fN_fSet_apart _ F.RYP_QUEEN_CTL_solo F.RYP_QUEEN_CTL_succ_node _ _ _ rfl rfl (.inl (by decide)) rfl]
    exact (State.fN_wrCodes s F.RYP_QUEEN_CTL_succ_node v 0 0).trans
      (Fld.of_codeWrite _ _ _ _ rfl rfl (by decide) (by decide))

/-- The status of the fabric stands beside the control register. -/
theorem State.queenCtl_status {f : Fld} (hf : f.reg = R.RYP_FAB_STATUS) : t.fN f = s.fN f := by
  have hne : ∀ g : Fld, g.reg = R.RYP_QUEEN_CTL → f.reg.addr 0 0 ≠ g.reg.addr 0 0 := fun g hg => by
    rw [hf, hg]
    decide
  subst ht
  rw [State.fFlag, State.fN_fSet_other _ _ _ _ _ _ _ _ (hne _ rfl), State.wrCodes,
    State.fN_wr_other _ R.RYP_QUEEN_CTL _ _ _ _ _ _ (hne F.RYP_QUEEN_CTL_solo rfl)]

variable (hu : u = (t.fSet F.RYP_FAB_STATUS_succ_node (t.successor.getD 0)).fFlag F.RYP_FAB_STATUS_is_succ (!s.isQueen &&
  (if F.RYP_QUEEN_CTL_succ_override.on v then F.RYP_QUEEN_CTL_succ_node.of v == s.pwr.node else s.pwr.succSel)))
include hu

/-- Naming the successor changes neither who is queen nor whether she is alone. -/
theorem State.queenCtl_roles : u.isQueen = s.isQueen ∧ u.fB F.RYP_QUEEN_CTL_solo = on := by
  subst hu
  refine ⟨?_, ?_⟩
  · rw [State.isQueen, State.fB, State.fFlag,
      State.fN_fSet_apart _ F.RYP_FAB_STATUS_is_succ F.RYP_FAB_STATUS_is_queen _ _ _ rfl rfl (.inr (by decide)) rfl,
      State.fN_fSet_apart _ F.RYP_FAB_STATUS_succ_node F.RYP_FAB_STATUS_is_queen _ _ _ rfl rfl (.inr (by decide)) rfl,
      State.queenCtl_status ht rfl]
    rfl
  · rw [State.fB, State.fFlag, State.fN_fSet_other _ _ _ _ _ _ _ _ (by decide), State.fN_fSet_other _ _ _ _ _ _ _ _ (by decide),
      ht, ← State.fB, State.fB_fFlag _ _ _ _ _ rfl]

variable (hon : on = (if s.pwr.queenSel then F.RYP_QUEEN_CTL_solo.on v else s.fB F.RYP_QUEEN_CTL_solo))
include hon

theorem State.queenCtlWrite_cases : s.queenCtlWrite v =
    if !s.isQueen then u
    else if on then u.fFlag F.RYP_FAB_STATUS_alloc_stopped false
    else if F.RYP_QUEEN_CTL_succ_override.on v && F.RYP_QUEEN_CTL_succ_node.of v != s.pwr.node then
      (u.sendQueen (F.RYP_QUEEN_CTL_succ_node.of v) 6).fFlag F.RYP_FAB_STATUS_alloc_stopped false
    else u := by
  obtain ⟨hname, hnode⟩ := State.queenCtl_named ht
  obtain ⟨hqueen, hsolo⟩ := State.queenCtl_roles ht hu
  have hover : t.fB F.RYP_QUEEN_CTL_succ_override = F.RYP_QUEEN_CTL_succ_override.on v := by rw [State.fB, hname, Fld.on]
  have hpwr : t.pwr = s.pwr := by rw [ht, State.fFlag_pwr, State.wrCodes_pwr]
  have hupwr : u.pwr = s.pwr := by rw [hu, State.fFlag_pwr, State.fSet_pwr, hpwr]
  have hq : (t.fSet F.RYP_FAB_STATUS_succ_node (t.successor.getD 0)).isQueen = s.isQueen := by
    rw [State.isQueen, State.fB,
      State.fN_fSet_apart _ F.RYP_FAB_STATUS_succ_node F.RYP_FAB_STATUS_is_queen _ _ _ rfl rfl (.inr (by decide)) rfl,
      State.queenCtl_status ht rfl]
    rfl
  have hname' : t.nameSucc = u := by
    rw [State.nameSucc, hq, hover, hnode, State.fSet_pwr, hpwr, hu]
  rw [State.queenCtlWrite_eq v (hon ▸ ht), hname', hover, hnode, State.queenResume, hqueen, hsolo, hupwr]

end
end

/-- Settles O50: each packet and each row by its cases. -/
theorem queenNode : Obligations.QueenNode := by
  intro s hup
  refine ⟨fun p i x t q hx ht hq m st n u a => ⟨?_, ?_, ?_, ?_, ?_, fun hno => ?_⟩, fun p m st n hq => ?_,
    fun q m => ⟨State.claimFrom_stale, fun hq hm hlt => ?_, fun hq hm hle => ?_, State.claimFrom_higher,
      State.claimFrom_unknown, fun h => if_neg (Nat.not_lt.2 h), fun h => if_pos h, State.takeoverFrom_stale,
      State.takeoverFrom_higher, State.heartbeatFrom_stale⟩,
    fun t ht lost => ⟨fun h => ?_, fun h => ⟨fun hl => ?_, fun n hl hn => ?_⟩⟩,
    fun hq hv t ht => ⟨fun h => ?_, fun h u hu => ⟨fun hs => ?_, fun hs => ⟨fun n hn => ?_, fun hn => ?_⟩⟩⟩,
    fun n h t ht => ⟨fun he => ?_, fun he => ?_⟩,
    fun src u a => ⟨fun hq => ⟨State.queenUpdate_solo hq, State.queenUpdate_stopped hq, fun h hs =>
      ⟨State.queenUpdate_alone hq h hs, fun n t hn ht => ⟨fun ha => ?_, fun ha => ?_⟩⟩⟩,
      fun hq => ⟨fun h => ?_, fun h => ⟨fun hs => ?_, fun hs => ?_⟩⟩⟩,
    fun v on t u hon ht hu => ⟨fun hq => ?_, fun hq h => ?_, fun hq h ho hn => ?_, fun hq h hno => ?_⟩⟩
  · rw [exec_queenClaim, run_up _ hup, State.takeQueen_of hx, if_neg Bool.false_ne_true, ht, hq]
  · rw [exec_queenClaim, run_up _ hup, State.takeQueen_of hx, if_pos rfl, ht, hq]
  · rw [exec_lossVote, run_up _ hup, State.takeQueen_of hx, ht, hq]
  · rw [exec_takeover, run_up _ hup, State.takeQueen_of hx, ht, hq]
  · rw [exec_queenUpdate, run_up _ hup, State.takeQueen_of hx, ht, hq]
  · rw [exec_heartbeat, run_up _ hup, if_neg (by simp [hno]), State.takeQueen_of hx, ht, hq]
  · rw [exec_heartbeat, run_up _ hup, if_pos hq]
  · rw [State.claimFrom_clash hq hm, if_pos hlt]
  · rw [State.claimFrom_clash hq hm, if_neg (Nat.not_lt.2 hle)]
  · rw [State.sendBeat_eq, ← ht, State.settleReports_solo h]
  · rw [State.sendBeat_eq, ← ht, State.settleReports_stopped h hl]
  · rw [State.sendBeat_eq, ← ht, State.settleReports_answered h hl hn]
  · rw [exec_heartbeatMiss, run_up _ hup, State.heartbeatMiss_few hq hv ht h]
  · have hs' : u.fB F.RYP_FAB_STATUS_is_succ = true := by rw [hu, State.queenLost_succ ht, hs]
    have hpwr : u.pwr = s.pwr := by rw [hu, State.fFlag_pwr, ht]
    rw [exec_heartbeatMiss, run_up _ hup, State.heartbeatMiss_lost hq hv ht h hu, if_pos hs', hpwr]
  · have hs' : ¬ u.fB F.RYP_FAB_STATUS_is_succ = true := by simp [hu, State.queenLost_succ ht, hs]
    rw [exec_heartbeatMiss, run_up _ hup, State.heartbeatMiss_lost hq hv ht h hu, if_neg hs', hn]
  · have hs' : ¬ u.fB F.RYP_FAB_STATUS_is_succ = true := by simp [hu, State.queenLost_succ ht, hs]
    rw [exec_heartbeatMiss, run_up _ hup, State.heartbeatMiss_lost hq hv ht h hu, if_neg hs', hn]
  · rw [State.vote_succ h ht, if_pos he]
  · rw [State.vote_succ h ht, if_neg (by simp [he])]
  · rw [State.queenUpdate_mirrored hq h hs hn ht, if_pos ha]
  · rw [State.queenUpdate_mirrored hq h hs hn ht, if_neg ha]
  · rw [State.queenUpdate_other hq, if_pos h]
  · rw [State.queenUpdate_other hq, if_neg (not_not.2 h), if_pos hs]
  · rw [State.queenUpdate_other hq, if_neg (not_not.2 h), if_neg (by simp [hs])]
  · rw [exec_queenCtlWrite, run_up _ hup, State.queenCtlWrite_cases ht hu hon, if_pos (by simp [hq])]
  · rw [exec_queenCtlWrite, run_up _ hup, State.queenCtlWrite_cases ht hu hon, if_neg (by simp [hq]), if_pos h]
  · rw [exec_queenCtlWrite, run_up _ hup, State.queenCtlWrite_cases ht hu hon, if_neg (by simp [hq]), if_neg (by simp [h]),
      if_pos (by simp [ho, hn])]
  · rw [exec_queenCtlWrite, run_up _ hup, State.queenCtlWrite_cases ht hu hon, if_neg (by simp [hq]), if_neg (by simp [h]), if_neg]
    rcases hno with h | h <;> simp [h]

end Sys2Proof.Machine
end

section
/-!
PROOFS. Accesses of an engine that the home has answered (R145, R177).
-/
namespace Sys2Proof.Machine

section
variable {s : State} {k : Nat} {c : Cmd} {e : Eng}

/-! ## An access that has begun -/

theorem State.engAns_of_map {o : Origin} {line : Nat} {wr : Bool} {be : BitVec 64} {r : RdRes}
    (h : (s.engAns o line wr be).map EngAns.res = some r) : ∃ a, s.engAns o line wr be = some a ∧ a.res = r :=
  Option.map_eq_some_iff.1 h

/-- A line that the command has begun is noted already. -/
theorem State.keepBeat_of_ownLine {pva line m : Nat} {wr : Bool} (h : s.ownLine k pva wr = some line) :
    s.keepBeat k pva wr m = s := by
  obtain ⟨x, hx, hf⟩ := Option.bind_eq_some_iff.1 h
  obtain ⟨b, hb, -⟩ := Option.map_eq_some_iff.1 hf
  have hb' := List.find?_some hb
  have hany : (x.beats.any fun b => b.1 == pva / 64 && b.2.1 == wr) = true :=
    List.any_eq_true.2 ⟨b, List.mem_of_find?_eq_some hb, hb'⟩
  rw [State.keepBeat, hx]
  exact if_pos hany

theorem State.noteBeat_of_ownLine {pva line m : Nat} {wr : Bool} (h : s.ownLine k pva wr = some line) :
    s.noteBeat k e pva wr m = s := by
  rw [State.noteBeat, State.keepBeat_of_ownLine h, ite_self]

theorem dpa_of_line (line pva : Nat) : (line * 64 + pva % 64) / 64 = line ∧ (line * 64 + pva % 64) % 64 = pva % 64 := by omega

/-- What counts the lines of other channels leaves what the commands and the home hold. -/
theorem State.offChan_same (line : Nat) : (s.offChan e line).q = s.q ∧ (s.offChan e line).home = s.home := by
  unfold State.offChan
  split
  · split
    · split <;> exact ⟨rfl, rfl⟩
    · exact ⟨rfl, rfl⟩
  · exact ⟨rfl, rfl⟩

theorem State.ownLine_of_q {t : State} (h : t.q = s.q) (pva : Nat) (wr : Bool) : t.ownLine k pva wr = s.ownLine k pva wr := by
  rw [State.ownLine, State.cmd, h, State.ownLine, State.cmd]

/-! ## Reads and writes -/

theorem State.acRead_of_beatRead {pva line : Nat} {l : Line} {stream : Bool} (h : s.beatRead k c e pva line l) :
    s.acRead k c e pva stream = (s.offChan e line, .ok line l) := by
  obtain ⟨hown, hwin, hgot⟩ := h
  obtain ⟨a, ha, hres⟩ := State.engAns_of_map hgot
  obtain ⟨hline, -⟩ := dpa_of_line line pva
  obtain ⟨hq, -⟩ := s.offChan_same (e := e) line
  have hread : s.engRead e.o c.ctx line e.rdCls (s.fN F.COMB_GEN_gen) .engine (s.engFill c.ctx) = (s, some (.ok l)) := by
    rw [State.engRead, State.engAccess]
    have ha' : s.engAns e.o line HKind.rdCur.isWrite fullBe = some a := ha
    simp only [newTx, ha', hres]
  simp only [State.acRead, State.engXl_of_ownLine hown, hline, State.acReadAt, hwin, hread,
    State.noteBeat_of_ownLine ((State.ownLine_of_q hq pva false).trans hown)]

theorem State.engWrite_of_got {o : Origin} {gen : Nat} {w : EngWr} (h : s.gotWrite o w) : s.engWrite o gen w = (s, some none) := by
  obtain ⟨l, hl⟩ := h
  obtain ⟨a, ha, hres⟩ := State.engAns_of_map hl
  have hacc : s.engAccess (w.tx o gen) = (s, some (.ok l)) := by
    have ha' : s.engAns (w.tx o gen).origin (w.tx o gen).line (w.tx o gen).kind.isWrite (w.tx o gen).be = some a := ha
    rw [State.engAccess, ha']
    simp only [hres]
  rw [State.engWrite, hacc]

theorem State.acWrite_of_got {pva line : Nat} {l : Line} {be : BitVec 64} (hown : s.ownLine k pva true = some line)
    (hwin : s.owinFor c.ctx line = none)
    (hgot : s.gotWrite e.o ⟨c.ctx, line, l, be, e.wrCls, .engine, .engine, s.engFill c.ctx⟩) :
    s.acWrite k c e pva l be = (s.offChan e line, .ok line l) := by
  obtain ⟨hline, -⟩ := dpa_of_line line pva
  obtain ⟨hq, -⟩ := s.offChan_same (e := e) line
  simp only [State.acWrite, State.engXl_of_ownLine hown, hline, State.acWriteAt, hwin, State.engWrite_of_got hgot,
    State.noteBeat_of_ownLine ((State.ownLine_of_q hq pva true).trans hown)]

/-- A write of bytes that is done: what was to be written makes no difference any more. -/
theorem State.acWrite_of_beatWrote {pva : Nat} {l l' : Line} {be : BitVec 64} (h : s.beatWrote k c e pva l be) :
    ∃ line, s.acWrite k c e pva l' be = (s.offChan e line, .ok line l') := by
  obtain ⟨line, hown, hwin, hgot⟩ := h
  exact ⟨line, State.acWrite_of_got hown hwin hgot⟩

/-! ## Updates of a word -/

theorem State.updated_word {line o : Nat} {l : Line} (hbad : l.badWord o = false) :
    s.updated k c e line o (.ok l) = (s.offChan e line, .done (l.slot8 (o / 8)).toNat) := by
  rw [State.updated, if_neg (by simp [hbad])]

theorem State.engUpdate_of_ans {o : Origin} {ctx : Ctx} {line cls gen : Nat} {heat : HeatKind} {fill : Option Nat} {r : RdRes}
    (h : (s.engAns o line true fullBe).map EngAns.res = some r) : s.engUpdate o ctx line cls gen heat fill = (s, .done r) := by
  obtain ⟨a, ha, hres⟩ := State.engAns_of_map h
  rw [State.engUpdate, ha, ← hres]

/-- An update of a word that the home has answered. -/
theorem State.update8_of_ans {pva line : Nat} {l : Line} {f : Nat → Option Nat} (hown : s.ownLine k pva true = some line)
    (hwin : s.owinFor c.ctx line = none) (hbad : l.badWord (pva % 64) = false)
    (hans : (s.engAns e.o line true fullBe).map EngAns.res = some (.ok l)) :
    s.update8 k c e pva f = (s.offChan e line, .done (l.slot8 (pva % 64 / 8)).toNat) := by
  obtain ⟨hline, hlow⟩ := dpa_of_line line pva
  obtain ⟨hq, -⟩ := s.offChan_same (e := e) line
  simp only [State.update8, State.engXl_of_ownLine hown, hline, hlow, hwin, State.updateAt, State.engUpdate_of_ans hans,
    State.updated_word hbad, State.noteBeat_of_ownLine ((State.ownLine_of_q hq pva true).trans hown)]

/-- A mover counts no lines of other channels. -/
theorem State.offChan_mover (n line : Nat) : s.offChan (moverOf n k) line = s := rfl

/-- Bytes that a mover has read, none of them poisoned. -/
theorem State.getBytes_of_read {n : Nat} {x : Cmd} {stream : Bool} (he : e = moverOf n k) (hx : s.cmd k = some x)
    (hctx : x.ctx = c.ctx) {pva m v : Nat} (h : s.BytesRead k c e pva m v) {fuel : Nat} (hf : m = 0 ∨ m + pva % 64 ≤ 64 * fuel) :
    State.getBytes k e stream fuel s pva m = (s, .ok v 0) := by
  induction h generalizing fuel with
  | nil => cases fuel <;> rfl
  | @line pva m j line l v hm hj hread hmarks _ ih =>
    obtain ⟨fuel, rfl⟩ : ∃ g, fuel = g + 1 := ⟨fuel - 1, by omega⟩
    have hread' : s.beatRead k x e pva line l := by
      obtain ⟨hown, hwin, hgot⟩ := hread
      exact ⟨hown, by rw [hctx, hwin], hgot⟩
    have hoff : s.offChan e line = s := by rw [he, State.offChan_mover]
    rw [State.getBytes, if_neg hm]
    simp only [hx, State.acRead_of_beatRead hread', hoff, ← hj, hmarks, if_true, ih (fuel := fuel) (by omega), Nat.zero_add, Nat.zero_mul]

end

end Sys2Proof.Machine
end

section
/-!
PROOFS. The commands of the data movers: MOVE, FILL, MOVE_STRIDED, ATOMIC_ADD64, GET, PUT, PING (R161, R279 - R283).
-/
namespace Sys2Proof.Machine

/-! ## A mover's command -/

section
variable {s : State} {k : Nat} {c : Cmd}

@[simp] theorem State.cmd_putCmd (s : State) (k : Nat) (c : Cmd) : (s.putCmd k c).cmd k = some c := SMap.find_put_same _ _ _

theorem State.cmdPos_of (h : s.cmd k = some c) : s.cmdPos k = c.pos := by rw [State.cmdPos, h]

theorem State.setPos_of (h : s.cmd k = some c) (p : Nat) : s.setPos k p = s.putCmd k { c with pos := p } := by
  rw [State.setPos, h]

theorem State.markCmd_of (h : s.cmd k = some c) (st : CmdSt) : s.markCmd k st = s.putCmd k { c with st := st } := by
  rw [State.markCmd, h]

theorem State.MoverRuns.moverCmd {op n : Nat} (h : s.MoverRuns k op c n) : s.moverCmd k op = some (c, n) := by
  obtain ⟨hk, he, hop, -, hst⟩ := h
  rw [State.moverCmd, hk]
  simp only [he, hop, beq_self_eq_true, Bool.true_and]
  refine if_pos ?_
  rcases hst with h | h | ⟨h, hb⟩
  · simp [h]
  · simp [h]
  · simp [h, hb]

/-- A command that ends with nothing left undefined. -/
theorem State.finishRun_of_no_doubt {v : State} {st r : Nat} (h : s.cmd k = some c) (hv : v = s.unitEnd k (c.unit k))
    (hd : v.doubt c st = []) : s.finishRun k st r = v.stopCmd k st r := by
  rw [State.finishRun, h]
  simp only [← hv, hd, List.isEmpty_nil, if_true]

/-! ## One unit of a copy -/

section
variable {u : State} {e : Eng} {n op total : Nat} {f : Cmd → Eng → State → State × Prog} (hm : s.MoverRuns k op c n)
  (he : e = moverOf n k) (hu : u = s.putCmd k { c with st := .running })
include hm he hu

/-- What a unit of work of a mover's command leaves, by what it comes to. -/
def State.afterUnit (k total : Nat) (e : Eng) : State × Prog → State
  | (s, .wait) => s.markCmd k .blocked
  | (s, .stop st) => s.finishRun k st (s.cmdPos k)
  | (s, .go) => if total ≤ s.cmdPos k then s.finishRun k stOK (s.cmdPos k) else s.unitEnd k e

theorem State.moverRun_of : s.moverRun k op total f = State.afterUnit k total e (f c e u) := by
  have hmc := hm.moverCmd
  obtain ⟨hk, -, -, hend, -⟩ := hm
  simp only [State.moverRun, hmc, State.markCmd_of hk, ← hu, ← he]
  rw [hend]
  rfl

omit hm in
theorem State.putBytes_of_wrote {a j v m : Nat} {l : Line} (h : u.beatWrote k c e a l (rangeBe (a % 64) j)) :
    ∃ line l', u.putBytes k e a j v m = (u, .ok line l') := by
  have hw : u.beatWrote k { c with st := .running } e a l (rangeBe (a % 64) j) := h
  have hcmd : u.cmd k = some { c with st := .running } := by rw [hu, State.cmd_putCmd]
  obtain ⟨line, hline⟩ := State.acWrite_of_beatWrote
    (l' := ⟨BitVec.ofNat 512 (v % 2 ^ (8 * j) * 2 ^ (8 * (a % 64))), markPoison (a % 64) j m⟩) hw
  have hoff : u.offChan e line = u := by rw [he, State.offChan_mover]
  rw [hoff] at hline
  exact ⟨line, _, by rw [State.putBytes, hcmd]; exact hline⟩

omit hm in
/-- The bytes of a unit are read and its line is written: the unit is done. -/
theorem State.copyUnit_done {src dst m j v : Nat} {l : Line} (hj : j = min m (64 - dst % 64)) (hread : u.BytesRead k c e src j v)
    (hw : u.beatWrote k c e dst l (rangeBe (dst % 64) j)) :
    u.copyUnit k e src dst m = (u.putCmd k { c with st := .running, pos := c.pos + j }, .go) := by
  have hcmd : u.cmd k = some { c with st := .running } := by rw [hu, State.cmd_putCmd]
  have hget := State.getBytes_of_read (c := c) (x := { c with st := .running }) (stream := true) (fuel := 3) he hcmd rfl
    hread (by omega)
  obtain ⟨line, l', hput⟩ := State.putBytes_of_wrote (v := v) (m := 0) he hu hw
  rw [State.copyUnit]
  simp only [← hj, hget, hput, State.cmdPos_of hcmd, State.setPos_of hcmd]

omit hm in
theorem State.fillWork_done {a j : Nat} {l : Line} (ha : a = c.p 0 + c.pos) (hj : j = min (c.p 1 - c.pos) (64 - a % 64))
    (hw : u.beatWrote k c e a l (rangeBe (a % 64) j)) :
    State.fillWork c k e u = (u.putCmd k { c with st := .running, pos := c.pos + j }, .go) := by
  have hcmd : u.cmd k = some { c with st := .running } := by rw [hu, State.cmd_putCmd]
  obtain ⟨line, l', hput⟩ := State.putBytes_of_wrote (m := 0)
    (v := (List.range j).foldl (fun x i => x + bits (c.p 2) (8 * ((a + i) % 8)) 8 * 2 ^ (8 * i)) 0) he hu hw
  rw [State.fillWork]
  simp only [State.cmdPos_of hcmd, ← ha, ← hj, hput, State.setPos_of hcmd]

/-- A unit that is done ends the command with the last byte, and else leaves the next one to be worked on. -/
theorem State.moverRun_done {p : Nat} {w : State} (hw : w = u.putCmd k { c with st := .running, pos := p })
    (hf : f c e u = (w, .go)) : (total ≤ p → s.moverRun k op total f = w.finishRun k stOK p) ∧
      (p < total → s.moverRun k op total f = w.unitEnd k e) := by
  have hpos : w.cmdPos k = p := by rw [hw, State.cmdPos_of (State.cmd_putCmd _ _ _)]
  rw [State.moverRun_of hm he hu, hf, State.afterUnit, hpos]
  exact ⟨fun h => if_pos h, fun h => if_neg (Nat.not_le.2 h)⟩

end

/-! ## ATOMIC_ADD64 -/

section
variable {u : State} {e : Eng} {n pva line : Nat} {l : Line} {f : Nat → Option Nat} (he : e = moverOf n k)
  (hown : u.ownLine k pva true = some line) (hwin : u.owinFor c.ctx line = none) (hbad : l.badWord (pva % 64) = false)
include he hown hwin hbad

omit hown hwin in
theorem State.updated_ok : u.updated k c e line (pva % 64) (.ok l) = (u, .done (l.slot8 (pva % 64 / 8)).toNat) := by
  rw [State.updated_word hbad, he, State.offChan_mover]

/-- An update that is done gives the word as it was. -/
theorem State.update8_done (hans : (u.engAns e.o line true fullBe).map EngAns.res = some (.ok l)) :
    u.update8 k c e pva f = (u, .done (l.slot8 (pva % 64 / 8)).toNat) := by
  rw [State.update8_of_ans hown hwin hbad hans, he, State.offChan_mover]

/-- An update whose line is held writes what `f` makes of the word; the home's answer completes it. -/
theorem State.update8_held {t : Tx} {x : State} {v : Nat} (hno : u.engAns e.o line true fullBe = none)
    (htx : u.engTx e.o line true fullBe = some t) (hst : t.stage = .engine) (hgot : t.got = some (.ok l))
    (hf : f (l.slot8 (pva % 64 / 8)).toNat = some v)
    (hx : x = u.engFinish e.o line (l.setSlot8 (pva % 64 / 8) (BitVec.ofNat 64 v))) (hcmd : x.cmd k = u.cmd k)
    (hans : (x.engAns e.o line true fullBe).map EngAns.res = some (.ok l)) :
    u.update8 k c e pva f = (x, .done (l.slot8 (pva % 64 / 8)).toNat) := by
  obtain ⟨a, ha, hres⟩ := State.engAns_of_map hans
  obtain ⟨hline, hlow⟩ := dpa_of_line line pva
  have hown' : x.ownLine k pva true = some line := by rw [State.ownLine, hcmd, ← State.ownLine, hown]
  simp only [State.update8, State.engXl_of_ownLine hown, hline, hlow, hwin, State.updateAt,
    State.engUpdate_of_held hno htx hst hgot, hbad, Bool.false_eq_true, if_false, hf, ← hx, ha, hres,
    State.updated_ok he hbad, State.noteBeat_of_ownLine hown']

end

theorem State.atomicRun_done {u x : State} {e : Eng} {n old : Nat} (hm : s.MoverRuns k 0x48 c n) (he : e = moverOf n k)
    (hu : u = s.putCmd k { c with st := .running })
    (h : u.update8 k c e (c.p 0) (fun old => some ((old + c.p 1) % 2 ^ 64)) = (x, .done old)) :
    s.atomicRun k = (x.unitEnd k e).stopCmd k stOK old := by
  have hmc := hm.moverCmd
  obtain ⟨hk, -⟩ := hm
  rw [State.atomicRun, hmc]
  simp only [State.markCmd_of hk, ← hu, ← he, h]

end

/-! ## The rows -/

section
variable {s u : State} {k : Fin 16385} {c : Cmd}

/-- The bytes a command of a row comes to, as its parameters give them. -/
def State.askedOf (s : State) (k : Nat) (f : Cmd → Nat) : Nat := match s.cmd k with | some c => f c | none => 0

theorem State.askedOf_of {f : Cmd → Nat} (hk : s.cmd k = some c) : s.askedOf k f = f c := by rw [State.askedOf, hk]

theorem exec_move : exec (.move k) s =
    run s fun s => s.moverRun k 0x40 (s.askedOf k fun c => c.p 2) fun c e s => State.moveWork c k e s := rfl
theorem exec_fill : exec (.fill k) s =
    run s fun s => s.moverRun k 0x41 (s.askedOf k fun c => c.p 1) fun c e s => State.fillWork c k e s := rfl
theorem exec_moveStrided : exec (.moveStrided k) s =
    run s fun s => s.moverRun k 0x42 (s.askedOf k fun c => c.p 2 * c.p 3) fun c e s => State.stridedWork c k e s := rfl
theorem exec_atomicAdd64 : exec (.atomicAdd64 k) s = run s fun s => s.atomicRun k := rfl

section
variable {i : Instr} {op n total : Nat} {tot : Cmd → Nat} {f : Cmd → Eng → State → State × Prog} {e : Eng}
  (hup : s.up = true) (hx : exec i s = run s fun s => s.moverRun k op (s.askedOf k tot) f) (ht : tot c = total)
  (hm : s.MoverRuns k op c n) (he : e = moverOf n k) (hu : u = s.putCmd k { c with st := .running })
include hup hx ht hm he hu

omit he hu in
theorem exec_of_moverRun : exec i s = .next ((s.moverRun k op total f).keep s) := by
  have hk := hm.1
  rw [hx, run_up _ hup, State.askedOf_of hk, ht]

theorem exec_afterUnit {t : State} {r : Prog} (hf : f c e u = (t, r)) :
    (r = .go → total ≤ t.cmdPos k → exec i s = .next ((t.finishRun k stOK (t.cmdPos k)).keep s)) ∧
    (r = .go → t.cmdPos k < total → exec i s = .next ((t.unitEnd k e).keep s)) ∧
    (r = .wait → exec i s = .next ((t.markCmd k .blocked).keep s)) ∧
    (∀ st, r = .stop st → exec i s = .next ((t.finishRun k st (t.cmdPos k)).keep s)) := by
  rw [exec_of_moverRun hup hx ht hm, State.moverRun_of hm he hu, hf]
  refine ⟨fun hr hp => ?_, fun hr hp => ?_, fun hr => ?_, fun st hr => ?_⟩ <;> subst hr
  · rw [State.afterUnit, if_pos hp]
  · rw [State.afterUnit, if_neg (Nat.not_le.2 hp)]
  · rfl
  · rfl

theorem exec_unitDone {p : Nat} {w : State} (hw : w = u.putCmd k { c with st := .running, pos := p }) (hf : f c e u = (w, .go)) :
    (total ≤ p → exec i s = .next ((w.finishRun k stOK p).keep s)) ∧ (p < total → exec i s = .next ((w.unitEnd k e).keep s)) := by
  obtain ⟨hlast, hmore⟩ := State.moverRun_done (total := total) hm he hu hw hf
  rw [exec_of_moverRun hup hx ht hm]
  exact ⟨fun h => by rw [hlast h], fun h => by rw [hmore h]⟩

theorem exec_copyDone {src dst m j v : Nat} {w : State} (hf : f c e u = u.copyUnit k e src dst m) (hj : j = min m (64 - dst % 64))
    (hread : u.BytesRead k c e src j v)
    (hw : u.beatWrote k c e dst ⟨BitVec.ofNat 512 (v % 2 ^ (8 * j) * 2 ^ (8 * (dst % 64))), 0⟩ (rangeBe (dst % 64) j))
    (hdone : w = u.putCmd k { c with st := .running, pos := c.pos + j }) :
    (total ≤ c.pos + j → exec i s = .next ((w.finishRun k stOK (c.pos + j)).keep s)) ∧
    (c.pos + j < total → exec i s = .next ((w.unitEnd k e).keep s)) :=
  exec_unitDone hup hx ht hm he hu hdone (by rw [hf, State.copyUnit_done he hu hj hread hw, hdone])

end

theorem moveWork_eq {e : Eng} (hu : u = s.putCmd k { c with st := .running }) :
    State.moveWork c k e u = u.copyUnit k e (c.p 0 + c.pos) (c.p 1 + c.pos) (c.p 2 - c.pos) := by
  rw [State.moveWork, hu, State.cmdPos_of (State.cmd_putCmd _ _ _)]

theorem stridedWork_eq {e : Eng} (hu : u = s.putCmd k { c with st := .running }) : State.stridedWork c k e u =
    u.copyUnit k e (c.p 0 + c.pos / c.p 2 * c.p 4 + c.pos % c.p 2) (c.p 1 + c.pos / c.p 2 * c.p 5 + c.pos % c.p 2)
      (c.p 2 - c.pos % c.p 2) := by
  rw [State.stridedWork, hu, State.cmdPos_of (State.cmd_putCmd _ _ _)]

/-! ## GET, PUT and PING -/

theorem exec_get : exec (.get k) s = run s fun s => s.fabRun k 0xC0 fun c _ s => State.getWork c k s := rfl
theorem exec_put : exec (.put k) s = run s fun s => s.fabRun k 0xC1 fun c e s => State.putWork c k e s := rfl
theorem exec_ping : exec (.ping k) s = run s fun s => s.pingRun k := rfl

section
variable {e : Eng} {n op : Nat} {f : Cmd → Eng → State → State × Prog} (hm : s.MoverRuns k op c n)
include hm

theorem State.fabRun_denied (hmode : bit (s.domeMode c.dome).toNat 0 = false) : s.fabRun k op f = s.endCmd k c stDenied 0 := by
  have hmc := hm.moverCmd
  obtain ⟨-, -, -, hend, -⟩ := hm
  rw [State.fabRun, hmc]
  simp only [hend, hmode, Bool.not_false, if_true]

theorem State.fabRun_go {w : State} (he : e = moverOf n k) (hu : u = s.putCmd k { c with st := .running })
    (hmode : bit (s.domeMode c.dome).toNat 0 = true) (hf : f c e u = (w, .go)) :
    s.fabRun k op f = ((w.unitEnd k e).markCmd k .blocked).fabEnd k := by
  have hmc := hm.moverCmd
  obtain ⟨hk, -, -, hend, -⟩ := hm
  rw [State.fabRun, hmc]
  simp only [State.markCmd_of hk, ← hu, ← he, hf]
  simp only [hend, hmode, Bool.not_true, Bool.false_eq_true, if_false]

end

section
variable {e : Eng} {m off len n : Nat} (hu : u = s.putCmd k { c with st := .running }) (hpos : c.pos < c.p 3) (haux : c.aux ≠ 1)
  (hoff : off = c.p 1 + c.pos) (hm : s.freeMsg = some m)
include hu hpos haux hoff hm

/-- A GET opens a message for the next 64 KiB of the handle's offsets and asks for its bytes. -/
theorem State.getWork_of (hlen : len = min (c.p 3 - c.pos) (65536 - off % 65536)) : State.getWork c k u =
    (((u.openMsg m k c .get c.pos len).putCmd k { c with st := .running, pos := c.pos + len }).originate
      (Pkt.bare c.rNode s.pwr.node kHRd c.ctx m off len (BitVec.ofNat 32 c.rHandle) 0) 4, .go) := by
  have hcmd : u.cmd k = some { c with st := .running } := by rw [hu, State.cmd_putCmd]
  have hfree : u.freeMsg = some m := by rw [hu]; exact hm
  have hnode : u.pwr.node = s.pwr.node := by rw [hu]; rfl
  have hgo : (decide (c.p 3 ≤ c.pos) || decide (c.aux = 1)) = false := by simp [Nat.not_le.2 hpos, haux]
  rw [State.getWork, hcmd]
  simp only [hgo, Bool.false_eq_true, if_false, hfree, ← hoff, ← hlen]
  rw [← hnode]
  rfl

end

/-- Bytes without marks make no word of a packet poisoned. -/
theorem noPoison (l : List Nat) :
    l.foldl (fun (a : BitVec 256) b => if bits 0 (16 * b) 16 ≠ 0 then a ||| (1#256 <<< b) else a) 0 = 0 := by
  induction l with
  | nil => rfl
  | cons b r ih => rw [List.foldl_cons, if_neg (by simp [bits])]; exact ih

/-- A PUT at the start of its range opens its message and sends its first bytes. -/
theorem State.putWork_of {e : Eng} {m off len n v : Nat} (he : e = moverOf n k) (hu : u = s.putCmd k { c with st := .running })
    (hpos : c.pos < c.p 3) (haux : c.aux ≠ 1) (hoff : off = c.p 1 + c.pos) (hm : s.freeMsg = some m)
    (hlen : len = min (c.p 3 - c.pos) (4096 - off % 4096)) (hzero : c.pos = 0)
    (hno : (s.fab.msgs.find? fun y => y.2.cmd == k.val && y.2.kind == .put && y.2.base == 0) = none)
    (hread : u.BytesRead k c e (c.p 2) len v) : State.putWork c k e u =
      (((u.openMsg m k c .put 0 (min (c.p 3) (65536 - c.p 1 % 65536))).putCmd k { c with st := .running, pos := len }).originate
        { Pkt.bare c.rNode s.pwr.node kHWr c.ctx m off len (BitVec.ofNat 32 c.rHandle) 0 with
          units := (len + 63) / 64, poison := 0, data := BitVec.ofNat 32768 v } 4, .go) := by
  have hcmd : u.cmd k = some { c with st := .running } := by rw [hu, State.cmd_putCmd]
  have hfree : u.freeMsg = some m := by rw [hu]; exact hm
  have hnode : u.pwr.node = s.pwr.node := by rw [hu]; rfl
  have hgo : (decide (c.p 3 ≤ c.pos) || decide (c.aux = 1)) = false := by simp [Nat.not_le.2 hpos, haux]
  have hbase : max (c.p 1) (off / 65536 * 65536) - c.p 1 = 0 := by omega
  have hnone : (u.fab.msgs.find? fun y => y.2.cmd == k.val && y.2.kind == .put && y.2.base == 0) = none := by rw [hu]; exact hno
  have hget := State.getBytes_of_read (c := c) (x := { c with st := .running }) (stream := true) (fuel := 66) he hcmd rfl hread
    (by omega)
  have hopen : ∀ base mlen, (u.openMsg m k c .put base mlen).cmd k = some { c with st := .running } := fun _ _ => hcmd
  have hsrc : c.p 2 + c.pos = c.p 2 := by omega
  rw [State.putWork, hcmd]
  simp only [hgo, Bool.false_eq_true, if_false, ← hoff, hbase, hnone, Option.map_none, Option.isSome_none, hfree, ← hlen, hsrc,
    hget, noPoison, State.setPos_of (hopen _ _), Nat.sub_zero, Nat.add_zero]
  rw [hzero, Nat.zero_add, ← hnode]
  rfl

section
variable {n : Nat} (hm : s.MoverRuns k 0xC4 c n)
include hm

theorem State.pingRun_here (h : c.rNode = s.pwr.node) : s.pingRun k = s.endCmd k c stOK 0 := by
  rw [State.pingRun, hm.moverCmd]
  exact if_pos h

theorem State.pingRun_sends {m : Nat} (h : c.rNode ≠ s.pwr.node) (hno : ∀ y ∈ s.fab.msgs, ¬ (y.2.cmd = k.val ∧ y.2.kind = .ping))
    (hfree : s.freeMsg = some m) : s.pingRun k = ((s.openMsg m k c .ping 0 0).markCmd k .blocked).originate
      (Pkt.bare c.rNode s.pwr.node kPing c.ctx m 0 0 0 0) 6 := by
  have hany : (s.fab.msgs.any fun y => y.2.cmd == k.val && y.2.kind == .ping) = false := by
    rw [List.any_eq_false]
    intro y hy hc
    simp only [Bool.and_eq_true, beq_iff_eq] at hc
    exact hno y hy hc
  rw [State.pingRun, hm.moverCmd]
  simp only [h, if_false, hany, Bool.false_eq_true, hfree]

end

end

/-! ## FILL -/

/-- The bytes of the pattern at the addresses of a unit. -/
def fillBytes (pattern a j : Nat) : Nat :=
  (List.range j).foldl (fun x i => x + bits pattern (8 * ((a + i) % 8)) 8 * 2 ^ (8 * i)) 0

theorem fillBytes_of {pattern a j v : Nat} (h : ∀ i < j, bits v (8 * i) 8 = bits pattern (8 * ((a + i) % 8)) 8) :
    fillBytes pattern a j = v % 2 ^ (8 * j) := by
  induction j with
  | zero => simp [fillBytes, Nat.mod_one]
  | succ j ih =>
    have hsucc : fillBytes pattern a (j + 1) = fillBytes pattern a j + bits pattern (8 * ((a + j) % 8)) 8 * 2 ^ (8 * j) := by
      simp only [fillBytes, List.range_succ, List.foldl_append, List.foldl_cons, List.foldl_nil]
    rw [hsucc, ih fun i hi => h i (by omega), ← h j (by omega), bits, show 8 * (j + 1) = 8 * j + 8 by omega, Nat.pow_add, Nat.mod_mul, Nat.mul_comm (2 ^ (8 * j))]

/-! ## Settlement -/

/-- Settles O37: a row works on one unit, which goes on, ends, waits or stops; the units of the copies, of FILL, GET and PUT are
those of the manual. -/
theorem moverCommands : Obligations.MoverCommands := by
  unfold Obligations.MoverCommands
  refine ⟨fun s u k c n e hup he hu => ⟨?_, ?_, ?_, ?_, ?_⟩, fun s u k c n e hup he hu => ⟨?_, ?_, ?_⟩⟩
  · simp only [List.forall_mem_cons, List.not_mem_nil, false_imp_iff, implies_true, and_true]
    exact ⟨fun hm t r hf => exec_afterUnit hup exec_move rfl hm he hu hf,
      fun hm t r hf => exec_afterUnit hup exec_fill rfl hm he hu hf,
      fun hm t r hf => exec_afterUnit hup exec_moveStrided rfl hm he hu hf⟩
  · simp only [List.forall_mem_cons, List.not_mem_nil, false_imp_iff, implies_true, and_true]
    exact ⟨fun hm j v w hj hread hw hdone =>
        exec_copyDone hup exec_move rfl hm he hu (moveWork_eq hu) hj hread hw hdone,
      fun hm j v w hj hread hw hdone =>
        exec_copyDone hup exec_moveStrided rfl hm he hu (stridedWork_eq hu) hj hread hw hdone⟩
  · intro hm a j v w ha hj hv hbytes hw hdone
    refine exec_unitDone hup exec_fill rfl hm he hu hdone ?_
    have hfill : fillBytes (c.p 2) a j = v := by rw [fillBytes_of hbytes, Nat.mod_eq_of_lt hv]
    rw [hdone]
    exact State.fillWork_done (c := c) he hu ha hj (by rw [← hfill] at hw; exact hw)
  · intro d v x st r hd hv hno
    exact State.finishRun_of_no_doubt hd hv hno
  · intro hm line l hown hwin hbad
    refine ⟨fun hans => ?_, fun hno t x htx hst hgot hx hcmd hans => ?_⟩
    · rw [exec_atomicAdd64, run_up _ hup, State.atomicRun_done hm he hu (State.update8_done he hown hwin hbad hans)]
    · rw [exec_atomicAdd64, run_up _ hup,
        State.atomicRun_done hm he hu (State.update8_held he hown hwin hbad hno htx hst hgot rfl hx hcmd hans)]
  · simp only [List.forall_mem_cons, List.not_mem_nil, false_imp_iff, implies_true, and_true]
    exact ⟨fun hm hmode => by rw [exec_get, run_up _ hup, State.fabRun_denied hm hmode],
      fun hm hmode => by rw [exec_put, run_up _ hup, State.fabRun_denied hm hmode]⟩
  · intro hmode m off len hpos haux hoff hfree
    refine ⟨fun hm hlen => ?_, fun hm hlen hzero hno v hread => ?_⟩
    · rw [exec_get, run_up _ hup, State.fabRun_go hm he hu hmode (State.getWork_of hu hpos haux hoff hfree hlen)]
    · rw [exec_put, run_up _ hup,
        State.fabRun_go hm he hu hmode (State.putWork_of he hu hpos haux hoff hfree hlen hzero hno hread)]
  · exact fun hm => ⟨fun h => by rw [exec_ping, run_up _ hup, State.pingRun_here hm h],
      fun m h hno hfree => by rw [exec_ping, run_up _ hup, State.pingRun_sends hm h hno hfree]⟩

end Sys2Proof.Machine
end

section
/-!
PROOFS. Packets of the Rythar fabric at the node they are for: requests policed, checked and served, answers taken (R278 - R285).
-/
namespace Sys2Proof.Machine

/-! ## Requests -/

/-- What the check of a request comes to. -/
def State.afterChk (p i : Nat) (x : InPkt) (serve : State → Nat → InPkt → Nat → State) : State × Chk → State
  | (s, .wait) => s
  | (s, .err st) => (s.dropAns (pktOrigin p x.pkt)).pktErr p i x st
  | (s, .discard d) => ((s.dropAns (pktOrigin p x.pkt)).tdDiscard d).pktGone p i
  | (s, .dpa a) =>
    serve ((s.dropAns (pktOrigin p x.pkt)).putPkt p i { x with base := some a }) i { x with base := some a } a

section
variable {s : State} {p kind i : Nat} {wr : Bool} {x : InPkt} {chk : State → Nat → Pkt → Bool → State × Chk}
  {serve : State → Nat → InPkt → Nat → State}

section
variable (h : s.pktIs p kind i x)
include h

theorem State.inbound_of_base {a : Nat} (hb : x.base = some a) : s.inbound p kind wr chk serve = serve s i x a := by
  obtain ⟨hat, hx⟩ := h
  rw [State.inbound, hat]
  simp only [hx, hb]

theorem State.inbound_of_fault (hb : x.base = none) (hf : s.bel.active = true) :
    s.inbound p kind wr chk serve = s.pktErr p i x stFault := by
  obtain ⟨hat, hx⟩ := h
  rw [State.inbound, hat]
  simp only [hx, hb, hf, if_true]

section
variable {u : State} {y : InPkt} (hb : x.base = none) (hf : s.bel.active = false) (hpol : (u, y) = s.policePkt p i x wr)
include hb hf hpol

theorem State.inbound_of_held (hg : y.gate = .held) : s.inbound p kind wr chk serve = u := by
  obtain ⟨hat, hx⟩ := h
  rw [State.inbound, hat]
  simp only [hx, hb, hf, Bool.false_eq_true, if_false, ← hpol, hg, if_true]

theorem State.inbound_of_passed (hg : y.gate ≠ .held) :
    s.inbound p kind wr chk serve = State.afterChk p i y serve (chk u p y.pkt wr) := by
  obtain ⟨hat, hx⟩ := h
  rw [State.inbound, hat]
  simp only [hx, hb, hf, Bool.false_eq_true, if_false, ← hpol, hg]
  rfl

end

end

section
variable {k : Nat} (hk : k = (p + 16) * 4096 + domeOf x.pkt.ctx)

theorem State.policePkt_of_passed (h : p = 12 ∨ x.gate ≠ .fresh) : s.policePkt p i x wr = (s, x) := by
  rw [State.policePkt]
  refine if_pos ?_
  rcases h with h | h <;> simp [h]

include hk

theorem State.policePkt_passes (hp : p ≠ 12) (hg : x.gate = .fresh) (hb : (s.bucket .pol k).passable = true) :
    s.policePkt p i x wr = ((s.setBucket .pol k ((s.bucket .pol k).debit (s.polCost (p + 16) x.pkt.lineCount))).putPkt p i
      { x with gate := .passed }, { x with gate := .passed }) := by
  have hgo : (decide (p = 12) || x.gate != .fresh) = false := by simp [hp, hg]
  rw [State.policePkt]
  simp only [hgo, Bool.false_eq_true, if_false, ← hk, hb, if_true]

theorem State.policePkt_demotes (hp : p ≠ 12) (hg : x.gate = .fresh) (hb : (s.bucket .pol k).passable = false)
    (ha : (s.bucket .pol k).action = true ∨ wr = true) :
    s.policePkt p i x wr = (((s.setBucket .pol k ((s.bucket .pol k).debit (s.polCost (p + 16) x.pkt.lineCount))).bump
      F.SHAPER_POL_CNT_demoted).putPkt p i { x with gate := .demoted }, { x with gate := .demoted }) := by
  have hgo : (decide (p = 12) || x.gate != .fresh) = false := by simp [hp, hg]
  have hno : (!(s.bucket .pol k).action && !wr) = false := by rcases ha with h | h <;> simp [h]
  rw [State.policePkt]
  simp only [hgo, Bool.false_eq_true, if_false, ← hk, hb, hno, Bool.false_and]

end

theorem State.policePkt_pkt : (s.policePkt p i x wr).2.pkt = x.pkt := by
  unfold State.policePkt
  dsimp only
  split
  · rfl
  · split
    · rfl
    · split <;> rfl

end

/-! ## The checks -/

section
variable {s : State} {p h d c v : Nat} {k : Pkt} {wr : Bool}

theorem State.handleEntry_of_shown {o : Origin} {i e : Nat} (hs : s.handleShown o i e) : s.handleEntry o i = (s, .ok e) := by
  obtain ⟨l, hgot, hclean, rfl⟩ := hs
  obtain ⟨a, ha, hres⟩ := State.engAns_of_map hgot
  have hread : s.engRead o 0 ((s.handleBase + 16 * i) / 64) 33 0 .none (some 0) = (s, some (.ok l)) := by
    have ha' : s.engAns o ((s.handleBase + 16 * i) / 64) HKind.rdCur.isWrite fullBe = some a := ha
    rw [State.engRead, State.engAccess]
    simp only [newTx, ha', hres]
  rw [State.handleEntry, hread]
  simp only [hclean, bne_self_eq_false, Bool.false_eq_true, if_false]

theorem State.handleCheck_off (hh : h = k.target.toNat) (hoff : s.fB F.RYP_HANDLE_CTL_enable = false ∨ h % 65536 = 0) :
    s.handleCheck p k wr = (s, .err stDenied) := by
  rw [State.handleCheck]
  refine if_pos ?_
  rw [← hh]
  rcases hoff with e | e <;> simp [e]

/-- The checks of a handle whose entry has been read, in their order. -/
def State.entryChk (s : State) (h v d c : Nat) (k : Pkt) (wr : Bool) : Chk :=
  if !heValid v || heGen v != h / 65536 then .err stDenied
  else if s.sec.armed.contains d then .discard d
  else if s.domeSt d = .teardown then .err stTeardown
  else if !(c == d || (bit v 3 && s.member (bits v 16 8) c)) then .err stDenied
  else if !bit v (if wr then 2 else 1) then .err stDenied
  else if bits v 96 32 * 65536 < k.offset + k.length then .err stLength
  else .dpa (bits v 64 29 * 65536 + k.offset)

theorem State.handleCheck_of_shown (hh : h = k.target.toNat) (hen : s.fB F.RYP_HANDLE_CTL_enable = true) (hn : h % 65536 ≠ 0)
    (hs : s.handleShown (pktOrigin p k) (h % 65536) v) (hd : d = heDome v) (hc : c = domeOf k.ctx) :
    s.handleCheck p k wr = (s, s.entryChk h v d c k wr) := by
  have hgo : (!s.fB F.RYP_HANDLE_CTL_enable || decide (k.target.toNat % 65536 = 0)) = false := by simp [hen, ← hh, hn]
  rw [hh] at hs
  rw [State.handleCheck]
  simp only [hgo, Bool.false_eq_true, if_false, State.handleEntry_of_shown hs, State.entryChk, hh, hd, hc, apply_ite (Prod.mk s)]

section
variable (hv : heValid v = true) (hg : heGen v = h / 65536)

theorem State.entryChk_of_gone (h' : heValid v = false ∨ heGen v ≠ h / 65536) : s.entryChk h v d c k wr = .err stDenied := by
  rw [State.entryChk]
  refine if_pos ?_
  rcases h' with e | e <;> simp [e]

include hv hg

theorem State.entryChk_armed (ha : d ∈ s.sec.armed) : s.entryChk h v d c k wr = .discard d := by
  simp [State.entryChk, hv, hg, ha]

theorem State.entryChk_teardown (ha : d ∉ s.sec.armed) (ht : s.domeSt d = .teardown) :
    s.entryChk h v d c k wr = .err stTeardown := by
  simp [State.entryChk, hv, hg, ha, ht]

section
variable (ha : d ∉ s.sec.armed) (ht : s.domeSt d ≠ .teardown)
include ha ht

theorem State.entryChk_denied (hno : ¬ (c = d ∨ (bit v 3 = true ∧ s.member (bits v 16 8) c = true)) ∨
    bit v (if wr then 2 else 1) = false) : s.entryChk h v d c k wr = .err stDenied := by
  have hwho : ¬ (c = d ∨ (bit v 3 = true ∧ s.member (bits v 16 8) c = true)) ↔
      (!(c == d || (bit v 3 && s.member (bits v 16 8) c))) = true := by
    rw [Bool.not_eq_true', ← Bool.not_eq_true]
    simp
  rw [hwho] at hno
  simp only [State.entryChk, hv, hg, List.contains_iff_mem, ha, ht, bne_self_eq_false, Bool.not_true, Bool.or_self,
    Bool.false_eq_true, if_false]
  rcases hno with e | e
  · exact if_pos e
  · simp only [e, Bool.not_false, if_true, ite_self]

section
variable (hwho : c = d ∨ (bit v 3 = true ∧ s.member (bits v 16 8) c = true)) (hperm : bit v (if wr then 2 else 1) = true)
include hwho hperm

/-- An entry that lets the packet in leaves its length to be looked at. -/
theorem State.entryChk_allowed : s.entryChk h v d c k wr =
    if bits v 96 32 * 65536 < k.offset + k.length then .err stLength else .dpa (bits v 64 29 * 65536 + k.offset) := by
  have hin : (c == d || (bit v 3 && s.member (bits v 16 8) c)) = true := by simpa using hwho
  simp only [State.entryChk, hv, hg, List.contains_iff_mem, ha, ht, bne_self_eq_false, Bool.not_true, Bool.or_self,
    Bool.false_eq_true, if_false, hin, hperm]

end

end

end

section
variable {w : Nat} (hw : w = k.target.toNat % 64)
include hw

theorem State.winCheck_off (h : s.fB F.RYP_IWIN_CTL_enable 0 w = false) : s.winCheck p k wr = (s, .err stDenied) := by
  rw [State.winCheck]
  simp only [← hw, h, Bool.not_false, if_true]

variable (hd : d = s.fN F.RYP_IWIN_CTL_dome 0 w) (hen : s.fB F.RYP_IWIN_CTL_enable 0 w = true)
include hd hen

theorem State.winCheck_armed (ha : d ∈ s.sec.armed) : s.winCheck p k wr = (s, .discard d) := by
  rw [State.winCheck]
  simp only [← hw, hen, ← hd, List.contains_iff_mem, ha, Bool.not_true, Bool.false_eq_true, if_false, if_true]

variable (ha : d ∉ s.sec.armed)
include ha

theorem State.winCheck_teardown (ht : s.domeSt d = .teardown) : s.winCheck p k wr = (s, .err stTeardown) := by
  rw [State.winCheck]
  simp only [← hw, hen, ← hd, List.contains_iff_mem, ha, ht, Bool.not_true, Bool.false_eq_true, if_false, if_true]

variable (ht : s.domeSt d ≠ .teardown) {ok : Prop}
  (hok : ok = ((s.fN F.RYP_IWIN_CTL_src_node 0 w = k.src ∨ s.fB F.RYP_IWIN_CTL_any_src 0 w = true) ∧ domeOf k.ctx = d ∧
    s.fB (if wr then F.RYP_IWIN_CTL_w else F.RYP_IWIN_CTL_r) 0 w = true ∧
    k.offset + 64 ≤ s.fN F.RYP_IWIN_SIZE_cells 0 w * 65536))
include ht hok

theorem State.winCheck_dpa (h : ok) :
    s.winCheck p k wr = (s, .dpa (s.fN F.RYP_IWIN_BASE_base_cell 0 w * 65536 + k.offset)) := by
  rw [hok] at h
  rw [State.winCheck]
  simp only [← hw, hen, ← hd, List.contains_iff_mem, ha, ht, Bool.not_true, Bool.false_eq_true, if_false]
  refine if_pos ?_
  simpa [and_assoc] using h

theorem State.winCheck_denied (h : ¬ ok) : s.winCheck p k wr = (s, .err stDenied) := by
  rw [hok] at h
  rw [State.winCheck]
  simp only [← hw, hen, ← hd, List.contains_iff_mem, ha, ht, Bool.not_true, Bool.false_eq_true, if_false]
  refine if_neg fun hc => h ?_
  simpa [and_assoc] using hc

end

end

/-! ## Requests that passed their check -/

section
variable {s : State} {p i a : Nat} {x : InPkt} {o : Origin} {u : State} (ho : o = pktOrigin p x.pkt) (hu : u = s.dropAns o)

/-- The lines of a request have been read. -/
theorem State.inRead_of_fetched {n v m : Nat} (ho : o = pktOrigin p x.pkt) (h : s.Fetched o a n v m) {fuel : Nat}
    (hf : n = 0 ∨ n + a % 64 ≤ 64 * fuel) : State.inRead p x fuel s a n = (s, .ok v m) := by
  induction h generalizing fuel with
  | nil => cases fuel <;> rfl
  | @line a n j l v m hn hj hgot _ ih =>
    obtain ⟨fuel, rfl⟩ : ∃ g, fuel = g + 1 := ⟨fuel - 1, by omega⟩
    obtain ⟨b, hb, hres⟩ := State.engAns_of_map hgot
    have hread : s.engAccess (inTxRd p x (a / 64)) = (s, some (.ok l)) := by
      have hb' : s.engAns (pktOrigin p x.pkt) (a / 64) HKind.rdCur.isWrite fullBe = some b := by rw [← ho]; exact hb
      rw [State.engAccess]
      simp only [inTxRd, newTx, hb', hres]
    rw [State.inRead, if_neg hn]
    simp only [hread, ← hj, ih (fuel := fuel) (by omega)]

/-- A write of a request is answered. -/
theorem State.engAccess_of_wrote {line : Nat} {l w : Line} {be : BitVec 64} (ho : o = pktOrigin p x.pkt)
    (h : (s.engAns o line true be).map EngAns.res = some (.ok l)) :
    s.engAccess (inTxWr p x line w be) = (s, some (.ok l)) := by
  obtain ⟨b, hb, hres⟩ := State.engAns_of_map h
  have hb' : s.engAns (pktOrigin p x.pkt) line HKind.plainWr.isWrite be = some b := by rw [← ho]; exact hb
  rw [State.engAccess]
  simp only [inTxWr, newTx, hb', hres]

include ho hu

theorem State.rdLoop_step {off len v m fuel : Nat} (hx : (s.waitingPkts p)[i]? = some x) (hoff : off = x.pkt.offset + x.done)
    (hlen : len = min (x.pkt.length - x.done) (4096 - off % 4096)) (hd : x.done < x.pkt.length)
    (hf : s.Fetched o (a + x.done) len v m) : State.rdLoop p i a (fuel + 1) s =
      State.rdLoop p i a fuel ((u.sendData x off len v m false).putPkt p i { x with done := x.done + len }) := by
  have hread := State.inRead_of_fetched ho hf (fuel := 66) (by omega)
  have hpiece : s.rdPiece p i x a = ((u.sendData x off len v m false).putPkt p i { x with done := x.done + len }, true) := by
    rw [State.rdPiece]
    simp only [← hoff, ← hlen, hread, hu, ho]
  rw [State.rdLoop, hx]
  simp only [Nat.not_le.2 hd, if_false, hpiece]

theorem State.wrLoop_step {n fuel : Nat} (hx : (s.waitingPkts p)[i]? = some x)
    (hn : n = min (x.pkt.length - x.done) (64 - (a + x.done) % 64)) (hd : x.done < x.pkt.length)
    (hw : ∃ l, (s.engAns o ((a + x.done) / 64) true (rangeBe ((a + x.done) % 64) n)).map EngAns.res = some (.ok l)) :
    State.wrLoop p i a (fuel + 1) s = State.wrLoop p i a fuel (u.putPkt p i { x with done := x.done + n }) := by
  obtain ⟨l, hl⟩ := hw
  have hpiece : s.wrPiece p i x a = (u.putPkt p i { x with done := x.done + n }, true) := by
    rw [State.wrPiece]
    simp only [← hn, State.engAccess_of_wrote ho hl, hu, ho]
    split
    next hfail => rw [hfail]
    · rfl
  rw [State.wrLoop, hx]
  simp only [Nat.not_le.2 hd, if_false, hpiece]

theorem State.wRead_of {v m : Nat} (hf : s.Fetched o a 64 v m) :
    s.wRead p i x a = (u.sendData x x.pkt.offset 64 v m true).pktGone p i := by
  rw [State.wRead, State.inRead_of_fetched ho hf (fuel := 2) (by omega)]
  simp only [hu, ho]

theorem State.wWrite_of (hw : ∃ l, (s.engAns o (a / 64) true x.pkt.be).map EngAns.res = some (.ok l)) :
    s.wWrite p i x a = u.wrAnswer p i { x with fail := 0 } := by
  obtain ⟨l, hl⟩ := hw
  rw [State.wWrite, State.engAccess_of_wrote ho hl]
  simp only [hu, ho]

end

section
variable {s : State} {p i a fuel : Nat} {x : InPkt}

theorem State.loops_end (hx : (s.waitingPkts p)[i]? = some x) (h : x.pkt.length ≤ x.done) :
    State.rdLoop p i a (fuel + 1) s = s.pktGone p i ∧ State.wrLoop p i a (fuel + 1) s = s.wrAnswer p i x := by
  constructor
  · rw [State.rdLoop, hx]; simp only [h, if_true]
  · rw [State.wrLoop, hx]; simp only [h, if_true]

theorem State.wrAnswer_ok (h : x.fail = 0) : s.wrAnswer p i x = (s.originate (Pkt.bare x.pkt.src s.pwr.node kWrAck x.pkt.ctx
    x.pkt.msg x.pkt.offset x.pkt.length 0 0) (if x.gate = .demoted then 7 else 1)).pktGone p i := by
  rw [State.wrAnswer]
  exact if_neg (not_not_intro h)

theorem State.wrAnswer_failed (h : x.fail ≠ 0) : s.wrAnswer p i x = s.pktErr p i x x.fail := by
  rw [State.wrAnswer, if_pos h]

end

/-! ## Answers -/

section
variable {s : State} {p kind i : Nat} {x : InPkt} {m : Msg} {f : State → Nat → InPkt → Msg → State} (h : s.pktIs p kind i x)
include h

theorem State.answerPkt_armed (ha : domeOf x.pkt.ctx ∈ s.sec.armed) :
    s.answerPkt p kind f = (s.tdDiscard (domeOf x.pkt.ctx)).pktGone p i := by
  obtain ⟨hat, hx⟩ := h
  rw [State.answerPkt, hat]
  simp only [hx, List.contains_iff_mem, ha, if_true]

theorem State.answerPkt_late (ha : domeOf x.pkt.ctx ∉ s.sec.armed) (hm : SMap.find s.fab.msgs x.pkt.msg = none) :
    s.answerPkt p kind f = s.late p i := by
  obtain ⟨hat, hx⟩ := h
  rw [State.answerPkt, hat]
  simp only [hx, List.contains_iff_mem, ha, if_false, hm]

theorem State.answerPkt_of (hm : s.answers x m) : s.answerPkt p kind f = f s i x m := by
  obtain ⟨hat, hx⟩ := h
  obtain ⟨ha, hm⟩ := hm
  rw [State.answerPkt, hat]
  simp only [hx, List.contains_iff_mem, ha, if_false, hm]

end

section
variable {s : State} {p i : Nat} {x : InPkt} (h : s.pktIs p kErr i x)
include h

theorem State.staleErr_none (hno : x.pkt.status ≠ stStale ∨ s.fB F.RYP_FAB_STATUS_is_queen = false) : s.staleErr p = none := by
  obtain ⟨hat, hx⟩ := h
  rw [State.staleErr, hat]
  simp only [hx]
  refine if_neg ?_
  rcases hno with e | e <;> simp [e]

theorem State.errIn_stale (hst : x.pkt.status = stStale) (hq : s.fB F.RYP_FAB_STATUS_is_queen = true) : s.errIn p =
    ((s.fFlag F.RYP_FAB_STATUS_is_queen false).fFlag F.RYP_FAB_STATUS_queen_valid false).pktGone p i := by
  obtain ⟨hat, hx⟩ := h
  rw [State.errIn, State.staleErr, hat]
  simp only [hx, hst, hq, and_self, if_true]

/-- What an ERR does to its message. -/
def State.errOf (s : State) (p i : Nat) (x : InPkt) (m : Msg) : State :=
  match m.kind with
  | .wrd _ => s.owinAnswer p i x.pkt.msg none
  | .wwr _ => s.owinAnswer p i x.pkt.msg none
  | .mig k _ _ => ((s.endMsg x.pkt.msg).migLost k).pktGone p i
  | _ => (s.msgFail x.pkt.msg x.pkt.status).pktGone p i

theorem State.errIn_of {m : Msg} (hno : x.pkt.status ≠ stStale ∨ s.fB F.RYP_FAB_STATUS_is_queen = false) (hm : s.answers x m) :
    s.errIn p = s.errOf p i x m := by
  rw [State.errIn, State.staleErr_none h hno]
  exact State.answerPkt_of h hm

end

/-! ### The data of a GET -/

section
variable {s : State} {p i n : Nat} {x : InPkt} {m : Msg} {c : Cmd} {cmd : Nat}

theorem State.putBytes_done {pva j : Nat} {l : Line} (hc : s.cmd cmd = some c)
    (hw : s.beatWrote cmd c (moverOf n cmd) pva l (rangeBe (pva % 64) j)) (v mk : Nat) :
    ∃ line l', s.putBytes cmd (moverOf n cmd) pva j v mk = (s, .ok line l') := by
  obtain ⟨line, hline⟩ := State.acWrite_of_beatWrote
    (l' := ⟨BitVec.ofNat 512 (v % 2 ^ (8 * j) * 2 ^ (8 * (pva % 64))), markPoison (pva % 64) j mk⟩) hw
  exact ⟨line, _, by rw [State.putBytes, hc]; exact hline⟩

/-- Data of which no more than a line is left, and whose line is written: the first step places it, the others find none. -/
theorem State.placeData_last {pva d : Nat} {l : Line} (hc : s.cmd m.cmd = some c) (he : c.eng = .mover n)
    (hlt : x.done < x.pkt.length) (hpva : pva = c.p 2 + (x.pkt.offset - c.p 1) + x.done) (hd : d = x.pkt.length - x.done)
    (hle : d ≤ 64 - pva % 64) (hw : s.beatWrote m.cmd c (moverOf n m.cmd) pva l (rangeBe (pva % 64) d)) :
    s.placeData p i x m =
      ((s.unitEnd m.cmd (moverOf n m.cmd)).msgGot x.pkt.msg m x.pkt.offset x.pkt.length).pktGone p i := by
  have hrange : List.range 66 = 0 :: (List.range 65).map Nat.succ := List.range_succ_eq_map
  have hmin : min (x.pkt.length - x.done) (64 - pva % 64) = d := by omega
  have hsum : x.done + d = x.pkt.length := by omega
  obtain ⟨line, l', hput⟩ := State.putBytes_done hc hw (x.pkt.bytesAt x.done d)
    (bits ((List.range x.pkt.length).foldl (fun a j => if x.pkt.poison.getLsbD (j / 16) then a + 2 ^ j else a) 0) x.done d)
  rw [State.placeData, hc]
  simp only [he, hrange, List.foldl_cons, Option.isSome_none, Nat.not_le.2 hlt, decide_false, Bool.or_self, Bool.false_eq_true,
    if_false, ← hpva, hmin, hput, hsum]
  rw [List.foldl_fixed' (fun b => by simp)]

end

/-! ## The rows -/

section
variable {s : State} {p : Fin 13}

theorem exec_hRd : exec (.hRd p) s = run s fun s =>
    s.inbound p kHRd false State.handleCheck fun s i _ a => State.rdLoop p i a 20 s := rfl
theorem exec_hWr : exec (.hWr p) s = run s fun s =>
    s.inbound p kHWr true State.handleCheck fun s i _ a => State.wrLoop p i a 68 s := rfl
theorem exec_wRd : exec (.wRd p) s = run s fun s =>
    s.inbound p kWRd false State.winCheck fun s i x a => s.wRead p i x a := rfl
theorem exec_wWr : exec (.wWr p) s = run s fun s =>
    s.inbound p kWWr true State.winCheck fun s i x a => s.wWrite p i x a := rfl

/-- RD_DATA for the message it belongs to. -/
def State.dataOf (s : State) (p i : Nat) (x : InPkt) (m : Msg) : State :=
  match m.kind with
  | .get => s.placeData p i x m
  | .wrd _ => s.owinAnswer p i x.pkt.msg (some (x.pkt.lineAt 0 0 64))
  | _ => s.late p i

/-- WR_ACK for the message it belongs to. -/
def State.ackOf (s : State) (p i : Nat) (x : InPkt) (m : Msg) : State :=
  match m.kind with
  | .put => (s.msgGot x.pkt.msg m x.pkt.offset x.pkt.length).pktGone p i
  | .wwr _ => s.owinAnswer p i x.pkt.msg (some Line.zero)
  | .mig k line _ => ((s.endMsg x.pkt.msg).mirrored k line).pktGone p i
  | _ => s.late p i

/-- PONG for the message it belongs to. -/
def State.pongOf (s : State) (p i : Nat) (x : InPkt) (m : Msg) : State :=
  match m.kind with
  | .ping =>
    let s := (s.endMsg x.pkt.msg).pktGone p i
    s.stopCmd m.cmd stOK ((s.pwr.refTime - m.progress) / 3)
  | _ => s.late p i

theorem exec_rdData : exec (.rdData p) s = run s fun s => s.answerPkt p kRdData fun s i x m => s.dataOf p i x m := rfl
theorem exec_wrAck : exec (.wrAck p) s = run s fun s => s.answerPkt p kWrAck fun s i x m => s.ackOf p i x m := rfl
theorem exec_pong : exec (.pong p) s = run s fun s => s.answerPkt p kPong fun s i x m => s.pongOf p i x m := rfl
theorem exec_err : exec (.err p) s = run s fun s => s.errIn p := rfl
theorem exec_pingPacket : exec (.pingPacket p) s = run s fun s => s.pingIn p := rfl
theorem exec_msgTimeout {n : BitVec 16} : exec (.msgTimeout n) s = run s fun s => s.msgTimeout n.toNat := rfl
theorem exec_msgNumberReturn {n : BitVec 16} : exec (.msgNumberReturn n) s = run s fun s =>
    ({ s with fab := { s.fab with retired := SMap.del s.fab.retired n.toNat } } : State).retryWindow := rfl
theorem exec_owinTimeout {n : BitVec 16} : exec (.owinTimeout n) s = run s fun s => s.owinTimeout n.toNat := rfl

variable (hup : s.up = true)
include hup

section
variable {r : Instr} {kind i : Nat} {wr : Bool} {x : InPkt} {chk : State → Nat → Pkt → Bool → State × Chk}
  {serve : State → Nat → InPkt → Nat → State} (hr : exec r s = run s fun s => s.inbound p kind wr chk serve)
  (h : s.pktIs p kind i x)
include hr h

/-- A request at a port, from the fault state and the policer to what its check comes to. -/
theorem exec_inbound : (∀ a, x.base = some a → exec r s = .next ((serve s i x a).keep s)) ∧
    (x.base = none →
      (s.bel.active = true → exec r s = .next ((s.pktErr p i x stFault).keep s)) ∧
      (s.bel.active = false → ∀ (u : State) (y : InPkt) (o : Origin), (u, y) = s.policePkt p i x wr → o = pktOrigin p x.pkt →
        (y.gate = .held → exec r s = .next (u.keep s)) ∧
        (∀ t c, y.gate ≠ .held → chk u p y.pkt wr = (t, c) →
          (c = .wait → exec r s = .next (t.keep s)) ∧
          (∀ st, c = .err st → exec r s = .next (((t.dropAns o).pktErr p i y st).keep s)) ∧
          (∀ d, c = .discard d → exec r s = .next ((((t.dropAns o).tdDiscard d).pktGone p i).keep s)) ∧
          (∀ a, c = .dpa a → exec r s = .next ((serve ((t.dropAns o).putPkt p i { y with base := some a }) i
            { y with base := some a } a).keep s))))) := by
  rw [hr, run_up _ hup]
  refine ⟨fun a hb => ?_, fun hb => ⟨fun hf => ?_, fun hf u y o hpol ho => ⟨fun hg => ?_, fun t c hg hc => ?_⟩⟩⟩
  · rw [State.inbound_of_base h hb]
  · rw [State.inbound_of_fault h hb hf]
  · rw [State.inbound_of_held h hb hf hpol hg]
  · have hpkt : y.pkt = x.pkt := by
      have hsnd : y = (s.policePkt p i x wr).2 := by rw [← hpol]
      rw [hsnd, State.policePkt_pkt]
    rw [State.inbound_of_passed h hb hf hpol hg, hc, ho, ← hpkt]
    refine ⟨fun e => ?_, fun st e => ?_, fun d e => ?_, fun a e => ?_⟩ <;> subst e <;> rfl

theorem exec_of_base {a : Nat} (hb : x.base = some a) : exec r s = .next ((serve s i x a).keep s) :=
  (exec_inbound hup hr h).1 a hb

end

section
variable {r : Instr} {kind i : Nat} {x : InPkt} {f : State → Nat → InPkt → Msg → State}
  (hr : exec r s = run s fun s => s.answerPkt p kind f) (h : s.pktIs p kind i x)
include hr h

/-- An answer that no message takes. -/
theorem exec_untaken :
    (domeOf x.pkt.ctx ∈ s.sec.armed → exec r s = .next (((s.tdDiscard (domeOf x.pkt.ctx)).pktGone p i).keep s)) ∧
    (domeOf x.pkt.ctx ∉ s.sec.armed → SMap.find s.fab.msgs x.pkt.msg = none → exec r s = .next ((s.late p i).keep s)) := by
  rw [hr, run_up _ hup]
  exact ⟨fun ha => by rw [State.answerPkt_armed h ha], fun ha hm => by rw [State.answerPkt_late h ha hm]⟩

theorem exec_answer {m : Msg} (hm : s.answers x m) : exec r s = .next ((f s i x m).keep s) := by
  rw [hr, run_up _ hup, State.answerPkt_of h hm]

end

theorem exec_errOf {i : Nat} {x : InPkt} {m : Msg} (h : s.pktIs p kErr i x)
    (hno : x.pkt.status ≠ stStale ∨ s.fB F.RYP_FAB_STATUS_is_queen = false) (hm : s.answers x m) :
    exec (.err p) s = .next ((s.errOf p i x m).keep s) := by
  rw [exec_err, run_up _ hup, State.errIn_of h hno hm]

end

theorem State.pingIn_of {s : State} {p i : Nat} {x : InPkt} (h : s.pktIs p kPing i x) :
    s.pingIn p = (s.originate (Pkt.bare x.pkt.src s.pwr.node kPong x.pkt.ctx x.pkt.msg 0 0 0 0) 6).pktGone p i := by
  obtain ⟨hat, hx⟩ := h
  rw [State.pingIn, hat]
  simp only [hx]

/-! ## Settlement -/

/-- Settles O48: requests by policer, check and service, answers by the kind of their message, and the two timeouts. -/
theorem fabricPackets : Obligations.FabricPackets := by
  unfold Obligations.FabricPackets
  refine ⟨fun s p hup => ⟨?_, ?_, ?_, ?_, ?_⟩, fun s p hup => ⟨?_, ?_, ?_, ?_, ?_, ?_, ?_⟩⟩
  · simp only [List.forall_mem_cons, List.not_mem_nil, false_imp_iff, implies_true, and_true]
    exact ⟨fun i x h => exec_inbound hup exec_hRd h, fun i x h => exec_inbound hup exec_hWr h,
      fun i x h => exec_inbound hup exec_wRd h, fun i x h => exec_inbound hup exec_wWr h⟩
  · intro x i wr k hk
    have hval : ∀ {q : Prop}, (p ≠ 12 → q) ↔ (p.val ≠ 12 → q) := by intro q; rw [Ne, Fin.ext_iff]; rfl
    refine ⟨fun h => State.policePkt_of_passed (h.imp (fun e => by rw [e]; rfl) id), ?_, ?_⟩
    · rw [hval]; exact fun hp hg hb => State.policePkt_passes hk hp hg hb
    · rw [hval]; exact fun hp hg hb ha => State.policePkt_demotes hk hp hg hb ha
  · intro k wr h hh
    refine ⟨State.handleCheck_off hh, fun v d c hen hn hs hd hc => ?_⟩
    rw [State.handleCheck_of_shown hh hen hn hs hd hc]
    refine ⟨fun hno => by rw [State.entryChk_of_gone hno], fun hv hg => ⟨fun ha => by rw [State.entryChk_armed hv hg ha],
      fun ha ht => by rw [State.entryChk_teardown hv hg ha ht], fun ha ht => ⟨fun hno => by
        rw [State.entryChk_denied hv hg ha ht hno], fun hwho hperm => ?_⟩⟩⟩
    rw [State.entryChk_allowed hv hg ha ht hwho hperm]
    exact ⟨fun hlen => by rw [if_pos hlen], fun hlen => by rw [if_neg (Nat.not_lt.2 hlen)]⟩
  · intro k wr w d hw hd
    exact ⟨State.winCheck_off hw, fun hen => ⟨State.winCheck_armed hw hd hen, State.winCheck_teardown hw hd hen,
      fun ha ht ok hok => ⟨State.winCheck_dpa hw hd hen ha ht hok, State.winCheck_denied hw hd hen ha ht hok⟩⟩⟩
  · intro i a x o u hb ho hu
    refine ⟨fun h off len v m hoff hlen hd hf => ?_, fun h n hn hd hw => ?_, fun h v m hf => ?_, fun h hw => ?_,
      fun fuel hx h => State.loops_end hx h, State.wrAnswer_ok, State.wrAnswer_failed⟩
    · rw [exec_of_base hup exec_hRd h hb, State.rdLoop_step ho hu h.2 hoff hlen hd hf]
    · rw [exec_of_base hup exec_hWr h hb, State.wrLoop_step ho hu h.2 hn hd hw]
    · rw [exec_of_base hup exec_wRd h hb, State.wRead_of ho hu hf]
    · rw [exec_of_base hup exec_wWr h hb, State.wWrite_of ho hu hw]
  · simp only [List.forall_mem_cons, List.not_mem_nil, false_imp_iff, implies_true, and_true]
    exact ⟨fun i x h => exec_untaken hup exec_rdData h, fun i x h => exec_untaken hup exec_wrAck h,
      fun i x h => exec_untaken hup exec_pong h⟩
  · intro i x m n w u hm hn hu
    subst hn hu
    refine ⟨fun h => ?_, fun h => ?_, fun h hk => ?_, fun h hno => ?_⟩
    · rw [exec_answer hup exec_rdData h hm, State.dataOf]
      refine ⟨fun hk => by rw [hk], fun c mv pva d l hk hc he hlt hpva hd hle hw => ?_, fun hk => by rw [hk]⟩
      rw [hk]
      simp only [State.placeData_last hc he hlt hpva hd hle hw]
    · rw [exec_answer hup exec_wrAck h hm, State.ackOf]
      exact ⟨fun hk => by rw [hk], fun hk => by rw [hk], fun k line tx hk => by rw [hk]⟩
    · rw [exec_answer hup exec_pong h hm, State.pongOf, hk]
    · rw [exec_errOf hup h hno hm, State.errOf]
      refine ⟨fun hk => ?_, fun hk => ?_, fun k line tx hk => by rw [hk]⟩
      · rcases hk with hk | hk | hk <;> rw [hk]
      · rcases hk with hk | hk <;> rw [hk]
  · intro i x h hst hq
    rw [exec_err, run_up _ hup, State.errIn_stale h hst hq]
  · intro i x h
    rw [exec_pingPacket, run_up _ hup, State.pingIn_of h]
  · intro n m hm
    rw [exec_msgTimeout, run_up _ hup, State.msgTimeout, hm]
    refine ⟨fun hk => ?_, fun hk => by simp only [hk], fun k line tx hk => by simp only [hk]⟩
    rcases hk with hk | hk <;> simp only [hk]
  · intro n
    rw [exec_msgNumberReturn, run_up _ hup]
  · intro n r hr
    rw [exec_owinTimeout, run_up _ hup, State.owinTimeout, hr]

end Sys2Proof.Machine
end

section
/-!
PROOFS. The mailbox commands of the CXL functions (R250 - R253).
-/
namespace Sys2Proof.Machine

section
variable {s : State} {p l : Nat} {f : Func} {named : Bool} {go : State → State}

theorem State.onMbx_none (h : s.hasFunc p l f = false) : s.onMbx p l f named go = s := by
  rw [State.onMbx, h]
  exact if_pos rfl

theorem State.onMbx_named (h : s.hasFunc p l f = true) (hn : named = true) : s.onMbx p l f named go = go s := by
  rw [State.onMbx, h, hn]
  rfl

theorem State.onMbx_unnamed (h : s.hasFunc p l f = true) (hn : named = false) :
    s.onMbx p l f named go = s.mbx p l rcUnsupported [] := by
  rw [State.onMbx, h, hn]
  rfl

variable {i : Instr}

theorem exec_onMbx_none (hup : s.up = true) (hx : exec i s = run s fun s => s.onMbx p l f named go) (h : s.hasFunc p l f = false) :
    exec i s = .next s := by
  rw [hx, run_up _ hup, State.onMbx_none h, State.keep_self]

variable (hup : s.up = true) (h : s.hasFunc p l f = true) (hx : exec i s = run s fun s => s.onMbx p l f named go)
include hup h hx

/-- A command of the function's mailbox that R250 names. -/
theorem exec_onMbx (hn : named = true) : exec i s = .next ((go s).keep s) := by
  rw [hx, run_up _ hup, State.onMbx_named h hn]

/-- A command of the function's mailbox that R250 does not name. -/
theorem exec_onMbx_unnamed (hn : named = false) : exec i s = .next ((s.mbx p l rcUnsupported []).keep s) := by
  rw [hx, run_up _ hup, State.onMbx_unnamed h hn]

end

section
variable {s : State} {p l : Nat} {x : EventLog} {hs : List Nat} {as : List Nat}

theorem EventLog.knows (h : ∀ h ∈ hs, ∃ r ∈ x.recs, r.handle = h) :
    (hs.any fun h => !x.recs.any fun r => r.handle == h) = false := by
  simpa using h

theorem EventLog.misses {n : Nat} (hn : n ∈ hs) (h : ∀ r ∈ x.recs, r.handle ≠ n) :
    (hs.any fun h => !x.recs.any fun r => r.handle == h) = true :=
  List.any_eq_true.2 ⟨n, hn, by simpa using h⟩

theorem State.poisonWrite_high {line : Nat} {d : BitVec 512} {b : Bool} (h : s.memTop ≤ line * 64) :
    s.poisonWrite p l line d b = s.mbx p l rcInput [] := if_pos h

theorem State.poisonWrite_low {line : Nat} {d : BitVec 512} {b : Bool} (h : line * 64 < s.memTop) : s.poisonWrite p l line d b =
    (s.deviceWrite line ⟨if b then 0 else d, if b then 0xFFFF else 0⟩ 33 b).mbx p l rcOK [] := if_neg (Nat.not_le.2 h)

end

/-- Settles O44: one mailbox rule for a function that stands and one for a function that does not. -/
theorem mailboxReplies : Obligations.MailboxReplies := by
  unfold Obligations.MailboxReplies
  intro s p l f hup
  refine ⟨fun h => ⟨exec_onMbx_none hup rfl h, exec_onMbx_none hup rfl h⟩, fun h ans hans => ?_⟩
  subst hans
  beta_reduce
  refine ⟨?_, ?_, ?_, ?_, ?_, exec_onMbx_unnamed hup h rfl rfl, ?_, ⟨_, s.draw.1, rfl, ?_⟩, fun hfm => ?_, fun hfm => ?_⟩
  · exact exec_onMbx (i := .identify p l f) hup h rfl rfl
  · exact exec_onMbx (i := .identifyMemoryDevice p l f) hup h rfl rfl
  · exact exec_onMbx (i := .getHealthInfo p l f) hup h rfl rfl
  · exact exec_onMbx (i := .getSupportedLogs p l f) hup h rfl rfl
  · exact exec_onMbx (i := .getLog p l f false) hup h rfl rfl
  · exact exec_onMbx (i := .getFwInfo p l f) hup h rfl rfl
  · rw [exec_onMbx hup h (i := .getLog p l f true) rfl rfl]
    rfl
  · have hld : s.fmLd p f = false := by rw [State.fmLd, hfm]; rfl
    refine ⟨fun g => ?_, exec_onMbx_unnamed hup h rfl hfm, exec_onMbx_unnamed hup h rfl hld,
      fun x n => ⟨exec_onMbx_unnamed hup h rfl hfm, exec_onMbx_unnamed hup h rfl hfm⟩,
      fun x => exec_onMbx_unnamed hup h rfl hfm⟩
    rw [exec_onMbx hup h (i := .getEventRecords p l f g) rfl rfl, hfm]
    simp only [Bool.false_eq_true, if_false]
  · refine ⟨fun g => ?_, fun g hs hknown => ?_, fun g hs n hn hmiss => ?_,
      exec_onMbx (i := .getEventInterruptPolicy p l f) hup h rfl hfm,
      fun v => exec_onMbx (i := .setEventInterruptPolicy p l f v) hup h rfl hfm, fun x n => exec_onMbx (i := .getPoisonList p l f x n) hup h rfl hfm, fun x d hhigh => ⟨?_, ?_⟩,
      fun x d hlow => ⟨?_, ?_⟩, fun hmode => ?_, fun x => ⟨fun hb => ?_, fun hb => ?_⟩, fun n => ⟨fun hn => ?_, fun hn => ?_⟩,
      fun n k => ⟨fun hl => ?_, fun hl => ?_⟩⟩
    · rw [exec_onMbx hup h (i := .getEventRecords p l f g) rfl rfl]
      simp only [hfm, if_true]
    · rw [exec_onMbx hup h (i := .clearEventRecords p l f g false hs) rfl rfl]
      simp only [hfm, Bool.not_true, Bool.false_eq_true, if_false, Bool.not_false, Bool.true_and, EventLog.knows hknown]
    · rw [exec_onMbx hup h (i := .clearEventRecords p l f g false hs) rfl rfl]
      simp only [hfm, Bool.not_true, Bool.false_eq_true, if_false, Bool.not_false, Bool.true_and, EventLog.misses hn hmiss, if_true]
    · rw [exec_onMbx hup h (i := .injectPoison p l f x) rfl hfm, State.poisonWrite_high hhigh]
    · rw [exec_onMbx hup h (i := .clearPoison p l f x d) rfl hfm, State.poisonWrite_high hhigh]
    · rw [exec_onMbx hup h (i := .injectPoison p l f x) rfl hfm, State.poisonWrite_low hlow]
      rfl
    · rw [exec_onMbx hup h (i := .clearPoison p l f x d) rfl hfm, State.poisonWrite_low hlow]
      rfl
    · have hld : s.fmLd p f = true := by simp [State.fmLd, hfm, hmode]
      refine ⟨exec_onMbx (i := .getLdInfo p l f) hup h rfl hld, exec_onMbx (i := .getLdAllocations p l f) hup h rfl hld, fun as => ⟨fun hz => ?_, fun hnz => ?_⟩⟩
      · rw [exec_onMbx hup h (i := .setLdAllocations p l f as) rfl hld, if_pos (by simpa using hz)]
      · rw [exec_onMbx hup h (i := .setLdAllocations p l f as) rfl hld, if_neg (by simpa using hnz)]
    · rw [exec_onMbx hup h (i := .zmCmdPacket p l f x) rfl hfm, if_pos hb]
    · rw [exec_onMbx hup h (i := .zmCmdPacket p l f x) rfl hfm, if_neg (by simp [hb])]
    · rw [exec_onMbx hup h (i := .zmPortCounters p l f n) rfl hfm, if_pos hn]
    · rw [exec_onMbx hup h (i := .zmPortCounters p l f n) rfl hfm, if_neg (Nat.not_le.2 hn)]
    · rw [exec_onMbx hup h (i := .zmLinkRetrain p l f n k) rfl hfm, if_pos hl]
    · rw [exec_onMbx hup h (i := .zmLinkRetrain p l f n k) rfl hfm, if_neg (by simp [hl])]

end Sys2Proof.Machine
end

section
/-!
PROOFS. Comb translation as firmware works it: records, fills, timeouts, invalidations (R176, R181 - R185).
-/
namespace Sys2Proof.Machine

theorem exec_combEnable {s : State} {v : Word} : exec (.combEnable v) s = run s fun s => s.combCtlWrite (v ||| 1) := rfl
theorem exec_combRecordTake {s : State} {n : Fin 8} : exec (.combRecordTake n) s =
    run s fun s => (s.recTake n).1.emit (.csr (R.COMB_FW_REC0.addr 0 n) (s.recTake n).2) := rfl
theorem exec_combFillCommit {s : State} {n : Fin 8} {v : Word} : exec (.combFillCommit n v) s =
    run s fun s => s.fill2Write n (v ||| 0x80000000) := rfl
theorem exec_combMissTimeout {s : State} {k : Fin 1024} : exec (.combMissTimeout k) s = run s fun s => s.missTimeout k := rfl
theorem exec_combInvGo {s : State} {v : Word} : exec (.combInvGo v) s = run s fun s => s.invCmdWrite (v ||| 1) := rfl

/-! ## COMB_CTL -/

section
variable {s t : State} {v : Word} (ht : t = s.wrCodes R.COMB_CTL (v ||| 1#32))
include ht

theorem State.combCtlWrite_keeps (h : s.fB F.COMB_CTL_enable = true ∨ ∀ j < 8, t.dome0Cell (t.rootDir + j * 65536) = true) :
    s.combCtlWrite (v ||| 1) = t := by
  have hon : F.COMB_CTL_enable.on (v ||| 1#32) = true := Fld.on_or_of_set _ _ _ (by decide)
  have hall : (∀ j < 8, t.dome0Cell (t.rootDir + j * 65536) = true) ↔
      ((List.range 8).all fun k => t.dome0Cell (t.rootDir + k * 65536)) = true := by simp
  rw [State.combCtlWrite]
  simp only [BitVec.ofNat_eq_ofNat, ← ht, hon, Bool.not_true, Bool.or_false]
  rcases h with h | h
  · exact if_pos h
  · rw [if_pos (hall.1 h), ite_self]

theorem State.combCtlWrite_refused (h : s.fB F.COMB_CTL_enable = false)
    (hno : ¬ ∀ j < 8, t.dome0Cell (t.rootDir + j * 65536) = true) :
    s.combCtlWrite (v ||| 1) = (t.fFlag F.COMB_CTL_enable false).fFlag F.COMB_STATUS_refused true := by
  have hon : F.COMB_CTL_enable.on (v ||| 1#32) = true := Fld.on_or_of_set _ _ _ (by decide)
  have hall : ¬ ((List.range 8).all fun k => t.dome0Cell (t.rootDir + k * 65536)) = true := by simpa using hno
  rw [State.combCtlWrite]
  simp only [BitVec.ofNat_eq_ofNat, ← ht, hon, h, Bool.not_true, Bool.or_false, Bool.false_eq_true, if_false]
  exact if_neg hall

end

/-! ## Records -/

/-- The older of two records. -/
def olderMiss (acc : Option (Nat × Miss)) (e : Nat × Miss) : Option (Nat × Miss) :=
  match acc with
  | none => some e
  | some b => if e.2.order < b.2.order then some e else some b

section
variable {s : State} {e : Nat × Miss} {l : List (Nat × Miss)}

theorem olderMiss_oldest (h : ∀ x ∈ l, x ≠ e → e.2.order < x.2.order) : l.foldl olderMiss (some e) = some e := by
  induction l with
  | nil => rfl
  | cons y r ih =>
    have hone : olderMiss (some e) y = some e := by
      by_cases hy : y = e
      · rw [hy]; exact ite_self _
      · exact if_neg (not_lt_of_gt (h y List.mem_cons_self hy))
    rw [List.foldl_cons, hone]
    exact ih fun x hx => h x (List.mem_cons_of_mem _ hx)

theorem foldl_olderMiss {acc : Option (Nat × Miss)} (he : e ∈ l) (h : ∀ x ∈ l, x ≠ e → e.2.order < x.2.order)
    (hacc : ∀ b, acc = some b → b ≠ e → e.2.order < b.2.order) : l.foldl olderMiss acc = some e := by
  induction l generalizing acc with
  | nil => exact absurd he List.not_mem_nil
  | cons y r ih =>
    rw [List.foldl_cons]
    have hr : ∀ x ∈ r, x ≠ e → e.2.order < x.2.order := fun x hx => h x (List.mem_cons_of_mem _ hx)
    by_cases hy : y = e
    · have hone : olderMiss acc y = some e := by
        rcases acc with - | b
        · rw [hy]; rfl
        · by_cases hb : b = e
          · rw [hy, hb]; exact ite_self _
          · rw [hy]; exact if_pos (hacc b rfl hb)
      rw [hone, olderMiss_oldest hr]
    · refine ih ((List.mem_cons.1 he).resolve_left fun hc => hy hc.symm) hr fun b hb hne => ?_
      rcases acc with - | a
      · rw [← Option.some.inj hb]; exact h y List.mem_cons_self hy
      · rw [olderMiss] at hb
        split at hb
        · rw [← Option.some.inj hb]; exact h y List.mem_cons_self hy
        · rw [← Option.some.inj hb] at hne ⊢; exact hacc a rfl hne

theorem State.nextMiss_eq : s.nextMiss = (s.comb.miss.filter fun e => !e.2.taken).foldl olderMiss none := rfl

theorem State.nextMiss_none (h : ∀ e ∈ s.comb.miss, e.2.taken = true) : s.nextMiss = none := by
  have hnil : (s.comb.miss.filter fun e => !e.2.taken) = [] := List.filter_eq_nil_iff.2 fun e he => by simp [h e he]
  rw [State.nextMiss_eq, hnil]
  rfl

theorem State.nextMiss_of (he : e ∈ s.comb.miss) (ht : e.2.taken = false)
    (h : ∀ x ∈ s.comb.miss, x.2.taken = false → x ≠ e → e.2.order < x.2.order) : s.nextMiss = some e := by
  rw [State.nextMiss_eq]
  refine foldl_olderMiss (List.mem_filter.2 ⟨he, by simp [ht]⟩) (fun x hx hne => ?_) fun b hb => absurd hb (by simp)
  obtain ⟨hx, hxt⟩ := List.mem_filter.1 hx
  exact h x hx (by simpa using hxt) hne

end

/-! ## Fills -/

section
variable {s t : State} {n : Fin 8} {v : Word} {k o sz d : Nat} {m : Miss}
  (ht : t = s.wrCodes R.COMB_FW_FILL2 (v ||| 0x80000000#32) 0 n) (hk : k = t.fN F.COMB_FW_FILL0_miss_id 0 n)
  (ho : o = t.fN F.COMB_FW_FILL0_outcome 0 n) (hsz : sz = t.fN F.COMB_FW_FILL1_size 0 n)
  (hd : d = t.fN F.COMB_FW_FILL1_dpa 0 n)
include ht hk

theorem State.fill2Write_gone (hm : SMap.find t.comb.miss k = none) :
    s.fill2Write n (v ||| 0x80000000) = t.bump F.COMB_EVT_CNT_stale_fills := by
  have hon : F.COMB_FW_FILL2_commit.on (v ||| 0x80000000#32) = true := Fld.on_or_of_set _ _ _ (by decide)
  rw [State.fill2Write]
  simp only [BitVec.ofNat_eq_ofNat, ← ht, hon, Bool.not_true, Bool.false_eq_true, if_false, ← hk, hm]

variable (hm : SMap.find t.comb.miss k = some m)
include ho hsz hd hm

theorem State.fill2Write_bad (h : 4 ≤ o ∨ (o = 0 ∧ (sz = 3 ∨ d % 2 ^ (9 * sz) ≠ 0))) :
    s.fill2Write n (v ||| 0x80000000) = t.bump F.COMB_EVT_CNT_stale_fills := by
  have hon : F.COMB_FW_FILL2_commit.on (v ||| 0x80000000#32) = true := Fld.on_or_of_set _ _ _ (by decide)
  rw [State.fill2Write]
  simp only [BitVec.ofNat_eq_ofNat, ← ht, hon, Bool.not_true, Bool.false_eq_true, if_false, ← hk, hm, ← ho, ← hsz, ← hd]
  exact if_pos (by simpa using h)

variable (h4 : o < 4) (hok : ¬ (o = 0 ∧ (sz = 3 ∨ d % 2 ^ (9 * sz) ≠ 0)))
include h4 hok

/-- A committed fill of a live record, its outcome and its leaf in order. -/
theorem State.fill2Write_good : s.fill2Write n (v ||| 0x80000000) =
    if m.stale then t.missAgain k m
    else if o = 0 then
      (((m.waiters.filterMap fun c => (SMap.find t.q.cmds c).map fun x => x.eng.num) ++
        (if m.prefetch then [m.engine] else [])).eraseDups.foldl
          (fun w e => if (w.atcFind e m.ctx m.page).isSome then w else w.atcFill e
            ⟨m.ctx, m.page / 2 ^ (9 * sz) * 2 ^ (9 * sz), 16 + 9 * sz, d * 65536, t.fB F.COMB_FW_FILL2_r 0 n,
              t.fB F.COMB_FW_FILL2_w 0 n⟩)
          (State.stcFill { t with comb := { t.comb with miss := SMap.del t.comb.miss k } }
            ⟨m.ctx, m.page / 2 ^ (9 * sz) * 2 ^ (9 * sz), 16 + 9 * sz, d * 65536, t.fB F.COMB_FW_FILL2_r 0 n,
              t.fB F.COMB_FW_FILL2_w 0 n⟩))
    else if m.prefetch && m.waiters.isEmpty then { t with comb := { t.comb with miss := SMap.del t.comb.miss k } }
    else (if o = 2 then t.raise 9 m.ctx (domeOf m.ctx) (some m.page)
      else if o = 3 then t.raise 3 m.ctx (domeOf m.ctx) none else t).missEnd k m o := by
  have hon : F.COMB_FW_FILL2_commit.on (v ||| 0x80000000#32) = true := Fld.on_or_of_set _ _ _ (by decide)
  have hbad : (decide (4 ≤ o) || (o == 0 && (sz == 3 || d % 2 ^ (9 * sz) != 0))) = false := by
    rw [← Bool.not_eq_true]
    simpa [Nat.not_le.2 h4] using hok
  rw [State.fill2Write]
  simp only [BitVec.ofNat_eq_ofNat, ← ht, hon, Bool.not_true, Bool.false_eq_true, if_false, ← hk, hm, ← ho, ← hsz, ← hd, hbad,
    Nat.add_sub_cancel_left]

end

/-! ## Timeouts -/

section
variable {s : State} {k : Nat} {m : Miss} (hm : SMap.find s.comb.miss k = some m) (hn : s.fN F.COMB_CTL_miss_timeout ≠ 0)
include hm hn

theorem State.missTimeout_of (hp : m.prefetch = false) : s.missTimeout k =
    ((s.bump F.COMB_EVT_CNT_timeouts).raise 10 m.ctx (domeOf m.ctx) (some m.page)).missEnd k m 8 := by
  rw [State.missTimeout, hm]
  simp only [hn, if_false, hp, Bool.false_and, Bool.false_eq_true]

theorem State.missTimeout_prefetch (hp : m.prefetch = true) (hw : m.waiters = []) :
    s.missTimeout k = { s with comb := { s.comb with miss := SMap.del s.comb.miss k } } := by
  rw [State.missTimeout, hm]
  simp only [hn, if_false, hp, hw, List.isEmpty_nil, Bool.and_self, if_true]

end

/-! ## Invalidations -/

section
variable {s t : State} {v : Word} {a b p : Nat} (ht : t = s.wrCodes R.COMB_INV_CMD (v ||| 1#32))
  (ha : a = t.fN F.COMB_INV_CTX_scope)
  (hb : b = t.fN F.COMB_INV_START_HI_vpn_hi * 2 ^ 32 + t.fN F.COMB_INV_START_LO_vpn_lo)
  (hp : p = t.fN F.COMB_INV_PAGES_HI_pages_hi * 2 ^ 32 + t.fN F.COMB_INV_PAGES_LO_pages_lo)
include ht ha hb hp

theorem State.invCmdWrite_refused (h : t.comb.inval ≠ none ∨ a = 3 ∨ (a = 0 ∧ 2 ^ 36 < b + p)) :
    s.invCmdWrite (v ||| 1) = t.fFlag F.COMB_INV_CMD_refused true := by
  have hon : F.COMB_INV_CMD_go.on (v ||| 1#32) = true := Fld.on_or_of_set _ _ _ (by decide)
  rw [State.invCmdWrite]
  simp only [BitVec.ofNat_eq_ofNat, ← ht, hon, Bool.not_true, Bool.false_eq_true, if_false, ← ha, ← hb, ← hp]
  refine if_pos ?_
  simpa [or_assoc, Option.isSome_iff_ne_none] using h

theorem State.invCmdWrite_starts (hi : t.comb.inval = none) (h3 : a ≠ 3) (h0 : a = 0 → 0 < p ∧ b + p ≤ 2 ^ 36) :
    s.invCmdWrite (v ||| 1) = t.startInval a (BitVec.ofNat 16 (t.fN F.COMB_INV_CTX_ctx)) b p none := by
  have hon : F.COMB_INV_CMD_go.on (v ||| 1#32) = true := Fld.on_or_of_set _ _ _ (by decide)
  have hfar : ¬ (a = 0 ∧ 2 ^ 36 < b + p) := fun ⟨e, hlt⟩ => absurd (h0 e).2 (Nat.not_le.2 hlt)
  have hnone : ¬ (a = 0 ∧ p = 0) := fun ⟨e, hz⟩ => absurd (h0 e).1 (by omega)
  rw [State.invCmdWrite]
  simp only [BitVec.ofNat_eq_ofNat, ← ht, hon, Bool.not_true, Bool.false_eq_true, if_false, ← ha, ← hb, ← hp]
  rw [if_neg (by simpa [hi, h3] using hfar), if_neg hnone]

end

section
variable {s : State} {a b p : Nat} {x : Ctx} {k : Option Nat}

theorem Inval.covers_same {v : Inval} {y : Ctx} (h : y = v.ctx) : v.covers y = true := by
  rw [Inval.covers, h]
  split <;> exact beq_self_eq_true _

theorem Inval.hits_of {v : Inval} {l : Leaf} (h : l.ctx = v.ctx)
    (hr : v.scope = 0 → l.page < v.start + v.pages ∧ v.start < l.page + 2 ^ (l.shift - 16)) : v.hits l = true := by
  rw [Inval.hits, Inval.covers_same h, Bool.true_and]
  by_cases hz : v.scope = 0
  · obtain ⟨hlo, hhi⟩ := hr hz
    simp [hlo, hhi]
  · simp [hz]

/-- The invalidation that `startInval` takes. -/
def State.newInval (s : State) (a : Nat) (x : Ctx) (b p : Nat) (k : Option Nat) : Inval :=
  ⟨a, x, b, p, (s.fN F.COMB_GEN_gen + 1) % 65536, k⟩

theorem State.startInval_leaves {e : Nat × Leaf} (he : e ∈ (s.startInval a x b p k).comb.atc ++ (s.startInval a x b p k).comb.stc) :
    (s.newInval a x b p k).hits e.2 = false := by
  have hkeep : ∀ m : SMap Leaf, e ∈ m.filter (fun e => !(s.newInval a x b p k).hits e.2) → (s.newInval a x b p k).hits e.2 = false :=
    fun m hm => by simpa using (List.mem_filter.1 hm).2
  exact (List.mem_append.1 he).elim (hkeep _) (hkeep _)

theorem State.startInval_misses {e : Nat × Miss} (he : e ∈ (s.startInval a x b p k).comb.miss) (hx : e.2.ctx = x) :
    e.2.stale = true := by
  obtain ⟨y, -, rfl⟩ := List.mem_map.1 he
  dsimp only at hx ⊢
  split
  · rfl
  next hno =>
    rw [if_neg hno] at hx
    exact absurd (Inval.covers_same hx) hno

theorem State.startInval_busy : (s.startInval a x b p k).fB F.COMB_INV_CMD_busy = true := by
  have hcsr : (s.startInval a x b p k).csr =
      ((s.fSet F.COMB_GEN_gen ((s.fN F.COMB_GEN_gen + 1) % 65536)).fFlag F.COMB_INV_CMD_busy true).csr := by
    simp only [State.startInval]
  rw [State.fB, State.fN, State.rd, hcsr, ← State.rd, ← State.fN, ← State.fB]
  exact State.fB_fFlag _ _ _ _ _ rfl

end

/-- Settles O43: COMB_CTL, records, fills and timeouts by their cases; an invalidation leaves no leaf it covers. -/
theorem combService : Obligations.CombService := by
  unfold Obligations.CombService
  intro s hup
  refine ⟨fun v t ht => ⟨fun h => ?_, fun h hno => ?_⟩, fun n => ⟨fun h => ?_, fun e he het hmin => ?_⟩,
    fun n v t k o sz d m ht hk ho hsz hd => ?_, fun k m hm hn => ⟨fun hp => ?_, fun hp hw => ?_⟩,
    fun v t a b p ht ha hb hp => ⟨fun h => ?_, fun hi h3 h0 => ?_⟩, fun a b p x k t ht => ?_⟩
  · rw [exec_combEnable, run_up _ hup, State.combCtlWrite_keeps ht h]
  · rw [exec_combEnable, run_up _ hup, State.combCtlWrite_refused ht h hno]
  · rw [exec_combRecordTake, run_up _ hup, State.recTake, State.nextMiss_none h]
  · exact ⟨_, _, by rw [exec_combRecordTake, run_up _ hup, State.recTake, State.nextMiss_of he het hmin], rfl, rfl, rfl⟩
  · refine ⟨fun hm => ?_, fun hm h => ?_, fun hm h4 hok => ?_⟩
    · rw [exec_combFillCommit, run_up _ hup, State.fill2Write_gone ht hk hm]
    · rw [exec_combFillCommit, run_up _ hup, State.fill2Write_bad ht hk ho hsz hd hm h]
    · rw [exec_combFillCommit, run_up _ hup, State.fill2Write_good ht hk ho hsz hd hm h4 hok]
      refine ⟨fun hst => ?_, fun hst h0 l es hl hes => ?_, fun hst h1 hp => ?_, fun hst h2 hp => ?_, fun hst h3 hp => ?_⟩
      · rw [if_pos hst]
      · rw [hl, hes, if_neg (by simp [hst]), if_pos h0]
      · simp only [hst, h1, hp, Bool.false_and, Bool.false_eq_true, if_false, Nat.one_ne_zero, Nat.reduceEqDiff]
      · simp only [hst, h2, hp, Bool.false_and, Bool.false_eq_true, if_false, if_true, Nat.reduceEqDiff]
      · simp only [hst, h3, hp, Bool.false_and, Bool.false_eq_true, if_false, if_true, Nat.reduceEqDiff]
  · rw [exec_combMissTimeout, run_up _ hup, State.missTimeout_of hm hn hp]
  · rw [exec_combMissTimeout, run_up _ hup, State.missTimeout_prefetch hm hn hp hw]
  · rw [exec_combInvGo, run_up _ hup, State.invCmdWrite_refused ht ha hb hp h]
  · rw [exec_combInvGo, run_up _ hup, State.invCmdWrite_starts ht ha hb hp hi h3 h0]
  · subst ht
    refine ⟨fun e he hx hr => ?_, fun e he hx => State.startInval_misses he hx, State.startInval_busy⟩
    have hhits : (s.newInval a x b p k).hits e.2 = true := Inval.hits_of hx hr
    exact absurd (hhits.symm.trans (State.startInval_leaves he)) (by simp)

end Sys2Proof.Machine
end

section
/-!
PROOFS. Firmware's command areas, the watchdogs and the reset of the control cores, and their accesses (R365 - R371).
-/
namespace Sys2Proof.Machine

/-! ## Command areas -/

section
variable {s t : State} {n k a : Nat} {c : Cmd}

theorem State.fwTake_of (hk : s.fwNext = some k) (ha : ((List.range 16).find? fun a => (SMap.find s.q.areas (n * 16 + a)).isNone) = some a)
    (hc : s.cmd k = some c) (ht : t = (s.putCmd k { c with eng := .fwArea n a }).tcmPut (areaByte n a 0) 96 c.areaImage) :
    s.fwTake n = (State.redispatch { t with q := { t.q with
      fwBuf := t.q.fwBuf.filter (fun x => x != k), areas := SMap.put t.q.areas (n * 16 + a) k } }, BitVec.ofNat 32 (2 ^ 31 + a)) := by
  rw [State.fwTake, hk, ha]
  simp only [hc, ht]

theorem State.fwTake_none (hk : s.fwNext = none) : s.fwTake n = (s, 0) := by
  rw [State.fwTake, hk]

theorem State.fwDone_of {x : BitVec 128} {r : Nat} (ha : SMap.find s.q.areas (n * 16 + a) = some k) (hc : s.cmd k = some c)
    (hx : SMap.find s.q.tcmReply k = some x) (hr : r = x.toNat) (ht : t = s.tcmPut (areaByte n a 96) 16 r) :
    s.fwDone n a = (State.orphan { t with q := { t.q with
      areas := SMap.del t.q.areas (n * 16 + a), tcmReply := SMap.del t.q.tcmReply k } } k).putCmd k
        { c with st := .done, eng := .none, status := bits r 48 8, result := bits r 64 64, pos := 0, aux := 0 } := by
  rw [State.fwDone, ha]
  simp only [hc, hx, ht, hr]

end

theorem exec_fwcmdTake {s : State} {n : Fin 8} : exec (.fwcmdTake n) s =
    run s fun s => (s.fwTake n).1.emit (.csr (R.GLOBAL_FWCMD_TAKE.addr 0 n) (s.fwTake n).2) := rfl
theorem exec_fwcmdDone {s : State} {n : Fin 8} {v : Word} : exec (.fwcmdDone n v) s =
    run s fun s => s.fwDone n (F.GLOBAL_FWCMD_DONE_area.of v) := rfl

/-! ## Watchdogs -/

section
variable {s : State} {k : Nat}

theorem State.wdtExpiry_of (ht : s.fN F.GLOBAL_CORE_WDT_timeout_ms 0 k ≠ 0) (hh : bit (s.fN F.GLOBAL_CORE_RST_hold) k = false) :
    s.wdtExpiry k = (State.fFlag { s with cores := { s.cores with kicked := SMap.put s.cores.kicked k s.pwr.refTime } }
      F.GLOBAL_CORE_WDT_expired true 0 k).raise (16 + k) := by
  rw [State.wdtExpiry]
  exact if_neg (by simp [ht, hh])

theorem State.wdtExpiry_off (h : s.fN F.GLOBAL_CORE_WDT_timeout_ms 0 k = 0 ∨ bit (s.fN F.GLOBAL_CORE_RST_hold) k = true) :
    s.wdtExpiry k = s := by
  rw [State.wdtExpiry]
  exact if_pos (by simpa using h)

theorem State.wdtWrite_kick {v : Word} (h : F.GLOBAL_CORE_WDT_kick.on v = true) :
    (s.wdtWrite k v).cores = { s.cores with kicked := SMap.put s.cores.kicked k s.pwr.refTime } := by
  simp only [State.wdtWrite, h, Bool.true_or, if_true]
  rfl

end

theorem exec_watchdogExpiry {s : State} {k : Fin 24} : exec (.watchdogExpiry k) s = run s fun s => s.wdtExpiry k := rfl
theorem exec_watchdogKick {s : State} {k : Fin 24} : exec (.watchdogKick k) s =
    run s fun s => s.wdtWrite k ((s.rd R.GLOBAL_CORE_WDT 0 k.val &&& 0xFFFF#32) ||| 0x40000000#32) := rfl

/-! ## Core reset -/

section
variable (s : State)

theorem State.dropTx_cores (t : Tx) : (s.dropTx t).cores = s.cores := by
  rw [State.dropTx, State.readyLine]
  split
  · rw [State.readyAs]
    split <;> rfl
  · rfl

theorem State.dropOrigin_cores (o : Origin) : (s.dropOrigin o).cores = s.cores := by
  refine foldl_keeps State.cores (fun s t => if t.upd then s.dropTx t else s.putTx { t with origin := .gone o.isBeat })
    (fun t x => ?_) _ _
  split
  · exact t.dropTx_cores x
  · rfl

theorem State.orphan_cores (k : Nat) : (s.orphan k).cores = s.cores :=
  foldl_keeps State.cores (fun s (w : Sweep) => s.pguReturn (.sweep w.cell)) (fun _ _ => rfl) _ _

theorem State.areasFail_cores (n : Nat) : (s.areasFail n).cores = s.cores := by
  refine foldl_keeps State.cores (fun s (e : Nat × Nat) =>
    match s.cmd e.2 with
    | some c => ((s.orphan e.2).dropOrigin (.fw e.2)).putCmd e.2
        { c with st := .done, eng := .none, status := stFault, result := 0, pos := 0, aux := 0 }
    | none => s) (fun t e => ?_) _ _
  split
  · exact (State.dropOrigin_cores _ _).trans (State.orphan_cores _ _)
  · rfl

theorem State.coreHold_running (k : Nat) : (s.coreHold k).cores.running = s.cores.running &&& ~~~(1#24 <<< k) := by
  unfold State.coreHold
  dsimp only
  split
  · rw [State.areasFail_cores]
  · rfl

/-- A core that is held, or another one that is held or started, leaves a stopped core stopped. -/
theorem getLsbD_clear {x : BitVec 24} {k : Nat} : (x &&& ~~~(1#24 <<< k)).getLsbD k = false := by
  by_cases hk : k < 24 <;> simp [hk]

theorem State.coreHold_stops (k : Nat) : (s.coreHold k).cores.running.getLsbD k = false := by
  rw [State.coreHold_running, getLsbD_clear]

theorem State.coreHold_other {j k : Nat} (h : s.cores.running.getLsbD k = false) :
    (s.coreHold j).cores.running.getLsbD k = false := by
  rw [State.coreHold_running, BitVec.getLsbD_and, h, Bool.false_and]

theorem State.startCore_running {k : Nat} (h : bit (s.fN F.GLOBAL_CORE_RST_hold) k = false) :
    (s.startCore k).cores.running = s.cores.running ||| (1#24 <<< k) := by
  simp only [State.startCore, h, Bool.false_eq_true, if_false]
  split <;> rfl

theorem State.startCore_other {j k : Nat} (hj : j ≠ k) (h : s.cores.running.getLsbD k = false) :
    (s.startCore j).cores.running.getLsbD k = false := by
  by_cases hh : bit (s.fN F.GLOBAL_CORE_RST_hold) j = true
  · rw [State.startCore, if_pos hh, h]
  · rw [State.startCore_running s (by simpa using hh), BitVec.getLsbD_or, h, Bool.false_or, BitVec.getLsbD_shiftLeft]
    by_cases hlt : k < j
    · simp [hlt]
    · have hne : k - j ≠ 0 := by omega
      simp [hlt, hne]

end

section
variable {s t : State} {v : Word}

/-- What a new setting of the hold bits does to one core. -/
def State.holdStep (new old : Nat) (s : State) (k : Nat) : State :=
  if bit new k && !bit old k then s.coreHold k
  else if bit old k && !bit new k && decide (8 ≤ k) then s.startCores [k]
  else s

theorem State.holdStep_keeps {new old j k : Nat} (hk : bit new k = true) (h : s.cores.running.getLsbD k = false) :
    (s.holdStep new old j).cores.running.getLsbD k = false := by
  unfold State.holdStep
  split
  · exact s.coreHold_other h
  · split
    next hs =>
      refine s.startCore_other (fun e => ?_) h
      rw [e, hk] at hs
      simp at hs
    · exact h

theorem State.holdSteps_keeps {new old k : Nat} (hk : bit new k = true) (l : List Nat) (h : s.cores.running.getLsbD k = false) :
    (l.foldl (State.holdStep new old) s).cores.running.getLsbD k = false := by
  induction l generalizing s with
  | nil => exact h
  | cons j r ih => exact ih (State.holdStep_keeps hk h)

theorem State.holdSteps_stop {new old k : Nat} (hk : bit new k = true) (ho : bit old k = false) {l : List Nat} (hl : k ∈ l) :
    (l.foldl (State.holdStep new old) s).cores.running.getLsbD k = false := by
  induction l generalizing s with
  | nil => exact absurd hl List.not_mem_nil
  | cons j r ih =>
    rw [List.foldl_cons]
    rcases List.mem_cons.1 hl with rfl | hr
    · refine State.holdSteps_keeps hk r ?_
      have hone : s.holdStep new old k = s.coreHold k := if_pos (by simp [hk, ho])
      rw [hone]
      exact s.coreHold_stops k
    · exact ih hr

section
variable (ht : t = if F.GLOBAL_CORE_RST_refused.on v then s.fFlag F.GLOBAL_CORE_RST_refused false else s)
include ht

theorem State.coreRstWrite_all (h : F.GLOBAL_CORE_RST_hold.of v % 256 = 255) :
    s.coreRstWrite v = t.fFlag F.GLOBAL_CORE_RST_refused true := by
  rw [State.coreRstWrite, ← ht]
  exact if_pos h

theorem State.coreRstWrite_some (h : F.GLOBAL_CORE_RST_hold.of v % 256 ≠ 255) : s.coreRstWrite v = (List.range 24).foldl
    (State.holdStep (F.GLOBAL_CORE_RST_hold.of v) (t.fN F.GLOBAL_CORE_RST_hold))
    (t.fSet F.GLOBAL_CORE_RST_hold (F.GLOBAL_CORE_RST_hold.of v)) := by
  rw [State.coreRstWrite, ← ht]
  exact if_neg h

end

section
variable {k : Nat} {c : ImgChk}

theorem State.coreStart_of (hh : bit (s.fN F.GLOBAL_CORE_RST_hold) k = false) (hr : s.cores.running.getLsbD k = false)
    (hs : 3 ≤ s.pwr.step) (hi : s.imageOk 1 c = true) : s.coreStart k c = s.startCore k := by
  rw [State.coreStart]
  exact if_neg (by simp [hh, hr, hi, Nat.not_lt.2 hs])

theorem State.coreStart_bad (hi : s.imageOk 1 c = false) : s.coreStart k c = s := by
  rw [State.coreStart]
  exact if_pos (by simp [hi])

end

end

theorem exec_coreReset {s : State} {v : Word} : exec (.coreReset v) s = run s fun s => s.coreRstWrite v := rfl
theorem exec_coreStart {s : State} {k : Fin 8} {c : ImgChk} : exec (.coreStart k c) s = run s fun s => s.coreStart k c := rfl

/-! ## Accesses of a core -/

theorem exec_controlCoreAccess {s : State} {k : Fin 24} {a : BitVec 48} {z : AccSize} {st : Option (BitVec 64)} :
    exec (.controlCoreAccess k a z st) s = run s fun s => s.coreAccess k a.toNat z (st.map fun v => v.toNat) := rfl

theorem AccSize.bytes_pos (z : AccSize) : 0 < z.bytes := by cases z <;> decide

section
variable {s : State} {k a n : Nat} {z : AccSize} {st : Option Nat}

theorem State.coreAccess_stopped (h : s.cores.running.getLsbD k = false) : s.coreAccess k a z st = s := by
  rw [State.coreAccess.eq_def]
  exact if_pos (by simp [h])

variable (hn : n = z.bytes) (hr : s.cores.running.getLsbD k = true)
include hn hr

theorem State.coreAccess_apart (hx : 64 < a % 64 + n) (ha : a + n ≤ 2 ^ 45) : s.coreAccess k a z st = s := by
  subst hn
  simp only [State.coreAccess, hr, ha, hx, Bool.not_true, Bool.false_eq_true, if_false, if_true]

theorem State.coreAccess_dpa (ha : a + n ≤ 2 ^ 45) (hx : a % 64 + n ≤ 64) : s.coreAccess k a z st = s.coreDpa k a n st := by
  subst hn
  simp only [State.coreAccess, hr, ha, Nat.not_lt.2 hx, Bool.not_true, Bool.false_eq_true, if_false, if_true]

theorem State.coreAccess_csr (ha : 2 ^ 45 ≤ a) (hx : a + n ≤ 2 ^ 45 + 2 ^ 26) : s.coreAccess k a z st =
    match st with
    | some v => s.csrStore z (winToReg (a - 2 ^ 45)) v
    | none => (s.csrLoad z (winToReg (a - 2 ^ 45))).1.coreAns k (some (s.csrLoad z (winToReg (a - 2 ^ 45))).2) 0 := by
  have hpos := z.bytes_pos
  subst hn
  rw [State.coreAccess.eq_def, if_neg (by simp [hr])]
  dsimp only
  rw [if_neg (by omega)]
  exact (if_pos ⟨ha, hx⟩).trans (by cases st <;> rfl)

section
variable (ha : 2 ^ 45 + 2 ^ 26 ≤ a)
include ha

theorem State.coreAccess_nowhere (hx : 8 ≤ k ∨ a < 0x200010000000 ∨ 0x200010100000 < a + n) :
    s.coreAccess k a z st = if st.isNone then s.coreAns k none 5 else s.coreAns k none 7 := by
  have hpos := z.bytes_pos
  subst hn
  rw [State.coreAccess.eq_def, if_neg (by simp [hr])]
  dsimp only
  rw [if_neg (by omega), if_neg (by omega), if_neg (by omega)]

end

theorem State.coreAccess_tcm (hk : k < 8) (ha : 0x200010000000 ≤ a) (hx : a + n ≤ 0x200010100000) : s.coreAccess k a z st =
    match st with
    | some v => (List.range n).foldl (fun s i => s.tcmStore k (a - 0x200010000000 + i) (bits v (8 * i) 8)) s
    | none => s.coreAns k (some ((List.range n).foldl
        (fun x i => x + s.tcmLoad k (a - 0x200010000000 + i) * 2 ^ (8 * i)) 0)) 0 := by
  have hpos := z.bytes_pos
  subst hn
  rw [State.coreAccess.eq_def, if_neg (by simp [hr])]
  dsimp only
  rw [if_neg (by omega), if_neg (by omega)]
  exact (if_pos ⟨hk, ha, hx⟩).trans (by cases st <;> rfl)

end

section
variable {s : State} {k o n : Nat} {t : Tx}

theorem State.coreGot_no (r : Refuse) : s.coreGot k t (.no r) = s.emit (.coreLoad k none 5) := rfl

variable (h : (o, n) = beSpan t.be)
include h

theorem State.coreGot_clean {l : Line} (hl : touchesPoison l o n = false) : s.coreGot k t (.ok l) =
    s.emit (.coreLoad k (some (bits l.data.toNat (8 * o) (8 * n))) 0) := by
  rw [State.coreGot, ← h]
  exact if_neg (by simp [hl])

theorem State.coreGot_poison {l : Line} (hl : touchesPoison l o n = true) :
    s.coreGot k t (.ok l) = (s.consume 0 t.line).emit (.coreLoad k none 19) := by
  rw [State.coreGot, ← h]
  exact if_pos hl

end

/-! ## Settlement -/

/-- Settles O57: areas, watchdogs and core reset by their cases; an access by the part of the map it lies in. -/
theorem controlCores : Obligations.ControlCores := by
  unfold Obligations.ControlCores
  refine ⟨fun s hup => ⟨fun n k a c hk ha hc t ht => ?_, fun n hk => ?_, fun n v a k r c x t ha hf hc hx hr ht => ?_,
    fun k => ⟨fun ht hh => ?_, fun h => ?_, ?_⟩, fun v t ht => ⟨fun h => ?_, fun h => ?_⟩,
    fun k c => ⟨fun hh hr hs hi => ⟨?_, ?_⟩, fun hi => ?_⟩⟩, fun s k a z n hup hn => ⟨fun h st => ?_, fun hr => ?_⟩,
    fun s k o n t h => ⟨fun r => State.coreGot_no r, fun l hl => State.coreGot_clean h hl, fun l hl => State.coreGot_poison h hl⟩⟩
  · rw [exec_fwcmdTake, run_up _ hup, State.fwTake_of hk ha hc ht]
  · rw [exec_fwcmdTake, run_up _ hup, State.fwTake_none hk]
  · rw [exec_fwcmdDone, run_up _ hup, ← ha, State.fwDone_of hf hc hx hr ht]
  · rw [exec_watchdogExpiry, run_up _ hup, State.wdtExpiry_of ht hh]
  · rw [exec_watchdogExpiry, run_up _ hup, State.wdtExpiry_off h, State.keep_self]
  · refine ⟨_, by rw [exec_watchdogKick, run_up _ hup], ?_⟩
    rw [State.keep_cores]
    exact State.wdtWrite_kick (Fld.on_or_of_set _ _ _ (by decide))
  · rw [exec_coreReset, run_up _ hup, State.coreRstWrite_all ht h]
  · refine ⟨_, by rw [exec_coreReset, run_up _ hup, State.coreRstWrite_some ht h], fun k hk hnew hold => ?_⟩
    rw [State.keep_cores]
    exact State.holdSteps_stop hnew hold (List.mem_range.2 hk)
  · rw [exec_coreStart, run_up _ hup, State.coreStart_of hh hr hs hi]
  · rw [State.startCore_running s hh]
    simp [show k.val < 24 by omega]
  · rw [exec_coreStart, run_up _ hup, State.coreStart_bad hi, State.keep_self]
  · rw [exec_controlCoreAccess, run_up _ hup, State.coreAccess_stopped h, State.keep_self]
  · refine ⟨fun hx ha st => ?_, fun st x ha hx ht => ?_, fun ha hx => ⟨fun v => ?_, fun r hr' => ?_⟩,
      fun ha hx => ⟨?_, fun v => ?_⟩, fun hk ha hx off ho => ⟨?_, fun v => ?_⟩⟩
    · rw [exec_controlCoreAccess, run_up _ hup, State.coreAccess_apart hn hr hx ha, State.keep_self]
    · rw [exec_controlCoreAccess, run_up _ hup, State.coreAccess_dpa hn hr ha hx, State.coreDpa]
      simp only [Option.isSome_map, ← ht]
      exact ⟨fun hw => by rw [hw], fun w hw => by rw [hw]⟩
    · rw [exec_controlCoreAccess, run_up _ hup, State.coreAccess_csr hn hr ha hx]
      rfl
    · rw [exec_controlCoreAccess, run_up _ hup, State.coreAccess_csr hn hr ha hx, hr']
      rfl
    · rw [exec_controlCoreAccess, run_up _ hup, State.coreAccess_nowhere hn hr ha hx]
      rfl
    · rw [exec_controlCoreAccess, run_up _ hup, State.coreAccess_nowhere hn hr ha hx]
      rfl
    · rw [exec_controlCoreAccess, run_up _ hup, State.coreAccess_tcm hn hr hk ha hx, ho]
      rfl
    · rw [exec_controlCoreAccess, run_up _ hup, State.coreAccess_tcm hn hr hk ha hx, ho]
      rfl

end Sys2Proof.Machine
end

section
/-!
PROOFS. Power, reset and start-up (R353 - R357, R191).
-/
namespace Sys2Proof.Machine

/-! ## What a reset leaves -/

/-- A fold keeps what each of its steps over the list keeps. -/
theorem foldl_keeps_mem {α β γ : Type} (g : β → γ) (f : β → α → β) {l : List α} (hf : ∀ b, ∀ a ∈ l, g (f b a) = g b) (b : β) :
    g (l.foldl f b) = g b := by
  induction l generalizing b with
  | nil => rfl
  | cons a l ih =>
    rw [List.foldl_cons, ih fun b x hx => hf b x (List.mem_cons_of_mem _ hx), hf b a List.mem_cons_self]

section
variable (s : State)

/-- The registers of the straps leave the other parts of the state. -/
theorem State.showDpc_keeps {α : Type} (g : State → α) (h : ∀ (t : State) b, ∀ ch < 24, g (t.fFlag F.DCH_CFG_dpc b ch) = g t) :
    g s.showDpc = g s :=
  foldl_keeps_mem g (fun s ch => s.fFlag F.DCH_CFG_dpc s.pwr.dpcSel ch) (fun t ch hch => h t _ ch (List.mem_range.1 hch)) s

theorem State.fN_showDpc {f : Fld} (hf : f.reg.addr 0 0 = 0x7c00000) : s.showDpc.fN f = s.fN f := by
  refine s.showDpc_keeps (fun t => t.fN f) fun t b ch hch => State.fN_fSet_other _ _ _ _ _ _ _ _ ?_
  rw [hf]
  show 0x7c00000 ≠ 0x1000000 + ch * 0x10000 + 0 + 0 * 0
  omega

theorem State.id_ready_showDpc : (s.fFlag F.SEC_STATUS_id_ready true).showDpc.fB F.SEC_STATUS_id_ready = true := by
  rw [State.fB, State.fN_showDpc _ rfl]
  exact State.fB_fFlag _ _ _ _ _ rfl

theorem State.held_keeps {α : Type} (g : State → α) (h : ∀ (t : State) f b i k, g (t.fFlag f b i k) = g t)
    (hp : ∀ (t : State) p, g { t with pwr := p } = g t) : g s.held = g s.base :=
  (State.showDpc_keeps _ g fun t b ch _ => h t _ b ch 0).trans ((h _ _ _ _ _).trans (hp _ _))

theorem State.held_home : s.held.home = Home.reset := s.held_keeps State.home (fun _ _ _ _ _ => rfl) fun _ _ => rfl
theorem State.held_q : s.held.q = QCtl.reset := s.held_keeps State.q (fun _ _ _ _ _ => rfl) fun _ _ => rfl
theorem State.held_comb : s.held.comb = Comb.reset := s.held_keeps State.comb (fun _ _ _ _ _ => rfl) fun _ _ => rfl
theorem State.held_cores : s.held.cores = { Cores.reset with flash := s.cores.flash } :=
  s.held_keeps State.cores (fun _ _ _ _ _ => rfl) fun _ _ => rfl
theorem State.held_id_ready : s.held.fB F.SEC_STATUS_id_ready = true := State.id_ready_showDpc _

theorem State.showPower_id_ready : s.showPower.fB F.SEC_STATUS_id_ready = true := by
  have hother : s.showPower.fN F.SEC_STATUS_id_ready = (s.fFlag F.SEC_STATUS_id_ready true).showDpc.fN F.SEC_STATUS_id_ready :=
    State.fN_fSet_other _ _ _ _ _ _ _ _ (by decide)
  rw [State.fB, hother]
  exact State.id_ready_showDpc _

end

/-! ## The end of a reset -/

theorem State.spire_setSpire_same (s : State) (n : Nat) (x : Spire) : (s.setSpire n x).spire n = x := by
  show (s.spires.set (Fin.ofNat 24 n).val x (Fin.ofNat 24 n).isLt).get (Fin.ofNat 24 n) = x
  rw [Vector.get_eq_getElem]
  exact Vector.getElem_set_self _

theorem State.spire_setSpire_other (s : State) {n m : Nat} (x : Spire) (hn : n < 24) (hm : m < 24) (h : n ≠ m) :
    (s.setSpire n x).spire m = s.spire m := by
  show (s.spires.set (Fin.ofNat 24 n).val x (Fin.ofNat 24 n).isLt).get (Fin.ofNat 24 m) = s.spires.get (Fin.ofNat 24 m)
  rw [Vector.get_eq_getElem, Vector.get_eq_getElem]
  refine Vector.getElem_set_ne _ _ fun e => h ?_
  simpa [Nat.mod_eq_of_lt hn, Nat.mod_eq_of_lt hm] using e

/-- Draws the seed of one Spire's generator. -/
def State.seedSpire (s : State) (n : Nat) : State :=
  s.random64.2.setSpire n { s.random64.2.spire n with gen := s.random64.1, draws := 0 }

theorem State.seedSpires_eq (s : State) : s.seedSpires = (List.range 24).foldl State.seedSpire s := rfl

theorem State.seedFirst (s : State) {n : Nat} (h : n ≤ 24) : ((List.range n).foldl State.seedSpire s).free = s.free + n ∧
    ((List.range n).foldl State.seedSpire s).sec = s.sec ∧
    ∀ j < n, (((List.range n).foldl State.seedSpire s).spire j).gen = (Config.random (s.free + j)).setWidth 64 ∧
      (((List.range n).foldl State.seedSpire s).spire j).draws = 0 := by
  induction n with
  | zero => exact ⟨rfl, rfl, fun j hj => absurd hj (Nat.not_lt_zero j)⟩
  | succ n ih =>
    obtain ⟨hfree, hsec, hgen⟩ := ih (by omega)
    rw [List.range_succ, List.foldl_append, List.foldl_cons, List.foldl_nil]
    generalize (List.range n).foldl State.seedSpire s = t at hfree hsec hgen
    refine ⟨?_, hsec, fun j hj => ?_⟩
    · show t.free + 1 = s.free + (n + 1)
      omega
    · by_cases hjn : j = n
      · subst hjn
        rw [State.seedSpire, State.spire_setSpire_same]
        exact ⟨by rw [← hfree]; rfl, rfl⟩
      · rw [State.seedSpire, State.spire_setSpire_other _ _ (by omega) (by omega) (Ne.symm hjn)]
        exact hgen j (by omega)

/-- The end of a reset, before the generators are seeded. -/
def State.resetOver (s : State) : State :=
  { s with free := s.free + 1, sec := { s.sec with dome0Key := s.free }, pwr := { s.pwr with inReset := false } }

theorem State.endReset_eq (s : State) : s.endReset = s.resetOver.seedSpires := rfl

theorem State.endReset_seeds (s : State) : s.endReset.sec = { s.sec with dome0Key := s.free } ∧
    ∀ n < 24, (s.endReset.spire n).gen = (Config.random (s.free + 1 + n)).setWidth 64 ∧ (s.endReset.spire n).draws = 0 := by
  obtain ⟨-, hsec, hgen⟩ := s.resetOver.seedFirst (Nat.le_refl 24)
  rw [State.endReset_eq, State.seedSpires_eq]
  exact ⟨hsec, hgen⟩

/-! ## Steps 1 and 2 -/

section
variable {s t u : State} {c : BootChk} (ht : t = s.endReset)
include ht

theorem State.boot_header (h : t.headerOk = false ∨ t.cfgRecs = none) : s.boot c = (t.setStep 1).startError 5 := by
  rw [State.boot, ← ht]
  refine if_pos ?_
  rcases h with h | h <;> simp [h]

variable (hh : t.headerOk = true) (hc : t.cfgRecs ≠ none)
include hh hc

theorem State.boot_aon (h : (t.loadChain c.leaf).imageOk 0 c.aon = false) :
    s.boot c = ((t.loadChain c.leaf).setStep 0).startError 1 := by
  have hgo : ¬ (!t.headerOk || t.cfgRecs.isNone) = true := by simp [hh, hc]
  rw [State.boot, ← ht, if_neg hgo]
  exact if_pos (by rw [h]; rfl)

variable (ha : (t.loadChain c.leaf).imageOk 0 c.aon = true)
  (hu : u = ((t.loadChain c.leaf).setMeas 1 ((t.loadChain c.leaf).imageDigest 0)).setStep 1)
include ha hu

theorem State.boot_images : s.boot c = if !(u.imageOk 1 c.fw && u.imageOk 2 c.app) then u.startError 1
    else ((u.configure.runVersion (u.imageVersion 1)).setStep 2).bypHold true := by
  have hgo : ¬ (!t.headerOk || t.cfgRecs.isNone) = true := by simp [hh, hc]
  have haon : ¬ (!(t.loadChain c.leaf).imageOk 0 c.aon) = true := by simp [ha]
  rw [State.boot, ← ht, if_neg hgo]
  dsimp only
  rw [if_neg haon, ← hu]

theorem State.boot_failed (h : u.imageOk 1 c.fw = false ∨ u.imageOk 2 c.app = false) : s.boot c = u.startError 1 := by
  rw [State.boot_images ht hh hc ha hu]
  refine if_pos ?_
  rcases h with h | h <;> simp [h]

theorem State.boot_passed (h1 : u.imageOk 1 c.fw = true) (h2 : u.imageOk 2 c.app = true) :
    s.boot c = ((u.configure.runVersion (u.imageVersion 1)).setStep 2).bypHold true := by
  rw [State.boot_images ht hh hc ha hu]
  exact if_neg (by simp [h1, h2])

end

/-! ## Step 3 -/

section
variable (s : State)

theorem State.startCore_pwr (k : Nat) : (s.startCore k).pwr = s.pwr := by
  rw [State.startCore]
  split
  · rfl
  · dsimp only
    split <;> rfl

theorem State.startCores_pwr (l : List Nat) : (s.startCores l).pwr = s.pwr :=
  foldl_keeps State.pwr State.startCore (fun t k => t.startCore_pwr k) l s

/-- The grant unit's limits, from configuration record 5. -/
def State.limitConfig (s : State) : State :=
  match s.cfgRec 5 with
  | some (o, n) => if 8 ≤ n then
      (s.wrCodes R.PGU_LIMIT (BitVec.ofNat 32 (s.flashLe o 4))).wrCodes R.PGU_BASE (BitVec.ofNat 32 (s.flashLe (o + 4) 4))
    else s
  | none => s

/-- The pool's size, from configuration record 6. -/
def State.poolConfig (s : State) : State :=
  match s.cfgRec 6 with
  | some (o, n) =>
    let pool := s.flashLe o n
    let s := { s with fab := { s.fab with pool := pool } }
    if pool = 1 ∧ s.pwr.queenSel then s.fFlag F.RYP_QUEEN_CTL_solo true else s
  | none => s

theorem State.firmwareConfig_eq : s.firmwareConfig = s.limitConfig.poolConfig := rfl

theorem State.limitConfig_pwr : s.limitConfig.pwr = s.pwr := by
  rw [State.limitConfig]
  split
  · split
    · rw [State.wrCodes_pwr, State.wrCodes_pwr]
    · rfl
  · rfl

theorem State.poolConfig_pwr : s.poolConfig.pwr = s.pwr := by
  rw [State.poolConfig]
  split
  · dsimp only
    split
    · rw [State.fFlag_pwr]
    · rfl
  · rfl

theorem State.firmwareConfig_pwr : s.firmwareConfig.pwr = s.pwr := by
  rw [State.firmwareConfig_eq, State.poolConfig_pwr, State.limitConfig_pwr]

theorem State.originate_pwr (p : Pkt) (cls : Nat) : (s.originate p cls).pwr = s.pwr := by
  rw [State.originate]
  split <;> rfl

theorem State.announceRole_pwr : s.announceRole.pwr = s.pwr := by
  rw [State.announceRole]
  split
  · rfl
  · exact foldl_keeps State.pwr (fun (s : State) d =>
      { s.sendQueen d 2 with fab := { (s.sendQueen d 2).fab with told := s.fab.told ++ [d] } })
      (fun t d => t.originate_pwr _ _) _ _

theorem State.recordQueen_pwr (q term : Nat) : (s.recordQueen q term).pwr = s.pwr := by
  rw [State.recordQueen, State.fFlag_pwr, State.fFlag_pwr, State.fFlag_pwr]
  dsimp only
  rw [State.fSet_pwr, State.fSet_pwr]

theorem State.learnSucc_pwr (n : Option Nat) : (s.learnSucc n).pwr = s.pwr := State.fSet_pwr _ _ _ _ _

/-- A node that its strap makes successor notes itself as such. -/
def State.learnStrap (s : State) : State :=
  if s.pwr.succSel then s.learnSucc (some s.pwr.node) else s

theorem State.learnStrap_pwr : s.learnStrap.pwr = s.pwr := by
  rw [State.learnStrap]
  split
  · rw [State.learnSucc_pwr]
  · rfl

/-- A node that its strap makes queen records itself as such. -/
def State.recordStrap (s : State) : State := if s.pwr.queenSel then s.recordQueen s.pwr.node 1 else s

theorem State.recordStrap_pwr : s.recordStrap.pwr = s.pwr := by
  rw [State.recordStrap]
  split
  · rw [State.recordQueen_pwr]
  · rfl

theorem State.claimQueen_eq : s.claimQueen =
    (s.fFlag F.RYP_FAB_STATUS_is_succ s.pwr.succSel).learnStrap.recordStrap.announceRole := rfl

theorem State.claimQueen_pwr : s.claimQueen.pwr = s.pwr := by
  rw [State.claimQueen_eq, State.announceRole_pwr, State.recordStrap_pwr, State.learnStrap_pwr, State.fFlag_pwr]

theorem State.ryKick_pwr (p : Nat) : (s.ryKick p).pwr = s.pwr := by
  rw [State.ryKick]
  split
  · split
    · rfl
    · rw [State.fFlag_pwr]
  · rfl

theorem State.enterSr_pwr (ch : Nat) : (s.enterSr ch).pwr = s.pwr := rfl

theorem State.freeze_pwr (miss : BitVec 24) (h : 3 ≤ s.pwr.step) : (s.freeze miss).pwr = { s.pwr with frozen := true } := by
  rw [State.freeze]
  by_cases hf : s.pwr.frozen = true
  · rw [if_pos (by simp [hf])]
    conv_rhs => rw [← hf]
  · rw [if_neg (by simp [hf, Nat.not_lt.2 h])]
    dsimp only
    rw [State.fSet_pwr, foldl_keeps State.pwr (fun s ch => s.enterSr ch) fun t ch => t.enterSr_pwr ch]

theorem State.showHalves_pwr : s.showHalves.pwr = s.pwr := by
  rw [State.showHalves, State.fFlag_pwr, State.fFlag_pwr, State.fFlag_pwr]

end

section
variable {s : State}

theorem State.pllLock_pwr (h2 : s.pwr.step = 2) (he : s.fN F.START_STATUS_error = 0) : s.pllLock.pwr =
    { s.pwr with domains := 0xFFFFF, step := 3, frozen := s.pwr.frozen || s.pwr.freezePin || s.pwr.tapFreeze } := by
  rw [State.pllLock, if_neg (by simp [h2, he])]
  extract_lets p on clocks h honey tested queen kicked
  have hhoney : ∀ (t : State) x, (({ t with honey := x } : State).showHalves.fFlag F.HONEY_STATUS_clear_done true).pwr = t.pwr :=
    fun t x => (State.fFlag_pwr _ _ _ _ _).trans (State.showHalves_pwr { t with honey := x })
  have hflags : ∀ (t : State) f g h, (((t.fFlag f true).fFlag g true).fFlag h true).pwr = t.pwr := fun t f g h => by
    rw [State.fFlag_pwr, State.fFlag_pwr, State.fFlag_pwr]
  have hpwr : kicked.pwr = { s.pwr with domains := 0xFFFFF, step := 3 } := calc
    kicked.pwr = queen.pwr := foldl_keeps State.pwr (fun s p => s.ryKick p) (fun t p => t.ryKick_pwr p) _ _
    _ = tested.pwr := ((State.claimQueen_pwr _).trans (State.firmwareConfig_pwr _)).trans (State.startCores_pwr _ _)
    _ = honey.pwr := foldl_keeps State.pwr (fun s n => s.setSpire n { s.spire n with selfTest := true }) (fun _ _ => rfl) _ _
    _ = clocks.pwr := hhoney clocks _
    _ = on.pwr := hflags on _ _ _
  clear_value kicked
  have h3 : 3 ≤ kicked.pwr.step := by rw [hpwr]
  have hfz : (kicked.pwr.freezePin || kicked.pwr.tapFreeze) = (s.pwr.freezePin || s.pwr.tapFreeze) := by rw [hpwr]
  rw [hfz, Bool.or_assoc]
  cases hz : s.pwr.freezePin || s.pwr.tapFreeze
  · rw [if_neg Bool.false_ne_true, hpwr, Bool.or_false]
  · rw [if_pos rfl, State.freeze_pwr _ _ h3, hpwr, Bool.or_true]

theorem State.pllTimeout_of (h2 : s.pwr.step = 2) (he : s.fN F.START_STATUS_error = 0) : s.pllTimeout =
    (State.startError { s with pwr := { s.pwr with domains := 1 } } 2).bypHold false := if_neg (by simp [h2, he])

theorem State.pll_elsewhere (h2 : s.pwr.step ≠ 2) : s.pllLock = s ∧ s.pllTimeout = s :=
  ⟨if_pos (by simp [h2]), if_pos (by simp [h2])⟩

end

/-! ## Population -/

section
variable (q : Nat → Bool)

/-- The mask of the numbers below `n` that meet `q`. -/
def maskOf (n : Nat) : Nat := ((List.range n).filter q).foldl (fun a g => a + 2 ^ g) 0

theorem maskOf_succ (n : Nat) : maskOf q (n + 1) = maskOf q n + if q n then 2 ^ n else 0 := by
  rw [maskOf, List.range_succ, List.filter_append, List.foldl_append, ← maskOf]
  cases h : q n <;> simp [h]

theorem maskOf_lt (n : Nat) : maskOf q n < 2 ^ n := by
  induction n with
  | zero => simp [maskOf]
  | succ n ih =>
    rw [maskOf_succ, Nat.pow_succ]
    split <;> omega

theorem maskOf_testBit {n g : Nat} (hg : g < n) : (maskOf q n).testBit g = q g := by
  induction n with
  | zero => omega
  | succ n ih =>
    rw [maskOf_succ]
    by_cases hgn : g = n
    · subst hgn
      split
      next hq => rw [Nat.add_comm, Nat.testBit_two_pow_add_eq, Nat.testBit_lt_two_pow (maskOf_lt q g), hq]; rfl
      next hq => rw [Nat.add_zero, Nat.testBit_lt_two_pow (maskOf_lt q g)]; simpa using hq
    · split
      · rw [Nat.add_comm, Nat.testBit_two_pow_add_gt (by omega), ih (by omega)]
      · rw [Nat.add_zero, ih (by omega)]

theorem bit_testBit (x i : Nat) : bit x i = x.testBit i := by rw [Nat.testBit_eq_decide_div_mod_eq, bit, beq_eq_decide]

/-- The domains of the groups outside a mask, switched off. -/
theorem groupsOff {n g : Nat} (d : BitVec 20) (hn : n < 64) (hg : g < 6) (h : n.testBit g = false) :
    (d &&& ~~~(BitVec.ofNat 20 ((63 - n) * 2 ^ 6))).getLsbD (7 + g - 1) = false := by
  have hsub : (63 - n).testBit g = true := by
    rw [show 63 - n = 2 ^ 6 - (n + 1) by omega, Nat.testBit_two_pow_sub_succ hn, h]
    simp [hg]
  have hidx : 7 + g - 1 = g + 6 := by omega
  rw [BitVec.getLsbD_and, BitVec.getLsbD_not, BitVec.getLsbD_ofNat, hidx, Nat.testBit_mul_two_pow, Nat.add_sub_cancel, hsub]
  simp [show g + 6 < 20 by omega]

end

section
variable {α : Type} (v : State → α)

/-- A part of the state that no register above GLOBAL_POP's neighbours holds. -/
def KeptAbove : Prop := ∀ (s : State) (f : Fld) (x i k : Nat), 0x400 ≤ f.reg.addr i k → v (s.fSet f x i k) = v s

variable {v} (hv : KeptAbove v) (s : State)
include hv

theorem KeptAbove.flag (f : Fld) (b : Bool) (i k : Nat) (h : 0x400 ≤ f.reg.addr i k) : v (s.fFlag f b i k) = v s := hv _ _ _ _ _ h

theorem KeptAbove.writeLayout (m c : Nat) (rs : List (Nat × Nat × Bool)) : v (s.writeLayout m c rs) = v s := by
  rw [State.writeLayout, hv _ _ _ _ _ (by decide)]
  refine foldl_keeps v _ (fun t x => ?_) _ _
  rw [hv.flag _ _ _ _ _ (by simp only [Reg.addr, F.GLOBAL_ILR_CTL_enable, R.GLOBAL_ILR_CTL]; omega),
    hv.flag _ _ _ _ _ (by simp only [Reg.addr, F.GLOBAL_ILR_CTL_affinity, R.GLOBAL_ILR_CTL]; omega),
    hv _ _ _ _ _ (by simp only [Reg.addr, F.GLOBAL_ILR_SIZE_size_64m, R.GLOBAL_ILR_SIZE]; omega),
    hv _ _ _ _ _ (by simp only [Reg.addr, F.GLOBAL_ILR_BASE_base_64m, R.GLOBAL_ILR_BASE]; omega)]

theorem KeptAbove.deriveLayout (m c : Nat) : v (s.deriveLayout m c) = v s := by
  rw [State.deriveLayout]
  dsimp only
  split
  · split
    · exact hv.writeLayout _ _ _ _
    · exact (hv.flag _ _ _ _ _ (by decide)).trans (hv.writeLayout _ _ _ _)
  · exact (hv.flag _ _ _ _ _ (by decide)).trans (hv.writeLayout _ _ _ _)

theorem KeptAbove.showService (ch : Nat) : v (s.showService ch) = v s :=
  hv.flag _ _ _ _ _ (by simp only [Reg.addr, F.DCH_STATUS_in_service, R.DCH_STATUS]; omega)

end

theorem keptAbove_pwr : KeptAbove State.pwr := fun _ _ _ _ _ _ => rfl

theorem keptAbove_pop : KeptAbove fun t => t.fN F.GLOBAL_POP_dram_groups := fun _ _ _ _ _ h =>
  State.fN_fSet_other _ _ _ _ _ _ _ _ (Nat.ne_of_lt (lt_of_lt_of_le (by decide) h))

section
variable (s : State)

/-- Whether a group's capacity is the one kept. -/
def State.keeps (s : State) (g : Nat) : Bool := s.keptCap != 0 && s.groupCap g == s.keptCap

/-- The population as DRAM_GROUP_SELECT leaves it, before the layout. -/
def State.populated (s : State) : State :=
  let cap := s.keptCap
  let pop := (List.range 6).filter fun g => cap != 0 && s.groupCap g == cap
  let mask := pop.foldl (fun a g => a + 2 ^ g) 0
  let c := 4 * pop.length
  let m := c * cap * 256
  let off := BitVec.ofNat 20 ((63 - mask) * 2 ^ 6)
  let s := { s with pwr := { s.pwr with step := 4, domains := s.pwr.domains &&& ~~~off } }
  let s := s.fSet F.PWR_DOM_CTL_on_7_20 (s.fN F.PWR_DOM_CTL_on_7_20 - (63 - mask))
  let s := (s.fSet F.GLOBAL_POP_dram_groups mask).fSet F.GLOBAL_IL_STATUS_chan_groups pop.length
  let s := s.fSet F.GLOBAL_IL_STATUS_mem_top_64m m
  (List.range 24).foldl (fun s ch => s.showService ch) s

theorem State.groupSelect_eq : s.groupSelect =
    if s.pwr.step ≠ 3 || ((List.range 24).any fun ch => (s.chan ch).train.isSome) then s
    else if ((List.range 6).filter s.keeps).isEmpty then s.populated.startError 3
    else s.populated.deriveLayout (4 * ((List.range 6).filter s.keeps).length * s.keptCap * 256)
      (4 * ((List.range 6).filter s.keeps).length) := rfl

theorem State.populated_pwr : s.populated.pwr = { s.pwr with
    step := 4, domains := s.pwr.domains &&& ~~~(BitVec.ofNat 20 ((63 - maskOf s.keeps 6) * 2 ^ 6)) } := by
  rw [State.populated]
  dsimp only
  rw [foldl_keeps State.pwr (fun s ch => s.showService ch) fun t ch => keptAbove_pwr.showService t ch]
  rw [State.fSet_pwr, State.fSet_pwr, State.fSet_pwr, State.fSet_pwr]
  rfl

theorem State.populated_pop : s.populated.fN F.GLOBAL_POP_dram_groups = maskOf s.keeps 6 := by
  rw [State.populated]
  dsimp only
  rw [foldl_keeps (fun t : State => t.fN F.GLOBAL_POP_dram_groups) (fun s ch => s.showService ch)
      fun t ch => keptAbove_pop.showService t ch]
  rw [State.fN_fSet_other _ _ _ _ _ _ _ _ (by decide), State.fN_fSet_other _ _ _ _ _ _ _ _ (by decide), State.fN_fSet _ _ _ _ _ rfl]
  exact Nat.mod_eq_of_lt (maskOf_lt s.keeps 6)

end

section
variable {s : State} (h3 : s.pwr.step = 3) (ht : ∀ ch < 24, (s.chan ch).train = none)
include h3 ht

theorem State.groupSelect_of : s.groupSelect = if ((List.range 6).filter s.keeps).isEmpty then s.populated.startError 3
    else s.populated.deriveLayout (4 * ((List.range 6).filter s.keeps).length * s.keptCap * 256)
      (4 * ((List.range 6).filter s.keeps).length) := by
  have hno : ((List.range 24).any fun ch => (s.chan ch).train.isSome) = false := by simpa using ht
  rw [State.groupSelect_eq, if_neg (by simp [h3, hno])]

theorem State.groupSelect_keeps {α : Type} {v : State → α} (hv : KeptAbove v) : v s.groupSelect = v s.populated := by
  rw [State.groupSelect_of h3 ht]
  split
  · exact hv _ _ _ _ _ (by decide)
  · exact hv.deriveLayout _ _ _

theorem State.groupSelect_error (h : ∀ g < 6, s.keeps g = false) : s.groupSelect.fN F.START_STATUS_error = 3 := by
  have hnil : (List.range 6).filter s.keeps = [] := List.filter_eq_nil_iff.2 fun g hg => by simp [h g (List.mem_range.1 hg)]
  rw [State.groupSelect_of h3 ht, hnil, if_pos List.isEmpty_nil]
  exact State.fN_fSet _ _ _ _ _ rfl

end

/-! ## READY and the self-tests -/

section
variable {s : State}

theorem State.readyRise_of (h : s.startStep = 7) (he : s.fN F.START_STATUS_error = 0) : s.readyRise =
    ((State.buildCdat { s with pwr := { s.pwr with step := 8, ready := true } }).fSet F.START_STATUS_ready_ms
      (min 0xFFFF (s.pwr.refTime / ms 1))).startCores ((List.range 16).map fun k => 8 + k) := by
  rw [State.readyRise, if_neg (by simp [h, he])]
  rfl

theorem State.readyRise_early (h : s.startStep ≠ 7 ∨ s.fN F.START_STATUS_error ≠ 0) : s.readyRise = s :=
  if_pos (by simpa using h)

theorem State.selfTestDone_of {n : Nat} {pass : Bool} {t : State} (h : (s.spire n).selfTest = true)
    (ht : t = (((s.setSpire n { s.spire n with selfTest := false }).fFlag F.SPIRE_STATUS_st_done true n).fFlag
      F.SPIRE_STATUS_st_pass pass n).showSpire n) : s.selfTestDone n pass = if pass then t else t.raise (448 + 8 * n) := by
  rw [State.selfTestDone, if_neg (by simp [h]), ht]

end

/-! ## The rows -/

section
variable {s : State}

theorem exec_rootPllLock : exec .rootPllLock s = run s fun s => s.pllLock := rfl
theorem exec_rootPllLockTimeout : exec .rootPllLockTimeout s = run s fun s => s.pllTimeout := rfl
theorem exec_dramGroupSelect : exec .dramGroupSelect s = run s fun s => s.groupSelect := rfl
theorem exec_readyRise : exec .readyRise s = run s fun s => s.readyRise := rfl
theorem exec_spireSelfTestDone {n : Fin 24} {pass : Bool} : exec (.spireSelfTestDone n pass) s =
    run s fun s => s.selfTestDone n pass := rfl
theorem exec_perstNDeassert {c : BootChk} : exec (.perstNDeassert c) s = .next (s.perstDeassert c) := rfl
theorem exec_softwareReset : exec .softwareReset s = run s fun s => s.swRstWrite 0xD0A5 := rfl
theorem exec_softwareResetBegin : exec .softwareResetBegin s = run1 s fun s => s.swRstBegin := rfl
theorem exec_internalResetEnd {c : BootChk} : exec (.internalResetEnd c) s = .next (s.swRstEnd c) := rfl
theorem exec_pwrokRise {x : Straps} {p : Bool} {f : List (Nat × Byte)} {c : BootChk} :
    exec (.pwrokRise x p f c) s = .next (s.pwrokRise x p f c) := rfl

theorem State.perstAssert_of (h : s.pwr.pwrok = true) :
    s.perstAssert = State.held { s with pwr := { s.pwr with perstN := false } } := if_neg (by simp [h])

theorem State.perstDeassert_of {c : BootChk} (h : s.pwr.pwrok = true) (hp : s.pwr.perstN = false) : s.perstDeassert c =
    (((State.fFlag { s with pwr := { s.pwr with perstN := true } } F.CLK_STATUS_ref_ok true).fFlag
      F.GLOBAL_RST_CAUSE_perst true).boot c) := if_neg (by simp [h, hp])

theorem State.swRstWrite_of (h : s.fB F.GLOBAL_SW_RST_pending = false) :
    s.swRstWrite 0xD0A5 = s.fFlag F.GLOBAL_SW_RST_pending true := by
  rw [State.swRstWrite, h]
  exact if_pos ⟨by decide, rfl⟩

/-- The device notes when an internal reset began. -/
def State.beganAt (s : State) : State := { s with pwr := { s.pwr with swResetAt := some s.pwr.refTime } }

theorem State.swRstBegin_of (h : s.fB F.GLOBAL_SW_RST_pending = true) :
    s.swRstBegin = s.held.beganAt := by
  rw [State.swRstBegin, h]
  exact if_neg (by simp)

theorem State.beganAt_holds (o : State) : (s.beganAt.keep o).pwr.inReset = s.pwr.inReset ∧
    (s.beganAt.keep o).pwr.swResetAt = some s.pwr.refTime ∧ (s.beganAt.keep o).home = s.home := ⟨rfl, rfl, rfl⟩

theorem State.swRstEnd_of {c : BootChk} {x : Nat} (h : s.pwr.pwrok = true) (hx : s.pwr.swResetAt = some x) : s.swRstEnd c =
    (((State.fFlag { s with pwr := { s.pwr with swResetAt := none } } F.CLK_STATUS_ref_ok true).fFlag
      F.GLOBAL_RST_CAUSE_software true).boot c) := if_neg (by simp [h, hx])

/-- PERST_N as the device is held. -/
theorem State.perstAssert_holds (h : s.pwr.pwrok = true) : s.perstAssert.pwr.inReset = true ∧ s.perstAssert.pwr.perstN = false ∧
    s.perstAssert.pwr.node = s.pwr.node ∧ s.perstAssert.pwr.refTime = s.pwr.refTime ∧
    s.perstAssert.fB F.SEC_STATUS_id_ready = true ∧ s.perstAssert.home = Home.reset ∧ s.perstAssert.q = QCtl.reset ∧
    s.perstAssert.comb = Comb.reset ∧ s.perstAssert.cores.running = 0 ∧ s.perstAssert.cores.flash = s.cores.flash ∧
    s.perstAssert.pwr.ready = false := by
  rw [State.perstAssert_of h, State.held_pwr, State.held_cores, State.held_id_ready, State.held_home, State.held_q, State.held_comb]
  exact ⟨rfl, rfl, rfl, rfl, rfl, rfl, rfl, rfl, rfl, rfl, rfl⟩

end

/-! ## Settlement -/

/-- Settles O58: power and reset by what `held` and `boot` leave, start-up step by step. -/
theorem powerAndStartUp : Obligations.PowerAndStartUp := by
  unfold Obligations.PowerAndStartUp
  refine ⟨fun s => ⟨⟨_, rfl, rfl, s.base_dark, rfl⟩, fun h => ⟨_, rfl, State.perstAssert_holds h⟩, fun c h hp => ?_,
    fun hup hp => ?_, fun hup hp => ⟨_, by rw [exec_softwareResetBegin, run1_up _ hup, State.swRstBegin_of hp], ?_⟩, fun c x h hx => ?_, fun x f c t h ht => ?_, fun c t ht => ?_⟩,
    fun s hup => ⟨fun h2 he => ⟨⟨_, by rw [exec_rootPllLock, run_up _ hup], ?_⟩, ?_⟩, fun h2 => ?_,
      fun h3 ht => ⟨_, by rw [exec_dramGroupSelect, run_up _ hup], ?_⟩, fun h he => ?_, fun h => ?_, fun n pass t h ht => ?_⟩⟩
  · rw [exec_perstNDeassert, State.perstDeassert_of h hp]
  · rw [exec_softwareReset, run_up _ hup, State.swRstWrite_of hp]
  · obtain ⟨hreset, htime, hhome⟩ := s.held.beganAt_holds s
    rw [hreset, htime, hhome, State.held_pwr, State.held_home]
    exact ⟨rfl, rfl, rfl⟩
  · rw [exec_internalResetEnd, State.swRstEnd_of h hx]
  · have hrise : s.pwrokRise x true f c = t := by
      rw [exec_pwrokRise] at ht
      exact Host.Outcome.next.inj ht
    rw [State.pwrokRise_eq, h, if_neg Bool.false_ne_true, State.startUp_held] at hrise
    rw [← hrise, State.showPower_pwr, State.showPower_id_ready]
    exact ⟨rfl, rfl, rfl, rfl⟩
  · obtain ⟨hsec, hgen⟩ := s.endReset_seeds
    refine ⟨by rw [ht]; exact s.endReset_frame.2, by rw [ht]; exact hsec, by rw [ht]; exact hgen, State.boot_header ht,
      fun hh hc => ⟨State.boot_aon ht hh hc, fun ha u hu =>
        ⟨State.boot_failed ht hh hc ha hu, State.boot_passed ht hh hc ha hu⟩⟩⟩
  · show s.pllLock.pwr.domains = _ ∧ s.pllLock.pwr.step = _ ∧ s.pllLock.pwr.frozen = _
    rw [State.pllLock_pwr h2 he]
    exact ⟨rfl, rfl, rfl⟩
  · rw [exec_rootPllLockTimeout, run_up _ hup, State.pllTimeout_of h2 he]
  · obtain ⟨hlock, htime⟩ := State.pll_elsewhere h2
    rw [exec_rootPllLock, exec_rootPllLockTimeout, run_up _ hup, run_up _ hup, hlock, htime, State.keep_self]
    exact ⟨rfl, rfl⟩
  · have hpwr := (State.groupSelect_keeps h3 ht keptAbove_pwr).trans s.populated_pwr
    have hpop : ∀ g < 6, bit (s.groupSelect.fN F.GLOBAL_POP_dram_groups) g = s.keeps g := fun g hg => by
      rw [(State.groupSelect_keeps h3 ht keptAbove_pop).trans s.populated_pop, bit_testBit, maskOf_testBit _ hg]
    refine ⟨?_, hpop, fun g hg hno => ?_, fun hno => State.groupSelect_error h3 ht fun g hg => (hpop g hg).symm.trans (hno g hg)⟩
    · show s.groupSelect.pwr.step = 4
      rw [hpwr]
    · show s.groupSelect.pwr.domains.getLsbD (7 + g - 1) = false
      have hbit : (maskOf s.keeps 6).testBit g = false := by
        rw [maskOf_testBit _ hg]
        exact (hpop g hg).symm.trans hno
      rw [hpwr]
      exact groupsOff _ (maskOf_lt s.keeps 6) hg hbit
  · rw [exec_readyRise, run_up _ hup, State.readyRise_of h he]
  · rw [exec_readyRise, run_up _ hup, State.readyRise_early h, State.keep_self]
  · rw [exec_spireSelfTestDone, run_up _ hup, State.selfTestDone_of h ht]
    exact ⟨fun hp => by rw [if_pos hp], fun hp => by rw [if_neg (by simp [hp])]⟩

end Sys2Proof.Machine
end

section
/-!
PROOFS. The management port, the TAP's scan and the SMBus (R376 - R378, R361, R389).
-/
namespace Sys2Proof.Machine

/-! ## Requests of the table of R378 -/

section
variable {s : State} {x : Nat} {a : Nat} {v : Word} {p : BitVec 512} {l : List (BitVec 8)} {code : Nat} {f : State → State × Resp}

theorem State.mgmtDo_denied (h : s.mgmtOk x = false) : s.mgmtDo code x f = (s, ⟨code, stDenied, []⟩) := by
  rw [State.mgmtDo, h]
  exact if_pos rfl

theorem State.mgmtPacket_denied (h : s.mgmtOk x = false) : s.mgmtPacket x p = (s, some ⟨0x4B12, stDenied, []⟩) := by
  rw [State.mgmtPacket, h]
  exact if_pos rfl

variable (h : s.mgmtOk x = true)
include h

theorem State.mgmtPacket_busy (hb : s.pwr.frozen = true ∨ s.fB F.QCTL_MBX_CMD_busy = true) :
    s.mgmtPacket x p = (s, some ⟨0x4B12, stBusy, []⟩) := by
  rw [State.mgmtPacket, h]
  refine (if_neg (by simp)).trans (if_pos ?_)
  rcases hb with hb | hb <;> simp [hb]

variable (hz : s.pwr.frozen = false)
include hz

theorem State.mgmtDo_of : s.mgmtDo code x f = f s := by
  rw [State.mgmtDo, h, hz]
  rfl

theorem State.mgmtPacket_starts (hb : s.fB F.QCTL_MBX_CMD_busy = false) : s.mgmtPacket x p = (s.mailboxStart .mgmt p, none) := by
  rw [State.mgmtPacket, h, hz, hb]
  rfl

theorem State.mgmtRead_bad (ha : csrAddrBad a = true) : s.mgmtRead x a = (s, ⟨0x4B10, stFormat, []⟩) :=
  (State.mgmtDo_of h hz).trans (if_pos ha)

theorem State.mgmtRead_of (ha : csrAddrBad a = false) :
    s.mgmtRead x a = ((s.csrRead a).1, ⟨0x4B10, stOK, wordBytes (s.csrRead a).2.toNat⟩) :=
  (State.mgmtDo_of h hz).trans (if_neg (by simp [ha]))

theorem State.mgmtWrite_bad (ha : csrAddrBad a = true) : s.mgmtWrite x a v = (s, ⟨0x4B11, stFormat, []⟩) :=
  (State.mgmtDo_of h hz).trans (if_pos ha)

theorem State.mgmtWrite_of (ha : csrAddrBad a = false) : s.mgmtWrite x a v = (s.csrWrite a v, ⟨0x4B11, stOK, []⟩) :=
  (State.mgmtDo_of h hz).trans (if_neg (by simp [ha]))

section
variable (hl : l.length ≤ 4096) (ha : a + l.length ≤ 2 ^ 32)
include hl ha

theorem State.mgmtFlash_denied (hd : s.flashDenied a l.length = true) : s.mgmtFlash x a l = (s, ⟨0x4B13, stDenied, []⟩) :=
  (State.mgmtDo_of h hz).trans ((if_neg (by simp [Nat.not_lt.2 hl]; omega)).trans (if_pos hd))

theorem State.mgmtFlash_of (hd : s.flashDenied a l.length = false) (hc : s.flashBadCrc a l.length l = false) :
    s.mgmtFlash x a l = (s.flashPut a l, ⟨0x4B13, stOK, []⟩) :=
  (State.mgmtDo_of h hz).trans
    ((if_neg (by simp [Nat.not_lt.2 hl]; omega)).trans ((if_neg (by simp [hd])).trans (if_neg (by simp [hc]))))

end

end

/-! ## Datagrams -/

section
variable {s : State} {d : Datagram} {r : Resp}

theorem State.datagram_bad (h : d.version ≠ 1 ∨ 1 < d.type.toNat) : s.datagram d = s.frameDrop := if_pos h

variable (hv : d.version = 1) (ht : d.type.toNat ≤ 1)
include hv ht

theorem State.datagram_again (h : SMap.find s.cores.lastResp d.who = some (d.seq.toNat, r)) :
    s.datagram d = s.emit (.mgmt r.code d.seq.toNat r.status r.payload) := by
  rw [State.datagram, if_neg (by simp [hv, Nat.not_lt.2 ht])]
  simp only [h, if_true]

theorem State.datagram_new (h : ∀ q r, SMap.find s.cores.lastResp d.who = some (q, r) → q ≠ d.seq.toNat) :
    s.datagram d = s.datagramNew d := by
  rw [State.datagram, if_neg (by simp [hv, Nat.not_lt.2 ht])]
  dsimp only
  split
  next q r hf => exact if_neg (h q r hf)
  · rfl

omit hv ht in
/-- A datagram that is executed: its response at once, or when its packet completes. -/
theorem State.datagramNew_of {y : State × Option Resp} (hc : s.cores.mgmtCmd ≠ some (d.who, d.seq.toNat))
    (hy : y = s.mgmtServe (if d.type = 1 then d.sess.val else 256) d.msg) :
    (∀ r, y.2 = some r → s.datagramNew d = y.1.respond d.who d.seq.toNat r) ∧
    (y.2 = none → s.datagramNew d = { y.1 with cores := { y.1.cores with mgmtCmd := some (d.who, d.seq.toNat) } }) := by
  obtain ⟨u, o⟩ := y
  rw [State.datagramNew]
  simp only [hc, if_false, ← hy]
  constructor
  · intro r hr
    subst hr
    rfl
  · intro hr
    subst hr
    rfl

omit hv ht in
theorem State.mgmtServe_answers {sess : Nat} {m : MgmtMsg} (h : ∀ q, m ≠ .cmdPacket q) : (s.mgmtServe sess m).2 ≠ none := by
  cases m with
  | cmdPacket q => exact absurd rfl (h q)
  | _ => exact Option.some_ne_none _

end

/-! ## The rows -/

section
variable {s : State}

theorem exec_csrRead {x : Fin 256} {a : BitVec 32} :
    exec (.csrRead x a) s = run1 s fun s => State.reply (s.mgmtRead x a.toNat) := rfl
theorem exec_csrWrite {x : Fin 256} {a v : BitVec 32} :
    exec (.csrWrite x a v) s = run1 s fun s => State.reply (s.mgmtWrite x a.toNat v) := rfl
theorem exec_flashWrite {x : Fin 256} {a : BitVec 32} {l : List (BitVec 8)} :
    exec (.flashWrite x a l) s = run1 s fun s => State.reply (s.mgmtFlash x a.toNat l) := rfl

/-- CMD_PACKET, answered where it does not start. -/
def State.packetRow (s : State) (x : Nat) (p : BitVec 512) : State :=
  match s.mgmtPacket x p with
  | (s, some r) => State.reply (s, r)
  | (s, none) => s

theorem exec_cmdPacket {x : Fin 256} {p : BitVec 512} : exec (.cmdPacket x p) s = run1 s fun s => s.packetRow x p := rfl

theorem State.port_on (h : s.fB F.GLOBAL_MGMT_CTL_enable = true) (f : State → State) : s.port f = f s := by
  rw [State.port, h]
  exact if_pos rfl

theorem State.port_off (h : s.fB F.GLOBAL_MGMT_CTL_enable = false) (f : State → State) : s.port f = s := by
  rw [State.port, h]
  exact if_neg Bool.false_ne_true

theorem State.neighbour_mine {o : Option Nat} {ip kind : Nat} {l : List Nat} (h : o = some ip) :
    s.neighbour o ip kind l = s.emit (.mgmt kind 0 0 l) := if_pos h

theorem State.neighbour_other {o : Option Nat} {ip kind : Nat} {l : List Nat} (h : o ≠ some ip) :
    s.neighbour o ip kind l = s.frameDrop := if_neg h

variable {i : Instr} {f : State → State} (hup : s.up1 = true) (hx : exec i s = run1 s fun s => s.port f)
include hup hx

/-- A frame at the port while it is in use. -/
theorem exec_port_on (h : s.fB F.GLOBAL_MGMT_CTL_enable = true) : exec i s = .next ((f s).keep s) := by
  rw [hx, run1_up _ hup, State.port_on h]

/-- A frame at the port while it is not in use. -/
theorem exec_port_off (h : s.fB F.GLOBAL_MGMT_CTL_enable = false) : exec i s = .next s := by
  rw [hx, run1_up _ hup, State.port_off h, State.keep_self]

end

/-- Settles O60: the table of R378 by session and freeze, datagrams by their sequence, frames by their address. -/
theorem management : Obligations.Management := by
  unfold Obligations.Management
  intro s
  refine ⟨fun b h => ?_, rfl, rfl, rfl, fun hup => ⟨fun x a v p l h => ⟨?_, ?_, ?_, ?_⟩,
    fun x a v p l h hz => ⟨fun ha => ⟨?_, ?_⟩, fun ha => ⟨?_, ?_⟩, fun hb => ?_, fun hb => ?_, fun hl ha => ⟨fun hd => ?_,
      fun hd hc => ?_⟩⟩, fun he d ip six w l => ?_, fun he => ⟨fun d => ⟨fun hbad => ?_, fun hv ht => ⟨fun r hr => ?_,
      fun y hnew hc hy => ?_⟩⟩, fun sess p => ⟨fun m => State.mgmtServe_answers, fun h => State.mgmtPacket_denied h,
      fun h hb => State.mgmtPacket_busy h hb, fun h hz hb => State.mgmtPacket_starts h hz hb⟩,
      fun ip => ⟨fun h => ?_, fun h => ?_⟩, fun ip h => ⟨?_, fun l => ?_⟩, exec_port_on (i := .mgmtFrameDrop) hup rfl he⟩⟩⟩
  · show Host.Outcome.next (if s.pwr.pwrok then _ else s) = _
    rw [if_pos h]
  · rw [exec_csrRead, run1_up _ hup, State.mgmtRead, State.mgmtDo_denied h]
    rfl
  · rw [exec_csrWrite, run1_up _ hup, State.mgmtWrite, State.mgmtDo_denied h]
    rfl
  · rw [exec_cmdPacket, run1_up _ hup, State.packetRow, State.mgmtPacket_denied h]
    rfl
  · rw [exec_flashWrite, run1_up _ hup, State.mgmtFlash, State.mgmtDo_denied h]
    rfl
  · rw [exec_csrRead, run1_up _ hup, State.mgmtRead_bad h hz ha]
    rfl
  · rw [exec_csrWrite, run1_up _ hup, State.mgmtWrite_bad h hz ha]
    rfl
  · rw [exec_csrRead, run1_up _ hup, State.mgmtRead_of h hz ha, State.reply]
  · rw [exec_csrWrite, run1_up _ hup, State.mgmtWrite_of h hz ha, State.reply]
  · rw [exec_cmdPacket, run1_up _ hup, State.packetRow, State.mgmtPacket_starts h hz hb]
  · rw [exec_cmdPacket, run1_up _ hup, State.packetRow, State.mgmtPacket_busy h (Or.inr hb)]
    rfl
  · rw [exec_flashWrite, run1_up _ hup, State.mgmtFlash_denied h hz hl ha hd]
    rfl
  · rw [exec_flashWrite, run1_up _ hup, State.mgmtFlash_of h hz hl ha hd hc, State.reply]
  · exact ⟨exec_port_off (i := .mgmtDatagram d) hup rfl he, exec_port_off (i := .arp ip) hup rfl he,
      exec_port_off (i := .ndp w) hup rfl he, exec_port_off (i := .icmpEcho six w l) hup rfl he,
      exec_port_off (i := .mgmtFrameDrop) hup rfl he⟩
  · rw [exec_port_on (i := .mgmtDatagram d) hup rfl he, State.datagram_bad hbad, State.frameDrop]
  · rw [exec_port_on (i := .mgmtDatagram d) hup rfl he, State.datagram_again hv ht hr]
  · rw [exec_port_on (i := .mgmtDatagram d) hup rfl he, State.datagram_new hv ht hnew]
    obtain ⟨hsome, hnone⟩ := State.datagramNew_of hc hy
    exact ⟨fun r hr => by rw [hsome r hr], fun hr => by rw [hnone hr]⟩
  · rw [exec_port_on (i := .arp ip) hup rfl he, State.neighbour_mine h]
  · rw [exec_port_on (i := .arp ip) hup rfl he, State.neighbour_other h, State.frameDrop]
  · rw [exec_port_on (i := .ndp ip) hup rfl he, State.neighbour_mine h]
  · rw [exec_port_on (i := .icmpEcho true ip l) hup rfl he, if_pos rfl, if_pos rfl, State.neighbour_mine h]

end Sys2Proof.Machine
end

section
/-!
PROOFS. The Belfry: deliveries, actions, records, the archive ring, the device fault state (R319 - R332).
-/
namespace Sys2Proof.Machine

/-! ## Deliveries (R321) -/

/-- Takes an event where its source has none in the list yet. -/
def firstOfSrc (l : List FaultEvt) (e : FaultEvt) : List FaultEvt := if l.any fun x => x.src == e.src then l else l ++ [e]

theorem firstOfSrc_nodup {l : List FaultEvt} (e : FaultEvt) (h : (l.map fun x => x.src).Nodup) :
    ((firstOfSrc l e).map fun x => x.src).Nodup := by
  rw [firstOfSrc]
  split
  · exact h
  next hno =>
    have hnew : e.src ∉ l.map fun x => x.src := by simpa using hno
    rw [List.map_append, List.nodup_append]
    refine ⟨h, List.nodup_singleton _, fun a ha b hb hab => hnew ?_⟩
    rw [List.map_singleton, List.mem_singleton] at hb
    rw [← hb, ← hab]
    exact ha

theorem firstsOfSrc_nodup (r : List FaultEvt) {l : List FaultEvt} (h : (l.map fun x => x.src).Nodup) :
    ((r.foldl firstOfSrc l).map fun x => x.src).Nodup := by
  induction r generalizing l with
  | nil => exact h
  | cons e r ih => exact ih (firstOfSrc_nodup e h)

theorem mem_firstsOfSrc {r l : List FaultEvt} {x : FaultEvt} (h : x ∈ r.foldl firstOfSrc l) : x ∈ l ∨ x ∈ r := by
  induction r generalizing l with
  | nil => exact Or.inl h
  | cons e r ih =>
    rcases ih h with h | h
    · rw [firstOfSrc] at h
      split at h
      · exact Or.inl h
      · rcases List.mem_append.1 h with h | h
        · exact Or.inl h
        · exact Or.inr (by rw [List.mem_singleton.1 h]; exact List.mem_cons_self)
    · exact Or.inr (List.mem_cons_of_mem _ h)

section
variable (s : State)

theorem State.dueEvts_eq : s.dueEvts = ((s.bel.evts.filter fun e => s.srcDriven e.src && !s.srcBroken e.src).foldl firstOfSrc
    []).mergeSort fun a b => decide (a.src ≤ b.src) := rfl

theorem State.dueEvts_can {e : FaultEvt} (h : e ∈ s.dueEvts) :
    e ∈ s.bel.evts ∧ s.srcDriven e.src = true ∧ s.srcBroken e.src = false := by
  rw [State.dueEvts_eq, List.mem_mergeSort] at h
  obtain ⟨he, hc⟩ := List.mem_filter.1 ((mem_firstsOfSrc h).resolve_left List.not_mem_nil)
  obtain ⟨hd, hb⟩ := Bool.and_eq_true_iff.1 hc
  exact ⟨he, hd, by simpa using hb⟩

/-- The events of one cycle come in ascending order of their sources, one of each. -/
theorem State.dueEvts_ascend : (s.dueEvts.map fun e => e.src).Pairwise fun a b => a < b := by
  rw [State.dueEvts_eq]
  generalize hl : (s.bel.evts.filter fun e => s.srcDriven e.src && !s.srcBroken e.src).foldl firstOfSrc [] = l
  have hnodup : (l.map fun e => e.src).Nodup := by rw [← hl]; exact firstsOfSrc_nodup _ List.nodup_nil
  have hsorted := l.pairwise_mergeSort (le := fun a b => decide (a.src ≤ b.src))
    (fun a b c hab hbc => by simp only [decide_eq_true_eq] at hab hbc ⊢; omega)
    (fun a b => by simp only [Bool.or_eq_true, decide_eq_true_eq]; omega)
  have hperm : ((l.mergeSort fun a b => decide (a.src ≤ b.src)).map fun e => e.src).Nodup :=
    ((List.mergeSort_perm l _).map _).nodup_iff.2 hnodup
  have hle : ((l.mergeSort fun a b => decide (a.src ≤ b.src)).map fun e => e.src).Pairwise fun a b => a ≤ b :=
    List.pairwise_map.2 (hsorted.imp fun h => by simpa using h)
  exact (hle.and hperm).imp fun h => Nat.lt_of_le_of_ne h.1 h.2

end

/-! ## Sources (R320) -/

section
variable {s : State} {n : Nat} {stays : Bool}

theorem State.wireFault_off (h : s.srcDriven n = false) : s.wireFault n stays = s := if_pos (by simp [h])

theorem State.wireFault_broken (h : s.srcDriven n = true) (hb : s.srcBroken n = true) :
    s.wireFault n stays = s.setPair n ⟨stays, true⟩ := (if_neg (by simp [h])).trans (if_pos hb)

theorem State.wireFault_new (h : s.srcDriven n = true) (hb : s.srcBroken n = false) :
    s.wireFault n stays = (s.setPair n ⟨stays, true⟩).faultIn ⟨n, 0, 0, none, 0, 1, true⟩ :=
  (if_neg (by simp [h])).trans (if_neg (by simp [hb]))

/-- The setting that a write of BELFRY_SRC_CFG leaves for a source of class `c`. -/
def State.newCfg (s : State) (n c : Nat) (v : Word) : Word :=
  (s.srcCfg n &&& ~~~0xF81#32) ||| (v &&& 0xF80) ||| (if c = 2 then 1 else v &&& 1)

theorem State.srcCfgWrite_none {v : Word} (h : srcInfo (s.fN F.BELFRY_SRC_IDX_source) = none) : s.srcCfgWrite v = s := by
  rw [State.srcCfgWrite]
  simp only [h]

/-- A pair that reads valid is cleared where the write says so. -/
def State.clearPair (s : State) (n : Nat) (v : Word) (p : PairSt) : State :=
  if F.BELFRY_SRC_CFG_broken.on v && !p.invalid then s.setPair n ⟨false, false⟩ else s

theorem State.srcCfgWrite_of {v : Word} {x : Nat × Nat × Bool} {t : State} (hn : n = s.fN F.BELFRY_SRC_IDX_source)
    (h : srcInfo n = some x)
    (ht : t = { s with bel := { s.bel with cfg := SMap.store s.bel.cfg (srcCfgReset n) n (s.newCfg n x.1 v) } }) :
    s.srcCfgWrite v = if F.BELFRY_SRC_CFG_inject.on v then (t.clearPair n v (SMap.findD s.bel.pairs n ⟨false, false⟩)).raise n
      else t.clearPair n v (SMap.findD s.bel.pairs n ⟨false, false⟩) := by
  obtain ⟨c, y, z⟩ := x
  rw [ht, State.srcCfgWrite]
  simp only [← hn, h]
  rfl

theorem State.clearPair_keeps {v : Word} {p : PairSt} (h : F.BELFRY_SRC_CFG_broken.on v = false ∨ p.invalid = true) :
    s.clearPair n v p = s := if_neg (by rcases h with h | h <;> simp [h])

theorem State.clearPair_clears {v : Word} {p : PairSt} (h : F.BELFRY_SRC_CFG_broken.on v = true) (hp : p.invalid = false) :
    s.clearPair n v p = s.setPair n ⟨false, false⟩ := if_pos (by simp [h, hp])

theorem State.pair_setPair (s : State) (n : Nat) (p : PairSt) :
    SMap.findD (s.setPair n p).bel.pairs n ⟨false, false⟩ = p := SMap.findD_store_same _ _ _ _

theorem State.srcBroken_setPair (s : State) (n : Nat) (p : PairSt) : (s.setPair n p).srcBroken n = p.broken := by
  rw [State.srcBroken, State.pair_setPair]

theorem State.srcBroken_raise (s : State) (n m : Nat) : (s.raise n).srcBroken m = s.srcBroken m := by
  rw [State.raise]
  split <;> rfl

theorem State.raise_chans (s : State) (n : Nat) : (s.raise n).chans = s.chans := by
  rw [State.raise]
  split <;> rfl

end

/-- 1 written to broken of the source that BELFRY_SRC_IDX names, whose pair still reads as `invalid` says. -/
def State.clearBroken (s : State) (invalid : Bool) : State :=
  let u := if s.srcBroken (s.fN F.BELFRY_SRC_IDX_source) then s.setPair (s.fN F.BELFRY_SRC_IDX_source) ⟨invalid, true⟩ else s
  u.srcCfgWrite (u.srcCfg (s.fN F.BELFRY_SRC_IDX_source) ||| 0x80000000)

theorem exec_brokenClear {s : State} {invalid : Bool} : exec (.brokenClear invalid) s = run s fun s => s.clearBroken invalid := rfl

section
variable {s u : State} {n : Nat} {invalid : Bool} (hn : n = s.fN F.BELFRY_SRC_IDX_source)
  (hu : u = if s.srcBroken n = true then s.setPair n ⟨invalid, true⟩ else s)
include hn hu

omit hn in
theorem State.newPair_frame : (∀ f : Fld, u.fN f = s.fN f) ∧ u.bel.cfg = s.bel.cfg ∧ u.home = s.home ∧ u.chans = s.chans := by
  subst hu
  split <;> exact ⟨fun _ => rfl, rfl, rfl, rfl⟩

theorem State.clearBroken_eq : s.clearBroken invalid = u.srcCfgWrite (s.srcCfg n ||| 0x80000000) := by
  obtain ⟨-, hcfg, -⟩ := State.newPair_frame hu
  have hsame : u.srcCfg n = s.srcCfg n := by rw [State.srcCfg, hcfg, ← State.srcCfg]
  rw [← hsame, hu, hn]
  rfl

theorem State.clearBroken_none (h : srcInfo n = none) : s.clearBroken invalid = u := by
  obtain ⟨hfN, -⟩ := State.newPair_frame hu
  rw [State.clearBroken_eq hn hu, State.srcCfgWrite_none (by rw [hfN, ← hn, h])]

theorem State.clearBroken_of {x : Nat × Nat × Bool} {v : Word} {t : State} (h : srcInfo n = some x)
    (hv : v = s.srcCfg n ||| 0x80000000)
    (ht : t = { u with bel := { u.bel with cfg := SMap.store u.bel.cfg (srcCfgReset n) n (s.newCfg n x.1 v) } }) :
    s.clearBroken invalid = if F.BELFRY_SRC_CFG_inject.on v then
        (t.clearPair n v (SMap.findD u.bel.pairs n ⟨false, false⟩)).raise n
      else t.clearPair n v (SMap.findD u.bel.pairs n ⟨false, false⟩) := by
  obtain ⟨hfN, hcfg, -⟩ := State.newPair_frame hu
  have hnew : u.newCfg n x.1 v = s.newCfg n x.1 v := by rw [State.newCfg, State.srcCfg, hcfg, ← State.srcCfg, ← State.newCfg]
  rw [State.clearBroken_eq hn hu, ← hv, State.srcCfgWrite_of (t := t) (by rw [hfN, hn]) h (by rw [ht, hnew])]

end

/-- The home and the channels take no part in the Belfry's settings. -/
theorem State.srcCfgWrite_frame (s : State) (v : Word) : (s.srcCfgWrite v).home = s.home ∧ (s.srcCfgWrite v).chans = s.chans := by
  cases h : srcInfo (s.fN F.BELFRY_SRC_IDX_source) with
  | none => rw [State.srcCfgWrite_none h]; exact ⟨rfl, rfl⟩
  | some x =>
    have hpair : ∀ (t : State) n w p, (t.clearPair n w p).home = t.home ∧ (t.clearPair n w p).chans = t.chans := fun t n w p => by
      rw [State.clearPair]
      split <;> exact ⟨rfl, rfl⟩
    rw [State.srcCfgWrite_of rfl h rfl]
    split
    · rw [State.raise_home, State.raise_chans]
      exact hpair _ _ _ _
    · exact hpair _ _ _ _

/-! ## Actions and records -/

section
variable {s : State} {e : FaultEvt}

theorem State.faultActs_bit (h : e.wire = false) {i : Nat} (hi : i < 5) : bit (s.faultActs e).2 i =
    ((bit (s.srcCfg e.src).toNat (7 + i) && bit (s.rd R.BELFRY_CLASS_ACT 0 (bits (s.srcCfg e.src).toNat 1 3)).toNat i) ||
      bit (s.rd R.BELFRY_CLASS_ACT 0 (bits (s.srcCfg e.src).toNat 1 3)).toNat (8 + i)) := by
  have hlow : (0x1F#32).getLsbD i = true := by interval_cases i <;> rfl
  simp only [State.faultActs, h, Bool.false_eq_true, if_false, bit_testBit, BitVec.testBit_toNat, BitVec.getLsbD_or,
    BitVec.getLsbD_and, BitVec.getLsbD_ushiftRight, BitVec.ofNat_eq_ofNat, hlow, Bool.and_true]

theorem State.faultActs_class (h : e.wire = false) : (s.faultActs e).1 = bits (s.srcCfg e.src).toNat 1 3 := by
  simp only [State.faultActs, h, Bool.false_eq_true, if_false]

theorem State.newRec_full {cls acts : Nat} (h : SMap.firstFree s.bel.recs 512 = none) :
    s.newRec cls e acts = s.overflowRec cls e.src e.count := by
  rw [State.newRec, h]

/-- A fault that merges with no record, in the lowest free slot. -/
def FaultEvt.record (e : FaultEvt) (s : State) (cls acts : Nat) : FaultRec :=
  ⟨e.src, cls, e.addr, false, e.dome, e.ctx, e.count - 1, acts, e.detail, s.bel.seq, s.refCount, none, false⟩

theorem State.newRec_of {cls acts k : Nat} (h : SMap.firstFree s.bel.recs 512 = some k) : s.newRec cls e acts =
    { s.putRec k (e.record s cls acts) with
      bel := { (s.putRec k (e.record s cls acts)).bel with seq := s.bel.seq + 1 } } := by
  rw [State.newRec, h]
  rfl

end

/-- The older of two records. -/
def olderRec (acc : Option (Nat × FaultRec)) (e : Nat × FaultRec) : Option (Nat × FaultRec) :=
  match acc with
  | none => some e
  | some b => if e.2.seq < b.2.seq then some e else some b

theorem olderRec_oldest {l : List (Nat × FaultRec)} {acc : Option (Nat × FaultRec)} {x : Nat × FaultRec}
    (h : l.foldl olderRec acc = some x) :
    (acc = some x ∨ x ∈ l) ∧ (∀ b, acc = some b → x.2.seq ≤ b.2.seq) ∧ ∀ e ∈ l, x.2.seq ≤ e.2.seq := by
  induction l generalizing acc with
  | nil => exact ⟨Or.inl h, fun b hb => by rw [List.foldl_nil, hb] at h; rw [Option.some.inj h], fun e he => absurd he List.not_mem_nil⟩
  | cons y r ih =>
    obtain ⟨hmem, hacc, hr⟩ := ih h
    have hstep : (olderRec acc y = some y ∨ olderRec acc y = acc) ∧ ∀ c, olderRec acc y = some c →
        c.2.seq ≤ y.2.seq ∧ ∀ b, acc = some b → c.2.seq ≤ b.2.seq := by
      rcases acc with - | b
      · exact ⟨Or.inl rfl, fun c hc => ⟨by rw [Option.some.inj hc], fun b hb => absurd hb (by simp)⟩⟩
      · rw [olderRec]
        split
        next hlt => exact ⟨Or.inl rfl, fun c hc => ⟨by rw [Option.some.inj hc], fun b' hb => by
          rw [← Option.some.inj hc, ← Option.some.inj hb]; exact Nat.le_of_lt hlt⟩⟩
        next hle => exact ⟨Or.inr rfl, fun c hc => ⟨by rw [← Option.some.inj hc]; exact Nat.not_lt.1 hle, fun b' hb => by
          rw [← Option.some.inj hc, ← Option.some.inj hb]⟩⟩
    obtain ⟨hone, hle⟩ := hstep
    obtain ⟨c, hc⟩ : ∃ c, olderRec acc y = some c := by
      rcases acc with - | b
      · exact ⟨y, rfl⟩
      · rw [olderRec]; split <;> exact ⟨_, rfl⟩
    have hxc := hacc c hc
    obtain ⟨hcy, hcb⟩ := hle c hc
    refine ⟨?_, fun b hb => Nat.le_trans hxc (hcb b hb), fun e he => ?_⟩
    · rcases hmem with hmem | hmem
      · rcases hone with hone | hone
        · rw [hone] at hmem
          exact Or.inr (by rw [Option.some.inj hmem]; exact List.mem_cons_self)
        · exact Or.inl (hone ▸ hmem)
      · exact Or.inr (List.mem_cons_of_mem _ hmem)
    · rcases List.mem_cons.1 he with rfl | he
      · exact Nat.le_trans hxc hcy
      · exact hr e he

theorem oldestRec_oldest {l : List (Nat × FaultRec)} {x : Nat × FaultRec} (h : oldestRec l = some x) :
    x ∈ l ∧ ∀ e ∈ l, x.2.seq ≤ e.2.seq := by
  obtain ⟨hmem, -, hle⟩ := olderRec_oldest (acc := none) h
  exact ⟨hmem.resolve_left (by simp), hle⟩

section
variable {s t : State} (ht : t = s.recTidy)
include ht

theorem State.recNext_of {k : Nat} {r : FaultRec} (h : oldestRec (t.bel.recs.filter fun e => !e.2.read) = some (k, r)) :
    s.recNext = (t.putRec k { r with read := true }, BitVec.ofNat 32 (2 ^ 31 + k)) := by
  subst ht
  rw [State.recNext]
  simp only [h]

theorem State.recNext_none (h : ∀ e ∈ t.bel.recs, e.2.read = true) : s.recNext = (t, 0) := by
  have hnone : (t.bel.recs.filter fun e => !e.2.read) = [] := List.filter_eq_nil_iff.2 fun e he => by simp [h e he]
  subst ht
  rw [State.recNext]
  simp only [hnone]
  rfl

theorem State.recClose_of {k a : Nat} {r : FaultRec} {u v : State} (h : SMap.find t.bel.recs k = some r) (hr : r.arch = none)
    (ha : a = t.bel.archNext) (hu : u = t.putRec k { r with arch := some a })
    (hv : v = { u with bel := { u.bel with archNext := (a + 1) % 2 ^ 21,
                                           archWrapped := u.bel.archWrapped || ((a + 1) % 2 ^ 21 == 0) } }) :
    s.recClose k = (v.deviceTx { newTx .plainWr .device 0 (v.archiveAddr a / 64) 33 with
      wdata := ⟨BitVec.ofNat 512 (r.image * 2 ^ (256 * (a % 2))), 0⟩
      be := rangeBe (32 * (a % 2)) 32
      fill := some 0
      maint := true }).recTidy := by
  subst ht hv hu ha
  rw [State.recClose]
  simp only [h, hr, Option.isSome_none, Bool.false_eq_true, if_false]

theorem State.recClose_not (k : Nat) (h : SMap.find t.bel.recs k = none ∨ ∃ r a, SMap.find t.bel.recs k = some r ∧ r.arch = some a) :
    s.recClose k = t := by
  subst ht
  rw [State.recClose]
  rcases h with h | ⟨r, a, h, hr⟩
  · simp only [h]
  · simp only [h, hr, Option.isSome_some, if_true]

end

/-! ## The device fault state (R330 - R332) -/

section
variable (s : State)

theorem State.dropOrigin_bel (o : Origin) : (s.dropOrigin o).bel = s.bel := by
  refine foldl_keeps State.bel (fun s t => if t.upd then s.dropTx t else s.putTx { t with origin := .gone o.isBeat })
    (fun t x => ?_) _ _
  split
  · rw [State.dropTx, State.readyLine]
    split
    · rw [State.readyAs]
      split <;> rfl
    · rfl
  · rfl

theorem State.addEvent_bel (l : Fin 4) (k a : Nat) : (s.addEvent l k a).bel = s.bel := by
  unfold State.addEvent
  dsimp only
  split
  · refine foldl_keeps State.bel _ (fun b a => ?_) _ _
    split <;> rfl
  · rfl

variable {s}

theorem State.dfsFault_again (h : s.bel.active = true) : s.dfsFault = s := if_pos h

theorem State.dfsFault_bel (h : s.bel.active = false) :
    s.dfsFault.bel = { s.bel with active := true, latched := s.dfsLatches } := by
  rw [State.dfsFault, if_neg (by simp [h])]
  dsimp only
  generalize hx : { s with bel := { s.bel with active := true, latched := s.dfsLatches } } = x
  have hdrop := foldl_keeps State.bel (fun (s : State) (e : Nat × QDesc) => s.dropOrigin (.queue e.1))
    (fun t e => t.dropOrigin_bel _) s.q.desc x
  have hbel : (((s.q.desc.foldl (fun (s : State) (e : Nat × QDesc) => s.dropOrigin (.queue e.1)) x).wagEvent 6).addEvent 3 7 0).bel =
      { s.bel with active := true, latched := s.dfsLatches } := by
    rw [State.addEvent_bel]
    exact hdrop.trans (by rw [← hx])
  split
  · exact hbel
  · exact hbel

theorem State.quietExpiry_of (h : s.quietRuns = true) : s.quietExpiry = (({ s with bel := { s.bel with
    active := false, recoveries := min 0xFFFF (s.bel.recoveries + 1) } } : State).wagEvent 7).redispatch := if_pos h

theorem State.quietExpiry_not (h : s.quietRuns = false) : s.quietExpiry = s := if_neg (by simp [h])

theorem State.dfsCtlWrite_clears {v : Word} (h : F.BELFRY_DFS_CTL_clr_count.on v = true) :
    (s.dfsCtlWrite v).bel = { s.bel with recoveries := 0 } := by
  rw [State.dfsCtlWrite]
  exact congrArg State.bel (if_pos h)

end

theorem exec_faultInject {s : State} : exec .faultInject s = run s fun s =>
    s.srcCfgWrite (s.srcCfg (s.fN F.BELFRY_SRC_IDX_source) ||| 0x40000000) := rfl
theorem exec_wireFault {s : State} {n : Fin 1536} {stays : Bool} :
    exec (.wireFault n stays) s = run s fun s => s.wireFault n.val stays := rfl
theorem exec_recNext {s : State} : exec .recNext s = run s fun s => s.recNext.1.emit (.csr (R.BELFRY_REC_NEXT.addr 0 0) s.recNext.2) :=
  rfl
theorem exec_recClose {s : State} {k : Fin 512} : exec (.recClose k) s = run s fun s => s.recClose k.val := rfl
theorem exec_ovfCntRead {s : State} {c : Fin 5} : exec (.ovfCntRead c) s = run s fun s =>
    (s.ovfRead c.val).1.emit (.csr (R.BELFRY_OVF_CNT.addr 0 c) (s.ovfRead c.val).2) := rfl
theorem exec_quietExpiry {s : State} : exec .quietExpiry s = run s fun s => s.quietExpiry := rfl
theorem exec_clrCount {s : State} : exec .clrCount s = run s fun s => s.dfsCtlWrite (s.rd R.BELFRY_DFS_CTL ||| 0x02000000) := rfl

/-- Clearing a pair that reads valid leaves its source unbroken; a write of broken is one whatever else stands in the word. -/
theorem State.clearBroken_valid {s : State} {n : Nat} {x : Nat × Nat × Bool} (hn : n = s.fN F.BELFRY_SRC_IDX_source)
    (h : srcInfo n = some x) (hb : s.srcBroken n = true) : (s.clearBroken false).srcBroken n = false := by
  have hon : F.BELFRY_SRC_CFG_broken.on (s.srcCfg n ||| 0x80000000) = true := Fld.on_or_of_set _ _ _ (by decide)
  rw [State.clearBroken_of hn rfl h rfl rfl, if_pos hb,
    State.clearPair_clears hon (by rw [State.pair_setPair])]
  split
  · rw [State.srcBroken_raise, State.srcBroken_setPair]
  · rw [State.srcBroken_setPair]

/-- Settles O54. -/
theorem faultsAndRecords : Obligations.FaultsAndRecords := by
  refine ⟨fun s hup => ⟨run_up _ hup, ⟨fun e he => s.dueEvts_can he, s.dueEvts_ascend⟩, fun n stays => ⟨fun h => ?_, fun h hb => ?_,
      fun h hb => ?_⟩, fun n x v new t hn hx hv hb hnew ht => ?_, fun n x t hn hx hb h => ?_, fun invalid n u hn hu => ⟨fun h => ?_,
      fun x v new t hx hv hi hnew ht => ?_⟩, fun invalid => ⟨_, by rw [exec_brokenClear, run_up _ hup], ?_, ?_⟩,
      fun e he => ⟨State.faultActs_class he, fun i hi => ?_⟩, fun e cls acts => ⟨fun k hk => ?_, State.newRec_full⟩,
      fun r e => ⟨rfl, ?_⟩⟩,
    fun s hup => ⟨fun t ht => ⟨fun k r h => ?_, fun h => ?_, fun k r u v a hk hr ha hu hv => ?_, fun k h => ?_⟩,
      fun k r l h => oldestRec_oldest h, fun c o ho => ?_, fun h => ?_, fun h => ?_,
      ⟨_, exec_clrCount.trans (run_up _ hup), ?_⟩,
      State.dfsFault_again, fun h => ?_⟩⟩
  · rw [exec_wireFault, run_up _ hup, State.wireFault_off h, State.keep_self]
  · rw [exec_wireFault, run_up _ hup, State.wireFault_broken h hb]
  · rw [exec_wireFault, run_up _ hup, State.wireFault_new h hb]
  · rw [exec_faultInject, run_up _ hup, ← hn, ← hv, State.srcCfgWrite_of (t := t) hn hx (by rw [ht, hnew]; rfl),
      if_pos (by rw [hv]; exact Fld.on_or_of_set _ _ _ (by decide)), State.clearPair_keeps (Or.inl hb)]
  · rw [exec_brokenClear, run_up _ hup] at h
    rw [← Host.Outcome.next.inj h]
    exact State.clearBroken_valid hn hx hb
  · rw [exec_brokenClear, run_up _ hup, State.clearBroken_none hn hu h]
  · have hon : F.BELFRY_SRC_CFG_broken.on v = true := by rw [hv]; exact Fld.on_or_of_set _ _ _ (by decide)
    have hrun : exec (.brokenClear invalid) s = .next ((t.clearPair n v (SMap.findD u.bel.pairs n ⟨false, false⟩)).keep s) := by
      rw [exec_brokenClear, run_up _ hup, State.clearBroken_of (t := t) hn hu hx hv (by rw [ht, hnew]; rfl), if_neg (by simp [hi])]
    refine ⟨fun hb hinv => ?_, fun hb hinv => ?_, fun hb => ?_⟩
    · rw [hrun, State.clearPair_keeps (Or.inr (by rw [hu, if_pos hb, State.pair_setPair, hinv]))]
    · rw [hrun, State.clearPair_clears hon (by rw [hu, if_pos hb, State.pair_setPair, hinv])]
    · rw [hrun, hu, if_neg (by simp [hb])]
      split
      next hp => rw [State.clearPair_keeps (Or.inr hp)]
      next hp => rw [State.clearPair_clears hon (by simpa using hp)]
  · exact (State.srcCfgWrite_frame _ _).1.trans (State.newPair_frame (invalid := invalid) rfl).2.2.1
  · exact (State.srcCfgWrite_frame _ _).2.trans (State.newPair_frame (invalid := invalid) rfl).2.2.2
  · rw [State.faultActs_class he]
    exact State.faultActs_bit he hi
  · exact ⟨_, _, State.newRec_of hk, SMap.find_put_same _ _ _, rfl, rfl, rfl, rfl, rfl, rfl, rfl, rfl⟩
  · simp only [FaultRec.merge, Bool.or_eq_true, bne_iff_ne, ne_eq, or_assoc]
  · rw [exec_recNext, run_up _ hup, State.recNext_of ht h]
  · rw [exec_recNext, run_up _ hup, State.recNext_none ht h]
  · rw [exec_recClose, run_up _ hup, State.recClose_of ht hk hr ha hu hv]
  · rw [exec_recClose, run_up _ hup, State.recClose_not ht _ h]
  · rw [exec_ovfCntRead, run_up _ hup, ho, State.ovfRead]
  · rw [exec_quietExpiry, run_up _ hup, State.quietExpiry_of h]
  · rw [exec_quietExpiry, run_up _ hup, State.quietExpiry_not h, State.keep_self]
  · exact State.dfsCtlWrite_clears (Fld.on_or_of_set _ _ _ (by decide))
  · rw [State.dfsFault_bel h]
    exact ⟨rfl, rfl⟩

end Sys2Proof.Machine
end

section
/-!
PROOFS. What the channels, the honey cache and the home leave alone: the power state, the security root and queue control.
-/
namespace Sys2Proof.Machine

/-- Two states with the same power state, the same security root and the same commands. -/
def State.SameRoot (t s : State) : Prop := t.pwr = s.pwr ∧ t.sec = s.sec ∧ t.q = s.q

theorem State.SameRoot.refl {s : State} : s.SameRoot s := ⟨rfl, rfl, rfl⟩
theorem State.SameRoot.trans {u t s : State} (h : u.SameRoot t) (h' : t.SameRoot s) : u.SameRoot s :=
  ⟨h.1.trans h'.1, h.2.1.trans h'.2.1, h.2.2.trans h'.2.2⟩

theorem State.SameRoot.ite {c : Prop} [Decidable c] {a b s : State} (ha : a.SameRoot s) (hb : b.SameRoot s) :
    (if c then a else b).SameRoot s := by
  split
  · exact ha
  · exact hb

/-- A fold keeps the root where each of its steps does. -/
theorem foldl_root {α : Type} (f : State → α → State) (hf : ∀ s a, (f s a).SameRoot s) (l : List α) (s : State) :
    (l.foldl f s).SameRoot s := by
  induction l generalizing s with
  | nil => exact .refl
  | cons a l ih => exact (ih (f s a)).trans (hf s a)

section
variable (s : State)

/-! ## Registers, faults, events, locks -/

theorem State.fFlag_root (f : Fld) (b : Bool) (i k : Nat) : (s.fFlag f b i k).SameRoot s := ⟨rfl, rfl, rfl⟩
theorem State.fSet_root (f : Fld) (v i k : Nat) : (s.fSet f v i k).SameRoot s := ⟨rfl, rfl, rfl⟩
theorem State.bump_root (f : Fld) (n i k : Nat) : (s.bump f n i k).SameRoot s := ⟨rfl, rfl, rfl⟩

theorem State.raise_root (a : Nat) (b : Ctx) (c : Nat) (d : Option Nat) (e : Nat) : (s.raise a b c d e).SameRoot s := by
  rw [State.raise]
  split <;> exact ⟨rfl, rfl, rfl⟩

theorem State.addEvent_root (l : Fin 4) (k a : Nat) : (s.addEvent l k a).SameRoot s := by
  rw [State.addEvent]
  dsimp only
  split
  · refine (foldl_root _ (fun t p => ?_) _ _).trans ⟨rfl, rfl, rfl⟩
    split <;> exact ⟨rfl, rfl, rfl⟩
  · exact ⟨rfl, rfl, rfl⟩

theorem State.readyAs_root (line : Nat) (r : Bool) : (s.readyAs line r).SameRoot s := by
  rw [State.readyAs]
  split <;> exact ⟨rfl, rfl, rfl⟩

theorem State.readyLine_root (line : Nat) : (s.readyLine line).SameRoot s := by
  rw [State.readyLine]
  split
  · exact s.readyAs_root line true
  · exact .refl

theorem State.dropTx_root (t : Tx) : (s.dropTx t).SameRoot s := State.readyLine_root _ _

theorem State.enter_root (t : Tx) : (s.enter t).SameRoot s := by
  rw [State.enter]
  dsimp only
  split
  · exact ⟨rfl, rfl, rfl⟩
  · exact State.readyAs_root _ _ _

/-! ## Stored lines and the CE log -/

theorem State.storedPut_root (ch loc : Nat) (v : Stored) : (s.storedPut ch loc v).SameRoot s := by
  rw [State.storedPut]
  split <;> exact ⟨rfl, rfl, rfl⟩

theorem State.flushWr_root (ch loc : Nat) : (s.flushWr ch loc).SameRoot s := by
  rw [State.flushWr]
  split
  · exact State.storedPut_root _ _ _ _
  · exact .refl

theorem State.raiseCe_root (ch loc : Nat) : (s.raiseCe ch loc).SameRoot s :=
  (State.addEvent_root _ _ _ _).trans (s.raise_root _ _ _ _ _)

theorem State.logCeAt_root (ch loc w syn : Nat) : (s.logCeAt ch loc w syn).1.SameRoot s := by
  rw [State.logCeAt]
  dsimp only
  split
  · split
    · exact State.raiseCe_root _ _ _
    · exact ⟨rfl, rfl, rfl⟩
  · split
    · split
      · exact (State.raiseCe_root _ _ _).trans (State.raiseCe_root _ _ _)
      · exact State.raiseCe_root _ _ _
    · exact ⟨rfl, rfl, rfl⟩

theorem State.vmapCorrupt_root (idx : Nat) (m : BitVec 16) : (s.vmapCorrupt idx m).SameRoot s :=
  (State.raise_root _ _ _ _ _ _).trans ((State.fSet_root _ _ _ _ _).trans ((State.bump_root _ _ _ _ _).trans
    ((State.fFlag_root _ _ _ _ _).trans ((State.fFlag_root _ _ _ _ _).trans (s.fFlag_root _ _ _ _)))))

theorem State.mapUe_root (dpa : Nat) (u : BitVec 16) : (s.mapUe dpa u).SameRoot s := by
  rw [State.mapUe]
  split
  · exact s.vmapCorrupt_root _ _
  · exact .refl

theorem State.countUe_root (ch : Nat) (m : BitVec 16) : (s.countUe ch m).SameRoot s := s.bump_root _ _ _ _

theorem State.spareReads_root (ch loc : Nat) : (s.spareReads ch loc).SameRoot s := ⟨rfl, rfl, rfl⟩

theorem State.remapPut_root (ch k : Nat) (e : RemapEnt) : (s.remapPut ch k e).SameRoot s :=
  (State.fSet_root _ _ _ _ _).trans ⟨rfl, rfl, rfl⟩

theorem State.installCopy_root (ch k loc : Nat) (auto : Bool) : (s.installCopy ch k loc auto).SameRoot s := by
  rw [State.installCopy]
  refine (State.addEvent_root _ _ _ _).trans ((State.spareReads_root _ _ _).trans ((State.mapUe_root _ _ _).trans
    ((State.countUe_root _ _ _).trans ?_)))
  refine (foldl_root _ (fun t x => ?_) _ _).trans ((State.remapPut_root _ _ _ _).trans (s.flushWr_root ch loc))
  split
  · exact t.logCeAt_root _ _ _ _
  · exact .refl

theorem State.autoRemap_root (ch loc : Nat) : (s.autoRemap ch loc).SameRoot s := by
  rw [State.autoRemap]
  split
  · exact .refl
  · split
    · exact s.installCopy_root _ _ _ _
    · exact (State.addEvent_root _ _ _ _).trans (s.raise_root _ _ _ _ _)

theorem State.logCe_root (ch loc w syn : Nat) : (s.logCe ch loc w syn).SameRoot s := by
  have h := s.logCeAt_root ch loc w syn
  rw [State.logCe]
  generalize s.logCeAt ch loc w syn = x at h ⊢
  obtain ⟨t, _ | _⟩ := x
  · exact h
  · dsimp only
    split
    · exact (t.autoRemap_root ch loc).trans h
    · exact h

theorem State.logCes_root (ch loc : Nat) (ds : List Dec) : (s.logCes ch loc ds).SameRoot s := by
  refine foldl_root _ (fun t x => ?_) _ _
  split
  · exact t.logCe_root _ _ _ _
  · exact .refl

/-! ## Accesses to the channels -/

theorem State.wqPut_root (ch : Nat) (w : WrEnt) : (s.wqPut ch w).SameRoot s := by
  rw [State.wqPut]
  split
  · exact s.storedPut_root _ _ _
  · dsimp only
    split <;> exact ⟨rfl, rfl, rfl⟩

theorem State.maintReject_root (ch : Nat) : (s.maintReject ch).SameRoot s := State.raise_root _ _ _ _ _ _

theorem State.dropVictim_root (line : Nat) : (s.dropVictim line).SameRoot s := by
  rw [State.dropVictim]
  split
  · exact s.dropTx_root _
  · exact .refl

theorem State.chStore_root (ch loc line : Nat) (l : Line) (p : Pri) (ctx : Ctx) (maint : Bool) :
    (s.chStore ch loc line l p ctx maint).SameRoot s := by
  rw [State.chStore]
  dsimp only
  split
  · split
    · exact s.dropVictim_root line
    · exact (State.wqPut_root _ _ _).trans (s.dropVictim_root line)
  · exact s.dropVictim_root line

theorem State.chPut_root (line : Nat) (l : Line) (p : Pri) (ctx : Ctx) (maint : Bool) : (s.chPut line l p ctx maint).SameRoot s := by
  rw [State.chPut]
  split
  · exact .refl
  · split
    · exact s.chStore_root _ _ _ _ _ _ _
    · exact .refl
    · exact s.maintReject_root _

theorem State.chRead_root (ch loc line : Nat) : (s.chRead ch loc line).1.SameRoot s := by
  rw [State.chRead]
  split
  · exact .refl
  · exact (State.countUe_root _ _ _).trans ((State.logCes_root _ _ _ _).trans (s.flushWr_root ch loc))

/-! ## The honey cache -/

theorem State.hDrop_root (key : Nat) (wb : Bool) (p : Pri) : (s.hDrop key wb p).SameRoot s := by
  rw [State.hDrop]
  split
  · exact .refl
  · dsimp only
    split
    · exact State.SameRoot.trans ⟨rfl, rfl, rfl⟩ (s.chPut_root _ _ _ _ _)
    · exact ⟨rfl, rfl, rfl⟩

theorem State.hPlace_root (line way : Nat) (l : Line) (dirty pinned : Bool) (dome : Nat) (wctx : Ctx) (p : Pri) :
    (s.hPlace line way l dirty pinned dome wctx p).SameRoot s := State.SameRoot.trans ⟨rfl, rfl, rfl⟩ (s.hDrop_root _ true p)

theorem State.hWrite_root (key line : Nat) (x : HLine) (l : Line) (p : Pri) (ctx : Ctx) :
    (s.hWrite key line x l p ctx).SameRoot s := by
  rw [State.hWrite]
  dsimp only
  split
  · exact State.chPut_root _ _ _ _ _ _
  · exact ⟨rfl, rfl, rfl⟩

theorem State.overflowRec_root (cls src n : Nat) : (s.overflowRec cls src n).SameRoot s := by
  rw [State.overflowRec]
  dsimp only
  split <;> exact ⟨rfl, rfl, rfl⟩

theorem State.archLoss_root (l : Line) (u : BitVec 16) (slot : Nat) : (s.archLoss l u slot).SameRoot s := by
  rw [State.archLoss]
  dsimp only
  split
  · exact .refl
  · split
    · exact State.overflowRec_root _ _ _ _
    · exact s.overflowRec_root _ _ _

theorem State.metaUe_root (dpa ch loc : Nat) (l : Line) (u : BitVec 16) (own : Bool) :
    (s.metaUe dpa ch loc l u own).1.SameRoot s := by
  rw [State.metaUe]
  split
  · exact .refl
  · split
    case h_1 => exact s.mapUe_root _ _
    case h_2 => exact s.raise_root _ _ _ _ _
    case h_3 =>
      dsimp only
      split
      · exact s.raise_root _ _ _ _ _
      · exact .refl
    case h_4 => exact (State.archLoss_root _ _ _ _).trans (s.archLoss_root _ _ _)
    case h_5 => exact .refl

theorem State.countLookup_root (line : Nat) : (s.countLookup line).SameRoot s := by
  rw [State.countLookup]
  split <;> exact ⟨rfl, rfl, rfl⟩

/-- What a metadata read does after its lookup was counted. -/
def State.metaFill (s : State) (line ch loc : Nat) (p : Pri) : State × Option Line :=
  let (s, l, u) := s.chRead ch loc line
  let (s, l, dirty) := s.metaUe (line * 64) ch loc l u false
  match (s.fillWay line 0).filter fun w => s.wayFree line w p with
  | some w => (s.hPlace line w l dirty false 0 0 p, some l)
  | none => (if dirty then s.chStore ch loc line l p 0 true else s, some l)

theorem State.metaFill_root (line ch loc : Nat) (p : Pri) : (s.metaFill line ch loc p).1.SameRoot s := by
  have hread := s.chRead_root ch loc line
  rw [State.metaFill]
  generalize s.chRead ch loc line = x at hread ⊢
  obtain ⟨t, l, u⟩ := x
  have hue := t.metaUe_root (line * 64) ch loc l u false
  dsimp only
  generalize t.metaUe (line * 64) ch loc l u false = y at hue ⊢
  obtain ⟨v, m, dirty⟩ := y
  dsimp only
  split
  · exact (v.hPlace_root _ _ _ _ _ _ _ _).trans (hue.trans hread)
  · split
    · exact (v.chStore_root _ _ _ _ _ _ _).trans (hue.trans hread)
    · exact hue.trans hread

theorem State.metaLoad_root (dpa : Nat) (p : Pri) : (s.metaLoad dpa p).1.SameRoot s := by
  have hcount := s.countLookup_root (dpa / 64)
  rw [State.metaLoad]
  dsimp only
  generalize s.countLookup (dpa / 64) = t at hcount ⊢
  split
  · exact hcount
  · split
    · exact hcount
    · split
      · exact hcount
      · exact (t.maintReject_root _).trans hcount
      · exact (t.metaFill_root _ _ _ _).trans hcount

theorem State.metaPut_root (dpa : Nat) (p : Pri) (l : Line) : (s.metaPut dpa p l).SameRoot s := by
  rw [State.metaPut]
  split
  · exact s.hWrite_root _ _ _ _ _ _
  · split
    · exact s.hPlace_root _ _ _ _ _ _ _ _
    · exact s.chPut_root _ _ _ _ _

theorem State.loadEntry_root (cell : Nat) (p : Pri) : (s.loadEntry cell p).1.SameRoot s := s.metaLoad_root _ p

theorem State.putEntry_root (cell : Nat) (e : Word) (p : Pri) : (s.putEntry cell e p).SameRoot s := by
  have hload := s.metaLoad_root (s.cellEntryAddr cell) p
  rw [State.putEntry]
  dsimp only
  generalize s.metaLoad (s.cellEntryAddr cell) p = x at hload ⊢
  obtain ⟨t, _ | l⟩ := x
  · exact hload
  · exact (t.metaPut_root _ _ _).trans hload

/-! ## Heat and the check of an access -/

theorem State.heatOf_root (cell : Nat) : (s.heatOf cell).1.SameRoot s := s.metaLoad_root _ (.of 34)

theorem State.putHeat_root (cell v : Nat) : (s.putHeat cell v).SameRoot s := by
  have hload := s.metaLoad_root (s.heatAddr cell) (.of 34)
  rw [State.putHeat]
  dsimp only
  generalize s.metaLoad (s.heatAddr cell) (.of 34) = x at hload ⊢
  obtain ⟨t, _ | l⟩ := x
  · exact hload
  · exact (t.metaPut_root _ _ _).trans hload

theorem State.heatFold_root (cell : Nat) : (s.heatFold cell).SameRoot s := by
  have hload := s.heatOf_root cell
  rw [State.heatFold]
  generalize s.heatOf cell = x at hload ⊢
  obtain ⟨t, c⟩ := x
  split
  · exact .refl
  · exact State.SameRoot.trans ⟨rfl, rfl, rfl⟩ ((t.putHeat_root _ _).trans hload)

theorem State.heatSample_root (line : Nat) (k : HeatKind) : (s.heatSample line k).SameRoot s := by
  have hdraw : s.random64.2.SameRoot s := ⟨rfl, rfl, rfl⟩
  rw [State.heatSample]
  dsimp only
  generalize s.random64.2 = t at hdraw ⊢
  refine .ite .refl (.ite hdraw ?_)
  split
  · exact State.SameRoot.trans ⟨rfl, rfl, rfl⟩ hdraw
  · refine .ite (State.SameRoot.trans ⟨rfl, rfl, rfl⟩ hdraw) ?_
    split
    · exact State.SameRoot.trans ⟨rfl, rfl, rfl⟩ ((t.heatFold_root _).trans hdraw)
    · exact (t.bump_root _ _ _ _).trans hdraw

theorem State.verdict_root (ctx : Ctx) (line : Nat) (p : Pri) : (s.verdict ctx line p).1.SameRoot s := by
  have hload := s.loadEntry_root (line / 1024) p
  rw [State.verdict]
  dsimp only
  generalize s.loadEntry (line / 1024) p = x at hload ⊢
  obtain ⟨t, _ | _ | e⟩ := x
  case none => 
    split
    · exact s.raise_root _ _ _ _ _
    · exact hload
  case some.none => 
    split
    · exact s.raise_root _ _ _ _ _
    · exact (t.raise_root _ _ _ _ _).trans hload
  case some.some => 
    dsimp only
    split
    · exact s.raise_root _ _ _ _ _
    · split
      · exact (t.raise_root _ _ _ _ _).trans hload
      · split
        · exact (t.raise_root _ _ _ _ _).trans hload
        · split
          · exact (t.raise_root _ _ _ _ _).trans hload
          · exact hload

theorem State.check_root (maint : Bool) (ctx : Ctx) (line : Nat) (p : Pri) : (s.check maint ctx line p).1.SameRoot s := by
  rw [State.check]
  split
  · exact .refl
  · exact s.verdict_root _ _ _

/-! ## Migration -/

theorem State.migLine_root (k : Nat) (m : MigSlot) (line : Nat) (l : Line) : (s.migLine k m line l).1.SameRoot s := by
  rw [State.migLine]
  split
  · exact .refl
  · split
    · exact s.enter_root _
    · split <;> exact ⟨rfl, rfl, rfl⟩

theorem State.migTrack_root (k line : Nat) (b : Bool) : (s.migTrack k line b).SameRoot s := by
  rw [State.migTrack]
  split <;> exact ⟨rfl, rfl, rfl⟩

theorem State.migRead_root (k line : Nat) (r : RdRes) : (s.migRead k line r).SameRoot s := by
  rw [State.migRead.eq_def]
  split
  · exact .refl
  · split
    · exact s.migTrack_root _ _ _
    · exact (State.migTrack_root _ _ _ _).trans (s.migLine_root _ _ _ _)

/-! ## Answers, snoops, grants -/

theorem State.setAgent_root (a line st : Nat) : (s.setAgent a line st).SameRoot s := by
  rw [State.setAgent]
  dsimp only
  split
  · exact .refl
  · split
    · split <;> exact ⟨rfl, rfl, rfl⟩
    · exact ⟨rfl, rfl, rfl⟩

theorem State.s2m_root (c : CxlSrc) (cls dome : Nat) (express : Bool) (op : S2MOp) (line : Nat) (d : Line) :
    (s.s2m c cls dome express op line d).SameRoot s := by
  rw [State.s2m.eq_def]
  exact .ite ⟨rfl, rfl, rfl⟩ ⟨rfl, rfl, rfl⟩

theorem State.answer_root (t : Tx) (op : S2MOp) (d : Line) : (s.answer t op d).SameRoot s := by
  rw [State.answer]
  split
  · exact s.s2m_root _ _ _ _ _ _ _
  · exact .refl

theorem State.sendSnoop_root (tx : Option Nat) (a line : Nat) (k : SnpKind) (dome : Nat) (evict : Bool) :
    (s.sendSnoop tx a line k dome evict).SameRoot s := State.s2m_root _ _ _ _ _ _ _ _

theorem State.grant_root (t : Tx) (l : Line) : (s.grant t l).SameRoot s := by
  rw [State.grant]
  split
  · exact .refl
  · exact (State.answer_root _ _ _ _).trans (s.setAgent_root _ _ _)

theorem State.answerGrantless_root (t : Tx) (l : Line) : (s.answerGrantless t l).SameRoot s := by
  refine (State.answer_root _ _ _ _).trans ?_
  split <;> exact ⟨rfl, rfl, rfl⟩

theorem State.startEvict_root (t : Tx) (l : Line) : (s.startEvict t l).SameRoot s := by
  rw [State.startEvict]
  split
  · exact ⟨rfl, rfl, rfl⟩
  · split
    · exact State.sendSnoop_root _ _ _ _ _ _ _
    · exact ⟨rfl, rfl, rfl⟩

theorem State.coreGot_root (k : Nat) (t : Tx) (r : RdRes) : (s.coreGot k t r).SameRoot s := by
  rw [State.coreGot.eq_def]
  dsimp only
  split
  · exact ⟨rfl, rfl, rfl⟩
  · split
    · exact s.raise_root _ _ _ _ _
    · exact ⟨rfl, rfl, rfl⟩

theorem State.engDone_root (t : Tx) (r : RdRes) : (s.engDone t r).SameRoot s := by
  rw [State.engDone]
  split
  case h_6 =>
    split
    · exact s.coreGot_root _ _ _
    · exact .refl
  case h_7 =>
    split
    · exact s.migRead_root _ _ _
    · exact .refl
  all_goals exact ⟨rfl, rfl, rfl⟩

/-! ## The end of a read -/

theorem State.hostConsume_root (t : Tx) (l : Line) : (s.hostConsume t l).SameRoot s := by
  rw [State.hostConsume]
  split
  · split
    · exact s.raise_root _ _ _ _ _
    · exact .refl
  · exact .refl

theorem State.deliver_root (t : Tx) (r : RdRes) : (s.deliver t r).SameRoot s := by
  rw [State.deliver.eq_def]
  split
  · exact s.answerGrantless_root _ _
  · split
    · exact (State.grant_root _ _ _).trans (s.hostConsume_root _ _)
    · exact (State.answerGrantless_root _ _ _).trans (s.hostConsume_root _ _)
  · exact s.engDone_root _ _

/-- A read that waits goes to the check: its place in the tracker is free, and its page is sampled. -/
def State.combineBegin (s : State) (w : Tx) : State :=
  let s := { s with home := { s.home with txs := s.home.txs.filter fun x => x.id != w.id } }
  if s.area (w.line * 64) == .tenant then s.heatSample w.line w.heat else s

theorem State.combineBegin_root (w : Tx) : (s.combineBegin w).SameRoot s := by
  rw [State.combineBegin]
  dsimp only
  split
  · exact State.heatSample_root _ _ _
  · exact ⟨rfl, rfl, rfl⟩

theorem State.combineOne_root (l : Line) (w : Tx) : (s.combineOne l w).SameRoot s := by
  have hcheck := ((s.combineBegin w).check_root w.maint w.ctx w.line w.pri).trans (s.combineBegin_root w)
  have heq : s.combineOne l w = (match (s.combineBegin w).check w.maint w.ctx w.line w.pri with
    | (s, .pass _) => s.deliver w (.ok l)
    | (s, .no r) => s.deliver w (.no r)) := rfl
  rw [heq]
  generalize (s.combineBegin w).check w.maint w.ctx w.line w.pri = x at hcheck ⊢
  obtain ⟨t, _ | _⟩ := x
  · exact (t.deliver_root _ _).trans hcheck
  · exact (t.deliver_root _ _).trans hcheck

theorem State.combine_root (line : Nat) (l : Line) : (s.combine line l).SameRoot s := by
  have hfold : ∀ (ws : List Tx) (acc : State × Nat), acc.1.SameRoot s →
      (ws.foldl (fun (acc : State × Nat) w =>
        let w := acc.1.atLock w
        if acc.2 < 15 && acc.1.combines w then (acc.1.combineOne l w, acc.2 + 1) else acc) acc).1.SameRoot s := by
    intro ws
    induction ws with
    | nil => exact fun _ h => h
    | cons w ws ih =>
      intro acc h
      refine ih _ ?_
      dsimp only
      split
      · exact (State.combineOne_root _ _ _).trans h
      · exact h
  exact hfold _ _ .refl

theorem State.finishRead_root (t : Tx) (r : RdRes) : (s.finishRead t r).SameRoot s := by
  rw [State.finishRead.eq_def]
  split
  · exact (State.dropTx_root _ _).trans (s.deliver_root _ _)
  · split
    · exact s.startEvict_root _ _
    · exact (State.dropTx_root _ _).trans ((State.combine_root _ _ _).trans (s.deliver_root _ _))

/-! ## The end of a write -/

theorem State.writerEntry_root (t : Tx) (ok : Bool) : (s.writerEntry t ok).SameRoot s := by
  rw [State.writerEntry]
  split
  · split
    · exact s.setAgent_root _ _ _
    · split
      · exact s.setAgent_root _ _ _
      · exact .refl
    · split
      · exact s.setAgent_root _ _ _
      · exact .refl
    · exact .refl
  · exact .refl

theorem State.devWrote_root (t : Tx) (r : Option Refuse) : (s.devWrote t r).SameRoot s := by
  rw [State.devWrote]
  split
  · split
    · rw [State.addPoisonList]
      split
      · exact .refl
      · split <;> exact ⟨rfl, rfl, rfl⟩
    · exact ⟨rfl, rfl, rfl⟩
  · exact .refl

theorem State.endWrite_root (t : Tx) (r : Option Refuse) : (s.endWrite t r).SameRoot s := by
  rw [State.endWrite.eq_def]
  split
  · split
    · exact s.startEvict_root _ _
    · exact (State.dropTx_root _ _).trans ((State.answer_root _ _ _ _).trans (s.writerEntry_root _ _))
  · exact (State.dropTx_root _ _).trans ((State.engDone_root _ _ _).trans (s.devWrote_root _ _))

theorem State.mirrored_root (k line : Nat) : (s.mirrored k line).SameRoot s := by
  rw [State.mirrored]
  split
  · split
    · split
      · exact .refl
      · exact s.endWrite_root _ _
    · exact s.endWrite_root _ _
  · exact .refl

theorem State.finishWrite_root (t : Tx) (r : Option Refuse) : (s.finishWrite t r).SameRoot s := by
  have hend := s.endWrite_root t r
  rw [State.finishWrite]
  generalize s.endWrite t r = u at hend ⊢
  split
  · split
    · split
      · exact (u.mirrored_root _ _).trans hend
      · exact hend
    · exact hend
  · exact hend

theorem State.errorTx_root (tx : Option Nat) : (s.errorTx tx).SameRoot s := by
  rw [State.errorTx]
  split
  · split
    · exact s.finishWrite_root _ _
    · exact s.finishRead_root _ _
  · exact .refl

theorem State.failChannel_root (ch : Nat) : (s.failChannel ch).SameRoot s := by
  rw [State.failChannel]
  refine (foldl_root _ (fun t x => t.errorTx_root x) _ _).trans ?_
  exact (State.addEvent_root _ _ _ _).trans (State.raise_root _ _ _ _ _ _)

/-! ## What is given up -/

theorem State.endMirror_root (m : MigSlot) : (s.endMirror m).SameRoot s := foldl_root _ (fun t x => t.endWrite_root x none) _ _

theorem State.dropOrigin_root (o : Origin) : (s.dropOrigin o).SameRoot s := by
  refine foldl_root (fun s t => if t.upd then s.dropTx t else s.putTx { t with origin := .gone o.isBeat }) (fun t x => ?_) _ _
  split
  · exact t.dropTx_root x
  · exact ⟨rfl, rfl, rfl⟩

theorem State.migForget_root (k : Nat) : (s.migForget k).SameRoot s :=
  (foldl_root (fun (s : State) (e : Nat × Msg) => s.endMsg e.1) (fun _ _ => ⟨rfl, rfl, rfl⟩) _ _).trans (s.dropOrigin_root _)

end

end Sys2Proof.Machine
end

section
/-!
PROOFS. The security root: SPDM, KEY_DELIVER, bindings, link generations, the rekey sweep (R303 - R314).
-/
namespace Sys2Proof.Machine

/-! ## Leave of the queen, and KEY_DELIVER (R307, R308) -/

section
variable {s : State}

theorem State.queenAsk_agreed {a : QAns} (h : s.queenAgrees a = true) : (s.queenAsk a).2 = none := by
  rw [State.queenAgrees, Bool.and_eq_true] at h
  obtain ⟨hok, hans⟩ := h
  rw [State.queenAsk.eq_def, if_neg (by simp [hok])]
  split
  next hq =>
    rw [if_pos hq, Bool.or_eq_true] at hans
    split
    · rfl
    next hsolo =>
      rw [Bool.and_eq_true] at hans
      obtain ⟨hsucc, hne⟩ := hans.resolve_left hsolo
      obtain ⟨n, hn⟩ := Option.isSome_iff_exists.1 hsucc
      simp only [hn]
      rw [if_neg (by simpa using hne)]
  next hq =>
    rw [if_neg hq] at hans
    rw [beq_iff_eq.1 hans]

theorem State.queenAsk_of {a : QAns} (h : s.queenAgrees a = true) : s.queenAsk a = ((s.queenAsk a).1, none) :=
  Prod.ext rfl (State.queenAsk_agreed h)

section
variable {x d g p c : Nat} {m : BitVec 640} {a : QAns} (hc : c = (if kdBytes m 4 1 = 1 then 0 else d))
  (hd : d = bits m.toNat 16 12)
include hc hd

theorem State.keyDeliverSt_unbound (h : s.sessBound x c = false) : s.keyDeliverSt x m a = (s, stDenied) := by
  subst hd hc
  exact if_pos (by simp [h])

section
variable (h : s.sessBound x c = true)
include h

theorem State.keyDeliverSt_format (hf : kdFormatBad m = true) : s.keyDeliverSt x m a = (s, stFormat) := by
  subst hd hc
  exact (if_neg (by simp [h])).trans (if_pos hf)

theorem State.keyDeliverSt_link (hf : kdFormatBad m = false) (hk : kdBytes m 4 1 = 1) (hg : g = bits m.toNat 40 1)
    (hp : p = bits m.toNat 48 4) : s.keyDeliverSt x m a =
      if s.linkKeyBusy p g then (s, stBusy) else (s.putLinkKey p g (BitVec.ofNat 256 (kdBytes m 8 32)), stOK) := by
  subst hd hc hg hp
  rw [State.keyDeliverSt, if_neg (by simp [h]), if_neg (by simp [hf]), if_pos hk]

/-- What KEY_DELIVER does with a Dome's key once its session and its payload are in order. -/
def State.domeKey (s : State) (d g : Nat) (k : BitVec 512) (a : QAns) : State × Nat :=
  match s.domeSt d with
  | .free => (s, stDenied)
  | .teardown => (s, stTeardown)
  | .active =>
    if (s.keySlot d g).st ≠ .empty then (s, stBusy)
    else match s.queenAsk a with
      | (s, some _) => (s, stRemote)
      | (s, none) => (s.putKey d g k, stOK)

theorem State.keyDeliverSt_dome (hf : kdFormatBad m = false) (hk : kdBytes m 4 1 ≠ 1) (hg : g = bits m.toNat 40 1) :
    s.keyDeliverSt x m a = s.domeKey d g (BitVec.ofNat 512 (kdBytes m 8 64)) a := by
  subst hd hc hg
  rw [State.keyDeliverSt, if_neg (by simp [h]), if_neg (by simp [hf])]
  exact (if_neg hk).trans rfl

end
end

section
variable {d g : Nat} {k : BitVec 512} {a : QAns}

theorem State.domeKey_free (h : s.domeSt d = .free) : s.domeKey d g k a = (s, stDenied) := by
  simp only [State.domeKey, h]

theorem State.domeKey_teardown (h : s.domeSt d = .teardown) : s.domeKey d g k a = (s, stTeardown) := by
  simp only [State.domeKey, h]

theorem State.domeKey_busy (h : s.domeSt d = .active) (hst : (s.keySlot d g).st ≠ .empty) : s.domeKey d g k a = (s, stBusy) := by
  simp only [State.domeKey, h, if_pos hst]

theorem State.domeKey_installs (h : s.domeSt d = .active) (hst : (s.keySlot d g).st = .empty) (hq : s.queenAgrees a = true) :
    s.domeKey d g k a = ((s.queenAsk a).1.putKey d g k, stOK) := by
  simp only [State.domeKey, h, hst, ne_eq, not_true_eq_false, if_false]
  rw [State.queenAsk_of hq]

end

theorem State.keyDeliver_eq {x : Nat} {m : BitVec 640} {a : QAns} {r : State × Nat}
    (hr : r = if s.pwr.frozen = true then (s, stBusy) else s.keyDeliverSt x m a) :
    s.keyDeliver x m a = (r.1, ⟨0x4B81, r.2, [bits m.toNat 16 12, r.1.kdSlot m]⟩) := by
  rw [hr, State.keyDeliver]

/-! ## Sessions, bindings, link generations -/

theorem State.keyExchange_of {ma : Bool} {dg : BitVec 384} {k : Nat} (h : SMap.firstFree s.sec.sessions 256 = some k) :
    s.keyExchange ma dg =
      ({ s with sec := { s.sec with sessions := SMap.put s.sec.sessions k ⟨ma, dg⟩ } }, ⟨0x64, 0, [k]⟩) := by
  rw [State.keyExchange, h]

theorem State.keyExchange_full {ma : Bool} {dg : BitVec 384} (h : SMap.firstFree s.sec.sessions 256 = none) :
    s.keyExchange ma dg = (s, ⟨0x7F, 0x03, []⟩) := by
  rw [State.keyExchange, h]

theorem State.spdmRequest_end {k : Fin 256} (h : (SMap.find s.sec.sessions k.val).isSome = true) : s.spdmRequest (.endSession k) =
    ({ s with sec := { s.sec with sessions := SMap.del s.sec.sessions k } }, ⟨0x6C, 0, []⟩) := if_pos h

theorem State.spdmRequest_measurement {i : BitVec 8} {g : BitVec 384} (h : SMap.find s.cores.meas i.toNat = some g) :
    s.spdmRequest (.measurement i) = (s, ⟨0x60, 0, (List.range 48).map fun j => bits g.toNat (8 * j) 8⟩) := by
  rw [State.spdmRequest, h]

section
variable {d : Nat} {t : State} (ht : t = s.wrCodes R.SEC_BIND_CTL 1) (hd : d = t.fN F.SEC_DOME_IDX_dome)
include ht hd

theorem State.bindCtlWrite_refused (h : d = 0 ∨ t.domeSt d ≠ .free) :
    s.bindCtlWrite 1 = t.fFlag F.SEC_BIND_CTL_refused true := by
  rw [State.bindCtlWrite, ← ht]
  dsimp only
  rw [if_neg (by decide), ← hd, if_pos (by simpa using h)]

theorem State.bindCtlWrite_commits (h0 : d ≠ 0) (h : t.domeSt d = .free) : s.bindCtlWrite 1 =
    ({ t with sec := { t.sec with bind := SMap.put t.sec.bind d t.bindStaged } } : State).fFlag F.SEC_BIND_CTL_refused false := by
  rw [State.bindCtlWrite, ← ht]
  dsimp only
  rw [if_neg (by decide), ← hd, if_neg (by simp [h0, h])]

end

section
variable {p : Nat} {r : RyPort} (hr : r = s.ryPort p)
include hr

theorem State.secLinkWrite_none (h : SMap.find r.keys (1 - r.txGen) = none) : s.secLinkWrite p 0x10 = s := by
  subst hr
  exact if_pos (by simp [h])

theorem State.secLinkWrite_some (h : SMap.find r.keys (1 - r.txGen) ≠ none) : s.secLinkWrite p 0x10 =
    if r.txEpoch = 0 then s.setRy p { r with txGen := 1 - r.txGen, switchReq := false }
    else s.setRy p { r with switchReq := true } := by
  have hon : F.SEC_LINK_switch.on 16#32 = true := by decide
  subst hr
  rw [State.secLinkWrite]
  exact if_neg (by simp [hon, h])

end

/-! ## One line of a sweep (R312) -/

section
variable {w : Sweep} {ch loc line : Nat} {o : Origin} (ho : o = .sweep w.cell) (hline : line = w.cell * 1024 + w.ptr)
  (hloc : s.locate (line * 64) = some (ch, loc))
include ho hline hloc

theorem State.sweepLine_answered (h : s.engAns o line false fullBe ≠ none) : s.sweepLine w = ((s.dropAns o).sweepSkip w, true) := by
  obtain ⟨x, hx⟩ := Option.ne_none_iff_exists'.1 h
  subst ho hline
  rw [State.sweepLine]
  simp only [hloc, hx]

section
variable (hans : s.engAns o line false fullBe = none)
include hans

section
variable {t : Tx} {l : Line} (htx : s.engTx o line false fullBe = some t) (hst : t.stage = .engine)
include htx hst

theorem State.sweepLine_stores (hgot : t.got = some (.ok l)) (h : s.chSt ch = .ok) :
    s.sweepLine w = (s.sweepStore w t l ch loc, true) := by
  subst ho hline
  rw [State.sweepLine]
  simp only [hloc, hans, htx, h, hst, hgot]

theorem State.sweepLine_failed (h : s.chSt ch = .failed) : s.sweepLine w = ((s.dropTx t).sweepSkip w, true) := by
  subst ho hline
  rw [State.sweepLine]
  simp only [hloc, hans, htx, h, hst, if_true]

omit hst in
theorem State.sweepLine_waits (h : s.chSt ch = .maint) : s.sweepLine w = (s, false) := by
  subst ho hline
  rw [State.sweepLine]
  simp only [hloc, hans, htx, h]

end

section
variable (htx : s.engTx o line false fullBe = none)
include htx

theorem State.sweepLine_not_begun_waits (h : s.chSt ch = .maint) : s.sweepLine w = (s, false) := by
  subst ho hline
  rw [State.sweepLine]
  simp only [hloc, hans, htx, h]

theorem State.sweepLine_not_begun_failed (h : s.chSt ch = .failed) : s.sweepLine w = (s.sweepSkip w, true) := by
  subst ho hline
  rw [State.sweepLine]
  simp only [hloc, hans, htx, h]

theorem State.sweepLine_invalid {r : State × Option Bool} (h : s.chSt ch = .ok) (hr : r = s.loadValid line (.of 35))
    (hv : r.2 = some false) : s.sweepLine w = (r.1.sweepSkip w, true) := by
  have hload : s.loadValid line (.of 35) = (r.1, some false) := by rw [← hr, ← hv]
  subst ho hline
  rw [State.sweepLine]
  simp only [hloc, hans, htx, h, hload]

theorem State.sweepLine_enters {r : State × Option Bool} (h : s.chSt ch = .ok) (hr : r = s.loadValid line (.of 35))
    (hv : r.2 ≠ some false) :
    (s.sweepLine w).1 = r.1.engEnter { newTx .rdCur o 0 line 35 with maint := true, upd := true } := by
  subst ho hline
  rw [State.sweepLine]
  obtain ⟨u, _ | _ | _⟩ := r
  case none => simp only [hloc, hans, htx, h, ← hr]
  case some.false => exact absurd rfl hv
  case some.true => simp only [hloc, hans, htx, h, ← hr]

end
end
end

/-! ## A sweep goes on (R312) -/

section
variable {cell fuel : Nat} {w : Sweep} (hw : (s.sec.sweeps.find? fun y => y.cell == cell) = some w)
include hw

theorem State.sweepFrom_ended (h : 1024 ≤ w.ptr) : State.sweepFrom cell (fuel + 1) s = (s, true) := by
  rw [State.sweepFrom]
  simp only [hw, h, if_true]

theorem State.sweepFrom_next {r : State × Bool} (h : w.ptr < 1024) (hr : r = s.sweepLine w) :
    State.sweepFrom cell (fuel + 1) s = if r.2 then State.sweepFrom cell fuel r.1 else (r.1, false) := by
  rw [State.sweepFrom]
  simp only [hw, Nat.not_le.2 h, if_false]
  rw [← hr]
  obtain ⟨u, _ | _⟩ := r <;> rfl

theorem State.sweepCell_not (h : s.hasLeave (.sweep cell) = false ∨ s.slotOf cell ≠ none) : s.sweepCell cell = s := by
  rw [State.sweepCell]
  simp only [hw]
  exact if_pos (by rcases h with h | h <;> simp [h, Option.isSome_iff_ne_none])

section
variable (hleave : s.hasLeave (.sweep cell) = true) (hslot : s.slotOf cell = none)
include hleave hslot

theorem State.sweepCell_begun {r : State × Bool} (h : w.ptr < 1024) (hr : r = State.sweepFrom cell 2100 s) :
    s.sweepCell cell = if r.2 then r.1.sweepEnded w else r.1 := by
  rw [State.sweepCell]
  simp only [hw, hleave, hslot, Option.isSome_none, Bool.not_true, Bool.or_self, Bool.false_eq_true, if_false, h.ne,
    Nat.not_le.2 h]
  rw [← hr]
  obtain ⟨u, _ | _⟩ := r <;> rfl

theorem State.sweepCell_starts {t : State} {x : Sweep} {r : State × Bool} (hp : w.ptr = 1024) (ht : t = s.sweepStart w)
    (hx : (t.sec.sweeps.find? fun y => y.cell == cell) = some x) (h : x.ptr < 1024) (hr : r = State.sweepFrom cell 2100 t) :
    s.sweepCell cell = if r.2 then r.1.sweepEnded x else r.1 := by
  rw [State.sweepCell]
  simp only [hw, hleave, hslot, Option.isSome_none, Bool.not_true, Bool.or_self, Bool.false_eq_true, if_false, hp, if_true,
    ← ht, hx, Nat.not_le.2 h]
  rw [← hr]
  obtain ⟨u, _ | _⟩ := r <;> rfl

theorem State.sweepCell_held (hp : w.ptr = 1024) (h : s.entryFree cell = false) : s.sweepCell cell = s := by
  have hcell : w.cell = cell := by simpa using List.find?_some hw
  have hstart : s.sweepStart w = s := if_pos (by simp [hcell, h])
  rw [State.sweepCell]
  simp only [hw, hleave, hslot, Option.isSome_none, Bool.not_true, Bool.or_self, Bool.false_eq_true, if_false, hp, if_true,
    hstart, Nat.le_refl]

end
end

/-! ## The last line -/

section
variable (s)

theorem State.sweepStore_sec (w : Sweep) (t : Tx) (l : Line) (ch loc : Nat) :
    (s.sweepStore w t l ch loc).sec = (s.sweepSkip w).sec := by
  rw [State.sweepStore, (State.dropTx_root _ _).2.1]
  have hch := (State.chStore_root (s.sweepSkip w) ch loc t.line l t.pri 0 true).2.1
  split <;> exact hch

end

/-- The first sweep of a cell is the one put there. -/
theorem find_replaced_sweep {l : List Sweep} {w v : Sweep} {cell : Nat} (h : (l.find? fun y => y.cell == cell) = some w)
    (hv : v.cell = cell) : ((l.map fun x => if x.cell == v.cell then v else x).find? fun y => y.cell == cell) = some v := by
  induction l with
  | nil => simp at h
  | cons y l ih =>
    rw [List.map_cons, hv]
    by_cases hy : y.cell = cell
    · rw [if_pos (by simp [hy]), List.find?_cons_of_pos (by simp [hv])]
    · rw [if_neg (by simp [hy]), List.find?_cons_of_neg (by simp [hy]), ← hv]
      rw [List.find?_cons_of_neg (by simp [hy])] at h
      rw [hv]
      have := ih h
      rwa [hv] at this

end

theorem exec_keyDeliver {s : State} {x : Fin 256} {m : BitVec 640} {a : QAns} :
    exec (.keyDeliver x m a) s = run1 s fun s => State.reply (s.keyDeliver x.val m a) := rfl
theorem exec_keyExchange {s : State} {ma : Bool} {dg : BitVec 384} :
    exec (.keyExchange ma dg) s = run1 s fun s => State.reply (s.keyExchange ma dg) := rfl
theorem exec_spdmRequest {s : State} {r : SpdmReq} : exec (.spdmRequest r) s = run1 s fun s => State.reply (s.spdmRequest r) := rfl
theorem exec_getVersion {s : State} : exec .getVersion s = run1 s fun s => s.emit (.spdm 0x04 0 [0x12]) := rfl
theorem exec_getCertificate {s : State} : exec .getCertificate s =
    run1 s fun s => s.emit (.spdm 0x02 0 (if s.fB F.SEC_STATUS_chain_mismatch then [] else s.sec.chain)) := rfl
theorem exec_bindCommit {s : State} : exec .bindCommit s = run s fun s => s.bindCtlWrite 1 := rfl
theorem exec_linkKeySwitch {s : State} {p : Fin 12} :
    exec (.linkKeySwitch p) s = run s fun s => s.secLinkWrite p.val 0x10 := rfl
theorem exec_sweepCell {s : State} {cell : Fin 536870912} : exec (.sweepCell cell) s = run s fun s => s.sweepCell cell.val := rfl

/-- With its cell's last line stored a sweep is over. -/
theorem State.sweepCell_last {s : State} {cell ch loc line : Nat} {w : Sweep} {x : Tx} {l : Line}
    (hw : (s.sec.sweeps.find? fun y => y.cell == cell) = some w) (hleave : s.hasLeave (.sweep cell) = true)
    (hslot : s.slotOf cell = none) (hp : w.ptr = 1023) (hline : line = cell * 1024 + 1023)
    (hloc : s.locate (line * 64) = some (ch, loc)) (hch : s.chSt ch = .ok)
    (hans : s.engAns (.sweep cell) line false fullBe = none) (htx : s.engTx (.sweep cell) line false fullBe = some x)
    (hst : x.stage = .engine) (hgot : x.got = some (.ok l)) : s.sweepCell cell = (s.sweepStore w x l ch loc).sweepEnded w := by
  have hcell : w.cell = cell := by simpa using List.find?_some hw
  have hstore := State.sweepLine_stores (w := w) (o := .sweep cell) (by rw [hcell]) (by rw [hline, hcell, hp]) hloc hans htx hst hgot hch
  have hlast : ((s.sweepStore w x l ch loc).sec.sweeps.find? fun y => y.cell == cell) = some { w with ptr := w.ptr + 1 } := by
    rw [State.sweepStore_sec]
    exact find_replaced_sweep hw hcell
  have hfrom : State.sweepFrom cell 2100 s = (s.sweepStore w x l ch loc, true) := by
    rw [State.sweepFrom_next hw (by omega) rfl, hstore, if_pos rfl]
    exact State.sweepFrom_ended hlast (by rw [hp])
  rw [State.sweepCell_begun hw hleave hslot (by omega) hfrom.symm, if_pos rfl]

/-- Settles O52. -/
theorem securityRoot : Obligations.SecurityRoot := by
  refine ⟨fun s hup => ⟨fun x m a r hr => ?_, fun x m a d g p c hc hd hg hp => ⟨State.keyDeliverSt_unbound hc hd, fun h =>
      ⟨State.keyDeliverSt_format hc hd h, fun hf hk => ⟨fun hb => ?_, fun hb => ?_⟩, fun hf hk => ?_⟩⟩, exec_getVersion.trans (run1_up _ hup),
      exec_getCertificate.trans (run1_up _ hup), fun ma dg => ⟨fun k hk => ?_, fun hk => ?_⟩, fun k hk => ?_, fun i g hg => ?_⟩,
    fun s hup => ⟨fun d t ht hd => ⟨fun h => ?_, fun h0 h => ?_⟩, fun p r hr => ⟨fun h => ?_, fun h he => ?_, fun h he => ?_⟩,
      fun cell w hw => ⟨fun h => ?_, fun hl hs => ⟨fun r h hr => ?_, fun hp h => ?_, fun t x r hp ht hx h hr => ?_,
        fun x l ch loc line hp hline hloc hch hans htx hst hgot => ?_⟩⟩, fun w t e hfree hload => ?_,
      fun cell fuel w r hw => ⟨State.sweepFrom_ended hw, State.sweepFrom_next hw⟩,
      fun w ch loc line o ho hline hloc => ⟨State.sweepLine_answered ho hline hloc, fun hans =>
        ⟨fun t l htx hst hgot => ⟨State.sweepLine_stores ho hline hloc hans htx hst hgot,
          State.sweepLine_failed ho hline hloc hans htx hst, State.sweepLine_waits ho hline hloc hans htx⟩,
        fun htx => ⟨State.sweepLine_not_begun_waits ho hline hloc hans htx, State.sweepLine_not_begun_failed ho hline hloc hans htx,
          fun h r hr => ⟨State.sweepLine_invalid ho hline hloc hans htx h hr,
            State.sweepLine_enters ho hline hloc hans htx h hr⟩⟩⟩⟩⟩⟩
  · rw [exec_keyDeliver, run1_up _ hup, State.keyDeliver_eq hr]
  · rw [State.keyDeliverSt_link hc hd h hf hk hg hp, if_pos hb]
  · rw [State.keyDeliverSt_link hc hd h hf hk hg hp, if_neg (by simp [hb])]
  · rw [State.keyDeliverSt_dome hc hd h hf hk hg]
    exact ⟨State.domeKey_free, State.domeKey_teardown, State.domeKey_busy, fun t ha he hq ht =>
      (State.domeKey_installs ha he hq).trans (by rw [ht])⟩
  · rw [exec_keyExchange, run1_up _ hup, State.keyExchange_of hk, State.reply]
  · rw [exec_keyExchange, run1_up _ hup, State.keyExchange_full hk, State.reply]
  · rw [exec_spdmRequest, run1_up _ hup, State.spdmRequest_end hk, State.reply]
  · rw [exec_spdmRequest, run1_up _ hup, State.spdmRequest_measurement hg, State.reply]
  · rw [exec_bindCommit, run_up _ hup, State.bindCtlWrite_refused ht hd h]
  · rw [exec_bindCommit, run_up _ hup, State.bindCtlWrite_commits ht hd h0 h]
  · rw [exec_linkKeySwitch, run_up _ hup, State.secLinkWrite_none hr h, State.keep_self]
  · rw [exec_linkKeySwitch, run_up _ hup, State.secLinkWrite_some hr h, if_pos he]
  · rw [exec_linkKeySwitch, run_up _ hup, State.secLinkWrite_some hr h, if_neg he]
  · rw [exec_sweepCell, run_up _ hup, State.sweepCell_not hw h, State.keep_self]
  · rw [exec_sweepCell, run_up _ hup, State.sweepCell_begun hw hl hs h hr]
  · rw [exec_sweepCell, run_up _ hup, State.sweepCell_held hw hl hs hp h, State.keep_self]
  · rw [exec_sweepCell, run_up _ hup, State.sweepCell_starts hw hl hs hp ht hx h hr]
  · rw [exec_sweepCell, run_up _ hup, State.sweepCell_last hw hl hs hp hline hloc hch hans htx hst hgot]
  · rw [State.sweepStart, if_neg (by simp [hfree]), hload]

end Sys2Proof.Machine
end

section
/-!
PROOFS. Control commands that firmware holds (R20, R368), and the teardown of a Dome (R315 - R318).
-/
namespace Sys2Proof.Machine

/-! ## A command firmware holds -/

/-- What becomes of a control command of context `k` once its own rule has given its state and outcome. -/
def State.ctlEnd (k : Nat) (x : State × Ctl) : State :=
  match x with
  | (s, .done st res) => s.replied k st res
  | (s, .wait) => s.blocked k

section
variable {s u : State} {k op : Nat} {c r : Cmd} (hold : s.FwHolds k op c) (hr : r = { c with st := .running })
  (hu : u = s.putCmd k r)
include hold hr hu

/-- A command held, of a subject that its check lets pass, is carried out by its own rule `f`. -/
theorem State.control_of {chk : Bool} (f : State → Cmd → State × Ctl) (hok : chk = false ∨ s.domeSt c.subject = .active) :
    s.control k op chk f = State.ctlEnd k (f u r) := by
  obtain ⟨hcmd, ⟨n, a, harea⟩, hop, hst, hreply⟩ := hold
  have hrun : (if (c.st == .queued) && chk then u.subjectBad r else none) = none := by
    rcases hok with h | h
    · simp [h]
    · have hact : u.domeSt r.subject = .active := by subst hu hr; exact h
      simp only [State.subjectBad, hact, ite_self]
  have hheld : (match c.eng with | .fwArea _ _ => true | _ => false) = true := by rw [harea]
  have hdone : (c.st == .done) = false := by rcases hst with h | h <;> simp [h]
  subst hu hr
  rw [State.control, hcmd]
  simp only [harea, hop, hdone, hreply] at hrun ⊢
  simp only [hrun, bne_self_eq_false, Option.isSome_none, Bool.not_true, Bool.or_self, Bool.false_eq_true, if_false]
  generalize f _ _ = x
  obtain ⟨t, _ | _⟩ := x <;> rfl

/-- A row that runs a control command as its own rule says. -/
theorem State.exec_control {i : Instr} {chk : Bool} {f : State → Cmd → State × Ctl} (hup : s.up = true)
    (hi : exec i s = run s fun s => s.control k op chk f) (hok : chk = false ∨ s.domeSt c.subject = .active) :
    exec i s = .next ((State.ctlEnd k (f u r)).keep s) := by
  rw [hi, run_up _ hup, State.control_of hold hr hu f hok]

end

/-! ## Step 1: the command (R315) -/

section
variable {u : State} {k : Nat} {a : QAns} {r : Cmd} (h : r.pos = 0)
include h

theorem State.teardownCmd_format (hd : r.subject = 0 ∨ u.domeSt r.subject = .free) :
    u.teardownCmd k a r = (u, .done stFormat 0) :=
  (if_neg (by simp [h])).trans (if_pos (by rcases hd with hd | hd <;> simp [hd]))

theorem State.teardownCmd_busy (h0 : r.subject ≠ 0) (hd : u.domeSt r.subject = .teardown) :
    u.teardownCmd k a r = (u, .done stBusy 0) :=
  (if_neg (by simp [h])).trans ((if_neg (by simp [h0, hd])).trans (if_pos (by simp [hd])))

theorem State.teardownCmd_starts (h0 : r.subject ≠ 0) (hd : u.domeSt r.subject = .active) (hq : u.queenAgrees a = true) :
    u.teardownCmd k a r = ((((u.queenAsk a).1.putCmd k { r with pos := 1 }).tdStart r.subject (r.pb 1 0 32) (r.pb 2 0 1 != 0)
      (some k)), .wait) := by
  refine (if_neg (by simp [h])).trans ((if_neg (by simp [h0, hd])).trans ((if_neg (by simp [hd])).trans ?_))
  rw [State.queenAsk_of hq]

end

/-! ## The drain (R316, R317) -/

section
variable (s : State)

/-- A cell that no longer migrates is marked so in its entry. -/
def State.migUnmark (s : State) (cell : Nat) : State :=
  match s.loadEntry cell (.of 33) with
  | (s, some (some e)) => s.putEntry cell (e &&& ~~~0x20000)
  | (s, _) => s

theorem State.migUnmark_root (cell : Nat) : (s.migUnmark cell).SameRoot s := by
  have hload := s.loadEntry_root cell (.of 33)
  rw [State.migUnmark]
  generalize s.loadEntry cell (.of 33) = x at hload ⊢
  obtain ⟨t, _ | _ | e⟩ := x
  · exact hload
  · exact hload
  · exact (t.putEntry_root _ _ _).trans hload

theorem State.dropMig_sec (k : Nat) (m : MigSlot) : (s.dropMig k m).sec = s.sec := by
  have hend : (((s.pguReturn (.mig k)).migForget k).endMirror m).sec = s.sec :=
    (State.endMirror_root _ m).2.1.trans (State.migForget_root (s.pguReturn (.mig k)) k).2.1
  generalize ht : ((s.pguReturn (.mig k)).migForget k).endMirror m = t at hend
  have heq : s.dropMig k m =
      ({ t with honey := { t.honey with mig := SMap.del t.honey.mig k } } : State).showMig.migUnmark m.cell := by
    rw [← ht, State.dropMig]
    rfl
  rw [heq, (State.migUnmark_root _ _).2.1, State.showMig, State.fSet_sec, hend]

theorem State.fwReply_sec (k st res : Nat) : (s.fwReply k st res).sec = s.sec := by
  rw [State.fwReply]
  split <;> rfl

theorem State.tdMigs_sec (d : Nat) : (s.tdMigs d).sec = s.sec := by
  rw [State.tdMigs]
  refine foldl_keeps State.sec _ (fun t e => ?_) _ _
  have hstep : ((t.dropMig e.1 e.2).fwReply e.2.cmd stTeardown 0).sec = t.sec :=
    (State.fwReply_sec _ _ _ _).trans (t.dropMig_sec _ _)
  dsimp only
  generalize (t.dropMig e.1 e.2).fwReply e.2.cmd stTeardown 0 = v at hstep ⊢
  split
  · rfl
  · split <;> exact hstep

theorem State.tdMigs_none {d : Nat} (h : ∀ e ∈ s.honey.mig, e.2.dome ≠ d) : s.tdMigs d = s := by
  have hnone : (s.honey.mig.filter fun e => e.2.dome == d) = [] := List.filter_eq_nil_iff.2 fun e he => by simp [h e he]
  rw [State.tdMigs, hnone, List.foldl_nil]

theorem State.tdRecall_sec (d : Nat) : (s.tdRecall d).sec = s.sec := by
  refine (foldl_root _ (fun t x => ?_) _ _).2.1
  refine .ite (t.setAgent_root _ _ _) (.ite (t.sendSnoop_root _ _ _ _ _ _) .refl)

variable {s} {d : Nat} {t : Teardown} (ht : SMap.find s.sec.teardowns d = some t)
include ht

theorem State.tdDrainDone_of {w : State} (h : t.step = 1) (hw : (w = s ∧ ∀ e ∈ s.honey.mig, e.2.dome ≠ d) ∨ w = s.tdMigs d) :
    s.tdDrainDone d = if w.tdDrained d t then (({ w with sec := { w.sec with armed := w.sec.armed ++ [d] } } : State).putTd d
      { t with step := 3 }).tdRecall d else w := by
  have hmigs : w = s.tdMigs d := by
    rcases hw with ⟨rfl, hno⟩ | hw
    · exact (State.tdMigs_none _ hno).symm
    · exact hw
  have hfind : SMap.find (s.tdMigs d).sec.teardowns d = some t := by rw [State.tdMigs_sec, ht]
  rw [State.tdDrainDone, ht, Option.any_some, h]
  simp only [beq_self_eq_true, if_true, hfind, h, decide_true, Bool.true_and]
  rw [hmigs]

theorem State.tdDrainDone_not (h : t.step ≠ 1) : s.tdDrainDone d = s := by
  rw [State.tdDrainDone, ht, Option.any_some]
  simp only [beq_eq_false_iff_ne.2 h, Bool.false_eq_true, if_false, ht, decide_eq_false h, Bool.false_and]

theorem State.tdTimeout_of {cs : List (Nat × Cmd)} {w : State} (h : t.step = 1) (hn : t.timedOut = false)
    (hcs : cs = (s.tdCmds d t.cmd).filter fun e => e.2.st != .done)
    (hw : w = (cs.foldl (fun (x : State) e => x.tdAbandon e.1) s).tdSweeps d) :
    s.tdTimeout d = (((w.bump F.SEC_TD_CNT_aborted cs.length).raise 14 0 d none d).putTd d
      { t with timedOut := true, aborted := t.aborted + cs.length }).tdDrainDone d := by
  subst hw hcs
  rw [State.tdTimeout, ht]
  exact if_neg (by simp [h, hn])

end

/-! ## Recall, release, keys and chip (R316, R318) -/

section
variable {s : State} {d : Nat} {t : Teardown}

theorem State.tdNext_recalls (h : t.step = 3) (hw : s.tdSnoops d ≠ [] ∨ s.tdHeld d ≠ []) :
    s.tdNext d t = (s.tdRecall d, false) := by
  simp only [State.tdNext, h]
  exact if_pos (by rcases hw with hw | hw <;> simp [hw])

theorem State.tdNext_recalled (h : t.step = 3) (hs : s.tdSnoops d = []) (hh : s.tdHeld d = []) :
    s.tdNext d t = (s.putTd d { t with step := 4, cells := s.tdCells d }, true) := by
  simp only [State.tdNext, h]
  exact if_neg (by simp [hs, hh])

theorem State.tdNext_released {w : State} (h : t.step = 4) (hw : w = s.tdRelease (s.tdCells d)) (hc : w.tdCells d = [])
    (hn : w.copying = false) : s.tdNext d t = ((w.tdGroups d).putTd d { t with step := 5, mark := w.home.nextId }, true) := by
  subst hw
  simp only [State.tdNext, h]
  exact if_neg (by simp [hc, hn])

theorem State.tdNext_releases {w : State} (h : t.step = 4) (hw : w = s.tdRelease (s.tdCells d))
    (hc : w.tdCells d ≠ [] ∨ w.copying = true) : s.tdNext d t = (w, false) := by
  subst hw
  simp only [State.tdNext, h]
  exact if_pos (by rcases hc with hc | hc <;> simp [hc])

theorem State.tdNext_keys (h : t.step = 5) :
    s.tdNext d t = if s.drainedTo t.mark then ((s.tdKeys d).putTd d { t with step := 6 }, true) else (s, false) := by
  simp only [State.tdNext, h]

theorem State.tdNext_invalidates (h : t.step = 6 ∨ t.step = 7) (hi : s.comb.inval ≠ none) : s.tdNext d t = (s, false) := by
  have hsome := Option.isSome_iff_ne_none.2 hi
  rcases h with h | h
  · simp only [State.tdNext, h, hsome, if_true]
  · simp only [State.tdNext, h, hsome, if_true]

theorem State.tdNext_chip (h : t.step = 6) (hi : s.comb.inval = none) (hh : s.fB F.RYP_HANDLE_CTL_enable = false) :
    s.tdNext d t = (((s.dropAns (.teardown d)).tdChip d).putTd d { t with step := 7 }, true) := by
  simp only [State.tdNext, h, hi, hh, Option.isSome_none, Bool.false_eq_true, if_false]

theorem State.tdNext_handles {r : State × Bool} (h : t.step = 6) (hi : s.comb.inval = none)
    (hh : s.fB F.RYP_HANDLE_CTL_enable = true) (hr : r = State.tdHandles d 65535 s 1) : s.tdNext d t =
      (if r.2 then ((r.1.dropAns (.teardown d)).tdChip d).putTd d { t with step := 7 } else r.1, r.2) := by
  obtain ⟨v, b⟩ := r
  simp only [State.tdNext, h, hi, hh, Option.isSome_none, Bool.false_eq_true, if_false, if_true, ← hr]
  cases b <;> rfl

theorem State.tdNext_invalidated (h : t.step = 7) (hi : s.comb.inval = none) :
    s.tdNext d t = (s.putTd d { t with step := 8 }, true) := by
  simp only [State.tdNext, h, hi, Option.isSome_none, Bool.false_eq_true, if_false]

theorem State.tdNext_ended (h : t.step = 8) : s.tdNext d t = (s, false) := by
  simp only [State.tdNext, h]

theorem State.tdGo_next {fuel : Nat} {r : State × Bool} (ht : SMap.find s.sec.teardowns d = some t) (hr : r = s.tdNext d t) :
    State.tdGo d (fuel + 1) s = if r.2 then State.tdGo d fuel r.1 else r.1 := by
  rw [State.tdGo, ht]
  dsimp only
  rw [← hr]
  obtain ⟨v, _ | _⟩ := r <;> rfl

/-- While the teardown's own step has yet to come the row leaves what it came to. -/
theorem State.tdRecallDone_before {o : TdRest} {w : State} {y : Teardown} (hw : w = State.tdGo d 6 s)
    (hy : SMap.find w.sec.teardowns d = some y) (h : y.step ≠ 8) : s.tdRecallDone d o = w := by
  rw [State.tdRecallDone, ← hw]
  simp only [hy, ne_eq, h, not_false_eq_true, if_true]

theorem State.tdRecallDone_recalls {o : TdRest} (ht : SMap.find s.sec.teardowns d = some t) (h : t.step = 3)
    (hw : s.tdSnoops d ≠ [] ∨ s.tdHeld d ≠ []) : s.tdRecallDone d o = s.tdRecall d := by
  have hgo : State.tdGo d 6 s = s.tdRecall d := by
    rw [State.tdGo_next ht (State.tdNext_recalls h hw).symm]
    rfl
  exact State.tdRecallDone_before (y := t) hgo.symm (by rw [State.tdRecall_sec, ht]) (by omega)

/-- With its chip's invalidation over the teardown has come to its last steps. -/
theorem State.tdRecallDone_last {o : TdRest} {y : Teardown} {w : State} (ht : SMap.find s.sec.teardowns d = some t)
    (h : t.step = 7) (hi : s.comb.inval = none) (hy : y = { t with step := 8 }) (hw : w = s.putTd d y) :
    s.tdRecallDone d o = if t.overwrite then (({ w with sec := { w.sec with overwrite := w.sec.overwrite ++ [(d, t.cells)] } } :
      State).putTd d { t with step := 9 }).pguAsk 8 (.overwrite d) else w.tdFinish d y o := by
  have hfind : SMap.find w.sec.teardowns d = some y := by rw [hw]; exact SMap.find_put_same _ _ _
  have hgo : State.tdGo d 6 s = w := by
    rw [State.tdGo_next ht (State.tdNext_invalidated h hi).symm, if_pos rfl, ← hy, ← hw,
      State.tdGo_next hfind (State.tdNext_ended (by rw [hy])).symm]
    rfl
  rw [State.tdRecallDone, hgo]
  simp only [hfind]
  subst hy
  exact if_neg (by simp)

theorem State.tdOverwritten_of {o : TdRest} {w : State} (ht : SMap.find s.sec.teardowns d = some t) (h : t.step = 9)
    (hl : s.hasLeave (.overwrite d) = true) (hw : w = (s.tdOverwrite t.cells).pguReturn (.overwrite d)) :
    s.tdOverwritten d o = ({ w with sec := { w.sec with overwrite := w.sec.overwrite.filter fun x => x.1 != d } } :
      State).tdFinish d t o := by
  subst hw
  rw [State.tdOverwritten, ht]
  exact if_neg (by simp [h, hl])

end

/-! ## A Dome's number is free -/

section
variable (s : State)

theorem SMap.ne_of_find_none {α : Type} {m : SMap α} {k : Nat} (h : SMap.find m k = none) : ∀ x ∈ m, x.1 ≠ k := by
  induction m with
  | nil => exact fun x hx => absurd hx List.not_mem_nil
  | cons y m ih =>
    rw [SMap.find] at h
    split at h
    · exact absurd h (by simp)
    next hne =>
      intro x hx
      rcases List.mem_cons.1 hx with rfl | hx
      · exact fun hk => hne hk.symm
      · exact ih h x hx

theorem State.tableWrite_q (q : Nat) (d : QDesc) (st : Nat) : (s.tableWrite q d st).q = s.q ∧ (s.tableWrite q d st).domes = s.domes := by
  rw [State.tableWrite]
  split
  · exact ⟨rfl, rfl⟩
  · rw [State.enter]
    dsimp only
    split
    · exact ⟨rfl, rfl⟩
    · rw [State.readyAs]
      split <;> exact ⟨rfl, rfl⟩

theorem State.freeDesc_domes (q : Nat) : (s.freeDesc q).domes = s.domes := by
  rw [State.freeDesc]
  split
  · exact (State.tableWrite_q _ _ _ _).2
  · rfl

theorem State.freeDesc_mem {q : Nat} {x : Nat × QDesc} (h : x ∈ (s.freeDesc q).q.desc) : x ∈ s.q.desc ∧ x.1 ≠ q := by
  rw [State.freeDesc] at h
  split at h
  · rw [(State.tableWrite_q _ _ _ _).1] at h
    obtain ⟨hx, hq⟩ := List.mem_filter.1 h
    exact ⟨hx, by simpa using hq⟩
  next hnone => exact ⟨h, SMap.ne_of_find_none hnone x h⟩

theorem freeDescs_mem (l : List (Nat × QDesc)) {s : State} {x : Nat × QDesc}
    (h : x ∈ (l.foldl (fun (s : State) e => s.freeDesc e.1) s).q.desc) : x ∈ s.q.desc ∧ ∀ e ∈ l, x.1 ≠ e.1 := by
  induction l generalizing s with
  | nil => exact ⟨h, fun e he => absurd he List.not_mem_nil⟩
  | cons y l ih =>
    obtain ⟨hx, hl⟩ := ih h
    obtain ⟨hx, hy⟩ := s.freeDesc_mem hx
    refine ⟨hx, fun e he => ?_⟩
    rcases List.mem_cons.1 he with rfl | he
    · exact hy
    · exact hl e he

theorem State.domeFreed_free {e : Nat} (h : e ≠ 0) : (s.domeFreed e).domeSt e = .free := by
  have hdomes : (s.domeFreed e).domes.st = SMap.store s.domes.st .free e .free := by
    rw [State.domeFreed]
    exact congrArg Domes.st (foldl_keeps State.domes (fun (s : State) (x : Nat × QDesc) => s.freeDesc x.1)
      (fun t x => t.freeDesc_domes _) _ _)
  rw [State.domeSt, if_neg h, hdomes]
  exact SMap.findD_store_same _ _ _ _

theorem State.domeFreed_desc (e : Nat) : ∀ q ∈ (s.domeFreed e).q.desc, q.2.dome ≠ e := by
  intro q hq hd
  obtain ⟨hmem, hne⟩ := freeDescs_mem _ hq
  exact hne q (List.mem_filter.2 ⟨hmem, by simpa using hd⟩) rfl

theorem State.domeFreed_sec (e : Nat) :
    SMap.find (s.domeFreed e).sec.bind e = none ∧ e ∉ (s.domeFreed e).sec.armed :=
  ⟨SMap.find_del_same _ _, fun h => by simpa using (List.mem_filter.1 h).2⟩

theorem State.tdKeys_slot {e g : Nat} (h : e ≠ 0) (hg : g < 2) : (s.tdKeys e).keySlot e g = ⟨.empty, 0⟩ := by
  have hslots : (s.tdKeys e).sec.slots = SMap.del (SMap.del s.sec.slots (e * 2 + 0)) (e * 2 + 1) := rfl
  have hnone : SMap.find (s.tdKeys e).sec.slots (e * 2 + g) = none := by
    rw [hslots]
    interval_cases g
    · rw [SMap.find_del_other _ _ _ (by omega), SMap.find_del_same]
    · rw [SMap.find_del_same]
  rw [State.keySlot, if_neg h, SMap.findD, hnone]
  rfl

end

theorem exec_teardownDrainDone {s : State} {d : Fin 4096} :
    exec (.teardownDrainDone d) s = run s fun s => s.tdDrainDone d.val := rfl
theorem exec_drainTimeout {s : State} {d : Fin 4096} : exec (.drainTimeout d) s = run s fun s => s.tdTimeout d.val := rfl
theorem exec_teardownRecallDone {s : State} {d : Fin 4096} {o : TdRest} :
    exec (.teardownRecallDone d o) s = run s fun s => s.tdRecallDone d.val o := rfl
theorem exec_overwritePassDone {s : State} {d : Fin 4096} {o : TdRest} :
    exec (.overwritePassDone d o) s = run s fun s => s.tdOverwritten d.val o := rfl

/-- Settles O53. -/
theorem teardownSteps : Obligations.TeardownSteps := by
  intro s u d t hup
  refine ⟨fun k c r a hold hr hu hpos => ?_, fun ht => ⟨fun w h hw => ?_, fun h => ?_, fun cs w h hn hcs hw => ?_,
      fun h => ⟨fun hw => ⟨State.tdNext_recalls h hw, fun o => ?_⟩, State.tdNext_recalled h⟩,
      fun h w hw => ⟨State.tdNext_released h hw, State.tdNext_releases h hw⟩, fun h => ?_, State.tdNext_invalidates,
      State.tdNext_chip, fun r h hi hh hr => State.tdNext_handles h hi hh hr, fun o y w h hi hy hw => ?_,
      fun o w h hl hw => ?_⟩,
    fun e fuel y r hy hr => State.tdGo_next hy hr, fun o w y hw hy h => ?_,
    fun e h => ⟨s.domeFreed_free h, s.domeFreed_desc e, s.domeFreed_sec e⟩, fun e g h hg => s.tdKeys_slot h hg⟩
  · have hrun := State.exec_control (i := .domeTeardown k a) (chk := false) (f := fun s c => s.teardownCmd k a c) hold hr hu hup rfl
      (Or.inl rfl)
    have hst : u.domeSt r.subject = s.domeSt c.subject := by rw [hu, hr]; rfl
    have hrp : r.pos = 0 := by rw [hr]; exact hpos
    have hsub : r.subject = c.subject := by subst hr; rfl
    refine ⟨fun h => ?_, fun h0 h => ?_, fun w h0 h hq hw => ?_⟩
    · rw [hrun, State.teardownCmd_format hrp (by rwa [hst, hsub]), State.ctlEnd]
    · rw [hrun, State.teardownCmd_busy hrp (by rwa [hsub]) (by rw [hst, h]), State.ctlEnd]
    · rw [hrun, State.teardownCmd_starts hrp (by rwa [hsub]) (by rw [hst, h]) hq, State.ctlEnd, ← hw, hr]
      rfl
  · rw [exec_teardownDrainDone, run_up _ hup, State.tdDrainDone_of ht h hw]
    exact ⟨fun hd => by rw [if_pos hd], fun hd => by rw [if_neg (by simp [hd])]⟩
  · rw [exec_teardownDrainDone, run_up _ hup, State.tdDrainDone_not ht h, State.keep_self]
  · rw [exec_drainTimeout, run_up _ hup, State.tdTimeout_of ht h hn hcs hw]
  · rw [exec_teardownRecallDone, run_up _ hup, State.tdRecallDone_recalls ht h hw]
  · rw [State.tdNext_keys h]
    exact ⟨fun hd => if_pos hd, fun hd => if_neg (by simp [hd])⟩
  · rw [exec_teardownRecallDone, run_up _ hup, State.tdRecallDone_last ht h hi hy hw]
    exact ⟨fun hov => by rw [if_neg (by simp [hov])], fun hov => by rw [if_pos hov]⟩
  · rw [exec_overwritePassDone, run_up _ hup, State.tdOverwritten_of ht h hl hw]
  · rw [exec_teardownRecallDone, run_up _ hup, State.tdRecallDone_before hw hy h]

end Sys2Proof.Machine
end

section
/-!
PROOFS. What the senders of a Rythar port and the loss of a CXL link leave alone; freeze, thaw and the switching of domains
(R346 - R348, R358 - R363).
-/
namespace Sys2Proof.Machine

/-! ## Engine accesses and the spill ring -/

section
variable (s : State)

theorem State.engEnter_root (t : Tx) : (s.engEnter t).SameRoot s := .ite .refl (s.enter_root t)

theorem State.engAccess_root (t : Tx) : (s.engAccess t).1.SameRoot s := by
  rw [State.engAccess]
  split
  · exact .refl
  · exact s.engEnter_root t

theorem State.engRead_root (o : Origin) (ctx : Ctx) (line cls gen : Nat) (heat : HeatKind) (fill : Option Nat) :
    (s.engRead o ctx line cls gen heat fill).1.SameRoot s := s.engAccess_root _

theorem State.engWrite_root (o : Origin) (gen : Nat) (w : EngWr) : (s.engWrite o gen w).1.SameRoot s := by
  have h := s.engAccess_root (w.tx o gen)
  rw [State.engWrite]
  generalize s.engAccess (w.tx o gen) = x at h ⊢
  obtain ⟨t, _ | _ | _⟩ := x <;> exact h

/-- A fold of pairs keeps the root where each of its steps does. -/
theorem foldl_pair_root {α β : Type} (f : State × β → α → State × β) (hf : ∀ x a, (f x a).1.SameRoot x.1) (l : List α)
    (x : State × β) : (l.foldl f x).1.SameRoot x.1 := by
  induction l generalizing x with
  | nil => exact .refl
  | cons a l ih => exact (ih (f x a)).trans (hf x a)

theorem State.spillOut_root (p : Nat) (f : Flit) : (s.spillOut p f).1.SameRoot s := by
  rw [State.spillOut]
  dsimp only
  have hfold := foldl_pair_root (fun (acc : State × Bool) i =>
    let w : EngWr := ⟨0, s.ryRingAddr p f.seq / 64 + i, ⟨BitVec.ofNat 512 (bits f.image (512 * i) 512), 0⟩, fullBe, ryClass p,
      .other, .none, none⟩
    match acc.1.engWrite (.rythar p 64 f.seq) 0 w with
    | (s, some _) => (s, acc.2)
    | (s, none) => (s, false)) (fun acc i => by
      dsimp only
      generalize hw : (⟨0, s.ryRingAddr p f.seq / 64 + i, ⟨BitVec.ofNat 512 (bits f.image (512 * i) 512), 0⟩, fullBe, ryClass p,
        .other, .none, none⟩ : EngWr) = w
      have h := acc.1.engWrite_root (.rythar p 64 f.seq) 0 w
      generalize acc.1.engWrite (.rythar p 64 f.seq) 0 w = x at h ⊢
      obtain ⟨t, _ | _⟩ := x <;> exact h) (List.range 5) (s, true)
  generalize List.foldl _ (s, true) (List.range 5) = x at hfold ⊢
  obtain ⟨t, _ | _⟩ := x
  · exact hfold
  · exact State.SameRoot.trans ⟨rfl, rfl, rfl⟩ hfold

theorem State.spillIn_root (p seq : Nat) : (s.spillIn p seq).1.SameRoot s := by
  rw [State.spillIn]
  dsimp only
  have hfold := foldl_pair_root (fun (acc : State × Back) i =>
    match acc.1.engRead (.rythar p 64 seq) 0 (s.ryRingAddr p seq / 64 + i) (ryClass p) 0 .none none with
    | (s, none) => (s, .wait)
    | (s, some (.ok l)) => (s, acc.2.and (if l.anyPoison then .lost else .image (l.data.toNat * 2 ^ (512 * i))))
    | (s, some (.no _)) => (s, acc.2.and .lost)) (fun acc i => by
      have h := acc.1.engRead_root (.rythar p 64 seq) 0 (s.ryRingAddr p seq / 64 + i) (ryClass p) 0 .none none
      generalize acc.1.engRead (.rythar p 64 seq) 0 (s.ryRingAddr p seq / 64 + i) (ryClass p) 0 .none none = x at h ⊢
      obtain ⟨t, _ | _ | _⟩ := x <;> exact h) (List.range 5) (s, .image 0)
  generalize List.foldl _ (s, Back.image 0) (List.range 5) = x at hfold ⊢
  obtain ⟨t, b⟩ := x
  dsimp only
  split
  · exact hfold
  · exact State.SameRoot.trans ⟨rfl, rfl, rfl⟩ hfold

/-! ## A Rythar port sends -/

theorem State.sendFlit_root (p : Nat) (f : Flit) : (s.sendFlit p f).SameRoot s := by
  rw [State.sendFlit, State.layFlit]
  exact .ite ⟨rfl, rfl, rfl⟩ ⟨rfl, rfl, rfl⟩

theorem State.sendAck_root (p : Nat) (nak : Bool) : (s.sendAck p nak).SameRoot s :=
  .ite ⟨rfl, rfl, rfl⟩ ((State.sendFlit_root _ _ _).trans ⟨rfl, rfl, rfl⟩)

theorem State.originate_root (p : Pkt) (cls : Nat) : (s.originate p cls).SameRoot s := .ite ⟨rfl, rfl, rfl⟩ ⟨rfl, rfl, rfl⟩

theorem State.lostMsg_root (m : Option MsgKey) : (s.lostMsg m).SameRoot s := by
  rw [State.lostMsg.eq_def]
  split
  · exact s.originate_root _ _
  · exact .refl

theorem State.loseFlit_root (p : Nat) (x : SentFlit) : (s.loseFlit p x).SameRoot s := by
  rw [State.loseFlit]
  refine (State.raise_root _ _ _ _ _ _).trans ((State.bump_root _ _ _ _ _).trans ?_)
  exact .ite ⟨rfl, rfl, rfl⟩ .refl

theorem State.openEpoch_root (p : Nat) : (s.openEpoch p).SameRoot s := .ite ⟨rfl, rfl, rfl⟩ .refl

theorem State.sendSeq_root (p : Nat) (f : Flit) (m : Option MsgKey) : (s.sendSeq p f m).SameRoot s :=
  (State.sendFlit_root _ _ _).trans (State.SameRoot.trans ⟨rfl, rfl, rfl⟩ (s.openEpoch_root p))

/-- With its epoch closed a transmitter changes its generation where it is to. -/
def State.macSent (s : State) (p : Nat) : State :=
  let r := s.ryPort p
  let other := 1 - r.txGen
  if r.switchReq && (SMap.find r.keys other).isSome then s.setRy p { r with txGen := other, switchReq := false }
  else s.setRy p { r with switchReq := false }

theorem State.macSent_root (p : Nat) : (s.macSent p).SameRoot s := .ite ⟨rfl, rfl, rfl⟩ ⟨rfl, rfl, rfl⟩

theorem State.sendMac_root (p : Nat) : (s.sendMac p).SameRoot s := (State.macSent_root _ p).trans (s.sendSeq_root p _ none)

theorem State.makeRoom_root (p : Nat) : (s.makeRoom p).1.SameRoot s := by
  rw [State.makeRoom]
  dsimp only
  split
  · exact .refl
  · split
    · exact .refl
    · split
      · exact .refl
      next x _ _ =>
        have h := s.spillOut_root p x.flit
        generalize s.spillOut p x.flit = y at h ⊢
        obtain ⟨t, _ | _⟩ := y
        · exact h
        · exact State.SameRoot.trans ⟨rfl, rfl, rfl⟩ h

theorem State.voidFlit_root (p : Nat) (x : SentFlit) : (s.voidFlit p x).SameRoot s :=
  (State.sendFlit_root _ _ _).trans ((State.lostMsg_root _ _).trans (State.SameRoot.trans ⟨rfl, rfl, rfl⟩ (s.loseFlit_root p x)))

theorem State.replayNext_root (p seq : Nat) : (s.replayNext p seq).SameRoot s := by
  rw [State.replayNext]
  dsimp only
  split
  · exact ⟨rfl, rfl, rfl⟩
  · split
    · exact .refl
    · split
      · exact (State.sendFlit_root _ _ _).trans ⟨rfl, rfl, rfl⟩
      · have h := s.spillIn_root p seq
        generalize s.spillIn p seq = y at h ⊢
        obtain ⟨t, _ | _ | n⟩ := y
        · exact h
        · exact (State.voidFlit_root _ _ _).trans (State.SameRoot.trans ⟨rfl, rfl, rfl⟩ h)
        · exact (State.sendFlit_root _ _ _).trans (State.SameRoot.trans ⟨rfl, rfl, rfl⟩ h)

theorem State.sendUnits_root (p : Nat) (x : OutPkt) : (s.sendUnits p x).SameRoot s :=
  (State.sendSeq_root _ _ _ _).trans ⟨rfl, rfl, rfl⟩

theorem State.ryReset_root (p : Nat) (self : Bool) : (s.ryReset p self).SameRoot s :=
  (State.bump_root _ _ _ _ _).trans ⟨rfl, rfl, rfl⟩

theorem State.ctrlDone_root (p op arg : Nat) : (s.ctrlDone p op arg).SameRoot s := .ite ⟨rfl, rfl, rfl⟩ (s.ryReset_root p true)

/-- What a sender with room does: the MAC of its epoch, an operation that waits, a packet's units, or the credit it owes. -/
def State.sendNext (s : State) (p : Nat) (mac : Bool) (ctrl : List (Nat × Nat)) : State :=
  let r := s.ryPort p
  if mac then s.sendMac p
  else match ctrl with
    | (op, arg) :: rest =>
      let s := (s.setRy p { r with ctrl := rest }).sendSeq p (r.ctrlFlit op arg) none
      if op ≠ 4 ∧ op ≠ 5 then s
      else if r.encrypted then
        s.setRy p { s.ryPort p with ctrl := (op + 10, arg) :: (s.ryPort p).ctrl }
      else s.ctrlDone p (op + 10) arg
    | [] =>
      match r.nextOut with
      | some x => s.sendUnits p x
      | none => s.sendSeq p (r.ctrlFlit 0 0) none

theorem State.sendNext_root (p : Nat) (mac : Bool) (ctrl : List (Nat × Nat)) : (s.sendNext p mac ctrl).SameRoot s := by
  rw [State.sendNext.eq_def]
  dsimp only
  refine .ite (s.sendMac_root p) ?_
  split
  next op arg rest =>
    have h : ((s.setRy p { s.ryPort p with ctrl := rest }).sendSeq p ((s.ryPort p).ctrlFlit op arg) none).SameRoot s :=
      (State.sendSeq_root _ _ _ _).trans ⟨rfl, rfl, rfl⟩
    generalize (s.setRy p { s.ryPort p with ctrl := rest }).sendSeq p ((s.ryPort p).ctrlFlit op arg) none = t at h ⊢
    exact .ite h (.ite (State.SameRoot.trans ⟨rfl, rfl, rfl⟩ h) ((t.ctrlDone_root _ _ _).trans h))
  · split
    · exact s.sendUnits_root p _
    · exact s.sendSeq_root p _ none

theorem State.flitTransmit_root (p : Nat) : (s.flitTransmit p).SameRoot s := by
  rw [State.flitTransmit]
  dsimp only
  refine .ite .refl ?_
  split
  · exact s.replayNext_root p _
  · refine .ite ((State.ctrlDone_root _ _ _ _).trans ⟨rfl, rfl, rfl⟩) (.ite (s.sendAck_root p false) (.ite .refl ?_))
    have h := s.makeRoom_root p
    generalize s.makeRoom p = y at h ⊢
    obtain ⟨t, _ | _⟩ := y
    · exact h
    · exact (t.sendNext_root p _ _).trans h

theorem State.ryResetSelf_root (p : Nat) : (s.ryResetSelf p).SameRoot s :=
  .ite ((State.flitTransmit_root _ _).trans ⟨rfl, rfl, rfl⟩) (s.ryReset_root p true)

/-! ## A CXL link goes down -/

theorem State.vecBack_root (x : EgItem) : (s.vecBack x).SameRoot s := by
  rw [State.vecBack]
  split
  · split <;> exact ⟨rfl, rfl, rfl⟩
  · exact .refl

theorem State.linkDown_root (p l : Nat) : (s.linkDown p l).SameRoot s := by
  rw [State.linkDown]
  dsimp only
  refine .ite .refl ?_
  refine (State.raise_root _ _ _ _ _ _).trans ((State.bump_root _ _ _ _ _).trans (State.SameRoot.trans ⟨rfl, rfl, rfl⟩ ?_))
  exact foldl_root (fun (s : State) i => s.vecBack i) (fun t i => t.vecBack_root i) _ s

/-! ## Freeze and thaw (R358 - R363) -/

theorem State.leaveSr_root (ch : Nat) : (s.leaveSr ch).SameRoot s :=
  (State.fSet_root _ _ _ _ _).trans ⟨rfl, rfl, rfl⟩

/-- What a thaw does once the device runs: channels, CXL links and Rythar ports. -/
def State.thawed (s : State) : State :=
  let bad := fun ch => bit (s.fN F.FRZ_STATUS_sr_fail) ch
  let s := (List.range 24).foldl (fun s ch =>
    if bad ch then s.failChannel ch
    else if (s.chan ch).selfRefresh && s.domainOn (7 + ch / 4) then s.leaveSr ch else s) s
  let s := (List.range 16).foldl (fun s p => (s.linkDown p 0).linkDown p 1) s
  (List.range 12).foldl (fun s p =>
    match (s.ryPort p).st with
    | .down => s
    | .failed => s
    | _ => s.ryResetSelf p) s

theorem State.thawed_root : s.thawed.SameRoot s := by
  rw [State.thawed]
  refine (foldl_root _ (fun t p => ?_) _ _).trans ((foldl_root _ (fun t p => ?_) _ _).trans (foldl_root _ (fun t ch => ?_) _ _))
  · split
    · exact .refl
    · exact .refl
    · exact t.ryResetSelf_root p
  · exact (State.linkDown_root _ _ _).trans (t.linkDown_root p 0)
  · exact .ite (t.failChannel_root ch) (.ite (t.leaveSr_root ch) .refl)

variable {s}

theorem State.thaw_of (hf : s.pwr.frozen = true) (hp : s.pwr.freezePin = false) (ht : s.pwr.tapFreeze = false) :
    s.thaw = ({ s with pwr := { s.pwr with frozen := false, throttlePin := s.pwr.throttleIn } } : State).thawed :=
  if_neg (by simp [hf, hp, ht])

theorem State.thaw_pwr (hf : s.pwr.frozen = true) (hp : s.pwr.freezePin = false) (ht : s.pwr.tapFreeze = false) :
    s.thaw.pwr = { s.pwr with frozen := false, throttlePin := s.pwr.throttleIn } := by
  rw [State.thaw_of hf hp ht, (State.thawed_root _).1]

theorem State.thaw_held (ht : s.pwr.tapFreeze = true) : s.thaw = s := if_pos (by simp [ht])

end

/-! ## Which channels a freeze puts into self-refresh -/

section
variable (s : State)

theorem State.enterSr_same (ch : Nat) : ((s.enterSr ch).chan ch).selfRefresh = true := by
  rw [State.enterSr, State.chan_setChan]

theorem State.enterSr_keeps {ch i : Nat} (h : (s.chan ch).selfRefresh = true) : ((s.enterSr i).chan ch).selfRefresh = true := by
  by_cases hi : Fin.ofNat 24 i = Fin.ofNat 24 ch
  · have hch : (s.enterSr i).chan ch = (s.enterSr i).chan i := congrArg (s.enterSr i).chans.get hi.symm
    rw [hch, State.enterSr_same]
  · have hch : (s.enterSr i).chan ch = s.chan ch := by
      rw [State.enterSr, State.setChan, State.chan, State.chan]
      dsimp only
      exact Vector.getElem_set_ne _ _ fun he => hi (Fin.ext he)
    rw [hch, h]

theorem enterSrs_mem (l : List Nat) {s : State} {ch : Nat} (h : ch ∈ l ∨ (s.chan ch).selfRefresh = true) :
    ((l.foldl (fun (s : State) i => s.enterSr i) s).chan ch).selfRefresh = true := by
  induction l generalizing s with
  | nil => exact h.resolve_left List.not_mem_nil
  | cons i l ih =>
    refine ih ?_
    rcases h with h | h
    · rcases List.mem_cons.1 h with rfl | h
      · exact Or.inr (s.enterSr_same ch)
      · exact Or.inl h
    · exact Or.inr (s.enterSr_keeps h)

variable {s} {miss : BitVec 24} (hf : s.pwr.frozen = false) (hstep : 3 ≤ s.pwr.step)
include hf hstep

theorem State.freeze_chans : (s.freeze miss).chans =
    ((((List.range 24).filter fun ch => s.srActs ch).filter fun ch => !miss.getLsbD ch).foldl (fun s ch => s.enterSr ch) s).chans := by
  rw [State.freeze, if_neg (by simp [hf, Nat.not_lt.2 hstep])]
  dsimp only
  rw [State.fSet_chans]

theorem State.freeze_home : (s.freeze miss).home = s.home := by
  rw [State.freeze, if_neg (by simp [hf, Nat.not_lt.2 hstep])]
  dsimp only
  rw [State.fSet_home]
  exact foldl_keeps State.home (fun s ch => s.enterSr ch) (fun _ _ => rfl) _ _

theorem State.freeze_selfRefresh {ch : Nat} (hch : ch < 24) (hact : s.srActs ch = true) (hmiss : miss.getLsbD ch = false) :
    ((s.freeze miss).chan ch).selfRefresh = true := by
  rw [State.chan, State.freeze_chans hf hstep, ← State.chan]
  exact enterSrs_mem _ (Or.inl (List.mem_filter.2 ⟨List.mem_filter.2 ⟨List.mem_range.2 hch, hact⟩, by simp [hmiss]⟩))

end

/-! ## Domains (R346 - R348) -/

theorem bit_bits {x lo w i : Nat} (h : i < w) : bit (bits x lo w) i = bit x (lo + i) := by
  rw [bit_testBit, bit_testBit, bits, Nat.testBit_mod_two_pow, Nat.testBit_div_two_pow, Nat.add_comm i lo]
  simp [h]

theorem bit_setBits_same (x i : Nat) (b : Bool) : bit (setBits x i 1 (if b then 1 else 0)) i = b := by
  have h : setBits x i 1 (if b then 1 else 0) / 2 ^ i % 2 = (if b then 1 else 0) % 2 := bits_setBits x i 1 _
  rw [bit, h]
  cases b <;> rfl

theorem bit_setBits_other {x i j v : Nat} (h : j ≠ i) : bit (setBits x i 1 v) j = bit x j := by
  have heq : setBits x i 1 v / 2 ^ j % 2 = x / 2 ^ j % 2 := by
    rcases Nat.lt_or_gt_of_ne h with h | h
    · exact bits_setBits_below x i 1 v j 1 h
    · exact bits_setBits_above x i 1 v j 1 h
  rw [bit, bit, heq]

/-- A fold in which only one element of the list does anything. -/
theorem foldl_only {α β : Type} (f : β → α → β) {l : List α} {a : α} (hd : l.Nodup) (ha : a ∈ l)
    (hf : ∀ b, ∀ x ∈ l, x ≠ a → f b x = b) (b : β) : l.foldl f b = f b a := by
  obtain ⟨l₁, l₂, rfl⟩ := List.append_of_mem ha
  obtain ⟨-, hd₂, hdisj⟩ := List.nodup_append.1 hd
  have h₁ : ∀ c, l₁.foldl f c = c := fun c => by
    refine foldl_keeps_mem id f (fun b x hx => hf b x (List.mem_append_left _ hx) ?_) c
    exact hdisj x hx a List.mem_cons_self
  have h₂ : ∀ c, l₂.foldl f c = c := fun c => by
    refine foldl_keeps_mem id f (fun b x hx => hf b x (by simp [hx]) ?_) c
    rintro rfl
    exact (List.nodup_cons.1 hd₂).1 hx
  rw [List.foldl_append, h₁, List.foldl_cons, h₂]

section
variable {s : State} {d : Nat} {on : Bool} (hd : d < 14)
include hd

/-- A word that changes one domain's bit asks for that domain alone. -/
theorem State.domCtlWrite_word (hb : bit (s.fN F.PWR_DOM_CTL_on_7_20) d = !on) :
    s.domCtlWrite (s.domWord (7 + d) on) = s.domRequest (7 + d) on := by
  have hword : (s.domWord (7 + d) on).toNat = setBits (s.rd R.PWR_DOM_CTL).toNat (6 + d) 1 (if on then 1 else 0) := by
    rw [State.domWord, BitVec.toNat_ofNat, show 7 + d - 1 = 6 + d by omega]
    exact Nat.mod_eq_of_lt (setBits_lt _ _ _ _ _ (s.rd R.PWR_DOM_CTL).isLt (by omega))
  have hold : s.fN F.PWR_DOM_CTL_on_7_20 = bits (s.rd R.PWR_DOM_CTL).toNat 6 14 := rfl
  have hnew : ∀ i < 14, bit (F.PWR_DOM_CTL_on_7_20.of (s.domWord (7 + d) on)) i =
      if i = d then on else bit (s.fN F.PWR_DOM_CTL_on_7_20) i := fun i hi => by
    rw [Fld.of, hword, hold, bit_bits hi]
    refine (bit_bits (lo := 6) (w := 14) hi).trans ?_
    by_cases h : i = d
    · rw [if_pos h, h, bit_setBits_same]
    · rw [if_neg h, bit_setBits_other (by omega)]
  rw [State.domCtlWrite]
  refine (foldl_only _ (a := d) List.nodup_range (List.mem_range.2 hd) (fun t i hi hne => ?_) s).trans ?_
  · rw [hnew i (List.mem_range.1 hi), if_neg hne]
    simp
  · rw [hnew d hd, if_pos rfl, hb]
    simp

end

section
variable {s : State} {d : Nat} {on : Bool}

theorem State.domRequest_refused (h : (if on then s.onOk d else s.offOk d) = false) :
    s.domRequest d on = s.fFlag F.PWR_DOM_STATUS_refused true := by
  rw [State.domRequest, if_pos (by simp [h])]

/-- The switch of a domain that begins. -/
def State.domSwitch (s : State) (d : Nat) (on : Bool) : State :=
  let s := s.fSet F.PWR_DOM_CTL_on_7_20 (setBits (s.fN F.PWR_DOM_CTL_on_7_20) (d - 7) 1 (if on then 1 else 0))
  if d ≤ 12 ∧ !on then (List.range 4).foldl (fun s i => s.enterSr (4 * (d - 7) + i)) s else s

theorem State.domRequest_of (h0 : s.pwr.switching = none) (h : (if on then s.onOk d else s.offOk d) = true) :
    s.domRequest d on = { s.domSwitch d on with pwr := { (s.domSwitch d on).pwr with switching := some (d, on) } } := by
  rw [State.domRequest, if_neg (by simp [h, h0])]
  rfl

theorem State.domSwitch_pwr : (s.domSwitch d on).pwr = s.pwr := by
  rw [State.domSwitch]
  split
  · exact (foldl_keeps State.pwr _ (fun t i => t.enterSr_pwr _) _ _).trans (State.fSet_pwr _ _ _ _ _)
  · exact State.fSet_pwr _ _ _ _ _

theorem State.domSwitch_bit (h7 : 7 ≤ d) (h : d < 21) : bit ((s.domSwitch d on).fN F.PWR_DOM_CTL_on_7_20) (d - 7) = on := by
  have hcsr : (s.domSwitch d on).csr = (s.fSet F.PWR_DOM_CTL_on_7_20
      (setBits (s.fN F.PWR_DOM_CTL_on_7_20) (d - 7) 1 (if on then 1 else 0))).csr := by
    rw [State.domSwitch]
    split
    · exact foldl_keeps State.csr (fun (s : State) i => s.enterSr (4 * (d - 7) + i)) (fun _ _ => rfl) _ _
    · rfl
  have hlt : setBits (s.fN F.PWR_DOM_CTL_on_7_20) (d - 7) 1 (if on then 1 else 0) < 2 ^ 14 :=
    setBits_lt _ _ _ _ _ (Nat.mod_lt _ (by decide)) (by omega)
  have hf : (s.domSwitch d on).fN F.PWR_DOM_CTL_on_7_20 =
      setBits (s.fN F.PWR_DOM_CTL_on_7_20) (d - 7) 1 (if on then 1 else 0) := by
    rw [State.fN, State.rd, hcsr, ← State.rd, ← State.fN, State.fN_fSet _ _ _ _ _ (by decide)]
    exact Nat.mod_eq_of_lt hlt
  rw [hf, bit_setBits_same]

end

/-- A switch that may begin changes its domain's bit and nothing that is on yet. -/
theorem State.domWord_switches {s : State} {d : Nat} {on : Bool} (hd : d < 14) (h0 : s.pwr.switching = none)
    (hb : bit (s.fN F.PWR_DOM_CTL_on_7_20) d = !on) (h : (if on then s.onOk (7 + d) else s.offOk (7 + d)) = true) :
    (s.domCtlWrite (s.domWord (7 + d) on)).pwr = { s.pwr with switching := some (7 + d, on) } ∧
      bit ((s.domCtlWrite (s.domWord (7 + d) on)).fN F.PWR_DOM_CTL_on_7_20) d = on := by
  have hbit := State.domSwitch_bit (s := s) (d := 7 + d) (on := on) (by omega) (by omega)
  rw [Nat.add_sub_cancel_left] at hbit
  rw [State.domCtlWrite_word hd hb, State.domRequest_of h0 h]
  exact ⟨by rw [State.domSwitch_pwr], hbit⟩

/-! ### A switch completes -/

section
variable (s : State)

theorem State.groupBack_pwr (ch : Nat) : (s.groupBack ch).pwr = s.pwr := by
  rw [State.groupBack, State.showService, State.fFlag_pwr]
  rfl

theorem State.chanOff_pwr (ch : Nat) : (s.chanOff ch).pwr = s.pwr := by
  rw [State.chanOff, State.remapFree]
  dsimp only
  rw [State.fSet_pwr, State.showService, State.fFlag_pwr, State.fFlag_pwr]
  rfl

theorem State.domainLost_pwr (d : Nat) : (s.domainLost d).pwr = s.pwr := by
  rw [State.domainLost]
  split
  · exact foldl_keeps State.pwr _ (fun t i => t.chanOff_pwr _) _ _
  · split
    · refine foldl_keeps State.pwr _ (fun t i => ?_) _ _
      rfl
    · split
      · refine foldl_keeps State.pwr _ (fun t i => ?_) _ _
        have h := (State.linkDown_root (t.linkDown (8 * (d - 17) + i) 0) (8 * (d - 17) + i) 1).trans
          (t.linkDown_root (8 * (d - 17) + i) 0)
        exact h.1
      · refine foldl_keeps State.pwr _ (fun t i => ?_) _ _
        rfl

/-- What stands behind a domain that is on again. -/
def State.domainBack (s : State) (d : Nat) : State :=
  if d ≤ 12 then (List.range 4).foldl (fun s i => (s.leaveSr (4 * (d - 7) + i)).groupBack (4 * (d - 7) + i)) s
  else if d ≤ 16 then
    (List.range 6).foldl (fun s i => let (r, s) := s.random64
      s.setSpire (6 * (d - 13) + i) { s.spire (6 * (d - 13) + i) with selfTest := true, gen := r, draws := 0 }) s
  else if d ≤ 18 then s
  else (List.range 6).foldl (fun s i => s.ryKick (6 * (d - 19) + i)) s

theorem State.domainBack_pwr (d : Nat) : (s.domainBack d).pwr = s.pwr := by
  rw [State.domainBack]
  split
  · exact foldl_keeps State.pwr _ (fun t i => (State.groupBack_pwr _ _).trans (t.leaveSr_root _).1) _ _
  · split
    · refine foldl_keeps State.pwr _ (fun t i => ?_) _ _
      rfl
    · split
      · rfl
      · exact foldl_keeps State.pwr _ (fun t i => t.ryKick_pwr _) _ _

variable {s}

theorem State.switchDone_none (h : s.pwr.switching = none) : s.switchDone = s := by
  rw [State.switchDone, h]

theorem State.switchDone_pwr {d : Nat} {on : Bool} (h : s.pwr.switching = some (d, on)) : s.switchDone.pwr = { s.pwr with
    switching := none, domains := if on then s.pwr.domains ||| (1#20 <<< (d - 1)) else s.pwr.domains &&& ~~~(1#20 <<< (d - 1)) } := by
  rw [State.switchDone, h]
  cases on
  · dsimp only
    rw [if_neg Bool.false_ne_true, if_neg Bool.false_ne_true, State.domainLost_pwr]
  · exact State.domainBack_pwr _ d

end

theorem exec_freeze {s : State} {miss : BitVec 24} : exec (.freeze miss) s =
    .next (let t : State := { s with pwr := { s.pwr with freezePin := true } }; if s.up1 then (t.freeze miss).keep t else t) := rfl
theorem exec_thaw {s : State} : exec .thaw s =
    .next (let t : State := { s with pwr := { s.pwr with freezePin := false } }; if s.up1 then t.thaw.keep t else t) := rfl
theorem exec_zmThaw {s : State} :
    exec .zmThaw s = run1 s fun s => ({ s with pwr := { s.pwr with tapFreeze := false } } : State).thaw := rfl
theorem exec_zmFreeze {s : State} {miss : BitVec 24} : exec (.zmFreeze miss) s =
    run1 s fun s => ({ s with pwr := { s.pwr with tapFreeze := true } } : State).freeze miss := rfl
theorem exec_tapReset {s : State} :
    exec .tapReset s = run1 s fun s => ({ s with pwr := { s.pwr with tapFreeze := false } } : State).thaw := rfl
theorem exec_powerDomainOff {s : State} {d : Fin 14} :
    exec (.powerDomainOff d) s = run s fun s => s.domCtlWrite (s.domWord (7 + d.val) false) := rfl
theorem exec_powerDomainOn {s : State} {d : Fin 14} :
    exec (.powerDomainOn d) s = run s fun s => s.domCtlWrite (s.domWord (7 + d.val) true) := rfl
theorem exec_powerSwitchDone {s : State} : exec .powerSwitchDone s = run1 s fun s => s.switchDone := rfl
theorem exec_refcntRead {s : State} : exec .refcntRead s = run s fun s =>
    ({ s with pwr := { s.pwr with refHi := BitVec.ofNat 16 (bits s.refCount 32 16) } } : State).emit
      (.csr (R.CLK_REFCNT_LO.addr 0 0) (BitVec.ofNat 32 s.refCount)) := rfl

/-- Settles O59. -/
theorem freezeAndDomains : Obligations.FreezeAndDomains := by
  intro s
  refine ⟨fun miss t ht => ⟨fun hup => ?_, fun hup hf hstep => ?_⟩, fun miss hup => ?_, fun hup hf => ⟨fun ht => ?_, fun ht => ?_,
    fun hp => ?_⟩, fun hup d h0 => ⟨fun hb hok => ?_, fun hb hok => ?_, fun hb hok => ?_⟩, fun hup => ⟨fun h => ?_,
    fun d on h h7 h20 => ?_⟩, fun hup => ?_⟩
  · rw [exec_freeze, ht, hup]
    rfl
  · have hrun : exec (.freeze miss) s = .next ((t.freeze miss).keep t) := by
      rw [exec_freeze, ← ht]
      exact congrArg Host.Outcome.next (if_pos hup)
    have hft : t.pwr.frozen = false := by rw [ht]; exact hf
    have hst : 3 ≤ t.pwr.step := by rw [ht]; exact hstep
    refine ⟨_, hrun, ?_, ?_, ?_, fun ch hch hact hmiss => ?_⟩
    · exact congrArg Power.frozen (State.freeze_pwr t miss hst)
    · rw [State.keep_freezePin, ht]
    · rw [State.keep_home, State.freeze_home hft hst, ht]
    · exact State.freeze_selfRefresh hft hst hch (by rw [ht]; exact hact) hmiss
  · rw [exec_zmFreeze, run1_up _ hup]
  · refine ⟨_, exec_thaw.trans (by rw [if_pos hup]), ?_, rfl⟩
    exact congrArg Power.frozen (State.thaw_pwr (s := { s with pwr := { s.pwr with freezePin := false } }) hf rfl ht)
  · have hheld := State.thaw_held (s := { s with pwr := { s.pwr with freezePin := false } }) ht
    rw [exec_thaw]
    dsimp only
    rw [if_pos hup, hheld, State.keep_self]
  · refine ⟨⟨_, exec_zmThaw.trans (run1_up _ hup), ?_⟩, _, exec_tapReset.trans (run1_up _ hup), ?_⟩
    · have h := State.thaw_pwr (s := { s with pwr := { s.pwr with tapFreeze := false } }) hf hp rfl
      exact ⟨congrArg Power.frozen h, congrArg Power.tapFreeze h⟩
    · have h := State.thaw_pwr (s := { s with pwr := { s.pwr with tapFreeze := false } }) hf hp rfl
      exact ⟨congrArg Power.frozen h, congrArg Power.tapFreeze h⟩
  · obtain ⟨hpwr, hbit⟩ := State.domWord_switches (on := false) d.isLt h0 hb hok
    exact ⟨_, exec_powerDomainOff.trans (run_up _ hup), (congrArg Power.switching hpwr :), hbit, (congrArg Power.domains hpwr :)⟩
  · rw [exec_powerDomainOff, run_up _ hup, State.domCtlWrite_word d.isLt hb, State.domRequest_refused (on := false) hok]
  · obtain ⟨hpwr, hbit⟩ := State.domWord_switches (on := true) d.isLt h0 hb hok
    exact ⟨_, exec_powerDomainOn.trans (run_up _ hup), (congrArg Power.switching hpwr :), hbit, (congrArg Power.domains hpwr :)⟩
  · rw [exec_powerSwitchDone, run1_up _ hup, State.switchDone_none h, State.keep_self]
  · have hpwr := State.switchDone_pwr h
    exact ⟨_, exec_powerSwitchDone.trans (run1_up _ hup), (congrArg Power.switching hpwr :), (congrArg Power.domains hpwr :)⟩
  · rw [exec_refcntRead, run_up _ hup]

end Sys2Proof.Machine
end

section
/-!
PROOFS. Firmware's own accesses; queues, doorbell pages, Domes and share groups (R40, R148 - R150, R408).
-/
namespace Sys2Proof.Machine

/-! ## Lines that firmware has read or written -/

section
variable {s : State} {o : Origin} {ctx : Ctx}

theorem State.engRead_of_gotLine {line cls gen : Nat} {heat : HeatKind} {fill : Option Nat} {l : Line} (h : s.gotLine o line l) :
    s.engRead o ctx line cls gen heat fill = (s, some (.ok l)) := by
  obtain ⟨a, ha, hres⟩ := State.engAns_of_map h
  have ha' : s.engAns o line HKind.rdCur.isWrite fullBe = some a := ha
  rw [State.engRead, State.engAccess]
  simp only [newTx, ha', hres]

theorem State.read8_of_tableWord {dpa e : Nat} (h : s.tableWord o dpa e) : State.read8 o s dpa = (s, .val e) := by
  obtain ⟨l, hgot, hval⟩ := h
  rw [State.read8, State.engRead_of_gotLine hgot]
  simp only [hval, reduceCtorEq, if_false]

/-- The tables walked from a level on give the leaf they map to. -/
theorem State.walkFrom_of_maps {pva t dpa : Nat} {r w : Bool} {levels : List Nat} (h : s.Maps o pva levels t dpa r w) :
    ∃ d sh, s.walkFrom (State.read8 o) pva levels t = (s, .leaf d sh r w) ∧ d + pva % 2 ^ sh = dpa := by
  induction h with
  | @leaf sh rest t e hcell hword hon hlow hhigh hleaf hsh hal =>
    refine ⟨bits e 12 33 * 4096, sh, ?_, rfl⟩
    rw [State.walkFrom, hcell, State.read8_of_tableWord hword]
    simp [hon, hlow, hhigh, hleaf, hsh, hal]
  | @table sh rest t e d r w hcell hword hon hlow hhigh hleaf hres hsh _ ih =>
    obtain ⟨d', sh', hwalk, hd⟩ := ih
    refine ⟨d', sh', ?_, hd⟩
    rw [State.walkFrom, hcell, State.read8_of_tableWord hword]
    simp [hon, hlow, hhigh, hleaf, hres, hsh, hwalk]

theorem State.fwXl_of_mapped {pva dpa : Nat} {r w rd wr : Bool} (h : s.mapped o ctx pva dpa r w) (hr : rd = true → r = true)
    (hw : wr = true → w = true) : s.fwXl o ctx pva rd wr = (s, .ok dpa) := by
  obtain ⟨hon, e, hword, hval, hlow, hhigh, hmaps⟩ := h
  obtain ⟨d, sh, hwalk, hd⟩ := State.walkFrom_of_maps hmaps
  have hfull : s.walk o ctx pva = (s, .leaf d sh r w) := by
    rw [State.walk, State.walkBy, State.read8_of_tableWord hword]
    simp [hval, hlow, hhigh, hwalk]
  have hallowed : ((rd && !r) || (wr && !w)) = false := by
    cases rd <;> cases wr <;> simp_all
  rw [State.fwXl, hon, hfull]
  simp [hallowed, hd]

theorem State.fwTakeLine_clean {dpa n : Nat} {l : Line} (h : l.poison = 0) :
    s.fwTakeLine ctx dpa n l = (s, .ok (bits l.data.toNat (8 * (dpa % 64)) (8 * n))) := by
  rw [State.fwTakeLine]
  simp [h]

theorem State.fwRead1_of_gotLine {dpa n : Nat} {l : Line} (hwin : s.owinFor ctx (dpa / 64) = none)
    (h : s.gotLine o (dpa / 64) l) (hl : l.poison = 0) :
    s.fwRead1 o ctx dpa n = (s, .ok (bits l.data.toNat (8 * (dpa % 64)) (8 * n))) := by
  rw [State.fwRead1, hwin]
  simp only [State.engRead_of_gotLine h, State.fwTakeLine_clean hl]

theorem State.fwWrite1_of_gotWrite {dpa n v : Nat} (hwin : s.owinFor ctx (dpa / 64) = none) (h : s.gotWrite o (fwWr ctx dpa n v)) :
    s.fwWrite1 o ctx dpa n v = (s, .ok n) := by
  rw [State.fwWrite1, hwin]
  simp only [State.engWrite_of_got h]

theorem State.fwGet_none {fuel pva : Nat} : State.fwGet o ctx fuel s pva 0 = (s, .ok 0) := by
  cases fuel
  · rfl
  · rw [State.fwGet, if_pos rfl]

theorem bits_all {w : Nat} (x : BitVec w) : bits x.toNat 0 w = x.toNat := by
  rw [bits, pow_zero, Nat.div_one, Nat.mod_eq_of_lt x.isLt]

/-- A line that firmware has read is what it gets at the line's PVA. -/
theorem State.fwGet_of_readLine {fuel pva v : Nat} (h : s.fwReadLine o ctx pva v) :
    State.fwGet o ctx (fuel + 1) s pva 64 = (s, .ok v) := by
  obtain ⟨hal, dpa, w, l, hmap, hdpa, hwin, hgot, hl, rfl⟩ := h
  have hall : bits l.data.toNat 0 512 = l.data.toNat := bits_all l.data
  rw [State.fwGet, if_neg (by decide), hal, State.fwXl_of_mapped hmap (fun _ => rfl) (by simp)]
  simp only [Nat.sub_zero, Nat.min_self, State.fwRead1_of_gotLine hwin hgot hl, Nat.sub_self, State.fwGet_none, hdpa,
    Nat.mul_zero, hall, Nat.zero_mul, Nat.add_zero]

/-- Bytes of one line that firmware has written. -/
theorem State.fwPut_of_wroteLine {fuel pva n v : Nat} (h : s.fwWroteLine o ctx pva n v) :
    State.fwPut o ctx (fuel + 2) s pva n v = (s, .ok 0) := by
  obtain ⟨hn, hfit, dpa, r, hmap, hwin, hgot⟩ := h
  rw [State.fwPut, if_neg hn, State.fwXl_of_mapped hmap (by simp) (fun _ => rfl)]
  simp only [Nat.min_eq_left (show n ≤ 64 - pva % 64 by omega), State.fwWrite1_of_gotWrite hwin hgot, Nat.sub_self]
  rw [State.fwPut, if_pos rfl]

end

/-! ## Entries of the cell table -/

section
variable {s : State} {cell : Nat}

/-- A line of the cache that firmware looks up: it is counted and the most recently used. -/
def State.looksUp (s : State) (key : Nat) : State := (s.bump F.HONEY_HIT_CNT_hits).hTouch key

theorem State.countLookup_of_hit {line key : Nat} {x : HLine} (h : s.honey.lookup line = some (key, x)) :
    s.countLookup line = s.bump F.HONEY_HIT_CNT_hits := by
  rw [State.countLookup, h]
  rfl

theorem State.metaLoad_of_hit {dpa key : Nat} {x : HLine} {p : Pri} (h : s.honey.lookup (dpa / 64) = some (key, x)) :
    s.metaLoad dpa p = (s.looksUp key, some x.data) := by
  have hlook : (s.bump F.HONEY_HIT_CNT_hits).honey.lookup (dpa / 64) = some (key, x) := by rw [State.bump_honey, h]
  have hcount := State.countLookup_of_hit h
  rw [State.metaLoad, State.looksUp]
  generalize s.bump F.HONEY_HIT_CNT_hits = t at hlook hcount ⊢
  simp only [hcount, hlook]

theorem State.fwEntry_of_load {t : State} {l : Line} {e : Word}
    (hload : s.metaLoad (s.cellEntryAddr cell) (.of 33) = (t, some l))
    (hclean : l.poison.getLsbD (s.cellEntryAddr cell % 64 / 4) = false)
    (hword : l.word (s.cellEntryAddr cell % 64 / 4) = e) (hok : ceCorrupt e = false) : s.fwEntry cell = (t, .inl e) := by
  have h : s.loadEntry cell (.of 33) = (t, some (some e)) := by
    rw [State.loadEntry]
    simp only [hload, Option.map_some, hclean, hword, Bool.false_eq_true, if_false]
  rw [State.fwEntry]
  simp only [h, hok, Bool.false_eq_true, if_false]

theorem State.fwEntry_of_shown {e : Word} (h : s.cellShown cell e) :
    ∃ key, s.fwEntry cell = (s.looksUp key, .inl e) := by
  obtain ⟨key, x, hlook, hclean, hword, hok⟩ := h
  exact ⟨key, State.fwEntry_of_load (State.metaLoad_of_hit hlook) hclean hword hok⟩

end

/-! ## A command that settles (R43, R46) -/

section
variable {s : State} {k : Nat} {st res : Nat}

theorem State.dropOrigin_of_idle {o : Origin} (h : s.home.txs = []) : s.dropOrigin o = s.dropAns o := by
  rw [State.dropOrigin, h, List.filter_nil, List.foldl_nil]

/-- What was cleared for a requester with nothing at the home need not be cleared again. -/
theorem State.replied_of_cleared (h : s.home.txs = []) :
    ((s.clearAns (.fw k)).dropOrigin (.fw k)).replied k st res = s.replied k st res := by
  have h₁ : (s.clearAns (.fw k)).home.txs = [] := h
  have h₂ : (((s.clearAns (.fw k)).dropAns (.fw k)).clearAns (.fw k)).home.txs = [] := h
  have hsame : (((s.clearAns (.fw k)).dropAns (.fw k)).clearAns (.fw k)).dropAns (.fw k) =
      (s.clearAns (.fw k)).dropAns (.fw k) := by
    simp only [State.clearAns, State.dropAns, List.filter_filter, Bool.and_self]
  rw [State.replied, State.replied, State.dropOrigin_of_idle h₁, State.dropOrigin_of_idle h₂, hsame]

/-- With nothing at the home a change settles at once. -/
theorem State.ctlEnd_settle {c : Cmd} (hc : s.cmd k = some c) (h : s.home.txs = []) :
    State.ctlEnd k (s.settle k st res) = s.replied k st res := by
  have htx : ((s.clearAns (.fw k)).dropOrigin (.fw k)).home.txs = [] := by
    rw [State.dropOrigin_of_idle (show (s.clearAns (.fw k)).home.txs = [] from h)]
    exact h
  rw [State.settle, hc]
  simp only [State.drainedTo, htx, List.all_nil, if_true]
  rw [State.ctlEnd, State.replied_of_cleared h]

theorem State.settled_none {c : Cmd} (h : c.pos ≠ 1) : s.settled c = none := if_neg h

end

/-! ## Queues (R148, R149, R161) -/

section
variable {s w : State} {k q : Nat} {c : Cmd} {d : QDesc}

theorem State.queueCreate_of {v : Nat} (hq : q = c.pb 1 0 18) (hget : State.fwGet (.fw k) c.ctx 3 s (c.p 2) 64 = (w, .ok v))
    (hd : d = descOf v) (himg : imageBad v c.subject = false) (hact : w.domeSt c.subject = .active)
    (hfree : SMap.find w.q.desc q = none) (hring : d.ringBase + 64 * 2 ^ d.ringLog2 ≤ w.hiveBase)
    (hcring : d.mode % 2 = 1 → d.cringBase + 16 * 2 ^ d.cringLog2 ≤ w.hiveBase) (hcount : 2 ≤ d.mode → d.countAddr + 8 ≤ w.hiveBase) :
    s.queueCreate k c = (w.setDesc q d, .done stOK 0) := by
  subst hq hd
  have hlen : (decide (w.hiveBase < (descOf v).ringBase + 64 * 2 ^ (descOf v).ringLog2) ||
      ((descOf v).mode % 2 == 1 && decide (w.hiveBase < (descOf v).cringBase + 16 * 2 ^ (descOf v).cringLog2)) ||
      (decide (2 ≤ (descOf v).mode) && decide (w.hiveBase < (descOf v).countAddr + 8))) = false := by
    simp only [Bool.or_eq_false_iff, Bool.and_eq_false_imp, decide_eq_false_iff_not, beq_iff_eq, decide_eq_true_eq, Nat.not_lt]
    exact ⟨⟨hring, hcring⟩, hcount⟩
  rw [State.queueCreate, hget]
  simp only [himg, hact, hfree, hlen, Option.isSome_none, Bool.false_eq_true, ne_eq, not_true_eq_false, if_false]

theorem State.queueBad_none (hf : SMap.find s.q.desc q = some d) (hd : d.dome = c.subject) : s.queueBad c q = none := by
  rw [State.queueBad, hf]
  exact if_neg (by simp [hd])

theorem State.queueDestroy_of {n : Nat} (hq : q = c.pb 1 0 18) (haux : c.aux = 0) (hsrc : c.src ≠ .queue q)
    (hf : SMap.find s.q.desc q = some d) (hd : d.dome = c.subject) (hn : n = (d.tail + 2 ^ d.ringLog2 - d.head) % 2 ^ d.ringLog2)
    (hw : w = (s.setDesc q { d with state := .frozen }).dropOrigin (.queue q)) : s.queueDestroy k c =
      if w.inflight q = 0 then (w.freeDesc q, .done stOK n) else (w.putCmd k { c with aux := 1, pos := n }, .wait) := by
  have hbad := State.queueBad_none hf hd
  subst hq hn hw
  rw [State.queueDestroy]
  simp only [haux, Nat.zero_ne_one, if_false, hsrc, hbad, hf]

theorem State.queueResume_of (hq : q = c.pb 1 0 18) (hf : SMap.find s.q.desc q = some d) (hd : d.dome = c.subject) :
    (d.state = .halted → s.queueResume c = (s.setDesc q { d with state := .active }, .done stOK 0)) ∧
    (d.state = .active → s.queueResume c = (s, .done stOK 0)) ∧ (d.state = .frozen → s.queueResume c = (s, .done stBusy 0)) := by
  have hbad := State.queueBad_none hf hd
  subst hq
  refine ⟨fun h => ?_, fun h => ?_, fun h => ?_⟩
  · rw [State.queueResume]; simp only [hbad, hf, h]
  · rw [State.queueResume]; simp only [hbad, hf, h]
  · rw [State.queueResume]; simp only [hbad, hf, h]

theorem State.doorbellSet_of {dpa : Nat} {e : Word} (hdpa : dpa = c.pb 1 0 45) (hten : s.area dpa = .tenant)
    (he : s.fwEntry (dpa / 65536) = (w, .inl e)) : s.doorbellSet c =
      if ownedBy e c.subject then
        ({ w with domes := { w.domes with pages := SMap.put w.domes.pages c.subject dpa } }, .done stOK 0)
      else (w, .done stDenied 0) := by
  subst hdpa
  rw [State.doorbellSet, if_neg (by simp [hten]), he]
  dsimp only
  cases ownedBy e c.subject <;> rfl

end

/-! ## Domes and share groups (R161, R408) -/

section
variable {s : State} {k g : Nat} {c : Cmd} {a : QAns}

theorem State.queenOk_of_agrees (h : s.queenAgrees a = true) : s.queenOk = true := by
  rw [State.queenAgrees, Bool.and_eq_true] at h
  exact h.1

theorem State.domeCreate_of (h0 : c.subject ≠ 0) (hq : s.queenAgrees a = true)
    (hreg : s.fB F.RYP_FAB_STATUS_is_queen = true → SMap.findD s.fab.registry c.subject .free = .free) :
    s.domeCreate a c = ((s.queenAsk a).1.setDome c.subject .active, .done stOK 0) := by
  rw [State.domeCreate, if_neg h0, if_neg (by simp [State.queenOk_of_agrees hq]),
    if_neg (by cases hb : s.fB F.RYP_FAB_STATUS_is_queen <;> simp_all), State.queenAsk_of hq]

theorem State.setGroup_frame (s : State) (g : Nat) (x : Option Group) :
    (s.setGroup g x).home = s.home ∧ (s.setGroup g x).q = s.q := by
  rw [State.setGroup]
  exact ⟨foldl_keeps State.home (fun (t : State) ch => t.setChan ch { t.chan ch with members := groupSet (t.chan ch).members g x })
      (fun _ _ => rfl) _ _,
    foldl_keeps State.q (fun (t : State) ch => t.setChan ch { t.chan ch with members := groupSet (t.chan ch).members g x })
      (fun _ _ => rfl) _ _⟩

/-- A membership change with nothing at the home. -/
theorem State.ctlEnd_setGroup {r : Cmd} {st res : Nat} {x : Option Group} (hk : s.cmd k = some r) (htx : s.home.txs = []) :
    State.ctlEnd k ((s.setGroup g x).settle k st res) = (s.setGroup g x).replied k st res := by
  obtain ⟨hhome, hq⟩ := s.setGroup_frame g x
  exact State.ctlEnd_settle (c := r) (by rw [State.cmd, hq, ← State.cmd, hk]) (by rw [hhome, htx])

section
variable (hpos : c.pos = 0) (h0 : c.subject ≠ 0) (hcopy : s.copying = false) (hg : g = c.pb 1 0 8)
include hpos h0 hg

include hcopy in
theorem State.shareJoin_anchors (ha : bit (c.p 1) 8 = true) (hf : SMap.find s.domes.groups g = none) :
    s.shareJoin k c = (s.setGroup g (some ⟨c.subject, [c.subject]⟩)).settle k stOK 0 := by
  subst hg
  rw [State.shareJoin]
  simp only [State.settled_none (s := s) (c := c) (by omega), h0, if_false, hf, ha, Bool.not_true, Bool.false_eq_true, hcopy]

include hcopy in
theorem State.shareJoin_joins {gr : Group} (ha : bit (c.p 1) 8 = false) (hf : SMap.find s.domes.groups g = some gr)
    (hanchor : gr.anchor ≠ c.subject) (hm : c.subject ∉ gr.members) :
    s.shareJoin k c = (s.setGroup g (some { gr with members := gr.members ++ [c.subject] })).settle k stOK 0 := by
  have hin : (gr.anchor == c.subject || (!false && gr.members.contains c.subject)) = false := by simp [hanchor, hm]
  subst hg
  rw [State.shareJoin]
  simp only [State.settled_none (s := s) (c := c) (by omega), h0, if_false, hf, ha, hin, Bool.false_eq_true, if_false, hcopy]

section
variable {gr : Group} (hf : SMap.find s.domes.groups g = some gr) (hm : c.subject ∈ gr.members)
include hf hm

include hcopy in
theorem State.shareLeave_member (hanchor : gr.anchor ≠ c.subject) : s.shareLeave k c =
    (s.setGroup g (some { gr with members := gr.members.filter fun x => x != c.subject })).settle k stOK 0 := by
  subst hg
  rw [State.shareLeave]
  simp only [State.settled_none (s := s) (c := c) (by omega), h0, if_false, hf, List.contains_eq_mem, hm, decide_true, Bool.not_true,
    Bool.false_eq_true, hanchor, false_and, hcopy]

theorem State.shareLeave_busy (hanchor : gr.anchor = c.subject) (hown : s.groupOwns g = true) :
    s.shareLeave k c = (s, .done stBusy 0) := by
  subst hg
  rw [State.shareLeave]
  simp only [State.settled_none (s := s) (c := c) (by omega), h0, if_false, hf, List.contains_eq_mem, hm, decide_true, Bool.not_true,
    Bool.false_eq_true, hanchor, hown, and_self, if_true]

include hcopy in
theorem State.shareLeave_anchor (hanchor : gr.anchor = c.subject) (hown : s.groupOwns g = false) :
    s.shareLeave k c = (s.setGroup g none).settle k stOK 0 := by
  subst hg
  rw [State.shareLeave]
  simp only [State.settled_none (s := s) (c := c) (by omega), h0, if_false, hf, List.contains_eq_mem, hm, decide_true, Bool.not_true,
    Bool.false_eq_true, hanchor, hown, and_false, if_true, hcopy]

end
end
end

/-- Settles O34. -/
theorem queueAndDomeCommands : Obligations.QueueAndDomeCommands := by
  refine ⟨fun s u k c r op hup hold hact hr hu q hq => ?_, fun s u k c r op hup hold hr hu h0 => ?_⟩
  · have hsub : r.subject = c.subject := by subst hr; rfl
    have hrun : ∀ {i : Instr} {chk : Bool} {f : State → Cmd → State × Ctl}, (exec i s = run s fun s => s.control k op chk f) →
        exec i s = .next ((State.ctlEnd k (f u r)).keep s) := fun hi => State.exec_control hold hr hu hup hi (Or.inr hact)
    have hqr : q = r.pb 1 0 18 := by subst hr; exact hq
    have hdesc : u.q.desc = s.q.desc := by subst hu; rfl
    refine ⟨fun ho => ?_, fun ho w v d hget hd himg hsd hfree hring hcring hcount => ?_,
      fun ho d w n haux hsrc hf hd hn hw => ?_, fun ho d hf hd => ?_, fun ho dpa w e hdpa hten he hw => ?_⟩
    · subst ho
      rw [hrun (i := .nop k) (chk := true) (f := fun s c => s.nopCmd c) rfl, State.nopCmd, State.ctlEnd]
    · subst ho
      have hfw : State.fwGet (.fw k) r.ctx 3 u (r.p 2) 64 = (w, .ok v) := by
        subst hr
        rcases hget with ⟨hread, rfl⟩ | hget
        · exact State.fwGet_of_readLine hread
        · exact hget
      rw [hrun (i := .queueCreate k) (chk := false) (f := fun s c => s.queueCreate k c) rfl,
        State.queueCreate_of hqr hfw hd (by rw [hsub, himg]) (by rw [hsub, hsd]) hfree hring hcring hcount, State.ctlEnd]
    · subst ho
      rw [hrun (i := .queueDestroy k) (chk := true) (f := fun s c => s.queueDestroy k c) rfl,
        State.queueDestroy_of (w := w) (n := n) hqr (by subst hr; exact haux) (by subst hr; exact hsrc) (by rw [hdesc, hf]) (by rw [hsub, hd])
          hn hw]
      exact ⟨fun h => by rw [if_pos h, State.ctlEnd], fun h => by rw [if_neg h, State.ctlEnd]⟩
    · subst ho
      rw [hrun (i := .queueResume k) (chk := true) (f := fun s c => s.queueResume c) rfl]
      obtain ⟨hhalt, hactive, hfrozen⟩ := State.queueResume_of (s := u) (c := r) hqr (by rw [hdesc, hf]) (by rw [hsub, hd])
      exact ⟨fun h => by rw [hhalt h, State.ctlEnd], fun h => by rw [hactive h, State.ctlEnd],
        fun h => by rw [hfrozen h, State.ctlEnd]⟩
    · subst ho
      have hentry : u.fwEntry (dpa / 65536) = (w, .inl e) := by
        rw [hw]
        rcases he with he | he
        · obtain ⟨key, hkey⟩ := State.fwEntry_of_shown he
          rw [hkey]
        · rw [← he]
      rw [hrun (i := .doorbellSet k) (chk := true) (f := fun s c => s.doorbellSet c) rfl,
        State.doorbellSet_of (c := r) (by subst hr; exact hdpa) hten hentry, hsub]
      exact ⟨fun h => by rw [if_pos h, State.ctlEnd], fun h => by rw [if_neg (by simp [h]), State.ctlEnd]⟩
  · have hsub : r.subject = c.subject := by subst hr; rfl
    refine ⟨fun ho a w hq hreg hw => ?_, fun hact htx hcopy hpos g hg => ?_⟩
    · subst ho
      rw [State.exec_control (i := .domeCreate k a) (chk := false) (f := fun s c => s.domeCreate a c) hold hr hu hup rfl (Or.inl rfl),
        State.domeCreate_of (by rwa [hsub]) hq (by rw [hsub]; subst hu; exact hreg), State.ctlEnd, ← hw, hsub]
    · have hrun : ∀ {i : Instr} {chk : Bool} {f : State → Cmd → State × Ctl}, (exec i s = run s fun s => s.control k op chk f) →
          exec i s = .next ((State.ctlEnd k (f u r)).keep s) := fun hi => State.exec_control hold hr hu hup hi (Or.inr hact)
      have hk : u.cmd k = some r := by subst hu; exact State.cmd_putCmd _ _ _
      have htxu : u.home.txs = [] := by subst hu; exact htx
      have hcu : u.copying = false := by subst hu; exact hcopy
      have hrp : r.pos = 0 := by subst hr; exact hpos
      have h0r : r.subject ≠ 0 := by rwa [hsub]
      have hgr : g = r.pb 1 0 8 := by subst hr; exact hg
      have hgroups : u.domes.groups = s.domes.groups := by subst hu; rfl
      have hp : r.p 1 = c.p 1 := by subst hr; rfl
      refine ⟨fun ho => ⟨fun ha hf => ?_, fun gr ha hf hanchor hm => ?_⟩, fun ho gr hf hm => ⟨fun hanchor => ?_,
        fun hanchor hown => ?_, fun hanchor hown => ?_⟩⟩
      · subst ho
        rw [hrun (i := .shareJoin k) (chk := true) (f := fun s c => s.shareJoin k c) rfl,
          State.shareJoin_anchors hrp h0r hcu hgr (by rw [hp, ha]) (by rw [hgroups, hf]), State.ctlEnd_setGroup hk htxu, hsub]
      · subst ho
        rw [hrun (i := .shareJoin k) (chk := true) (f := fun s c => s.shareJoin k c) rfl,
          State.shareJoin_joins hrp h0r hcu hgr (by rw [hp, ha]) (by rw [hgroups, hf]) (by rwa [hsub]) (by rwa [hsub]),
          State.ctlEnd_setGroup hk htxu, hsub]
      · subst ho
        rw [hrun (i := .shareLeave k) (chk := true) (f := fun s c => s.shareLeave k c) rfl,
          State.shareLeave_member hrp h0r hcu hgr (by rw [hgroups, hf]) (by rwa [hsub]) (by rwa [hsub]),
          State.ctlEnd_setGroup hk htxu, hsub]
      · subst ho
        rw [hrun (i := .shareLeave k) (chk := true) (f := fun s c => s.shareLeave k c) rfl,
          State.shareLeave_busy hrp h0r hgr (by rw [hgroups, hf]) (by rwa [hsub]) (by rw [hsub, hanchor]) hown, State.ctlEnd]
      · subst ho
        rw [hrun (i := .shareLeave k) (chk := true) (f := fun s c => s.shareLeave k c) rfl,
          State.shareLeave_anchor hrp h0r hcu hgr (by rw [hgroups, hf]) (by rwa [hsub]) (by rw [hsub, hanchor]) hown,
          State.ctlEnd_setGroup hk htxu]

end Sys2Proof.Machine
end

section
/-!
PROOFS. The rows of an operation in a Spire's slot (O38).
-/
namespace Sys2Proof.Machine

/-! ## The scratch and the command -/

section
variable {s : State} {k n slot : Nat}

theorem State.scrFlip_q (e : Scr) : (s.scrFlip n slot e).q = s.q := by
  rw [State.scrFlip.eq_def]
  cases e with
  | none => rfl
  | flip i w m => dsimp only; cases (s.spire n).line slot i <;> rfl

/-- The context that a command's accesses are made under. -/
def State.cmdCtx (s : State) (k : Nat) : Option Ctx := (s.cmd k).map Cmd.ctx

theorem State.cmdCtx_of_q {t : State} (h : t.q = s.q) : t.cmdCtx k = s.cmdCtx k := by
  rw [State.cmdCtx, State.cmd, h, State.cmdCtx, State.cmd]

theorem State.scrLost_cmdCtx : (s.scrLost k).cmdCtx k = s.cmdCtx k := by
  rw [State.scrLost]
  cases hk : s.cmd k with
  | none => rfl
  | some c =>
    rw [State.cmdCtx, State.cmd_putCmd, State.cmdCtx, hk]
    rfl

/-- A read of the scratch loses no command and changes no command's context. -/
theorem State.scrLine_cmdCtx (i : Nat) (f : Nat → Bool) : (s.scrLine k n slot i f).1.cmdCtx k = s.cmdCtx k := by
  rw [State.scrLine.eq_def]
  cases (s.spire n).line slot i with
  | none => rfl
  | some b =>
    dsimp only
    split
    · exact State.cmdCtx_of_q (by rw [State.bump_q, State.bump_q, State.setSpire_q])
    · exact State.scrLost_cmdCtx.trans (State.cmdCtx_of_q (by rw [State.bump_q, State.bump_q, State.setSpire_q]))

theorem State.scrGet_cmdCtx (fuel : Nat) : ∀ (s : State) (a m : Nat), (State.scrGet k n slot fuel s a m).1.cmdCtx k = s.cmdCtx k := by
  induction fuel with
  | zero => exact fun _ _ _ => rfl
  | succ fuel ih =>
    intro s a m
    rw [State.scrGet]
    split
    · rfl
    · exact (ih _ _ _).trans (State.scrLine_cmdCtx _ _)

end

/-! ## One row -/

section
variable {s u : State} {k op n slot : Nat} {er : Scr} {c r : Cmd} {g : Eng}

theorem State.SpireRuns.spireCmd (h : s.SpireRuns k op c n slot) : s.spireCmd k op = some (c, n, slot) := by
  obtain ⟨hk, heng, hop, -, hst⟩ := h
  rw [State.spireCmd, hk]
  dsimp only
  rw [heng]
  exact if_pos (by rcases hst with hst | hst <;> simp [hop, hst])

/-- What ends an operation: its result depends on whether an access failed. -/
def State.stopRun (k : Nat) (ok bad : Cmd → Nat) (s : State) (st : Nat) : State :=
  match s.cmd k with
  | some c => s.finishRun k st (if st = stOK ∨ st = stPartial then ok c else bad c)
  | none => s

theorem State.stopRun_of {ok bad : Cmd → Nat} {st : Nat} (h : s.cmd k = some c) : s.stopRun k ok bad st =
    s.finishRun k st (if st = stOK ∨ st = stPartial then ok c else bad c) := by
  rw [State.stopRun, h]

/-- What a row leaves, by what its unit of work comes to. -/
def State.afterRow (k : Nat) (ok bad : Cmd → Nat) : State × Prog → State
  | (s, .stop st) => s.stopRun k ok bad st
  | (s, .wait) => s.markCmd k .blocked
  | (s, .go) => s

theorem State.afterRow_stop {ok bad : Cmd → Nat} {st : Nat} (h : s.cmd k = some c) :
    State.afterRow k ok bad (s, .stop st) = s.finishRun k st (if st = stOK ∨ st = stPartial then ok c else bad c) :=
  State.stopRun_of h

section
variable {fin : Cmd → Bool} {ok bad : Cmd → Nat} {load unit : Eng → Nat → Nat → Cmd → State → State × Prog} {t : State} {p : Prog}
  (hm : s.SpireRuns k op c n slot) (hg : g = spireOf n k) (hr : r = { c with st := .running })
  (hu : u = (s.putCmd k r).scrFlip n slot er) (hl : load g n slot r u = (t, p))
include hm hg hr hu hl

theorem State.spireRun_load_stops {st : Nat} (hp : p = .stop st) :
    s.spireRun k op er fin ok bad load unit = t.stopRun k ok bad st := by
  have hrun : u.cmd k = some r := by rw [hu, State.cmd, State.scrFlip_q]; exact State.cmd_putCmd _ _ _
  have hmc := hm.spireCmd
  obtain ⟨hk, -, -, hend, -⟩ := hm
  subst hp
  rw [State.spireRun, hmc]
  dsimp only
  rw [State.markCmd_of hk, ← hr, ← hu, ← hg, hend, hrun]
  dsimp only
  rw [hl]
  rfl

theorem State.spireRun_works {x : Cmd} (hp : ∀ st, p ≠ .stop st) (hx : t.cmd k = some x) :
    s.spireRun k op er fin ok bad load unit = State.afterRow k ok bad
      (if x.wbuf.isEmpty then (if fin x then (t, .stop stOK) else unit g n slot x t) else t.drain k g n slot x) := by
  have hrun : u.cmd k = some r := by rw [hu, State.cmd, State.scrFlip_q]; exact State.cmd_putCmd _ _ _
  have hmc := hm.spireCmd
  obtain ⟨hk, -, -, hend, -⟩ := hm
  rw [State.spireRun, hmc]
  dsimp only
  rw [State.markCmd_of hk, ← hr, ← hu, ← hg, hend, hrun]
  dsimp only
  rw [hl]
  cases p with
  | stop st => exact absurd rfl (hp st)
  | wait => dsimp only; rw [hx]; rfl
  | go => dsimp only; rw [hx]; rfl

end

end

/-! ## The operations -/

/-- The operands of a streaming operation's units lie in the buffer. -/
theorem Cmd.ahead_of_loaded {c : Cmd} (h : c.loaded) (hop : c.opcode = 0x80 ∨ c.opcode = 0x81 ∨ c.opcode = 0x82) :
    c.pb 2 0 40 ≤ c.ahead := by
  rcases hop with hop | hop | hop <;> simpa only [Cmd.loaded, Cmd.units, hop] using h

/-- A PUBLISH that has made its claim has its bytes in the buffer. -/
theorem Cmd.ahead_of_claimed {c : Cmd} (h : c.loaded) (hop : c.opcode = 0x98) (ha : c.aux ≠ 0) : c.pb 3 0 40 ≤ c.ahead := by
  have h' : c.aux = 0 ∨ c.pb 3 0 40 ≤ c.ahead := by simpa only [Cmd.loaded, Cmd.units, hop] using h
  exact h'.resolve_left ha

theorem State.stream_loaded {s : State} {k n slot : Nat} {g : Eng} {total : Nat} {c : Cmd} {f : Nat → List Run × Nat} (h : total ≤ c.ahead) :
    s.stream k g n slot total c f = (s, .go) := if_pos h

/-- The parts of an operation. -/
structure SpireOp where
  i : Instr
  op : Nat
  fin : Cmd → Bool
  ok : Cmd → Nat
  bad : Cmd → Nat
  load : Eng → Nat → Nat → Cmd → State → State × Prog
  unit : Eng → Nat → Nat → Cmd → State → State × Prog

/-- An operation of a Spire: its row works by its parts, and none of them looks at whether the command waits; with every
operand loaded, its row reads none. -/
structure SpireOp.Sound (o : SpireOp) (k : Fin 16385) (er : Scr) : Prop where
  row : ∀ s, exec o.i s = run s fun s => s.spireRun k o.op er o.fin o.ok o.bad o.load o.unit
  ends : ∀ c : Cmd, o.fin { c with st := .running } = o.fin c ∧ o.ok { c with st := .running } = o.ok c
  loads : ∀ (g : Eng) (n slot : Nat) (c : Cmd) (s : State), c.opcode = o.op → c.loaded →
    o.load g n slot c s = (s, .go)

section
variable (k : Fin 16385) (er : Scr)

def convertOp : SpireOp :=
  ⟨.convert k er, 0x80, fun x => decide (x.pb 2 0 40 ≤ x.pos), fun x => x.pos, fun x => x.pos, State.convertLoad k, State.convertUnit k⟩
def axpyOp : SpireOp :=
  ⟨.axpy k er, 0x81, fun x => decide (x.pb 2 0 40 ≤ x.pos), fun x => x.pos, fun x => x.pos, State.axpyLoad k, State.axpyUnit k⟩
def reduceOp : SpireOp :=
  ⟨.reduceInto k er, 0x82, fun x => decide (x.pb 2 0 40 ≤ x.pos), fun x => x.pos, fun x => x.pos, State.reduceLoad k,
    State.reduceUnit k⟩
def gatherOp : SpireOp :=
  ⟨.gatherPool k er, 0x84, fun _ => false, fun x => x.result, fun x => x.pos, State.gatherLoad k, State.gatherUnit k⟩
def optOp : SpireOp :=
  ⟨.optStep k er, 0x88, fun x => x.part != [] && decide (x.pb 3 0 40 ≤ x.pos),
    fun x => x.pb 3 0 40 + min x.result (2 ^ 24 - 1) * 2 ^ 40, fun x => x.pos, State.optLoad k, State.optUnit k⟩
def attnOp : SpireOp :=
  ⟨.attnPartial k er, 0x8C, fun x => x.phase == 2 && decide (x.attNq ≤ x.aux), fun x => x.pb 4 0 16, fun _ => 0, State.attLoad k,
    State.attUnit k⟩
def topkOp : SpireOp :=
  ⟨.topk k er, 0x90, fun x => decide (x.topN ≤ x.pos ∧ x.topK ≤ x.aux), fun x => x.topN, fun _ => 0, State.topLoad k,
    State.topUnit k⟩
def checksumOp : SpireOp :=
  ⟨.checksum k er, 0x94, fun x => decide (x.pb 1 0 40 ≤ x.pos), fun x => if x.poison then 0 else x.crcOnes - x.crcReg,
    fun x => x.pos, State.crcLoad k, State.crcUnit k⟩
def publishOp : SpireOp :=
  ⟨.publish k er, 0x98, fun _ => false, fun x => x.pos, fun x => if x.aux = 0 then x.result else x.pos, State.pubLoad k,
    State.pubUnit k⟩

theorem convertOp_sound : (convertOp k er).Sound k er where
  row _ := rfl
  ends _ := ⟨rfl, rfl⟩
  loads g n slot c s hop hl := by
    replace hop : c.opcode = 0x80 := hop
    rw [Cmd.loaded, hop] at hl
    simp only [Cmd.units, hop] at hl
    simp only [convertOp, State.convertLoad]
    exact State.stream_loaded hl

theorem axpyOp_sound : (axpyOp k er).Sound k er where
  row _ := rfl
  ends _ := ⟨rfl, rfl⟩
  loads g n slot c s hop hl := by
    replace hop : c.opcode = 0x81 := hop
    rw [Cmd.loaded, hop] at hl
    simp only [Cmd.units, hop] at hl
    simp only [axpyOp, State.axpyLoad]
    exact State.stream_loaded hl

theorem reduceOp_sound : (reduceOp k er).Sound k er where
  row _ := rfl
  ends _ := ⟨rfl, rfl⟩
  loads g n slot c s hop hl := by
    replace hop : c.opcode = 0x82 := hop
    rw [Cmd.loaded, hop] at hl
    simp only [Cmd.units, hop] at hl
    simp only [reduceOp, State.reduceLoad]
    exact State.stream_loaded hl

theorem gatherOp_sound : (gatherOp k er).Sound k er where
  row _ := rfl
  ends _ := ⟨rfl, rfl⟩
  loads g n slot c s hop hl := by
    replace hop : c.opcode = 0x84 := hop
    rw [Cmd.loaded, hop] at hl
    have hl' : c.part.getD 3 [] = [] := hl
    simp only [gatherOp, State.gatherLoad, hl', List.getElem?_nil]

theorem optOp_sound : (optOp k er).Sound k er where
  row _ := rfl
  ends _ := ⟨rfl, rfl⟩
  loads g n slot c s hop hl := by
    replace hop : c.opcode = 0x88 := hop
    rw [Cmd.loaded, hop] at hl
    simp only [Cmd.units, hop] at hl
    simp only [optOp, State.optLoad]
    rcases hl with hl | hl
    · rw [if_pos hl]
    · rw [State.stream_loaded hl, ite_self]

theorem attnOp_sound : (attnOp k er).Sound k er where
  row _ := rfl
  ends _ := ⟨rfl, rfl⟩
  loads g n slot c s hop hl := by
    replace hop : c.opcode = 0x8C := hop
    rw [Cmd.loaded, hop] at hl
    have hl' : c.part.getD 1 [] = [] := hl
    simp only [attnOp, State.attLoad, hl', List.getElem?_nil]

theorem topkOp_sound : (topkOp k er).Sound k er where
  row _ := rfl
  ends _ := ⟨rfl, rfl⟩
  loads g n slot c s hop hl := by
    replace hop : c.opcode = 0x90 := hop
    rw [Cmd.loaded, hop] at hl
    simp only [Cmd.units, hop] at hl
    simp only [topkOp, State.topLoad]
    exact State.stream_loaded hl

theorem checksumOp_sound : (checksumOp k er).Sound k er where
  row _ := rfl
  ends _ := ⟨rfl, rfl⟩
  loads g n slot c s hop hl := by
    replace hop : c.opcode = 0x94 := hop
    rw [Cmd.loaded, hop] at hl
    simp only [Cmd.units, hop] at hl
    simp only [checksumOp, State.crcLoad]
    exact State.stream_loaded hl

theorem publishOp_sound : (publishOp k er).Sound k er where
  row _ := rfl
  ends _ := ⟨rfl, rfl⟩
  loads g n slot c s hop hl := by
    replace hop : c.opcode = 0x98 := hop
    rw [Cmd.loaded, hop] at hl
    simp only [Cmd.units, hop] at hl
    simp only [publishOp, State.pubLoad]
    rcases hl with hl | hl
    · rw [if_pos hl]
    · rw [State.stream_loaded hl, ite_self]

end

/-- The operations as the statement lists them. -/
theorem spireOp_of_mem {k : Fin 16385} {er : Scr} {o : SpireOp}
    (h : o ∈ [convertOp k er, axpyOp k er, reduceOp k er, gatherOp k er, optOp k er, attnOp k er, topkOp k er, checksumOp k er,
      publishOp k er]) : o.Sound k er := by
  simp only [List.mem_cons, List.not_mem_nil, or_false] at h
  rcases h with rfl | rfl | rfl | rfl | rfl | rfl | rfl | rfl | rfl
  · exact convertOp_sound k er
  · exact axpyOp_sound k er
  · exact reduceOp_sound k er
  · exact gatherOp_sound k er
  · exact optOp_sound k er
  · exact attnOp_sound k er
  · exact topkOp_sound k er
  · exact checksumOp_sound k er
  · exact publishOp_sound k er

section
variable {s u : State} {k : Fin 16385} {er : Scr} {c r : Cmd} {n slot : Nat} {g : Eng} {o : SpireOp}
  (ho : o.Sound k er) (hup : s.up = true) (hg : g = spireOf n k) (hr : r = { c with st := .running })
  (hu : u = (s.putCmd k r).scrFlip n slot er) (hm : s.SpireRuns k o.op c n slot)
include ho hup hg hr hu hm

theorem SpireOp.Sound.exec_load_stops {t : State} {st : Nat} {x : Cmd} (hl : o.load g n slot r u = (t, .stop st))
    (hx : t.cmd k = some x) :
    exec o.i s = .next ((t.finishRun k st (if st = stOK ∨ st = stPartial then o.ok x else o.bad x)).keep s) := by
  rw [ho.row, run_up _ hup, State.spireRun_load_stops hm hg hr hu hl rfl, State.stopRun_of hx]

section
variable {t : State} {p : Prog} {x : Cmd} (hl : o.load g n slot r u = (t, p)) (hp : ∀ st, p ≠ .stop st) (hx : t.cmd k = some x)
include hl hp hx

theorem SpireOp.Sound.exec_ends (hb : x.wbuf = []) (hf : o.fin x = true) :
    exec o.i s = .next ((t.finishRun k stOK (o.ok x)).keep s) := by
  rw [ho.row, run_up _ hup, State.spireRun_works hm hg hr hu hl hp hx, hb, hf, List.isEmpty_nil, if_pos rfl, if_pos rfl,
    State.afterRow_stop hx, if_pos (Or.inl rfl)]

theorem SpireOp.Sound.exec_unit (hb : x.wbuf = []) (hf : o.fin x = false) :
    exec o.i s = .next ((State.afterRow k o.ok o.bad (o.unit g n slot x t)).keep s) := by
  rw [ho.row, run_up _ hup, State.spireRun_works hm hg hr hu hl hp hx, hb, hf, List.isEmpty_nil, if_pos rfl,
    if_neg Bool.false_ne_true]

theorem SpireOp.Sound.exec_drains (hb : x.wbuf ≠ []) :
    exec o.i s = .next ((State.afterRow k o.ok o.bad (t.drain k g n slot x)).keep s) := by
  rw [ho.row, run_up _ hup, State.spireRun_works hm hg hr hu hl hp hx, if_neg (by simpa using hb)]

end

section
variable (hl : c.loaded)
include hl

omit hup hg hu in
theorem SpireOp.Sound.load_of_loaded : o.load g n slot r u = (u, .go) := by
  obtain ⟨-, -, hop, -⟩ := hm
  subst hr
  exact ho.loads g n slot _ u hop hl

omit ho hup hg hr hm hl in
theorem State.cmd_of_flip : u.cmd k = some r := by
  rw [hu, State.cmd, State.scrFlip_q]
  exact State.cmd_putCmd _ _ _

/-- A unit of work of a row that reads no operand. -/
theorem SpireOp.Sound.exec_loaded (hb : c.wbuf = []) (hf : o.fin c = false) :
    exec o.i s = .next ((State.afterRow k o.ok o.bad (o.unit g n slot r u)).keep s) := by
  refine ho.exec_unit hup hg hr hu hm (ho.load_of_loaded hr hm hl) (by simp) (State.cmd_of_flip hu) ?_ ?_
  · subst hr; exact hb
  · subst hr; exact ((ho.ends c).1).trans hf

theorem SpireOp.Sound.exec_loaded_goes {y : State} (hb : c.wbuf = []) (hf : o.fin c = false)
    (hy : o.unit g n slot r u = (y, .go)) : exec o.i s = .next (y.keep s) := by
  rw [ho.exec_loaded hup hg hr hu hm hl hb hf, hy]
  rfl

theorem SpireOp.Sound.exec_loaded_stops {y : State} {st res : Nat} {z : Cmd} (hb : c.wbuf = []) (hf : o.fin c = false)
    (hy : o.unit g n slot r u = (y, .stop st)) (hz : y.cmd k = some z)
    (hres : (if st = stOK ∨ st = stPartial then o.ok z else o.bad z) = res) :
    exec o.i s = .next ((y.finishRun k st res).keep s) := by
  rw [ho.exec_loaded hup hg hr hu hm hl hb hf, hy, State.afterRow_stop hz, hres]

theorem SpireOp.Sound.exec_loaded_ends (hb : c.wbuf = []) (hf : o.fin c = true) :
    exec o.i s = .next ((u.finishRun k stOK (o.ok c)).keep s) := by
  have hok : o.ok r = o.ok c := by subst hr; exact (ho.ends c).2
  rw [← hok]
  refine ho.exec_ends hup hg hr hu hm (ho.load_of_loaded hr hm hl) (by simp) (State.cmd_of_flip hu) ?_ ?_
  · subst hr; exact hb
  · subst hr; exact ((ho.ends c).1).trans hf

theorem SpireOp.Sound.exec_loaded_drains (hb : c.wbuf ≠ []) :
    exec o.i s = .next ((State.afterRow k o.ok o.bad (u.drain k g n slot r)).keep s) := by
  refine ho.exec_drains hup hg hr hu hm (ho.load_of_loaded hr hm hl) (by simp) (State.cmd_of_flip hu) ?_
  subst hr; exact hb

end

end

/-! ## Units of work -/

section
variable {s u : State} {k n slot : Nat} {c r : Cmd} {g : Eng}

/-- The next bytes of a result, written. -/
theorem State.drain_of {a pva m j v mk line : Nat} {rest : List (Nat × Nat × Nat)} {w y : State} {z : Cmd} (hk : u.cmd k = some r)
    (hb : r.wbuf = (a, pva, m) :: rest) (hj : j = min m (64 - pva % 64)) (hget : State.scrGet k n slot 3 u a j = (w, v, mk))
    (hown : w.ownLine k pva true = some line) (hwin : w.owinFor r.ctx line = none)
    (hgot : w.gotWrite g.o ⟨r.ctx, line, ⟨BitVec.ofNat 512 (v % 2 ^ (8 * j) * 2 ^ (8 * (pva % 64))), markPoison (pva % 64) j mk⟩,
      rangeBe (pva % 64) j, g.wrCls, .engine, .engine, w.engFill r.ctx⟩)
    (hy : y = (w.offChan g line).takeBeats k g true) (hz : y.cmd k = some z) :
    u.drain k g n slot r = if j < m then (y.putCmd k { z with wbuf := (a + j, pva + j, m - j) :: rest }, .go)
      else if rest.isEmpty then ((y.putCmd k { z with wbuf := rest }).advance k, .go) else (y.putCmd k { z with wbuf := rest }, .go) := by
  have hctx : w.cmdCtx k = some r.ctx := by
    have h := State.scrGet_cmdCtx (k := k) (n := n) (slot := slot) 3 u a j
    rw [hget, State.cmdCtx.eq_1 u, hk] at h
    exact h
  obtain ⟨x, hx, hxc⟩ := Option.map_eq_some_iff.1 hctx
  rw [← hxc] at hwin hgot
  have hput : w.putBytes k g pva j v mk = (w.offChan g line, .ok line
      ⟨BitVec.ofNat 512 (v % 2 ^ (8 * j) * 2 ^ (8 * (pva % 64))), markPoison (pva % 64) j mk⟩) := by
    rw [State.putBytes, hx]
    exact State.acWrite_of_got hown hwin hgot
  rw [State.drain, hb]
  dsimp only
  rw [← hj, hget]
  dsimp only
  rw [hput]
  dsimp only
  rw [← hy, hz]
  dsimp only
  by_cases hlt : j < m
  · rw [if_pos hlt, if_pos hlt]
    rfl
  · rw [if_neg hlt, if_neg hlt]
    cases rest <;> rfl

theorem State.convertUnit_go (h : c.pos < c.ahead) : State.convertUnit k g n slot c s = ((State.convertUnit k g n slot c s).1, .go) := by
  have hfed : c.fed = true := decide_eq_true h
  simp only [State.convertUnit, hfed, Bool.not_true, Bool.false_eq_true, if_false, State.giveOut]

theorem State.axpyUnit_go (h : c.pos < c.ahead) : State.axpyUnit k g n slot c s = ((State.axpyUnit k g n slot c s).1, .go) := by
  have hfed : c.fed = true := decide_eq_true h
  simp only [State.axpyUnit, hfed, Bool.not_true, Bool.false_eq_true, if_false, State.giveOut]

theorem State.pubUnit_copies (ha : c.aux ≠ 0) (hp : c.pos < c.pb 3 0 40) (h : c.pos < c.ahead) :
    State.pubUnit k g n slot c s = ((State.pubUnit k g n slot c s).1, .go) := by
  have hfed : c.fed = true := decide_eq_true h
  simp only [State.pubUnit, ha, Nat.not_le.2 hp, hfed, Bool.not_true, Bool.false_eq_true, if_false]

/-- A destination line that the home has updated. -/
theorem State.reduceUnit_of_ans {pva line : Nat} {l : Line} (h : c.pos < c.ahead) (hpva : pva = c.p 1 + c.pos * (fmtBits c.fo / 8))
    (hown : s.ownLine k pva true = some line) (hwin : s.owinFor c.ctx line = none)
    (hans : (s.engAns g.o line true fullBe).map EngAns.res = some (.ok l)) :
    State.reduceUnit k g n slot c s = ((s.takeBeats k g true).give k n slot [] (c.cvLen c.pos, 0), .go) := by
  have hfed : c.fed = true := decide_eq_true h
  obtain ⟨hline, -⟩ := dpa_of_line line pva
  obtain ⟨a, ha, hres⟩ := State.engAns_of_map hans
  simp only [State.reduceUnit, hfed, ← hpva, State.engXl_of_ownLine hown, hline, hwin, State.engUpdate_of_ans hans,
    State.noteBeat_of_ownLine hown, ha, hres, Option.isSome_none, Bool.not_true, Bool.false_eq_true, if_false]

theorem State.gatherUnit_ends {st : Nat} (hp : c.phase = 1) (hb : c.gBags ≤ c.aux)
    (hst : st = if 2 ^ 32 ≤ c.result ∧ c.poison = false then stPartial else stOK) :
    State.gatherUnit k g n slot c s = (s, .stop st) := by
  rw [State.gatherUnit, if_neg (by omega), if_pos hb, hst]
  simp only [Bool.not_eq_true']

theorem State.attUnit_outputs (hp : c.phase = 1) (h : c.pb 4 0 16 ≤ c.pos) :
    State.attUnit k g n slot c s = (s.putCmd k { c.setPart 0 [2, c.pt 0 1] with aux := 0 }, .go) := by
  rw [State.attUnit, hp]
  exact if_pos h

theorem State.attNextRow_go (h : s.cmd k = some r) : s.attNextRow k c = ((s.attNextRow k c).1, .go) := by
  rw [State.attNextRow, h]

theorem State.attUnit_skips {t : Nat} {rest : List Nat} (hp : c.phase = 1) (h : c.pos < c.pb 4 0 16)
    (hl : c.part.getD 2 [] = t :: rest) (hs : c.attSkip t c.aux = true) :
    State.attUnit k g n slot c s = s.attNextRow k c := by
  rw [State.attUnit, hp]
  simp only [Nat.not_le.2 h, if_false, hl, State.attToken, hs, if_true]

theorem State.cmd_unitEnd : (s.unitEnd k g).cmd k = (s.cmd k).map fun x => { x with eaten := [], beats := [] } := by
  rw [State.unitEnd]
  cases h : s.cmd k with
  | none => exact h
  | some x => exact State.cmd_putCmd _ _ _

theorem State.pubUnit_claims {line old : Nat} {l : Line} {v : State} {x : Cmd} (ha : c.aux = 0)
    (hown : s.ownLine k (c.p 0) true = some line) (hwin : s.owinFor c.ctx line = none) (hbad : l.badWord (c.p 0 % 64) = false)
    (hold : old = (l.slot8 (c.p 0 % 64 / 8)).toNat) (hans : (s.engAns g.o line true fullBe).map EngAns.res = some (.ok l))
    (hv : v = (s.offChan g line).unitEnd k g) (hx : v.cmd k = some x) : State.pubUnit k g n slot c s =
      if old = c.p 4 then (v.putCmd k { x with aux := 1 }, .go) else (v.putCmd k { x with result := old }, .stop stStale) := by
  rw [State.pubUnit, if_pos ha, State.pubClaim, State.update8_of_ans hown hwin hbad hans, ← hold]
  dsimp only
  rw [← hv, hx]

theorem State.pubUnit_releases {line : Nat} (ha : c.aux ≠ 0) (hpos : c.pb 3 0 40 ≤ c.pos) (hpo : c.poison = false)
    (hk : s.cmd k = some c) (hown : s.ownLine k (c.p 0) true = some line) (hwin : s.owinFor c.ctx line = none)
    (hgot : s.gotWrite g.o ⟨c.ctx, line, ⟨BitVec.ofNat 512 (c.pb 5 0 63 * 2 ^ (8 * (c.p 0 % 64))), 0⟩, rangeBe (c.p 0 % 64) 8, g.wrCls,
      .engine, .engine, s.engFill c.ctx⟩) : State.pubUnit k g n slot c s = (s.offChan g line, .stop stOK) := by
  have hput : s.putBytes k g (c.p 0) 8 (c.pb 5 0 63) 0 = (s.offChan g line, .ok line
      ⟨BitVec.ofNat 512 (c.pb 5 0 63 % 2 ^ (8 * 8) * 2 ^ (8 * (c.p 0 % 64))), markPoison (c.p 0 % 64) 8 0⟩) := by
    rw [State.putBytes, hk]
    exact State.acWrite_of_got hown hwin hgot
  rw [State.pubUnit, if_neg ha, if_pos hpos, State.pubRelease, if_neg (by simp [hpo]), hput]

end

/-! ## O38 -/

/-- Settles O38: a row's outcome is that of its unit of work, which a row with its operands loaded takes up at once. -/
theorem spireOperations : Obligations.SpireOperations := by
  unfold Obligations.SpireOperations
  intro s u k er c r n slot g hup hg hr hu
  have hx : u.cmd k = some r := State.cmd_of_flip hu
  refine ⟨fun i op fin ok bad load unit hmem hm => ?_, fun hl hb => ⟨?_, ?_, ?_, ?_, ?_⟩⟩
  · have ho : (⟨i, op, fin, ok, bad, load, unit⟩ : SpireOp).Sound k er := by
      apply spireOp_of_mem
      simp only [List.mem_cons, List.not_mem_nil, or_false, Prod.mk.injEq] at hmem
      simp only [List.mem_cons, List.not_mem_nil, or_false, convertOp, axpyOp, reduceOp, gatherOp, optOp, attnOp, topkOp,
        checksumOp, publishOp, SpireOp.mk.injEq]
      exact hmem
    refine ⟨fun t p hload => ⟨fun st x hp ht => ?_, fun x hp ht hwb =>
      ⟨ho.exec_ends hup hg hr hu hm hload hp ht hwb, fun hf y q hq => ?_⟩⟩,
      fun hl => ⟨ho.exec_loaded_ends hup hg hr hu hm hl, ?_⟩⟩
    · subst hp
      exact ho.exec_load_stops hup hg hr hu hm hload ht
    · have hrow := ho.exec_unit hup hg hr hu hm hload hp ht hwb hf
      dsimp only at hrow
      rw [hq] at hrow
      refine ⟨fun h => ?_, fun h => ?_, fun st z h hz => ?_⟩
      · rw [hrow, h]; rfl
      · rw [hrow, h]; rfl
      · rw [hrow, h, State.afterRow_stop hz]
    · intro a pva m j v mk line rest w y z hwb hj hw hv hmk hown hwin hgot hy hz
      have hwb' : r.wbuf = (a, pva, m) :: rest := by subst hr; exact hwb
      have hget : State.scrGet k n slot 3 u a j = (w, v, mk) := by rw [hw, hv, hmk]
      have hctx : r.ctx = c.ctx := by subst hr; rfl
      have hd := State.drain_of hx hwb' hj hget hown (by rw [hctx]; exact hwin) (by rw [hctx]; exact hgot) hy hz
      have hrow := ho.exec_loaded_drains hup hg hr hu hm hl (by simp [hwb])
      rw [hd] at hrow
      refine ⟨fun h => ?_, fun h hne => ?_, fun h he => ?_⟩
      · rw [hrow, if_pos h]; rfl
      · rw [hrow, if_neg (show ¬ j < m by omega), if_neg (by simpa using hne)]; rfl
      · rw [hrow, if_neg (show ¬ j < m by omega), if_pos (by simp [he]), he]; rfl
  · intro i hi hm hpos
    simp only [List.mem_cons, List.not_mem_nil, or_false] at hi
    obtain ⟨-, -, hop, -⟩ := id hm
    rcases hi with rfl | rfl
    · have hahead : r.pos < r.ahead := by subst hr; exact Nat.lt_of_lt_of_le hpos (Cmd.ahead_of_loaded hl (Or.inl hop))
      exact (convertOp_sound k er).exec_loaded_goes hup hg hr hu hm hl hb (decide_eq_false (Nat.not_le.2 hpos))
        (State.convertUnit_go (g := g) hahead)
    · have hahead : r.pos < r.ahead := by subst hr; exact Nat.lt_of_lt_of_le hpos (Cmd.ahead_of_loaded hl (Or.inr (Or.inl hop)))
      exact (axpyOp_sound k er).exec_loaded_goes hup hg hr hu hm hl hb (decide_eq_false (Nat.not_le.2 hpos))
        (State.axpyUnit_go (g := g) hahead)
  · intro hm hpos pva line l hpva hown hwin hans
    obtain ⟨-, -, hop, -⟩ := id hm
    have hahead : r.pos < r.ahead := by
      subst hr; exact Nat.lt_of_lt_of_le hpos (Cmd.ahead_of_loaded hl (Or.inr (Or.inr hop)))
    have hunit : State.reduceUnit k g n slot r u = ((u.takeBeats k g true).give k n slot [] (c.cvLen c.pos, 0), .go) := by
      subst hr; exact State.reduceUnit_of_ans hahead hpva hown hwin hans
    exact (reduceOp_sound k er).exec_loaded_goes hup hg hr hu hm hl hb (decide_eq_false (Nat.not_le.2 hpos)) hunit
  · intro hm hp hbags st hst
    have hunit : State.gatherUnit k g n slot r u = (u, .stop st) := by subst hr; exact State.gatherUnit_ends hp hbags hst
    have hend : st = stOK ∨ st = stPartial := by rw [hst]; split; exacts [Or.inr rfl, Or.inl rfl]
    have hres : r.result = c.result := by subst hr; rfl
    exact (gatherOp_sound k er).exec_loaded_stops hup hg hr hu hm hl hb rfl hunit hx ((if_pos hend).trans hres)
  · intro hm hp
    have hfin : (attnOp k er).fin c = false := by simp [attnOp, hp]
    refine ⟨fun hpos => ?_, fun t rest hpos hrest hskip => ?_⟩
    · have hunit : State.attUnit k g n slot r u = (u.putCmd k { r.setPart 0 [2, c.pt 0 1] with aux := 0 }, .go) := by
        subst hr; exact State.attUnit_outputs hp hpos
      exact (attnOp_sound k er).exec_loaded_goes hup hg hr hu hm hl hb hfin hunit
    · have hunit : State.attUnit k g n slot r u = u.attNextRow k r := by subst hr; exact State.attUnit_skips hp hpos hrest hskip
      exact (attnOp_sound k er).exec_loaded_goes hup hg hr hu hm hl hb hfin (hunit.trans (State.attNextRow_go hx))
  · intro hm
    refine ⟨fun line l old v x ha hown hwin hbad hold hans hv hvx => ?_, fun ha hpos => ?_, fun ha hpos hpo line hown hwin hgot => ?_⟩
    · have hunit : State.pubUnit k g n slot r u =
          if old = c.p 4 then (v.putCmd k { x with aux := 1 }, .go) else (v.putCmd k { x with result := old }, .stop stStale) := by
        subst hr; exact State.pubUnit_claims ha hown hwin hbad hold hans hv hvx
      refine ⟨fun h => ?_, fun h => ?_⟩
      · rw [if_pos h] at hunit
        exact (publishOp_sound k er).exec_loaded_goes hup hg hr hu hm hl hb rfl hunit
      · rw [if_neg h] at hunit
        have hxa : x.aux = 0 := by
          rw [hv, State.cmd_unitEnd, State.cmd, (State.offChan_same line).1, ← State.cmd, hx] at hvx
          rw [← Option.some.inj hvx, hr]
          exact ha
        exact (publishOp_sound k er).exec_loaded_stops hup hg hr hu hm hl hb rfl hunit (State.cmd_putCmd _ _ _)
          ((if_neg (by decide)).trans (if_pos hxa))
    · have hahead : r.pos < r.ahead := by
        obtain ⟨-, -, hop, -⟩ := id hm
        subst hr; exact Nat.lt_of_lt_of_le hpos (Cmd.ahead_of_claimed hl hop ha)
      have hunit : State.pubUnit k g n slot r u = ((State.pubUnit k g n slot r u).1, .go) := by
        subst hr; exact State.pubUnit_copies ha hpos hahead
      exact (publishOp_sound k er).exec_loaded_goes hup hg hr hu hm hl hb rfl hunit
    · have hunit : State.pubUnit k g n slot r u = (u.offChan g line, .stop stOK) := by
        subst hr; exact State.pubUnit_releases ha hpos hpo hx hown hwin hgot
      have hoff : (u.offChan g line).cmd k = some r := by rw [State.cmd, (State.offChan_same line).1]; exact hx
      have hrp : r.pos = c.pos := by subst hr; rfl
      exact (publishOp_sound k er).exec_loaded_stops hup hg hr hu hm hl hb rfl hunit hoff ((if_pos (Or.inl rfl)).trans hrp)

end Sys2Proof.Machine
end

section
/-!
PROOFS. A cell-table entry that firmware looks up in the cache counts a hit and makes its line the most recently used; nothing
that firmware asks of the state next depends on either.
-/
namespace Sys2Proof.Machine

/-- `t` is `s` but for the hit counter of the cache and the order in which its lines were used. -/
def State.Looked (t s : State) : Prop :=
  ∃ csr plru, t = { s with csr := csr, honey := { s.honey with plru := plru } } ∧
    ∀ (r : Reg) (i k : Nat), r.addr i k ≠ R.HONEY_HIT_CNT.addr 0 0 → t.rd r i k = s.rd r i k

namespace State.Looked

theorem refl {s : State} : s.Looked s := ⟨s.csr, s.honey.plru, rfl, fun _ _ _ _ => rfl⟩

theorem trans {u t s : State} (h : u.Looked t) (h' : t.Looked s) : u.Looked s := by
  obtain ⟨c, p, hu, hreg⟩ := h
  obtain ⟨c', p', ht, hreg'⟩ := h'
  exact ⟨c, p, by rw [hu, ht], fun r i k hne => (hreg r i k hne).trans (hreg' r i k hne)⟩

theorem looksUp (s : State) (key : Nat) : (s.looksUp key).Looked s := by
  refine ⟨_, _, rfl, fun r i k hne => ?_⟩
  exact State.rd_wr_other s F.HONEY_HIT_CNT_hits.reg r _ 0 0 i k hne

section
variable {t s : State} (h : t.Looked s)
include h

/-! ## What neither a register nor the order of use enters -/

theorem home : t.home = s.home := by obtain ⟨_, _, rfl, _⟩ := h; rfl
theorem chans : t.chans = s.chans := by obtain ⟨_, _, rfl, _⟩ := h; rfl
theorem domes : t.domes = s.domes := by obtain ⟨_, _, rfl, _⟩ := h; rfl
theorem q : t.q = s.q := by obtain ⟨_, _, rfl, _⟩ := h; rfl
theorem sec : t.sec = s.sec := by obtain ⟨_, _, rfl, _⟩ := h; rfl
theorem lookup (line : Nat) : t.honey.lookup line = s.honey.lookup line := by obtain ⟨_, _, rfl, _⟩ := h; rfl
theorem locked (line : Nat) : t.locked line = s.locked line := by obtain ⟨_, _, rfl, _⟩ := h; rfl
theorem holders (line : Nat) : t.holders line = s.holders line := by obtain ⟨_, _, rfl, _⟩ := h; rfl
theorem engAns (o : Origin) (line : Nat) (wr : Bool) (be : BitVec 64) : t.engAns o line wr be = s.engAns o line wr be := by
  obtain ⟨_, _, rfl, _⟩ := h; rfl
theorem anchorOf (e : Word) (d : Nat) : t.anchorOf e d = s.anchorOf e d := by obtain ⟨_, _, rfl, _⟩ := h; rfl
theorem reaches (e : Word) (d : Nat) : t.reaches e d = s.reaches e d := by obtain ⟨_, _, rfl, _⟩ := h; rfl
theorem pageCell (cell : Nat) : t.pageCell cell = s.pageCell cell := by obtain ⟨_, _, rfl, _⟩ := h; rfl

/-! ## Registers -/

theorem fN (f : Fld) (i k : Nat) (hne : f.reg.addr i k ≠ R.HONEY_HIT_CNT.addr 0 0) : t.fN f i k = s.fN f i k := by
  obtain ⟨_, _, _, hreg⟩ := h
  rw [State.fN, hreg _ _ _ hne, State.fN]

theorem fB (f : Fld) (i k : Nat) (hne : f.reg.addr i k ≠ R.HONEY_HIT_CNT.addr 0 0) : t.fB f i k = s.fB f i k := by
  rw [State.fB, h.fN f i k hne, State.fB]

theorem hiveBase : t.hiveBase = s.hiveBase := by rw [State.hiveBase, h.fN _ _ _ (by decide), State.hiveBase]
theorem memTop : t.memTop = s.memTop := by rw [State.memTop, h.fN _ _ _ (by decide), State.memTop]
theorem rootDir : t.rootDir = s.rootDir := by
  rw [State.rootDir, h.fN _ _ _ (by decide), h.fN _ _ _ (by decide), State.rootDir]
theorem handleBase : t.handleBase = s.handleBase := by
  rw [State.handleBase, h.fN _ _ _ (by decide), h.fN _ _ _ (by decide), State.handleBase]
theorem chanList : t.chanList = s.chanList := by rw [State.chanList, h.fN _ _ _ (by decide), State.chanList]
theorem tenantReady : t.tenantReady = s.tenantReady := by
  rw [State.tenantReady, h.fB _ _ _ (by decide), h.fB _ _ _ (by decide), State.tenantReady]

theorem regions : t.regions = s.regions := by
  have haddr : ∀ n, n < 8 → F.GLOBAL_ILR_CTL_enable.reg.addr 0 n ≠ R.HONEY_HIT_CNT.addr 0 0 ∧
      F.GLOBAL_ILR_BASE_base_64m.reg.addr 0 n ≠ R.HONEY_HIT_CNT.addr 0 0 ∧
      F.GLOBAL_ILR_SIZE_size_64m.reg.addr 0 n ≠ R.HONEY_HIT_CNT.addr 0 0 ∧
      F.GLOBAL_ILR_CTL_affinity.reg.addr 0 n ≠ R.HONEY_HIT_CNT.addr 0 0 := by decide
  have hfilter : ((List.range 8).filter fun n => t.fB F.GLOBAL_ILR_CTL_enable 0 n) =
      (List.range 8).filter fun n => s.fB F.GLOBAL_ILR_CTL_enable 0 n :=
    List.filter_congr fun n hn => h.fB _ _ _ (haddr n (List.mem_range.1 hn)).1
  rw [State.regions, hfilter, State.regions]
  refine List.map_congr_left fun n hn => ?_
  obtain ⟨-, hb, hs, ha⟩ := haddr n (List.mem_range.1 (List.mem_filter.1 hn).1)
  rw [h.fN _ _ _ hb, h.fN _ _ _ hs, h.fB _ _ _ ha]

theorem owinOf (cell : Nat) : t.owinOf cell = s.owinOf cell := by
  have haddr : ∀ w, w < 64 → F.RYP_OWIN_CTL_enable.reg.addr 0 w ≠ R.HONEY_HIT_CNT.addr 0 0 ∧
      F.RYP_OWIN_BASE_base_cell.reg.addr 0 w ≠ R.HONEY_HIT_CNT.addr 0 0 ∧
      F.RYP_OWIN_SIZE_cells.reg.addr 0 w ≠ R.HONEY_HIT_CNT.addr 0 0 := by decide
  rw [State.owinOf, State.owinOf]
  refine List.find?_congr fun w hw => ?_
  obtain ⟨he, hb, hs⟩ := haddr w (List.mem_range.1 hw)
  rw [h.fB _ _ _ he, h.fN _ _ _ hb, h.fN _ _ _ hs]

/-! ## Addresses and the cell table -/

theorem cellEntryAddr (cell : Nat) : t.cellEntryAddr cell = s.cellEntryAddr cell := by
  rw [State.cellEntryAddr, h.hiveBase, State.cellEntryAddr]

theorem area (dpa : Nat) : t.area dpa = s.area dpa := by
  rw [State.area, h.memTop, h.hiveBase, State.area]

theorem locate (dpa : Nat) : t.locate dpa = s.locate dpa := by
  rw [State.locate, h.chanList, h.regions, State.locate]

theorem owinFor (ctx : Ctx) (line : Nat) : t.owinFor ctx line = s.owinFor ctx line := by
  have hmode : t.domeMode (domeOf ctx) = s.domeMode (domeOf ctx) := by obtain ⟨_, _, rfl, _⟩ := h; rfl
  rw [State.owinFor, h.area, hmode, h.tenantReady, h.owinOf, State.owinFor]

theorem cellShown {cell : Nat} {e : Word} (hs : s.cellShown cell e) : t.cellShown cell e := by
  obtain ⟨k, x, hlook, hrest⟩ := hs
  refine ⟨k, x, ?_, ?_⟩
  · rw [h.cellEntryAddr, h.lookup, hlook]
  · rw [h.cellEntryAddr]; exact hrest

theorem entryOpen {cell : Nat} (hs : s.entryOpen cell) : t.entryOpen cell := by
  rw [State.entryOpen, h.cellEntryAddr, h.locked, h.holders]
  exact hs

theorem gotWrite {o : Origin} {w : EngWr} (hs : s.gotWrite o w) : t.gotWrite o w := by
  rw [State.gotWrite, h.engAns]
  exact hs

theorem gotLine {o : Origin} {line : Nat} {l : Line} (hs : s.gotLine o line l) : t.gotLine o line l := by
  rw [State.gotLine, h.engAns]
  exact hs

theorem handleShown {o : Origin} {i e : Nat} (hs : s.handleShown o i e) : t.handleShown o i e := by
  obtain ⟨l, hl, hrest⟩ := hs
  refine ⟨l, ?_, ?_⟩
  · rw [h.handleBase]; exact h.gotLine hl
  · rw [h.handleBase]; exact hrest

/-! ## What the tables of translation hold -/

theorem unlisted (ch loc : Nat) : t.unlisted ch loc = s.unlisted ch loc := by
  have hdpa : t.dpaOf ch (loc / 64 * 64) = s.dpaOf ch (loc / 64 * 64) := by
    rw [State.dpaOf, h.chanList, h.regions, State.dpaOf]
  have hdef : t.metaDefault = s.metaDefault := by
    funext dpa
    rw [State.metaDefault, h.area, h.hiveBase, State.tenantCells, h.hiveBase, State.metaDefault, State.tenantCells]
  rw [State.unlisted, hdpa, hdef, State.chan, h.chans, State.unlisted, State.chan]

theorem storedGet (ch loc : Nat) : t.storedGet ch loc = s.storedGet ch loc := by
  have harray : t.arrayGet ch loc = s.arrayGet ch loc := by
    rw [State.arrayGet, h.unlisted, State.chan, h.chans, State.arrayGet, State.chan]
  rw [State.storedGet, harray, State.chan, h.chans, State.storedGet, State.chan]

theorem cellEntry (cell : Nat) : t.cellEntry cell = s.cellEntry cell := by
  have hpend : t.pendingLine = s.pendingLine := by
    funext ch loc line
    rw [State.pendingLine, State.chan, h.chans, h.home, State.pendingLine, State.chan]
  have hpeek : ∀ dpa, t.peekMeta dpa = s.peekMeta dpa := by
    intro dpa
    rw [State.peekMeta, h.lookup, h.locate, hpend, State.peekMeta]
    simp only [h.storedGet]
  rw [State.cellEntry, h.cellEntryAddr, hpeek, State.cellEntry]

/-- The function is unfolded as a whole: applied to its arguments, its match would have the kernel evaluate the entry. -/
theorem dome0Cell (dpa : Nat) : t.dome0Cell dpa = s.dome0Cell dpa := by
  have hfun : State.dome0Cell = State.dome0Cell := rfl
  conv at hfun => rhs; delta State.dome0Cell
  rw [hfun]
  beta_reduce
  rw [h.cellEntry]

theorem tableWord {o : Origin} {dpa e : Nat} (hs : s.tableWord o dpa e) : t.tableWord o dpa e := by
  obtain ⟨l, hl, he⟩ := hs
  exact ⟨l, h.gotLine hl, he⟩

theorem maps {o : Origin} {pva tbl d : Nat} {levels : List Nat} {r w : Bool} (hs : s.Maps o pva levels tbl d r w) :
    t.Maps o pva levels tbl d r w := by
  induction hs with
  | leaf h0 hw h1 h2 h3 h4 h5 h6 => exact .leaf ((h.dome0Cell _).trans h0) (h.tableWord hw) h1 h2 h3 h4 h5 h6
  | table h0 hw h1 h2 h3 h4 h5 h6 _ ih => exact .table ((h.dome0Cell _).trans h0) (h.tableWord hw) h1 h2 h3 h4 h5 h6 ih

theorem mapped {o : Origin} {ctx : Ctx} {pva dpa : Nat} {r w : Bool} (hs : s.mapped o ctx pva dpa r w) :
    t.mapped o ctx pva dpa r w := by
  obtain ⟨hen, e, he, hv, h1, h2, hmaps⟩ := hs
  refine ⟨(h.fB _ _ _ (by decide)).trans hen, e, ?_, hv, h1, h2, h.maps hmaps⟩
  rw [h.rootDir]
  exact h.tableWord he

theorem fwWroteLine {o : Origin} {ctx : Ctx} {pva n v : Nat} (hs : s.fwWroteLine o ctx pva n v) : t.fwWroteLine o ctx pva n v := by
  obtain ⟨hn, hfit, dpa, r, hmap, hwin, hgot⟩ := hs
  exact ⟨hn, hfit, dpa, r, h.mapped hmap, (h.owinFor _ _).trans hwin, h.gotWrite hgot⟩

end

end State.Looked

/-! ## Lists of cells -/

section
variable {s t : State} {cell k : Nat} {e : Word} {cells : List Nat}

theorem State.fwEntry_looked (h : s.cellShown cell e) : ∃ t : State, t.Looked s ∧ s.fwEntry cell = (t, .inl e) := by
  obtain ⟨key, heq⟩ := State.fwEntry_of_shown h
  exact ⟨_, .looksUp s key, heq⟩

/-- The entries of some cells lie in the cache. -/
def State.AllShown (s : State) (cells : List Nat) : Prop := ∀ z ∈ cells, ∃ e, s.cellShown z e

theorem State.AllShown.of_looked (h : s.AllShown cells) (ht : t.Looked s) : t.AllShown cells := fun z hz =>
  let ⟨e, he⟩ := h z hz
  ⟨e, ht.cellShown he⟩

theorem State.looked_cons (z : Nat) (l : List Nat) : s.looked (z :: l) = (s.fwEntry z).1.looked l := rfl

theorem State.looked_looked (h : s.AllShown cells) : (s.looked cells).Looked s := by
  induction cells generalizing s with
  | nil => exact .refl
  | cons z l ih =>
    obtain ⟨e, he⟩ := h z List.mem_cons_self
    obtain ⟨t, hl, heq⟩ := State.fwEntry_looked he
    have hrest : s.AllShown l := fun y hy => h y (List.mem_cons_of_mem _ hy)
    rw [State.looked_cons, heq]
    exact (ih (hrest.of_looked hl)).trans hl

/-- The reading of entries that a test lets pass. -/
theorem State.checkCells_of_shown {test : State → Nat → Word → Option Nat}
    (h : ∀ z ∈ cells, ∃ e, s.cellShown z e ∧ ∀ t, t.Looked s → test t z e = none) :
    s.checkCells test cells = (s.looked cells, none) := by
  suffices hgen : ∀ t : State, t.Looked s → t.checkCells test cells = (t.looked cells, none) from hgen s .refl
  induction cells with
  | nil => exact fun t _ => rfl
  | cons z l ih =>
    intro t ht
    obtain ⟨e, he, htest⟩ := h z List.mem_cons_self
    obtain ⟨v, hl, heq⟩ := State.fwEntry_looked (ht.cellShown he)
    rw [State.checkCells, State.looked_cons, heq]
    dsimp only
    rw [htest _ (hl.trans ht)]
    exact ih (fun y hy => h y (List.mem_cons_of_mem _ hy)) _ (hl.trans ht)

theorem State.fwLock_of_open (h : s.entryOpen cell) : s.fwLock k cell = (s, true) := by
  obtain ⟨hlock, hhold⟩ := h
  rw [State.fwLock]
  exact if_pos (by simp [hlock, hhold])

theorem State.fwLocks_of_open (h : ∀ z ∈ cells, s.entryOpen z) : State.fwLocks k cells s = (s, true) := by
  induction cells with
  | nil => rfl
  | cons z l ih =>
    rw [State.fwLocks, State.fwLock_of_open (h z List.mem_cons_self)]
    exact ih fun y hy => h y (List.mem_cons_of_mem _ hy)

end

end Sys2Proof.Machine
end

section
/-!
PROOFS. Comb maintenance, the loss of an agent, REKEY and handles as firmware works them (O36).
-/
namespace Sys2Proof.Machine

section
variable {s u : State} {k : Nat} {c : Cmd}

/-! ## Comb maintenance (R176, R185) -/

theorem State.combInval_starts (hp : c.pos = 0) (h : s.comb.inval = none) : s.combInval k c =
    ((s.putCmd k { c with pos := 1 }).fwInval 0 (BitVec.ofNat 16 (c.subject * 16 + c.asp)) (c.p 1 / 65536)
      ((c.p 1 + c.p 2 - 1) / 65536 - c.p 1 / 65536 + 1) (some k), .wait) := by
  rw [State.combInval, if_neg (by simp [hp, h])]

theorem State.combRootSet_starts {ctx : Ctx} {root : Nat} (hp : c.pos = 0) (hact : s.domeSt c.subject = .active)
    (hen : s.fB F.COMB_CTL_enable = true) (hctx : ctx = BitVec.ofNat 16 (c.subject * 16 + c.pb 1 0 4)) (hroot : root = c.pb 2 0 45)
    (hwin : s.owinFor 0 ((s.rootDir + 8 * ctx.toNat) / 64) = none)
    (hgot : s.gotWrite (.fw k) (fwWr 0 (s.rootDir + 8 * ctx.toNat) 8 (if root = 0 then 0 else root + 1)))
    (hinval : s.comb.inval = none) :
    s.combRootSet k c = ((s.putCmd k { c with pos := 2 }).fwInval 1 ctx 0 0 (some k), .wait) := by
  subst hctx hroot
  rw [State.combRootSet]
  simp only [hp, OfNat.zero_ne_ofNat, Nat.zero_ne_one, if_false, hact, ne_eq, not_true_eq_false, hen, Bool.not_true, Bool.false_eq_true,
    State.fwWrite1_of_gotWrite hwin hgot, hinval, Option.isSome_none]

theorem exec_combInvDone (s : State) : exec .combInvDone s = run s fun s => s.invDone := rfl

theorem State.invDone_of {v : Inval} {x : State} (h : s.comb.inval = some v) (hold : s.oldBeats v.gen = false)
    (hx : x = ({ s with comb := { s.comb with inval := none } } : State).fFlag F.COMB_INV_CMD_busy false) :
    s.invDone = match v.cmd with | some j => x.replied j stOK 0 | none => x := by
  rw [State.invDone, h]
  dsimp only
  rw [if_neg (by simp [hold]), hx]
  cases v.cmd <;> rfl

/-! ## AGENT_DOWN (R144) -/

theorem State.agentDownCmd_of {a : Nat} {w : State} (hp : c.pos = 0) (ha : a = c.pb 1 0 5)
    (hw : w = ({ s with home := { s.home with down := if s.agentDown a then s.home.down else s.home.down ++ [a],
                                              sweeps := s.home.sweeps ++ [⟨a, some k⟩] } } : State).putCmd k { c with pos := 1 }) :
    s.agentDownCmd k c = (w.downSnoops a, .wait) := by
  subst ha hw
  exact if_neg (by omega)

/-! ## REKEY (R313) -/

/-- The keys of a Dome once its STAGED one is taken. -/
theorem State.rekeyCmd_starts {d g : Nat} {w x : State} {slots : SMap KeySlot} (hp : c.pos = 0) (hact : s.domeSt c.subject = .active)
    (hd : d = c.subject) (h0 : d ≠ 0) (hlen : c.p 2 = 0 ∨ c.p 1 + c.p 2 ≤ s.tenantCells)
    (hg : (([0, 1] : List Nat).find? fun g => (s.keySlot d g).st == .staged) = some g) (hrun : ∀ y ∈ s.sec.rekeyRun, y.1 ≠ d)
    (hslots : slots = SMap.put (SMap.put s.sec.slots (d * 2 + g) { s.keySlot d g with st := .current }) (d * 2 + (1 - g))
      { s.keySlot d (1 - g) with st := .draining })
    (hw : w = { s with sec := { s.sec with slots := slots } }) (hold : w.rekeyCells d 0 0 ≠ [])
    (hx : x = (({ w with sec := { w.sec with old := SMap.store w.sec.old 0 d (w.rekeyCells d 0 0).length,
                                             rekeyRun := w.sec.rekeyRun ++ [(d, k)] } } : State).putCmd k { c with pos := 1 }))
    (hcells : x.rekeyCells d (c.p 1) (c.p 2) ≠ []) :
    s.rekeyCmd k c = (x.startSweeps k d (x.rekeyCells d (c.p 1) (c.p 2)), .wait) := by
  have hbusy : (s.sec.rekeyRun.any fun r => r.1 == d) = false := by simpa using hrun
  have hn : (w.rekeyCells d 0 0).length ≠ 0 := by simpa using hold
  have hempty : (x.rekeyCells d (c.p 1) (c.p 2)).isEmpty = false := by simpa using hcells
  have hfit : ¬ (c.p 2 ≠ 0 ∧ s.tenantCells < c.p 1 + c.p 2) := by omega
  subst hd
  rw [State.rekeyCmd, if_neg (by simp [hp]), if_neg (by omega), if_neg (by simp [h0, hact]), if_neg (by simp [hact]), if_neg hfit, hg,
    if_neg (by simp), hbusy, if_neg Bool.false_ne_true]
  dsimp only
  rw [← hslots, ← hw, if_neg hn]
  have hgo : ¬ ((x.rekeyCells c.subject (c.p 1) (c.p 2)).isEmpty && !(x.sec.sweeps.any fun y => y.cmd == k)) = true := by
    simp [hempty]
  subst hx hw
  exact if_neg hgo

/-! ## Handles (R281) -/

/-- The search passes over the entries in use. -/
theorem State.freeHandle_of_shown {o : Origin} {i old : Nat} (hi : s.handleShown o i old) (hfree : heValid old = false) :
    ∀ (fuel j : Nat), j ≤ i → i < j + fuel → (∀ l, j ≤ l → l < i → ∃ f, s.handleShown o l f ∧ heValid f = true) →
      State.freeHandle o fuel s j = (s, some (some (i, old))) := by
  intro fuel
  induction fuel with
  | zero => intro j hle hlt; omega
  | succ fuel ih =>
    intro j hle hlt hused
    rw [State.freeHandle]
    rcases Nat.lt_or_eq_of_le hle with hj | rfl
    · obtain ⟨f, hf, hv⟩ := hused j (Nat.le_refl j) hj
      rw [State.handleEntry_of_shown hf]
      dsimp only
      rw [if_pos hv]
      exact ih (j + 1) hj (by omega) fun l hl => hused l (by omega)
    · rw [State.handleEntry_of_shown hi]
      exact if_neg (by simp [hfree])

theorem State.handleCreate_of {w : State} {e : Word} {cells : List Nat} {i old v : Nat}
    (hc : cells = c.p 1 :: (List.range (c.p 2)).map (fun i => c.p 1 + i)) (hw : w = s.looked cells)
    (hb : s.behind k c [0x28, 0x29] = false) (he : s.cellShown (c.p 1) e) (hreach : w.reaches e c.subject = true)
    (hall : ∀ z ∈ cells, ∃ f, s.cellShown z f ∧ ceAllocated f = true ∧ ceGroup f = ceGroup e ∧ ceOwner f = ceOwner e)
    (hen : s.fB F.RYP_HANDLE_CTL_enable = true) (h1 : 1 ≤ i) (h2 : i ≤ 65535)
    (hused : ∀ j, 1 ≤ j → j < i → ∃ f, s.handleShown (.fw k) j f ∧ heValid f = true)
    (hi : s.handleShown (.fw k) i old) (hfree : heValid old = false)
    (hv : v = 1 + c.pb 3 0 2 * 2 + (if ceGroup e then 8 + (ceOwner e % 256) * 2 ^ 16 else 0) + c.subject * 16 + heGen old * 2 ^ 32 +
      c.p 1 * 2 ^ 64 + c.p 2 * 2 ^ 96)
    (hwin : s.owinFor 0 ((s.handleBase + 16 * i) / 64) = none) (hgot : s.gotWrite (.fw k) (fwWr 0 (s.handleBase + 16 * i) 16 v)) :
    s.handleCreate k c = (w, .done stOK (heGen old * 65536 + i)) := by
  obtain ⟨t, hl, hentry⟩ := State.fwEntry_looked he
  have hrest : ∀ z ∈ (List.range (c.p 2)).map (fun i => c.p 1 + i), ∃ f, t.cellShown z f ∧
      ∀ v : State, v.Looked t → (fun (_ : State) (_ : Nat) (f : Word) =>
        if ceAllocated f && ceGroup f == ceGroup e && ceOwner f == ceOwner e then none else some stDenied) v z f = none := by
    intro z hz
    obtain ⟨f, hf, ha, hgr, ho⟩ := hall z (by rw [hc]; exact List.mem_cons_of_mem _ hz)
    exact ⟨f, hl.cellShown hf, fun _ _ => if_pos (by simp [ha, hgr, ho])⟩
  have hcheck := State.checkCells_of_shown hrest
  have hlook : s.looked cells = t.looked ((List.range (c.p 2)).map fun i => c.p 1 + i) := by
    rw [hc, State.looked_cons, hentry]
  rw [← hlook, ← hw] at hcheck
  have hlw : w.Looked s := by
    rw [hw]
    exact State.looked_looked fun z hz => let ⟨f, hf, _⟩ := hall z hz; ⟨f, hf⟩
  have hreacht : t.reaches e c.subject = true := by rw [hl.reaches, ← hlw.reaches, hreach]
  have hsearch : State.freeHandle (.fw k) 65535 w 1 = (w, some (some (i, old))) :=
    State.freeHandle_of_shown (hlw.handleShown hi) hfree 65535 1 h1 (by omega) fun l hle hlt =>
      let ⟨f, hf, hfv⟩ := hused l hle hlt; ⟨f, hlw.handleShown hf, hfv⟩
  have hwrite : w.fwWrite1 (.fw k) 0 (w.handleBase + 16 * i) 16 v = (w, .ok 16) := by
    rw [hlw.handleBase]
    exact State.fwWrite1_of_gotWrite ((hlw.owinFor _ _).trans hwin) (hlw.gotWrite hgot)
  have henw : w.fB F.RYP_HANDLE_CTL_enable = true := (hlw.fB F.RYP_HANDLE_CTL_enable 0 0 (by decide)).trans hen
  rw [State.handleCreate, hb, if_neg Bool.false_ne_true, hentry]
  dsimp only
  rw [if_neg (by simp [hreacht]), hcheck]
  dsimp only
  rw [if_neg (by simp [henw])]
  -- With the write a variable the kernel reduces the search's match without evaluating it.
  obtain ⟨write, hdef⟩ : ∃ f, f = State.fwWrite1 := ⟨_, rfl⟩
  rw [← hdef] at hwrite ⊢
  rw [hsearch]
  dsimp only
  rw [← hv, hwrite]

section
variable {h : Nat} (hh : h = c.pb 1 0 32)
include hh

theorem State.handleDestroy_waited (hp : c.pos = 1) (ho : s.handleOpen h = false) : s.handleDestroy k c = (s, .done stOK 0) := by
  rw [State.handleDestroy, if_pos hp, ← hh, ho]
  rfl

theorem State.handleDestroy_ends {e : Nat} {w : State} (hp : c.pos = 0) (hn : h % 65536 ≠ 0)
    (hen : s.fB F.RYP_HANDLE_CTL_enable = true) (hb : s.behind k c [0x28, 0x29] = false) (he : s.handleShown (.fw k) (h % 65536) e)
    (hv : heValid e = true) (hgen : heGen e = h / 65536) (hd : heDome e = c.subject)
    (hwin : s.owinFor 0 ((s.handleBase + 16 * (h % 65536)) / 64) = none)
    (hgot : s.gotWrite (.fw k) (fwWr 0 (s.handleBase + 16 * (h % 65536)) 16 (setBits (e - e % 2) 32 16 (heGen e + 1))))
    (hw : w = s.forgetHandle (h % 65536)) : s.handleDestroy k c =
      if w.handleOpen h then (w.putCmd k { c with pos := 1 }, .wait) else (w, .done stOK 0) := by
  have hentry := State.handleEntry_of_shown he
  have hend : s.endHandle (.fw k) (h % 65536) e = (s, .ok 16) := State.fwWrite1_of_gotWrite hwin hgot
  rw [State.handleDestroy, ← hh, if_neg (show ¬ c.pos = 1 by omega), hb, if_neg Bool.false_ne_true, if_neg (by simp [hn, hen])]
  split
  case h_1 heq => simp [hentry] at heq
  case h_2 heq => simp [hentry] at heq
  case h_3 t f heq =>
    obtain ⟨rfl, rfl⟩ : s = t ∧ e = f := by simpa [hentry] using heq
    rw [if_neg (by simp [hv, hgen]), if_neg (not_not_intro hd), hend]
    dsimp only
    rw [← hw]

end

end

/-- Settles O36. -/
theorem maintenanceCommands : Obligations.MaintenanceCommands := by
  unfold Obligations.MaintenanceCommands
  intro s u k c r op hup hold hact hr hu
  have hrun : ∀ {i : Instr} {chk : Bool} {f : State → Cmd → State × Ctl} {x : State × Ctl},
      (exec i s = run s fun s => s.control k op chk f) → f u r = x → exec i s = .next ((State.ctlEnd k x).keep s) :=
    fun hi hx => hx ▸ State.exec_control hold hr hu hup hi (Or.inr hact)
  refine ⟨fun hpos => ⟨fun ho hinv => ?_, fun ho hen ctx root e hctx hroot he hwin hgot hinv => ?_, fun ho a w ha hw => ?_,
    fun ho d g w x slots hd h0 hlen hg hbusy hslots hw hcells hx hxcells => ?_,
    fun ho w e cells i old v hcells hw hb he hreach hall hen h1 h2 hused hi hfree hv hwin hgot => ?_,
    fun ho w h e hh hn hen hb he hv hgen hd hwin hgot hw => ?_⟩, fun hpos ho hopen => ?_, fun v hv hold x hx => ⟨fun hc => ?_, fun j hc => ?_⟩⟩
  · subst ho hr
    exact hrun (i := .combInval k) (chk := true) (f := fun s c => s.combInval k c) rfl
      (State.combInval_starts hpos (by subst hu; exact hinv))
  · subst ho hr he
    exact hrun (i := .combRootSet k) (chk := false) (f := fun s c => s.combRootSet k c) rfl
      (State.combRootSet_starts hpos (by subst hu; exact hact) hen hctx hroot hwin hgot hinv)
  · subst ho hr
    exact hrun (i := .agentDown k) (chk := true) (f := fun s c => s.agentDownCmd k c) rfl (State.agentDownCmd_of hpos ha hw)
  · subst ho hr
    exact hrun (i := .rekey k) (chk := false) (f := fun s c => s.rekeyCmd k c) rfl
      (State.rekeyCmd_starts hpos (by subst hu; exact hact) hd h0 hlen hg hbusy hslots hw hcells hx hxcells)
  · subst ho hr
    exact hrun (i := .handleCreate k) (chk := true) (f := fun s c => s.handleCreate k c) rfl
      (State.handleCreate_of hcells hw hb he hreach hall hen h1 h2 hused hi hfree hv hwin hgot)
  · subst ho hr
    have hrow := hrun (i := .handleDestroy k) (chk := true) (f := fun s c => s.handleDestroy k c) rfl
      (State.handleDestroy_ends (c := { c with st := .running }) hh hpos hn hen hb he hv hgen hd hwin hgot hw)
    exact ⟨fun hopen => by rw [hrow, hopen]; rfl, fun hopen => by rw [hrow, hopen]; rfl⟩
  · subst ho hr
    exact hrun (i := .handleDestroy k) (chk := true) (f := fun s c => s.handleDestroy k c) rfl
      (State.handleDestroy_waited rfl hpos hopen)
  · rw [exec_combInvDone, run_up _ hup, State.invDone_of hv hold hx, hc]
  · rw [exec_combInvDone, run_up _ hup, State.invDone_of hv hold hx, hc]

end Sys2Proof.Machine
end

section
/-!
PROOFS. Cells as firmware gives, takes, shares and migrates them, and the pins of cells (O35).
-/
namespace Sys2Proof.Machine

/-! ## What a change of a cell leaves of the commands -/

section
variable (s : State)

theorem State.dropCell_root (cell : Nat) : (s.dropCell cell).SameRoot s :=
  (foldl_root (fun (t : State) x => t.dropTx x) (fun t x => t.dropTx_root x) _ _).trans
    (foldl_root (fun (t : State) key => t.hDrop key false (.of 33)) (fun t key => t.hDrop_root key false (.of 33)) _ _)

theorem State.clearValid_root (cell : Nat) : (s.clearValid cell).SameRoot s :=
  .ite .refl ((State.metaPut_root _ _ _ _).trans (s.metaPut_root _ _ _))

theorem State.applyUpd_root (x : QUpd) : (s.applyUpd x).SameRoot s := by
  cases x <;> exact ⟨rfl, rfl, rfl⟩

theorem State.takeCells_q (d g : Nat) (cells : List Nat) : (s.takeCells d g cells).q = s.q := by
  have hfold := foldl_root (fun (t : State) x => ((t.dropCell x).clearValid x).putEntry x (newEntry d g))
    (fun t x => (State.putEntry_root _ _ _ _).trans ((State.clearValid_root _ x).trans (t.dropCell_root x))) cells s
  exact ((State.SameRoot.ite (State.applyUpd_root _ _) .refl).trans hfold).2.2

theorem State.report_root (x : QUpd) : (s.report x).SameRoot s :=
  .ite (s.applyUpd_root x) (.ite (s.originate_root _ _) ⟨rfl, rfl, rfl⟩)

theorem State.decOld_q (d : Nat) : (s.decOld d).q = s.q := by
  rw [State.decOld]
  dsimp only
  split
  · split <;> rfl
  · rfl

/-- A cell's entry, valid bits, cached lines and heat cleared. -/
theorem State.releaseCell_q (cell : Nat) (e : Word) : (s.releaseCell cell e).q = s.q := by
  have hclear : (((((s.putEntry cell 0).clearValid cell).dropCell cell).putHeat cell 0)).SameRoot s :=
    (State.putHeat_root _ _ _).trans ((State.dropCell_root _ _).trans ((State.clearValid_root _ _).trans (s.putEntry_root _ _ _)))
  rw [State.releaseCell]
  dsimp only
  generalize (((s.putEntry cell 0).clearValid cell).dropCell cell).putHeat cell 0 = t at hclear ⊢
  have hcount : ∀ (y : State) (d : Nat) (n : Int), (y.allocCount d n).q = y.q := fun y _ _ => (y.report_root _).2.2
  split
  · rw [State.decOld_q, hcount, State.fSet_q]
    exact hclear.2.2
  · rw [hcount, State.fSet_q]
    exact hclear.2.2

end

/-- What is done with a cell whose entry can be read. -/
def State.perEntry (f : State → Nat → Word → State) (t : State) (z : Nat) : State := (t.cellEntry z).elim t (f t z)

theorem State.foldl_perEntry_q {f : State → Nat → Word → State} (hf : ∀ t z e, (f t z e).q = t.q) (cells : List Nat) (s : State) :
    (cells.foldl (State.perEntry f) s).q = s.q := by
  refine foldl_keeps State.q (State.perEntry f) (fun t z => ?_) cells s
  rw [State.perEntry]
  cases t.cellEntry z with
  | none => rfl
  | some e => exact hf t z e

/-- A change of cells that keeps the commands, with nothing at the home, settles at once. -/
theorem State.ctlEnd_settle_of_q {s t : State} {k st res : Nat} {c : Cmd} (hk : s.cmd k = some c) (hq : t.q = s.q)
    (h : t.home.txs = []) : State.ctlEnd k (t.settle k st res) = t.replied k st res :=
  State.ctlEnd_settle (c := c) (by rw [State.cmd, hq]; exact hk) h

/-! ## CELL_ALLOC, CELL_FREE, SHARE_MOVE -/

section
variable {s w x : State} {k : Nat} {c : Cmd} {cells : List Nat} {a : QAns}

theorem State.allocCells_of (h : c.part.head? = some cells ∨ (c.part = [] ∧ s.chooseCells (c.p 1) (c.p 2) = some cells)) :
    s.allocCells c = some cells := by
  rw [State.allocCells]
  rcases h with h | ⟨h, hch⟩
  · cases hp : c.part with
    | nil => simp [hp] at h
    | cons l ls => simpa [hp] using h
  · rw [h]
    exact hch

theorem State.cellAlloc_of {g : Nat} (hp : c.pos = 0 ∨ c.pos = 2) (haff : bit (c.p 2) 5 = false)
    (hq : c.pos = 0 → s.queenAgrees a = true) (hw : w = if c.pos = 0 then (s.queenAsk a).1 else s)
    (hg : w.currentGen c.subject = some g) (hcells : w.allocCells c = some cells)
    (hx : x = w.putCmd k { c with pos := 2, part := [cells] }) (hshown : x.AllShown cells) (hopen : ∀ z ∈ cells, x.entryOpen z)
    (hwrote : x.fwWroteLine (.fw k) c.ctx (c.p 3) (4 * cells.length) (cells.zipIdx.foldl (fun a z => a + z.1 * 2 ^ (32 * z.2)) 0)) :
    s.cellAlloc k a c = ((x.looked cells).takeCells c.subject g cells).settle k stOK cells.length := by
  have hl : (x.looked cells).Looked x := State.looked_looked hshown
  have hask : (if c.pos = 0 then s.queenAsk a else (s, none)) = (w, none) := by
    rw [hw]
    split
    · exact State.queenAsk_of (hq ‹_›)
    · rfl
  have hcheck : x.checkCells (fun _ _ _ => none) cells = (x.looked cells, none) :=
    State.checkCells_of_shown fun z hz => let ⟨e, he⟩ := hshown z hz; ⟨e, he, fun _ _ => rfl⟩
  have hput := State.fwPut_of_wroteLine (fuel := 4 * cells.length / 64) (hl.fwWroteLine hwrote)
  have hlocks : State.fwLocks k cells (x.looked cells) = (x.looked cells, true) :=
    State.fwLocks_of_open fun z hz => hl.entryOpen (hopen z hz)
  obtain ⟨put, hdef⟩ : ∃ f, f = State.fwPut := ⟨_, rfl⟩
  rw [← hdef] at hput
  rw [State.cellAlloc, State.settled_none (by omega)]
  dsimp only
  rw [haff, Bool.false_and, if_neg Bool.false_ne_true, hask]
  dsimp only
  rw [hg, hcells]
  dsimp only
  rw [← hx, hcheck, ← hdef]
  dsimp only
  rw [hput]
  dsimp only
  rw [hlocks]

theorem State.cellFree_of (hp : c.pos = 0) (hc : cells = (List.range (c.p 2)).map fun i => c.p 1 + i)
    (hopen : ∀ z ∈ cells, s.entryOpen z)
    (hcells : ∀ z ∈ cells, ∃ e, s.cellShown z e ∧ (ownedBy e c.subject = true ∨ s.anchorOf e c.subject = true) ∧
      s.pageCell z = false ∧ ceMigrating e = false)
    (hsweep : ∀ z ∈ cells, ∀ y ∈ s.sec.sweeps, y.cell ≠ z) :
    s.cellFreeCmd k c = (cells.foldl (State.perEntry State.releaseCell) (s.looked cells)).settle k stOK 0 := by
  have hl : (s.looked cells).Looked s := State.looked_looked fun z hz => let ⟨e, he, _⟩ := hcells z hz; ⟨e, he⟩
  have hcheck : s.checkCells (fun (s : State) (cell : Nat) (e : Word) =>
      if !(ownedBy e c.subject || s.anchorOf e c.subject) then some stDenied
      else if s.pageCell cell || ceMigrating e then some stBusy else none) cells = (s.looked cells, none) := by
    refine State.checkCells_of_shown fun z hz => ?_
    obtain ⟨e, he, hown, hpage, hmig⟩ := hcells z hz
    refine ⟨e, he, fun t ht => ?_⟩
    rw [ht.anchorOf, ht.pageCell, if_neg (by rcases hown with h | h <;> simp [h]), if_neg (by simp [hpage, hmig])]
  have hidle : (cells.any fun z => (s.looked cells).sec.sweeps.any fun w => w.cell == z) = false := by
    rw [hl.sec]
    simpa [List.any_eq_false] using hsweep
  have hlocks : State.fwLocks k cells (s.looked cells) = (s.looked cells, true) :=
    State.fwLocks_of_open fun z hz => hl.entryOpen (hopen z hz)
  rw [State.cellFreeCmd, State.settled_none (by omega), ← hc]
  dsimp only
  rw [hcheck]
  dsimp only
  rw [hidle, if_neg Bool.false_ne_true, hlocks]
  refine congrArg (fun f : State → Nat → State => (cells.foldl f (s.looked cells)).settle k stOK 0) (funext fun t => funext fun z => ?_)
  rw [State.perEntry]
  cases t.cellEntry z <;> rfl

theorem State.shareMove_of {g own : Nat} {out : Bool} {gr : Group} (hp : c.pos = 0)
    (hc : cells = (List.range (c.p 2)).map fun i => c.p 1 + i) (hg : g = c.pb 3 0 8) (hout : out = bit (c.p 3) 8)
    (hq : s.queenAgrees a = true) (hw : w = (s.queenAsk a).1.putCmd k { c with pos := 2 })
    (hgr : SMap.find w.domes.groups g = some gr) (hanchor : gr.anchor = c.subject) (hopen : ∀ z ∈ cells, w.entryOpen z)
    (hcells : ∀ z ∈ cells, ∃ e, w.cellShown z e ∧ w.pageCell z = false ∧
      (if out = true then ceAllocated e = true ∧ ceGroup e = true ∧ ceOwner e % 256 = g else ownedBy e c.subject = true))
    (hown : own = (if out then c.subject else g + 2 ^ 12)) :
    s.shareMove k a c = (cells.foldl
      (State.perEntry fun (t : State) z e => t.putEntry z (BitVec.ofNat 32 (setBits e.toNat 0 13 own))) (w.looked cells)).settle k
        stOK 0 := by
  have hl : (w.looked cells).Looked w := State.looked_looked fun z hz => let ⟨e, he, _⟩ := hcells z hz; ⟨e, he⟩
  have hcheck : w.checkCells (fun (s : State) (cell : Nat) (e : Word) =>
      let mine := if out then ceAllocated e && ceGroup e && ceOwner e % 256 == g else ownedBy e c.subject
      if !mine then some stDenied else if s.pageCell cell then some stBusy else none) cells = (w.looked cells, none) := by
    refine State.checkCells_of_shown fun z hz => ?_
    obtain ⟨e, he, hpage, hmine⟩ := hcells z hz
    refine ⟨e, he, fun t ht => ?_⟩
    dsimp only
    rw [ht.pageCell, hpage]
    cases out with
    | true => simp_all
    | false => simp_all
  have hlocks : State.fwLocks k cells (w.looked cells) = (w.looked cells, true) :=
    State.fwLocks_of_open fun z hz => hl.entryOpen (hopen z hz)
  rw [State.shareMove, State.settled_none (by omega), ← hc, ← hg, ← hout, ← hown]
  dsimp only
  rw [if_pos hp, State.queenAsk_of hq]
  dsimp only
  rw [← hw, hgr]
  dsimp only
  rw [if_neg (by simp [hanchor]), hcheck]
  dsimp only
  rw [hlocks]
  refine congrArg (fun f : State → Nat → State => (cells.foldl f (w.looked cells)).settle k stOK 0) (funext fun t => funext fun z => ?_)
  rw [State.perEntry]
  cases t.cellEntry z <;> rfl

end

/-! ## Pins (R114, R115) -/

section
variable {s : State} {key line d k : Nat} {x : HLine}

/-- Marking a cached line as pinned changes what a lookup gives for that line only. -/
theorem State.lookup_pinMark (h : s.honey.lookup line = some (key, x)) (l : Nat) :
    (s.pinMark key x).honey.lookup l = (s.honey.lookup l).map fun y => if y.1 = key then (key, { x with pinned := true }) else y := by
  have hkey : SMap.find s.honey.lines key = some x := by
    obtain ⟨w, -, hw⟩ := List.exists_of_findSome?_eq_some h
    cases hf : SMap.find s.honey.lines (honeySet line * 16 + w) with
    | none => simp [hf] at hw
    | some y =>
      rw [hf] at hw
      dsimp only at hw
      split at hw
      · obtain ⟨rfl, rfl⟩ := by simpa using hw
        exact hf
      · cases hw
  rw [Honey.lookup, Honey.lookup, List.map_findSome?]
  dsimp only [State.pinMark]
  congr 1
  funext w
  dsimp only [Function.comp]
  by_cases hw : honeySet l * 16 + w = key
  · rw [hw, SMap.find_put_same, hkey]
    dsimp only
    split <;> simp
  · rw [SMap.find_put_other _ _ _ _ hw]
    cases SMap.find s.honey.lines (honeySet l * 16 + w) with
    | none => rfl
    | some y =>
      dsimp only
      split <;> simp [hw]

theorem State.linePinned_of (h : s.honey.lookup line = some (key, x)) : s.linePinned line = x.pinned := by
  rw [State.linePinned, h]
  rfl

/-- A cached line that a pin converts in place, or that is pinned already. -/
def State.Pinnable (s : State) (d line : Nat) : Prop :=
  ∃ n x, s.honey.lookup line = some (n, x) ∧ (x.pinned = true ∨ (s.locked line = false ∧ bit (s.wayMask d) (n % 16) = true))

theorem State.pinnable_pinMark (h : s.honey.lookup line = some (key, x)) {l : Nat} (hl : s.Pinnable d l) :
    (s.pinMark key x).Pinnable d l := by
  obtain ⟨n, y, hy, hfree⟩ := hl
  have hmark := State.lookup_pinMark h l
  rw [hy, Option.map_some] at hmark
  split at hmark
  · exact ⟨_, _, hmark, Or.inl rfl⟩
  · exact ⟨_, _, hmark, hfree⟩

theorem State.linePinned_pinMark (h : s.honey.lookup line = some (key, x)) {l : Nat} (hl : s.linePinned l = true) :
    (s.pinMark key x).linePinned l = true := by
  rw [State.linePinned, Option.any_eq_true] at hl
  obtain ⟨y, hy, hp⟩ := hl
  rw [State.linePinned, State.lookup_pinMark h, hy, Option.map_some, Option.any_some]
  split
  · rfl
  · exact hp

/-- `t` differs from `s` in nothing but lines of the cache that are pinned now. -/
structure State.PinnedFrom (t s : State) (d : Nat) : Prop where
  only : ∃ lines, t = { s with honey := { s.honey with lines := lines } }
  pinnable : ∀ l, s.Pinnable d l → t.Pinnable d l
  pinned : ∀ l, s.linePinned l = true → t.linePinned l = true

theorem State.PinnedFrom.refl : s.PinnedFrom s d := ⟨⟨s.honey.lines, rfl⟩, fun _ h => h, fun _ h => h⟩

theorem State.PinnedFrom.trans {u t : State} (h : u.PinnedFrom t d) (h' : t.PinnedFrom s d) : u.PinnedFrom s d := by
  obtain ⟨⟨a, ha⟩, hb, hc⟩ := h
  obtain ⟨⟨a', ha'⟩, hb', hc'⟩ := h'
  exact ⟨⟨a, by rw [ha, ha']⟩, fun l hl => hb l (hb' l hl), fun l hl => hc l (hc' l hl)⟩

theorem State.pinLine_of (h : s.Pinnable d line) :
    ∃ t, s.pinLine k line d = (t, none) ∧ t.PinnedFrom s d ∧ t.linePinned line = true := by
  obtain ⟨n, y, hy, hfree⟩ := h
  by_cases hp : y.pinned = true
  · refine ⟨s, ?_, .refl, by rw [State.linePinned_of hy, hp]⟩
    rw [State.pinLine, hy]
    exact if_pos (by simp [hp])
  · obtain ⟨hlock, hbit⟩ := hfree.resolve_left hp
    refine ⟨s.pinMark n y, ?_, ⟨⟨_, rfl⟩, fun l hl => State.pinnable_pinMark hy hl, fun l hl => State.linePinned_pinMark hy hl⟩, ?_⟩
    · rw [State.pinLine, hy]
      dsimp only
      rw [if_neg (by simp [hp, hlock]), if_pos hbit]
    · rw [State.linePinned, State.lookup_pinMark hy, hy, Option.map_some, if_pos rfl]
      rfl

theorem State.pinLines_of {lines : List Nat} (h : ∀ l ∈ lines, s.Pinnable d l) :
    ∃ t, State.pinLines k d lines s = (t, none) ∧ t.PinnedFrom s d ∧ ∀ l ∈ lines, t.linePinned l = true := by
  induction lines generalizing s with
  | nil => exact ⟨s, rfl, .refl, fun l hl => absurd hl List.not_mem_nil⟩
  | cons l ls ih =>
    obtain ⟨t, ht, hfrom, hpin⟩ := State.pinLine_of (k := k) (h l List.mem_cons_self)
    obtain ⟨u, hu, hfrom', hpin'⟩ := ih fun j hj => hfrom.pinnable j (h j (List.mem_cons_of_mem _ hj))
    refine ⟨u, ?_, hfrom'.trans hfrom, fun j hj => ?_⟩
    · rw [State.pinLines, ht]
      exact hu
    · rcases List.mem_cons.1 hj with rfl | hj
      · exact hfrom'.pinned _ hpin
      · exact hpin' j hj

theorem State.PinnedFrom.entryOpen {t : State} {cell : Nat} (h : t.PinnedFrom s d) (ho : s.entryOpen cell) : t.entryOpen cell := by
  obtain ⟨⟨lines, rfl⟩, -, -⟩ := h
  exact ho

theorem State.pinCmd_of {w y : State} {c : Cmd} {cell : Nat} {e : Word} {pins : List (Nat × Nat)} {v : State} (hc : cell = c.p 1)
    (hb : s.behind k c [0x14] = false) (he : s.fwEntry cell = (w, .inl e)) (hreach : w.reaches e c.subject = true)
    (hopen : w.entryOpen cell) (hpin : cePinned e = false) (hbusy : w.pinBusy cell c.subject e = false)
    (hkey : w.keyLive (cell * 1024) e = true) (hchan : w.cellChans cell = none) (hlines : ∀ l ∈ cellLines cell, w.Pinnable c.subject l)
    (hv : v = (State.pinLines k c.subject (cellLines cell) w).1) (hpins : pins = v.honey.pins ++ [(cell, c.subject)])
    (hy : y = ({ v with honey := { v.honey with pins := pins } } : State).fSet F.HONEY_PIN_CTL_pinned_cells pins.length) :
    s.pinCmd k c = (y.putEntry cell (e ||| 0x10000), .done stOK 0) := by
  subst hc
  obtain ⟨t, ht, hfrom, hall⟩ := State.pinLines_of (k := k) hlines
  obtain rfl : v = t := by rw [hv, ht]
  have hpinned : (cellLines (c.p 1)).all v.linePinned = true := List.all_eq_true.2 hall
  have hlock : v.fwLock k (c.p 1) = (v, true) := State.fwLock_of_open (hfrom.entryOpen hopen)
  obtain ⟨lines, hdef⟩ : ∃ f, f = State.pinLines := ⟨_, rfl⟩
  rw [← hdef] at ht
  rw [State.pinCmd, hb, if_neg Bool.false_ne_true, he]
  dsimp only
  rw [if_neg (by simp [hreach]), if_neg (by simp [hpin]), if_neg (by simp [hbusy]), if_neg (by simp [hkey]), hchan, ← hdef]
  dsimp only
  rw [ht]
  dsimp only
  rw [if_neg (by simp [hpinned]), hlock]
  dsimp only
  rw [← hpins, ← hy]

theorem State.unpinCmd_of {w v : State} {c : Cmd} {cell : Nat} {e : Word} {pins : List (Nat × Nat)} (hc : cell = c.p 1)
    (he : s.fwEntry cell = (w, .inl e)) (hreach : w.reaches e c.subject = true) (hopen : w.entryOpen cell) (hpin : cePinned e = true)
    (hv : v = (w.putEntry cell (e &&& ~~~0x10000)).unpinLines cell) (hpins : pins = v.honey.pins.filter fun p => p.1 != cell) :
    s.unpinCmd k c = (({ v with honey := { v.honey with pins := pins } } : State).fSet F.HONEY_PIN_CTL_pinned_cells pins.length,
      .done stOK 0) := by
  subst hc
  rw [State.unpinCmd, he]
  dsimp only
  rw [if_neg (by simp [hreach]), if_neg (by simp [hpin]), State.fwLock_of_open hopen]
  dsimp only
  rw [← hv, ← hpins]

end

/-! ## Migration (R124, R125) -/

section
variable {s w v x y : State} {k : Nat} {c : Cmd} {cell dst slot : Nat} {e z : Word} {a : QAns} {dstOk reach : Bool}

/-- A cell of this node is to be copied to another cell of this node. -/
theorem State.migrateCmd_starts (hp : c.pos = 0) (hc : cell = c.p 1) (hdst : dst = c.pb 2 16 29) (hten : cell < s.tenantCells)
    (he : s.fwEntry cell = (w, .inl e)) (hreach : w.reaches e c.subject = true) (hnode : c.pb 2 45 6 = w.pwr.node)
    (hdten : dst < w.tenantCells) (hv : v = w.putCmd k { c with pos := 2 }) (hz : v.fwEntry dst = (x, .inl z))
    (hall : ceAllocated z = true) (hgrp : ceGroup z = ceGroup e) (hown : ceOwner z = ceOwner e)
    (hslot : SMap.firstFree x.honey.mig 16 = some slot) (hpin : cePinned e = false) (hmig : ceMigrating e = false)
    (hpage : x.pageCell cell = false) (hdpage : x.pageCell dst = false) (hopen : x.entryOpen cell)
    (hy : y = ((x.putEntry cell (e ||| 0x20000)).clearAns (.fw k)).dropOrigin (.fw k)) :
    s.migrateCmd k a dstOk reach c = (((y.putMig slot ⟨cell, c.pb 2 45 6, dst, y.keyDome e, k, .copyWait, 0, 0, 0, 0⟩).putCmd k
      { c with pos := 1 }).migAsk slot, .wait) := by
  subst hc hdst
  have hvp : v.pwr = w.pwr := by rw [hv]; rfl
  have hvten : v.tenantCells = w.tenantCells := by rw [hv]; rfl
  rw [State.migrateCmd, if_neg (by omega), if_neg (by omega), he]
  dsimp only
  rw [if_neg (by simp [hreach]), if_pos (by simp [hnode])]
  dsimp only
  rw [← hv, if_neg (by simp [hnode, hvp]), if_pos (by rw [hnode, hvp]), if_neg (by rw [hvten]; omega), hz]
  dsimp only
  rw [if_pos (by simp [hall, hgrp, hown])]
  dsimp only
  rw [hslot]
  dsimp only
  rw [if_neg (by simp [hpin, hmig, hpage, hdpage]), State.fwLock_of_open hopen]
  dsimp only
  rw [← hy]

variable {n : Nat} {m : MigSlot} (hc : cell = c.p 1)
include hc

theorem State.migrateEnd_ends (hs : s.slotOf cell = some (n, m)) (hst : m.stage = .mirror) (hm : m.cmd = 20000)
    (hopen : s.entryOpen cell) : s.migrateEnd k c = (s.dropMig n m, .done stOK 0) := by
  subst hc
  rw [State.migrateEnd, hs]
  dsimp only
  rw [if_neg (by simp [hst, hm]), State.fwLock_of_open hopen]

theorem State.migrateEnd_busy (hs : s.slotOf cell = some (n, m)) (h : m.stage ≠ .mirror ∨ m.cmd ≠ 20000) :
    s.migrateEnd k c = (s, .done stBusy 0) := by
  subst hc
  rw [State.migrateEnd, hs]
  dsimp only
  exact if_pos (by simpa using h)

theorem State.migrateEnd_aborted {p : Nat × Nat} (hs : s.slotOf cell = none)
    (h : (s.honey.migAborted.find? fun x => x.1 == cell) = some p) : s.migrateEnd k c =
      ({ s with honey := { s.honey with migAborted := s.honey.migAborted.filter fun y => y.1 != cell } }, .done p.2 0) := by
  subst hc
  rw [State.migrateEnd, hs]
  dsimp only
  rw [h]

theorem State.migrateEnd_none (hs : s.slotOf cell = none) (h : ∀ x ∈ s.honey.migAborted, x.1 ≠ cell) :
    s.migrateEnd k c = (s, .done stFormat 0) := by
  subst hc
  have hno : (s.honey.migAborted.find? fun x => x.1 == c.p 1) = none := List.find?_eq_none.2 fun x hx => by simpa using h x hx
  rw [State.migrateEnd, hs]
  dsimp only
  rw [hno]

end

/-- Settles O35: what firmware looks up changes nothing that it asks of the state next. -/
theorem cellCommands : Obligations.CellCommands := by
  refine ⟨fun s u k c r op hup hold hact hr hu => ?_, fun s u k c r op hup hold hact hpos hr hu => ?_⟩
  · have hrun : ∀ {i : Instr} {chk : Bool} {f : State → Cmd → State × Ctl} {x : State × Ctl},
        (exec i s = run s fun s => s.control k op chk f) → f u r = x → exec i s = .next ((State.ctlEnd k x).keep s) :=
      fun hi hx => hx ▸ State.exec_control hold hr hu hup hi (Or.inr hact)
    have hk : u.cmd k = some r := by rw [hu]; exact State.cmd_putCmd _ _ _
    refine ⟨fun ho a w x y g cells haff hp hq hw hg hpart hx hshown hopen hwrote hy htx => ?_, fun hpos cells hcells hopen =>
      ⟨fun ho v hall hsweep hv htx => ?_, fun ho a w v g own out gr hg hout hq hw hgr hanchor hwopen hall hown hv htx => ?_⟩⟩
    · have hxk : ∃ z, x.cmd k = some z := ⟨_, by rw [hx]; exact State.cmd_putCmd _ _ _⟩
      obtain ⟨z, hz⟩ := hxk
      have hyq : y.q = x.q := by rw [hy, State.takeCells_q, (State.looked_looked hshown).q]
      subst ho hr
      rw [hrun (i := .cellAlloc k a) (chk := true) (f := fun s c => s.cellAlloc k a c) rfl
        (State.cellAlloc_of hp haff hq hw hg (State.allocCells_of hpart) hx hshown hopen hwrote)]
      rw [← State.ctlEnd_settle_of_q hz hyq htx, hy]
      rfl
    · have hstep : v = cells.foldl (State.perEntry State.releaseCell) (u.looked cells) :=
        hv.trans (congrArg (fun f : State → Nat → State => cells.foldl f (u.looked cells)) (funext fun t => funext fun z => by
          rw [State.perEntry]
          cases t.cellEntry z <;> rfl))
      have hl : (u.looked cells).Looked u := State.looked_looked fun z hz => let ⟨e, he, _⟩ := hall z hz; ⟨e, he⟩
      have hvq : v.q = u.q := by rw [hstep, State.foldl_perEntry_q fun t z e => t.releaseCell_q z e, hl.q]
      subst ho hr
      rw [hrun (i := .cellFree k) (chk := true) (f := fun s c => s.cellFreeCmd k c) rfl
        (State.cellFree_of hpos hcells hopen hall (by rw [hu]; exact hsweep)), ← hstep]
      rw [State.ctlEnd_settle_of_q hk hvq htx]
    · have hstep : v = cells.foldl
          (State.perEntry fun (t : State) z e => t.putEntry z (BitVec.ofNat 32 (setBits e.toNat 0 13 own))) (w.looked cells) :=
        hv.trans (congrArg (fun f : State → Nat → State => cells.foldl f (w.looked cells)) (funext fun t => funext fun z => by
          rw [State.perEntry]
          cases t.cellEntry z <;> rfl))
      have hl : (w.looked cells).Looked w := State.looked_looked fun z hz => let ⟨e, he, _⟩ := hall z hz; ⟨e, he⟩
      have hvq : v.q = w.q := by
        rw [hstep, State.foldl_perEntry_q fun t z e => (t.putEntry_root z _ _).2.2, hl.q]
      have hwk : ∃ z, w.cmd k = some z := ⟨_, by rw [hw]; exact State.cmd_putCmd _ _ _⟩
      obtain ⟨z, hz⟩ := hwk
      subst ho hr
      rw [hrun (i := .shareMove k a) (chk := true) (f := fun s c => s.shareMove k a c) rfl
        (State.shareMove_of hpos hcells hg hout hq hw hgr hanchor hwopen hall hown), ← hstep]
      rw [State.ctlEnd_settle_of_q hz hvq htx]
  · have hrun : ∀ {i : Instr} {chk : Bool} {f : State → Cmd → State × Ctl} {x : State × Ctl},
        (exec i s = run s fun s => s.control k op chk f) → f u r = x → exec i s = .next ((State.ctlEnd k x).keep s) :=
      fun hi hx => hx ▸ State.exec_control hold hr hu hup hi (Or.inr hact)
    refine ⟨fun w e he hw hreach hopen => ?_, fun ho => ⟨fun n m hs => ⟨fun hst hm ho' => ?_, fun h => ?_⟩, fun hs => ⟨fun p hp => ?_,
      fun h => ?_⟩⟩⟩
    · obtain ⟨t, hlook, hentry⟩ := State.fwEntry_looked he
      obtain rfl : w = t := by rw [hw, hentry]
      refine ⟨fun ho hb hpin hbusy hkey hchan hlines x y pins hx hpins hy => ?_, fun ho hpin x pins hx hpins => ?_,
        fun ho a dstOk reach v x y z slot hten hnode hdten hv hz hx hall hgrp hown hslot hpin hmig hpage hdpage hy => ?_⟩
      · subst ho hr
        exact hrun (i := .pin k) (chk := true) (f := fun s c => s.pinCmd k c) rfl
          (State.pinCmd_of (c := { c with st := .running }) rfl hb hentry hreach hopen hpin hbusy hkey hchan hlines hx hpins hy)
      · subst ho hr
        exact hrun (i := .unpin k) (chk := true) (f := fun s c => s.unpinCmd k c) rfl
          (State.unpinCmd_of (c := { c with st := .running }) rfl hentry hreach hopen hpin hx hpins)
      · obtain ⟨t, hlook', hentry'⟩ := State.fwEntry_looked hz
        obtain rfl : x = t := by rw [hx, hentry']
        have hvopen : v.entryOpen (c.p 1) := by rw [hv]; exact hopen
        subst ho hr
        exact hrun (i := .migrate k a dstOk reach) (chk := true) (f := fun s c => s.migrateCmd k a dstOk reach c) rfl
          (State.migrateCmd_starts (c := { c with st := .running }) hpos rfl rfl hten hentry hreach hnode hdten hv hentry' hall hgrp
            hown hslot hpin hmig hpage hdpage (hlook'.entryOpen hvopen) hy)
    · subst ho hr
      rw [hrun (i := .migrateEnd k) (chk := true) (f := fun s c => s.migrateEnd k c) rfl
        (State.migrateEnd_ends (cell := c.p 1) (c := { c with st := .running }) rfl hs hst hm ho'), State.ctlEnd]
    · subst ho hr
      rw [hrun (i := .migrateEnd k) (chk := true) (f := fun s c => s.migrateEnd k c) rfl
        (State.migrateEnd_busy (cell := c.p 1) (c := { c with st := .running }) rfl hs h), State.ctlEnd]
    · subst ho hr
      rw [hrun (i := .migrateEnd k) (chk := true) (f := fun s c => s.migrateEnd k c) rfl
        (State.migrateEnd_aborted (cell := c.p 1) (c := { c with st := .running }) rfl hs hp), State.ctlEnd]
    · subst ho hr
      rw [hrun (i := .migrateEnd k) (chk := true) (f := fun s c => s.migrateEnd k c) rfl
        (State.migrateEnd_none (cell := c.p 1) (c := { c with st := .running }) rfl hs h), State.ctlEnd]

end Sys2Proof.Machine
end
